-- ==== Sys2Proof/Word.lean ====
section
/-!
DEFINITION. The word types of the Rexia AQ-16 and their plainest arithmetic.
-/

namespace Sys2Proof

/-- One byte: the unit of the porch, the slots, the rings' entries and the NVM (R6). -/
abbrev Byte := BitVec 8
/-- 16-bit words: flag words, DETAIL, ATTN. -/
abbrev W16 := BitVec 16
/-- 24-bit words: lane values and SAMPLE VALUE. -/
abbrev W24 := BitVec 24
/-- 32-bit words: frame numbers and counters. -/
abbrev W32 := BitVec 32
/-- 64-bit words: LT, seconds, CIC registers, source masks. -/
abbrev W64 := BitVec 64
/-- An IEEE 754 single precision number, as its 32 bits. -/
abbrev F32 := BitVec 32

/-- One of the sixteen ports P0 to P15. -/
abbrev PortId := Fin 16
/-- One of the 64 filter lanes. -/
abbrev LaneId := Fin 64
/-- One of the 64 fault sources of Table 19-1. -/
abbrev Source := Fin 64
/-- One of the four mailbox slots. -/
abbrev SlotId := Fin 4

end Sys2Proof
end

