-- ==== Sys2Proof/Syntax.lean ====
section
/-!
DEFINITION. The commands of the block: one constructor of Instr per row of spec/opcode_table.json,
and the operand types that carry what a command brings in from outside (a sampled input, an analog
measurement, a bus byte). A mailbox command's operand is the slot that holds its request: its
fields are the bytes of that slot, as Tables 16-5 to 17-9 lay them out.
-/

namespace Sys2Proof

/-- The two converters (R159). -/
inductive Conv where
  | warp
  | weft
deriving DecidableEq, Repr

/-- What R18 watches: the rails VAP, VAN, VHT and the reference. -/
inductive Rail where
  | vap
  | van
  | vht
  | ref
deriving DecidableEq, Repr

/-- The two network time domains (R378). -/
inductive Dom where
  | ta
  | tb
deriving DecidableEq, Repr

/-- The targets of electrical self-calibration (Table 11-4). -/
inductive CalTarget where
  | port (p : PortId)
  | warp
  | weft
  | ref
deriving DecidableEq, Repr

/-- The two periodic self-tests of Table 11-7 beside that of the converters. -/
inductive SelfTest where
  | reference
  | chargeStandard
deriving DecidableEq, Repr

/-- The limit a heater driver runs at (R111, notice 0x0301). -/
inductive HeatLimit where
  | current
  | power
  | vmax
deriving DecidableEq, Repr

/-- What one heater driver's sense converter measured in a tick (R116). -/
structure HeatSample where
  port : PortId
  /-- VHS in microvolts. -/
  vhsUv : Nat
  /-- IHT in nanoamperes. -/
  ihtNa : Nat
deriving DecidableEq, Repr

/-- What the Rexia samples in one tick (R35, R275, R280) beside the events that are commands of
their own. -/
structure TickIn where
  /-- A rising edge on FSYNC was caught since the last sampling instant. -/
  fsync : Bool
  /-- VDD in millivolts and the current into it in microamperes (R275). -/
  vddMv : Nat
  iddUa : Nat
  /-- The readings of T0 to T8 in 0.01 degC; none where the converter delivered no reading. -/
  temps : Vector (Option Int) 9
  /-- Out of regulation: bit 0 VAP, 1 VAN, 2 VHT, 3 the reference (R18). -/
  railBad : BitVec 4
  /-- Bit n: a pin of port n outside its limits of Table 3-8. -/
  pinBad : BitVec 16
  /-- Bit n: the ring driver of port n at its current limit (Table 3-8). -/
  ringLim : BitVec 16
  /-- Bit n: CE of port n at its potential or current limit (R91). -/
  ceLim : BitVec 16
  /-- Bit n: the detector of fault source n reports its condition (R402). -/
  detect : BitVec 64
  /-- The firmware ran and serviced the watchdog in this tick. -/
  reeveRuns : Bool
  /-- REFCLK measured within 200 ppm of 30.72 MHz (R480). -/
  refclkGood : Bool
  /-- The heater drivers' measurements of this tick (R116). -/
  heaters : List HeatSample
  /-- Bit n: the heater driver of port n runs at its current, power or V_max limit in this tick (R132). -/
  heatLim : BitVec 16 := 0
deriving DecidableEq, Repr

/-- A conversion as it completes (R168): the converter, the entry of its table (the twill entry
whatever the number in twill), the last clock of the conversion in the tick in which it completes, the
voltage in volt that the entry's signal or channel brings to the converter's input path (of an internal
channel its own voltage, before the scale of Table 7-3; of none effect where the Rexia puts a swatch or the
zero node in place of the input), the converter's own error in LSB before its trims (offset, gain and
noise), and, for a current signal, the packets counted so far (R94). -/
structure ConvIn where
  conv : Conv
  entry : Fin 32
  clock : Fin 960
  v : Rat
  err : Rat
  np : Int
deriving DecidableEq, Repr

/-- What an electrical self-calibration measured beside what it forms from conversions (R257): of a port, the
offset in microvolt and the gain error in ppm of its voltage path and the error of its potentiostat's bias
code in microvolt; of the reference, its correction offset in ppm. -/
structure ElecMeas where
  offset : Rat
  gainPpm : Rat
  biasErr : Rat
  ref : Rat
deriving DecidableEq, Repr

/-- How an attention attempt ends (R337, R339). -/
inductive AttemptEnd where
  | acknowledged
  | notAcknowledged
  | sclTimeout
  | arbitrationLost
deriving DecidableEq, Repr

/-- A read transaction of n bytes from byte `first` of a register of k bytes, or from the register pointer (R323,
R324). -/
structure RegRead (k : Nat) where
  first : Option (Fin k)
  n : Nat
deriving DecidableEq, Repr

/-- The commands of spec/opcode_table.json, in the table's order. A read of the porch is one read transaction of n
bytes: with `first` the host has set the register pointer to that byte of the register, sluice or live values of the
row; with none it reads on from the pointer as the last transaction left it, wherever that is (R323). -/
inductive Instr where
  /-- POWER_ON (R449): VDD rises above the power-on threshold with RESET_N high and the device leaves OFF to begin BOOT. -/
  | powerOn
  /-- BROWNOUT (R449): VDD falls below the brownout threshold; the device enters OFF, outputs turn off and the clamps close in that tick. -/
  | brownout (vddMv : Nat)
  /-- RESET_N_LOW (R451): A falling edge on RESET_N puts every output in its reset state and closes the clamps within 1 µs, except in LATCHED or OFF. -/
  | resetNLow
  /-- RESET_N_RELEASE (R23): The rising edge of RESET_N starts BOOT from any powered state except LATCHED. -/
  | resetNRelease
  /-- BOOT_PORCH_ANSWER (R23): 1 ms into BOOT the porch begins to acknowledge its address and STATE.DEV reads BOOT. -/
  | bootPorchAnswer
  /-- BOOT_END (R23): BOOT ends: patches and the newest valid bolt are applied, VAP and VAN come up, and the device enters READY or HELD. -/
  | bootEnd
  /-- BOOT_TIMEOUT (R454): BOOT has not ended 15 ms after its start, so the GRAVE source BOOT_TO is raised and the device enters LATCHED. -/
  | bootTimeout
  /-- SYS_RESET_BOOT_DELAY (R453): 1 ms after SYS.RESET posts its OK, BOOT begins. -/
  | sysResetBootDelay
  /-- TICK (R35): The common 64 kHz tick samples every asynchronous input and detector and takes the events in precedence order. -/
  | tick (i : TickIn)
  /-- FRAME_BOUNDARY (R29): A new frame begins: the frame number increments and pending commands, pattern switches, port starts and state moves take effect. -/
  | frameBoundary
  /-- PLAN_FREEZE (R267): At the end of tick 608 the reeve freezes the priced and fitted plan for the next frame, deferring what does not fit. -/
  | planFreeze
  /-- FSYNC_EDGE (R31): An FSYNC rising edge is accepted as a boundary, counted as a slip, or ignored, according to its distance from the expected tick. -/
  | fsyncEdge
  /-- FSYNC_MISSED (R31): No FSYNC edge came within 2 ticks of the expected tick, so the scheduler makes the boundary itself. -/
  | fsyncMissed
  /-- FSYNC_LOST (R31): No edge was accepted for 4 consecutive frames; STATE.FRAME becomes self-generated and a notice is raised. -/
  | fsyncLost
  /-- FSYNC_REACQUIRED (R32): The ninth consecutive well-spaced FSYNC edge becomes tick 0 of a new frame and STATE.FRAME returns to following FSYNC. -/
  | fsyncReacquired
  /-- FSYNC_WAIT_TIMEOUT (R30): No FSYNC edge arrived within 40 ms of the end of BOOT, so the scheduler starts frame 0 itself and raises a notice. -/
  | fsyncWaitTimeout
  /-- QUIET_CHANGE (R47): A change or low pulse on QUIET is caught and makes the tick's QUIET reading not quiet. -/
  | quietChange (high pulse : Bool)
  /-- PATTERN_DISAGREE_NOTICE (R49): Polder ticks contradicted by QUIET in 16 consecutive counted frames raise a notice, repeated every 6000 frames. -/
  | patternDisagreeNotice
  /-- UNGUARDED_HOURLY_NOTICE (R60): Every 360 000 frames of persisting unguarded measurement a notice is raised and the hours count rises. -/
  | unguardedHourlyNotice
  /-- DISCIPLINE_SOURCE_STOPPED (R20): The named discipline source stops, so the oscillator enters holdover and a notice is raised. -/
  | disciplineSourceStopped
  /-- DISCIPLINE_SOURCE_PRESENT (R487): The discipline source becomes present or returns, and the oscillator is disciplined again without a large step. -/
  | disciplineSourcePresent
  /-- CONVERSION_COMPLETE (R168): A Warp or Weft conversion completes and its code enters its lane or forms window samples. -/
  | conversionComplete (c : ConvIn)
  /-- WINDOW_COMPLETE (R94): An integration window completes, its current is computed as a 24-bit result with flags and it enters its lane. -/
  | windowComplete (p : PortId) (i : Fin 2)
  /-- LOW_SIGNAL_STEP_DOWN (R103): After S complete frames of low results the reeve steps the input down one range for the next plan. -/
  | lowSignalStepDown (p : PortId) (i : Fin 2)
  /-- CLIP_DETECTED (R98): A sampled integrator clip fixes the window's limit code, resets the integrator and marks other conversions NEIGHBOUR_OVR. -/
  | clipDetected (p : PortId) (i : Fin 2) (positive : Bool)
  /-- URGENT_CONVERSION_DONE (R173): The one-shot conversion of a SEQ.URGENT request completes and the command posts the code and its sampling instant. -/
  | urgentConversionDone (n : SlotId) (v err : Rat)
  /-- CONVERTER_SELF_TEST (R167): A ZERO, POS and NEG self-test cycle completes and two consecutive failures raise the converter's fault source. -/
  | converterSelfTest (c : Conv) (g : Fin 5)
  /-- RAIL_DEPARTURE (R18): A rail or the reference out of regulation at two consecutive samplings stops the blocks it feeds and raises its fault source. -/
  | railDeparture (r : Rail)
  /-- REFERENCE_RESUME (R184): Conversion resumes at the first boundary at least 25 ms after the reference is back in regulation, or after SEQ.START. -/
  | referenceResume
  /-- SEAM_CONVERGED (R179): After 6400 usable ticks the seam is converged, SEAM_STALE stops and a notice is raised. -/
  | seamConverged
  /-- SEAM_STALE_TIMEOUT (R180): 15 minutes without a usable tick make the seam stale and raise a notice. -/
  | seamStaleTimeout
  /-- SEAM_TRAINING_END (R181): A 64-tick TONE training run ends, succeeding with a lane reset or failing and being counted. -/
  | seamTrainingEnd (spursMet : Bool)
  /-- SYNC_N_FALL (R202): A falling edge on SYNC_N resets every lane if the SYNC response is on. -/
  | syncNFall
  /-- WEAVE_SYNC_RELEASE (R202): After 4 ticks of driving SYNC_N low the Rexia releases it and WEAVE.SYNC completes with OK. -/
  | weaveSyncRelease
  /-- BIAS_TARGET_REACHED (R89): A bias ramp reaches its target, making a STARTING port RUNNING and starting the settling count. -/
  | biasTargetReached (p : PortId)
  /-- PORT_STOPPED (R80): The tick after a ramp reaches zero bias the clamps close, the port becomes STOPPED and PORT.STOP or SYS.STOP completes. -/
  | portStopped (p : PortId)
  /-- CELL_SETTLING_END (R106): The settling time after the bias target has passed and CELL_SETTLING ends. -/
  | cellSettlingEnd (p : PortId)
  /-- PROTECTION_TRIP (R82): A pin outside its limits for 2 ticks sends the port to SHUT and raises its protection source. -/
  | protectionTrip (p : PortId)
  /-- RING_DRIVER_LIMIT (R82): A ring driver at its current limit for 8 ticks raises the protection source and a notice while the port runs. -/
  | ringDriverLimit (p : PortId)
  /-- CE_COMPLIANCE (R91): CE at its limit for 8 ticks raises the group's CE compliance source and a notice. -/
  | ceCompliance (p : PortId)
  /-- VRE_ERROR (R91): A VRE error above 5 mV in 2 consecutive frames raises a notice, repeated every 6000 frames. -/
  | vreError (p : PortId) (uv : Int)
  /-- HEATER_STEP_START (R125): A profile step falls due and drives as planned, moved, deferred or probed. -/
  | heaterStepStart (p : PortId)
  /-- PROFILE_ITERATION_END (R120): A profile's last step ends and it loops, stops or holds, or a replacement profile starts. -/
  | profileIterationEnd (p : PortId)
  /-- HEATER_TRIP (R135): An open, shorted, overtemperature or jump check trips the driver off and raises the group's heater source. -/
  | heaterTrip (p : PortId)
  /-- HEATER_LIMIT_NOTICE (R134): A driver at a limit for 64 000 ticks raises a notice naming the port and limit. -/
  | heaterLimitNotice (p : PortId)
  /-- FEATURE_CAPTURE (R131): At the end of a capture span the feature is formed and passed to the gas engine. -/
  | featureCapture (p : PortId)
  /-- GAUZE_LEAD_IN_END (R142): After LEAD base periods of excitation the first integration begins. -/
  | gauzeLeadInEnd (p : PortId)
  /-- GAUZE_INTEGRATION_END (R148): An integration of M base periods completes, yielding tone results or being discarded. -/
  | gauzeIntegrationEnd (p : PortId)
  /-- GAUZE_PLAN_END (R142): After COUNT integrations the excitation ends at the base-period boundary and the range floor is released. -/
  | gauzePlanEnd (p : PortId)
  /-- GAUZE_FALL_END (R143): The 64-tick fall of a stopped plan reaches zero and GAUZE.STOP completes with OK. -/
  | gauzeFallEnd (p : PortId)
  /-- CELL_HEALTH_FIT (R152): The reeve completes the Rs, Rct, Cdl fit and health index, rejecting it on residual or bounds. -/
  | cellHealthFit (p : PortId)
  /-- ADAPT_STORE (R224): The adaptation factor and its extremes are written to NVM at most once per 360 000 frames per port. -/
  | adaptStore (p : PortId)
  /-- GAS_COMPUTATION (R206): In tick 1 the reeve computes port values and gas channels G0 to G15 from the gas frame just ended and emits them. -/
  | gasComputation
  /-- GAS_COMPUTATION_MISS (R207): A computation not completed by the end of tick 1 leaves the frame without gas outputs and is counted. -/
  | gasComputationMiss
  /-- LEVEE_OVERTOP (R233): A comparator's value leaves its band for DWELL evaluations; it goes OUT and takes its action. -/
  | leveeOvertop (k : Fin 48)
  /-- LEVEE_SETTLE (R233): A comparator's value returns inside the berm for DWELL evaluations; it goes IN and takes its action. -/
  | leveeSettle (k : Fin 48)
  /-- CAL_STEP_END (R247): A zero or span step finishes averaging N gas frames, computes its coefficients and completes with OK. -/
  | calStepEnd (p : PortId)
  /-- CAL_HOLD_LIMIT (R254): The hold time reaches the bolt's limit and the session ends without change at the next boundary. -/
  | calHoldLimit (p : PortId)
  /-- ELEC_CAL_END (R257): An electrical self-calibration ends and its coefficients are applied if within tolerance. -/
  | elecCalEnd (t : CalTarget) (m : ElecMeas)
  /-- AUTO_ELEC_CAL (R261): The interval or temperature change starts an automatic electrical calibration. -/
  | autoElecCal (t : CalTarget)
  /-- PERIODIC_SELF_TEST (R263): A periodic reference or charge-standard check runs and two consecutive failures raise its source. -/
  | periodicSelfTest (k : SelfTest) (ppm : Int × Int)
  /-- THERMAL_CROSSING (R283): A sensor completes 8 readings past WARM, HOT or SEVERE, changing the thermal state. -/
  | thermalCrossing (t : Fin 9) (l : Fin 3) (rising : Bool)
  /-- THERMAL_SHUTDOWN (R293): SHUTDOWN on a sensor enters LATCHED, releasing every driver and closing every clamp. -/
  | thermalShutdown (t : Fin 9)
  /-- SENSOR_CROSS_CHECK (R289): In tick 1 the reeve compares sensor means and may declare one sensor failed. -/
  | sensorCrossCheck
  /-- OSC_REF_COMPENSATION (R282): In tick 1 the reeve updates the oscillator and reference compensation. -/
  | oscRefCompensation
  /-- HEAT_ENTRY (R431): The heat comparator rises at 115 °C and opens a heat interval with a HEAT_ENTRY record. -/
  | heatEntry
  /-- HEAT_CLOSE (R431): With the comparator released and no record staged, a HEAT_CLOSE record closes the interval. -/
  | heatClose
  /-- STAGED_RECORDS_WRITE (R430): Once NVM writes are allowed, staged records are written oldest first. -/
  | stagedRecordsWrite
  /-- SAMPLE_GAP_MARKER (R302): After drops, the first tick with room writes a SAMPLE gap marker. -/
  | sampleGapMarker
  /-- NOTICE_GAP_MARKER (R304): After ordinary notices were dropped, a NOTICE gap marker is written before the next writable notice. -/
  | noticeGapMarker
  /-- SAMPLE_SLUICE_READ (R307): A read of the SAMPLE sluice latches the oldest entry and pops it at its last byte. -/
  | sampleSluiceRead (first : Option (Fin 8)) (n : Nat)
  /-- NOTICE_SLUICE_READ (R307): A read of the NOTICE sluice latches the oldest notice and pops it at its last byte. -/
  | noticeSluiceRead (first : Option (Fin 16)) (n : Nat)
  /-- LIVE_VALUE_READ (R311): The first byte read of a live value latches it whole with its flag word into LVLATCH. -/
  | liveValueRead (first : Option (Fin 320)) (n : Nat)
  /-- STATE_READ (R22): A read of STATE returns it and clears the RC field WAKE. -/
  | stateRead (r : RegRead 2)
  /-- ATTN_READ (R337): A read of ATTN clears its causes and returns the attention machine to IDLE or PENDING. -/
  | attnRead (r : RegRead 2)
  /-- BUS_READ (R327): A read of BUS returns its fields and clears the RC count ARBLOST. -/
  | busRead (r : RegRead 4)
  /-- BUS_WRITE (R327): Writing 1 to TOUT_SCL or TOUT_SDA in BUS clears that timeout flag. -/
  | busWrite (v : W32)
  /-- ATTNMASK_WRITE (R337): A write to ATTNMASK sets which causes may notify, and can make a set cause pending. -/
  | attnmaskWrite (v : W16)
  /-- ATTNCFG_WRITE (R336): A write to ATTNCFG sets enable, speed, notify address and repeat interval. -/
  | attncfgWrite (v : W32)
  /-- DBELL_WRITE (R343): Writing DBELL rings a slot's doorbell; a host-owned slot becomes QUEUED, otherwise IGN is set. -/
  | dbellWrite (v : Byte)
  /-- REGISTER_WRITE (R325): A write transaction sets the register pointer and writes registers or mailbox slots that have no row of their own. -/
  | registerWrite (data : List Byte)
  /-- COMMAND_DISPATCH (R344): The reeve moves the oldest QUEUED slot to RUNNING and checks its request in the order of R346. -/
  | commandDispatch
  /-- CHUNK_STAGING_TIMEOUT (R349): A chunk staging that receives nothing for 60 s is discarded. -/
  | chunkStagingTimeout (op : W16) (sel : Fin 3)
  /-- GENERAL_CALL_SYNC (R334): A general-call SYNC is taken in the tick after its STOP as a SYNC_N edge. -/
  | generalCallSync
  /-- DIGEST_CHECK (R334): A general-call digest check is compared with the bolt in force and a mismatch raises a notice and ATTN.DIGEST. -/
  | digestCheck (data : List Byte)
  /-- DOZE_WAKE_BY_BUS (R329): A transaction addressed to a dozing Rexia is refused and starts the wake. -/
  | dozeWakeByBus
  /-- WAKE_COMPLETE (R459): Within 200 µs of a wake event the reeve runs again, STATE.WAKE is set and conversion resumes at the next boundary. -/
  | wakeComplete
  /-- SCL_TIMEOUT (R330): SCL low for more than 25 ms during a transaction makes the Rexia abandon it and set TOUT_SCL. -/
  | sclTimeout
  /-- SDA_TIMEOUT (R331): Holding SDA low with no SCL edge for 25 ms makes the Rexia release SDA and set TOUT_SDA. -/
  | sdaTimeout
  /-- BUS_FREE_IDLE (R333): SCL and SDA high for 50 µs make the bus free after a timeout, power-on or reset. -/
  | busFreeIdle
  /-- ATTENTION_ATTEMPT (R338): With a cause pending and the bus free, the Rexia sends a Host Notify write of its address and ATTN. -/
  | attentionAttempt (o : AttemptEnd)
  /-- ATTENTION_BACKOFF_EXPIRY (R339): The backoff after a failed or lost attempt expires and the Rexia may attempt again. -/
  | attentionBackoffExpiry
  /-- RENOTIFY_EXPIRY (R337): RENOTIFY elapses after a sent notify with a masked cause still set, making the machine PENDING. -/
  | renotifyExpiry
  /-- FAULT_EVENT (R402): A fault source's detection becomes an event; it is counted, may promote, begin a reaction or enter LATCHED. -/
  | faultEvent (f : Source)
  /-- WATCHDOG_TIMEOUT (R400): The reeve watchdog is not serviced within 20 ms, giving an event of source WDOG. -/
  | watchdogTimeout
  /-- REACTION_HANDLED (R408): The reeve takes its action and marks the reaction handled, starting the settle phase. -/
  | reactionHandled (f : Source)
  /-- GRACE_EXPIRY (R408): The grace time expires unhandled and the collector takes the block action or enters SAFE. -/
  | graceExpiry (f : Source)
  /-- ACTION_CHECK (R408): Eight ticks after a block action the source still detecting puts the device in SAFE. -/
  | actionCheck (f : Source)
  /-- REACTION_END (R407): At the third boundary after the action the reaction ends and a notice is raised. -/
  | reactionEnd (f : Source)
  /-- PPS_EDGE (R384): A PPSA or PPSB edge is stamped, accepted or counted as an outlier, and steers the servo. -/
  | ppsEdge (d : Dom) (ticksBack : Nat) (clock : Fin 960)
  /-- PPS_ABSENT (R387): No accepted edge for 2.0 s reports the input absent and raises a notice. -/
  | ppsAbsent (d : Dom)
  /-- TIME_SET_APPLY (R382): A pending TIME.SET loads its domain at the boundary or two ticks after the PPS edge. -/
  | timeSetApply (d : Dom)
  /-- TIME_SET_EDGE_TIMEOUT (R367): No PPS edge within 2 s makes a TIME.SET that waits for one complete with BUSY. -/
  | timeSetEdgeTimeout (d : Dom)
  /-- TIME_TRIGGER (R393): A time trigger reaches its time and takes its action, wakes the device, or is skipped with a notice. -/
  | timeTrigger (k : Fin 16)
  /-- SLEW_COMPLETE (R391): The switch offset O reaches zero, SLEW clears and notice 0x0D08 is raised. -/
  | slewComplete
  /-- BOLT_COMMIT_MARK_PROGRAMMED (R424): The commit mark is programmed and BOLT.COMMIT completes with OK and a BOLT_COMMIT record. -/
  | boltCommitMarkProgrammed (verified : Bool)
  /-- BOX_ERASE_DONE (R434): The black-box erase finishes, a BOX_ERASED record is written and BOX.ERASE completes. -/
  | boxEraseDone
  /-- PATCH_PROGRAMMED (R365): A firmware patch finishes programming and SYS.PATCH completes with OK. -/
  | patchProgrammed
  /-- LOCKOUT_END (R444): A lockout's time has run out and its end is written to NVM. -/
  | lockoutEnd
  /-- NONCE_EXPIRY (R442): 60 s after issue the challenge nonce becomes invalid. -/
  | nonceExpiry
  /-- PORT_MODE (R84): PORT.MODE changes a stopped port's mode at the next boundary. -/
  | portMode (n : SlotId)
  /-- PORT_BIAS (R90): PORT.BIAS sets a port's bias, ramp rate and VCM. -/
  | portBias (n : SlotId)
  /-- PORT_RANGE (R101): PORT.RANGE sets an input's range bounds, start range and S. -/
  | portRange (n : SlotId)
  /-- PORT_WINDOW (R51): PORT.WINDOW sets a port's window length L and Lmin. -/
  | portWindow (n : SlotId)
  /-- PORT_SETTLE (R351): PORT.SETTLE sets the settling and short settling times. -/
  | portSettle (n : SlotId)
  /-- PORT_AUX (R488): PORT.AUX selects the AUX RTD excitation current. -/
  | portAux (n : SlotId)
  /-- PORT_RING (R72): PORT.RING sets whether PnE is high-impedance and whether PnF copies it. -/
  | portRing (n : SlotId)
  /-- PORT_LAYER (R128): PORT.LAYER sets the MOX sensing-layer voltage. -/
  | portLayer (n : SlotId)
  /-- PORT_START_COMMAND (R79): PORT.START starts a stopped port at the next boundary. -/
  | portStartCommand (n : SlotId)
  /-- PORT_STOP (R80): PORT.STOP ramps a port to zero bias from the next boundary and clamps it. -/
  | portStop (n : SlotId)
  /-- PORT_STATUS (R351): PORT.STATUS returns a port's state, mode, ranges, bias and settling. -/
  | portStatus (n : SlotId)
  /-- HEAT_PLATE (R114): HEAT.PLATE sets a plate's parameters. -/
  | heatPlate (n : SlotId)
  /-- HEAT_PROFILE (R124): HEAT.PROFILE loads a heater profile in chunks, double-buffered if running. -/
  | heatProfile (n : SlotId)
  /-- HEAT_START (R121): HEAT.START starts a port's profile at step 0 at the next boundary. -/
  | heatStart (n : SlotId)
  /-- HEAT_STOP (R123): HEAT.STOP ends a port's drive at the next boundary. -/
  | heatStop (n : SlotId)
  /-- HEAT_STATUS (R352): HEAT.STATUS returns profile state, step, trip cause, temperature and power. -/
  | heatStatus (n : SlotId)
  /-- GAUZE_PLAN (R137): GAUZE.PLAN loads a port's tone plan in chunks. -/
  | gauzePlan (n : SlotId)
  /-- GAUZE_START (R142): GAUZE.START starts or restarts a tone plan at the second boundary. -/
  | gauzeStart (n : SlotId)
  /-- GAUZE_STOP (R143): GAUZE.STOP ends a running plan with a 64-tick fall. -/
  | gauzeStop (n : SlotId)
  /-- GAUZE_READ (R148): GAUZE.READ returns a tone result or the relative humidity of a port. -/
  | gauzeRead (n : SlotId)
  /-- GAUZE_HEALTH (R155): GAUZE.HEALTH with operation 0 returns the fitted parameters, HI and status. -/
  | gauzeHealth (n : SlotId)
  /-- GAUZE_HEALTH_SET_REFERENCES (R154): GAUZE.HEALTH with operation 1 sets the health references. -/
  | gauzeHealthSetReferences (n : SlotId)
  /-- GAUZE_HEALTH_SET_SPREADS (R154): GAUZE.HEALTH with operation 2 sets the spread factors and HI threshold. -/
  | gauzeHealthSetSpreads (n : SlotId)
  /-- GAUZE_STATUS (R353): GAUZE.STATUS returns plan state, channels in use and integration counts. -/
  | gauzeStatus (n : SlotId)
  /-- GAUZE_CAP (R156): GAUZE.CAP sets the CAP port's C0 and humidity coefficients. -/
  | gauzeCap (n : SlotId)
  /-- SEQ_LOAD (R170): SEQ.LOAD loads Warp, Weft or twill tables in chunks and applies them as one set. -/
  | seqLoad (n : SlotId)
  /-- SEQ_MODE (R174): SEQ.MODE selects plain weave or twill. -/
  | seqMode (n : SlotId)
  /-- SEQ_URGENT (R173): SEQ.URGENT requests one conversion in an open Weft slot. -/
  | seqUrgent (n : SlotId)
  /-- SEQ_REF (R183): SEQ.REF switches the reference buffer on or off. -/
  | seqRef (n : SlotId)
  /-- SEQ_START (R184): SEQ.START resumes conversion at the next boundary after a reference stop. -/
  | seqStart (n : SlotId)
  /-- SEQ_STATUS (R354): SEQ.STATUS returns converter starts, wraps and loss counters. -/
  | seqStatus (n : SlotId)
  /-- WEAVE_SET (R201): WEAVE.SET gives a lane a weave or custom filter and its RING setting. -/
  | weaveSet (n : SlotId)
  /-- WEAVE_COEF (R197): WEAVE.COEF stages custom coefficients for a lane. -/
  | weaveCoef (n : SlotId)
  /-- WEAVE_DELAY (R198): WEAVE.DELAY returns a lane's span, decimation, settling count and group delay. -/
  | weaveDelay (n : SlotId)
  /-- WEAVE_SYNC (R202): WEAVE.SYNC with 0 pulls SYNC_N low for 4 ticks. -/
  | weaveSync (n : SlotId)
  /-- WEAVE_SYNC_RESPONSE (R202): WEAVE.SYNC with 1 or 2 turns the device's SYNC response on or off. -/
  | weaveSyncResponse (n : SlotId)
  /-- WEAVE_PHASE (R203): WEAVE.PHASE sets a lane's phase delay. -/
  | weavePhase (n : SlotId)
  /-- WEAVE_STATUS (R204): WEAVE.STATUS returns a lane's setting, counts and load. -/
  | weaveStatus (n : SlotId)
  /-- WEAVE_READ (R195): WEAVE.READ returns the coefficients of a weave as a read object. -/
  | weaveRead (n : SlotId)
  /-- GAS_MODEL (R226): GAS.MODEL loads a port's gas model in chunks. -/
  | gasModel (n : SlotId)
  /-- GAS_MATRIX (R216): GAS.MATRIX loads the 16 by 16 unmixing matrix in chunks. -/
  | gasMatrix (n : SlotId)
  /-- GAS_CHANNEL (R218): GAS.CHANNEL sets a gas channel's name, offset, scale, series and RING. -/
  | gasChannel (n : SlotId)
  /-- GAS_ENV (R226): GAS.ENV writes a host temperature or humidity value. -/
  | gasEnv (n : SlotId)
  /-- GAS_READ (R219): GAS.READ returns every series of a gas channel with flags and coverage. -/
  | gasRead (n : SlotId)
  /-- GAS_STATUS (R356): GAS.STATUS returns the gas engine's misses and port masks. -/
  | gasStatus (n : SlotId)
  /-- GAS_ADAPT_READ (R225): GAS.ADAPT with operation 0 returns a port's adaptation factor and limits. -/
  | gasAdaptRead (n : SlotId)
  /-- GAS_ADAPT_FREEZE (R225): GAS.ADAPT with operation 1 freezes a port's adaptation. -/
  | gasAdaptFreeze (n : SlotId)
  /-- GAS_ADAPT_RELEASE (R225): GAS.ADAPT with operation 2 releases a port's adaptation. -/
  | gasAdaptRelease (n : SlotId)
  /-- LEVEE_SET (R230): LEVEE.SET loads a comparator record. -/
  | leveeSet (n : SlotId)
  /-- LEVEE_ACK (R237): LEVEE.ACK acknowledges latched comparators in hardware. -/
  | leveeAck (n : SlotId)
  /-- LEVEE_STATUS (R357): LEVEE.STATUS returns the state and counts of up to 7 comparators. -/
  | leveeStatus (n : SlotId)
  /-- CAL_BEGIN (R246): CAL.BEGIN opens a system calibration session and begins the hold. -/
  | calBegin (n : SlotId)
  /-- CAL_ZERO (R247): CAL.ZERO starts a zero step averaging N gas frames. -/
  | calZero (n : SlotId)
  /-- CAL_SPAN (R247): CAL.SPAN starts a span step at a stated concentration. -/
  | calSpan (n : SlotId)
  /-- CAL_COMMIT (R252): CAL.COMMIT applies the session's valid coefficients at the next boundary and ends the hold. -/
  | calCommit (n : SlotId)
  /-- CAL_ABORT (R254): CAL.ABORT ends a session without change at the next boundary. -/
  | calAbort (n : SlotId)
  /-- CAL_RANGE (R245): CAL.RANGE changes the pinned range of an input in hold. -/
  | calRange (n : SlotId)
  /-- CAL_ELEC (R257): CAL.ELEC requests electrical self-calibration of one target. -/
  | calElec (n : SlotId)
  /-- CAL_STATUS (R358): CAL.STATUS returns the result of a calibration step or electrical calibration. -/
  | calStatus (n : SlotId)
  /-- CAL_CLEAR (R256): CAL.CLEAR voids a port's calibration record in NVM. -/
  | calClear (n : SlotId)
  /-- FRAME_PATTERN (R41): FRAME.PATTERN loads a TDD pattern in chunks, double-buffered for the active index. -/
  | framePattern (n : SlotId)
  /-- FRAME_SELECT (R41): FRAME.SELECT makes a pattern active at the next boundary or a stated frame. -/
  | frameSelect (n : SlotId)
  /-- FRAME_POLDER (R43): FRAME.POLDER sets lead and trail margins and the guarded range count. -/
  | framePolder (n : SlotId)
  /-- FRAME_WINDOWS (R56): FRAME.WINDOWS returns the active plan's polders and a port's windows. -/
  | frameWindows (n : SlotId)
  /-- FRAME_STATUS (R359): FRAME.STATUS returns the frame scheduler's counts. -/
  | frameStatus (n : SlotId)
  /-- SYS_START (R24): SYS.START enables the reference and moves READY to RUN at a boundary. -/
  | sysStart (n : SlotId)
  /-- SYS_STOP (R80): SYS.STOP stops every port and returns to READY. -/
  | sysStop (n : SlotId)
  /-- SYS_HOLD (R364): SYS.HOLD moves the device to HELD, after ramp-down from RUN. -/
  | sysHold (n : SlotId)
  /-- SYS_RELEASE (R364): SYS.RELEASE puts a committed bolt in force and leaves HELD at the next boundary. -/
  | sysRelease (n : SlotId)
  /-- SYS_DOZE (R459): SYS.DOZE enters DOZE at the next boundary. -/
  | sysDoze (n : SlotId)
  /-- SYS_RESET (R453): SYS.RESET with the key posts OK and then resets the device. -/
  | sysReset (n : SlotId)
  /-- SYS_RECOVER (R365): SYS.RECOVER leaves SAFE for READY at the next boundary when no SEVERE fault remains. -/
  | sysRecover (n : SlotId)
  /-- SYS_INFO (R364): SYS.INFO returns serial, boot count, bolt slot, boot cause and patch level. -/
  | sysInfo (n : SlotId)
  /-- SYS_PATCH (R365): SYS.PATCH programs a firmware patch image received in chunks. -/
  | sysPatch (n : SlotId)
  /-- RING_CLEAR (R314): RING.CLEAR clears drop counters and can empty either ring. -/
  | ringClear (n : SlotId)
  /-- RING_WATER (R490): RING.WATER sets the SAMPLE watermark and re-arms its cause. -/
  | ringWater (n : SlotId)
  /-- TIME_SET (R382): TIME.SET loads a domain at the next boundary or PPS edge. -/
  | timeSet (n : SlotId)
  /-- TIME_INCR (R383): TIME.INCR writes a domain's increment. -/
  | timeIncr (n : SlotId)
  /-- TIME_SERVO (R388): TIME.SERVO hands a domain's increment to the host or the reeve servo. -/
  | timeServo (n : SlotId)
  /-- TIME_SELECT (R391): TIME.SELECT makes a domain active at the next boundary. -/
  | timeSelect (n : SlotId)
  /-- TIME_PPS (R384): TIME.PPS returns the stamp of a domain's last accepted PPS edge. -/
  | timePps (n : SlotId)
  /-- TIME_TRIGGER_COMMAND (R393): TIME.TRIGGER arms, replaces or disarms a time trigger. -/
  | timeTriggerCommand (n : SlotId)
  /-- TIME_STATUS (R367): TIME.STATUS returns active domain, servo modes, PPS presence and increments. -/
  | timeStatus (n : SlotId)
  /-- LEDGER_GRANT (R266): LEDGER.GRANT sets the energy allowance, reserve and power cap. -/
  | ledgerGrant (n : SlotId)
  /-- LEDGER_RANK (R271): LEDGER.RANK sets a port's fitting rank. -/
  | ledgerRank (n : SlotId)
  /-- LEDGER_STATUS (R368): LEDGER.STATUS returns booking, debt and deferral counters. -/
  | ledgerStatus (n : SlotId)
  /-- THERM_READ (R280): THERM.READ returns each sensor's latest reading, frame mean and failed mask. -/
  | thermRead (n : SlotId)
  /-- THERM_STATUS (R284): THERM.STATUS returns thermal state, hold level, forced state and levels. -/
  | thermStatus (n : SlotId)
  /-- THERM_POLICY (R287): THERM.POLICY sets each port's KEEP or REST thermal policy. -/
  | thermPolicy (n : SlotId)
  /-- THERM_ACK (R292): THERM.ACK ends forced full throttle at the next freeze. -/
  | thermAck (n : SlotId)
  /-- FAULT_READ (R370): FAULT.READ returns the class, bits and counts of up to 8 sources. -/
  | faultRead (n : SlotId)
  /-- FAULT_CLEAR (R412): FAULT.CLEAR clears the sources in its mask that are not in reaction. -/
  | faultClear (n : SlotId)
  /-- FAULT_CONFIG (R406): FAULT.CONFIG sets a source's class, promotion and mask. -/
  | faultConfig (n : SlotId)
  /-- FAULT_FORCE (R413): FAULT.FORCE sets or releases a source's FORCE bit. -/
  | faultForce (n : SlotId)
  /-- FAULT_ECC (R415): FAULT.ECC arms one word of a checker for injected check-bit errors. -/
  | faultEcc (n : SlotId)
  /-- FAULT_GRACE (R407): FAULT.GRACE sets the grace time of later reactions. -/
  | faultGrace (n : SlotId)
  /-- BOLT_STAGE (R371): BOLT.STAGE erases and programs the other slot with a bolt in chunks and checks its selvedge. -/
  | boltStage (n : SlotId)
  /-- BOLT_COMMIT (R424): BOLT.COMMIT starts programming the staged slot's commit mark. -/
  | boltCommit (n : SlotId)
  /-- BOLT_INFO (R371): BOLT.INFO returns the state, generation and digest of both slots. -/
  | boltInfo (n : SlotId)
  /-- BOX_INFO (R373): BOX.INFO returns black-box counts and status. -/
  | boxInfo (n : SlotId)
  /-- BOX_READ (R434): BOX.READ returns a black-box record by age. -/
  | boxRead (n : SlotId)
  /-- BOX_ERASE (R434): BOX.ERASE starts erasing the black box at factory level. -/
  | boxErase (n : SlotId)
  /-- LOCK_PASSWORD (R440): LOCK.PASSWORD attempts to raise the lock level to SERVICE. -/
  | lockPassword (n : SlotId)
  /-- LOCK_CHALLENGE (R442): LOCK.CHALLENGE issues a fresh 16-byte nonce. -/
  | lockChallenge (n : SlotId)
  /-- LOCK_RESPONSE (R440): LOCK.RESPONSE attempts to raise the lock level to FACTORY with an HMAC. -/
  | lockResponse (n : SlotId)
  /-- LOCK_SEAL (R445): LOCK.SEAL seals the lock, releases FORCE bits and discards patch staging. -/
  | lockSeal (n : SlotId)
  /-- BUS_START_CONDITION (R321): A START or repeated START on the bus, whoever issues it, classes the strap pins, may fix the address or set ADDRMIS, returns the target to idle and cancels an attention backoff. -/
  | busStartCondition (idle afterStart sclLow : BitVec 3)
  /-- BUS_STOP_CONDITION (R339): A STOP on the bus, whoever issues it, returns the target to idle and starts the attention backoff of a Rexia that failed or lost an attempt. -/
  | busStopCondition
  /-- CAUSE_LATCH_RETENTION_LOSS (R450): VDD falling below the retention threshold of the cause latch erases the record of a brownout, so the next BOOT reports power-on instead of brownout. -/
  | causeLatchRetentionLoss
  /-- ELECTRICAL_COEFFICIENT_STORE (R262): The latest electrical coefficients are written to NVM, at most once per 8 640 000 frames and only while NVM writes are allowed. -/
  | electricalCoefficientStore
  /-- PAGE_ERASE_COMPLETE (R429): The erase of the black-box page ahead of the newest record finishes, making the pre-erased record position ready. -/
  | pageEraseComplete
deriving DecidableEq, Repr

end Sys2Proof
end

