-- ==== Sys2Proof/Decode.lean ====
section
/-!
DEFINITION. The words of the command table. No row of the table gives bits (the commands come from
the bus, the pins and the passing of time, not from an instruction memory), so no word spells one.
-/

namespace Sys2Proof

/-- The command a word of nbits bits spells by the table's bits: none, for every word. -/
def decodeTableWord (_nbits _w : Nat) : Option Instr := none

end Sys2Proof
end

