-- ==== Sys2Proof/Config.lean ====
section
/-!
DEFINITION. What one chip fixes (the factory record, R418) and the free values: constants with no
body, so that no proof can lean on a value of theirs (logs 3 and 9).
-/

namespace Sys2Proof

/-- DESIGN CHOICE (log 10): which way round() goes on an exact half (R94, R160, R198 state no tie
rule). Indexed by the quantity rounded. -/
opaque Config.tieUp : Rat → Bool
/-- What a counter of w bits holds once its count no longer fits, where the spec states neither a wrap
nor a saturation of it (log 26). Indexed by the width and by the count that does not fit. -/
opaque Config.pastMax : Nat → Nat → Nat

/-- The serial number, bytes 0 to 7 of SYS.INFO (R364), from the factory record. -/
opaque Config.serial : W64
/-- The factory password (R441). -/
opaque Config.passwordByte : Fin 8 → Byte
/-- The per-device key of the factory record (R442). -/
opaque Config.keyByte : Fin 32 → Byte
/-- The on-die random source (R442): byte k of the nonce drawn as the n-th free value. -/
opaque Config.nonceByte : Nat → Fin 16 → Byte

/-- Packet charge in coulomb of a current input's range (R94, factory record). -/
opaque Config.packetCharge : PortId → Fin 2 → Fin 8 → Rat
/-- Feedback capacitance in farad of a current input's range (R94, factory record). -/
opaque Config.feedbackCap : PortId → Fin 2 → Fin 8 → Rat
/-- The coupling factor of a port's input to the witness node (R59, factory record). -/
opaque Config.coupling : PortId → Fin 2 → Rat
/-- The same of the witness node (R58), which has the 250 pA range. -/
opaque Config.witnessCharge : Rat
opaque Config.witnessCap : Rat
/-- What the template holds for a tick in which the witness has given no result yet (R58 states no
mean over none). -/
opaque Config.noTemplate : Nat → Rat
/-- R_IHT of a port at 25 degC in milliohm, and its temperature coefficient per kelvin (R68). -/
opaque Config.rIht25 : PortId → Rat
opaque Config.rIhtTc : PortId → Rat
/-- The value of 25 degC trims of the voltage path and of the converters (R257, factory record):
offset in microvolt (a port) or LSB (a converter), gain error in ppm. -/
opaque Config.portOffset : PortId → Rat
opaque Config.portGain : PortId → Rat
/-- The error of a potentiostat's bias code in microvolt (R257, factory record). -/
opaque Config.portBias : PortId → Rat
opaque Config.convOffset : Fin 2 → Fin 5 → Rat
opaque Config.convGain : Fin 2 → Fin 5 → Rat
opaque Config.refTrim : Rat

/-- The loop drop R_loop in ohm (Table 5-1). -/
opaque Config.rLoop : PortId → Rat
/-- The pricing coefficients in mA and the efficiency of VHT (Table 12-3, factory record). -/
opaque Config.iBase : Rat
opaque Config.iConv : Rat
opaque Config.iFe : Rat
opaque Config.iGz : Rat
opaque Config.etaHt : Rat
/-- The seam's factory correction of Weft: offset in LSB, gain error as a part of one, timing in 1/256 clock
(R179), limited to Table 7-8 where it is used. -/
opaque Config.seamFactory : Rat × Rat × Int
/-- The correction the seam's update finds in the n-th usable tick's draw, within Table 7-8: the spec gives no
procedure (R178, log 3). -/
opaque Config.seamUpdate : Nat → Rat × Rat × Int
/-- The phase in turns of a conversion of TONE in plain weave, which R166 does not specify: by the n-th draw. -/
opaque Config.tonePhase : Nat → Rat
/-- The factory value of the POS and NEG swatches (Table 7-5). -/
opaque Config.swatchPos : Conv → Fin 5 → Int
opaque Config.swatchNeg : Conv → Fin 5 → Int
/-- The factory transfer of the potentiostat (R146): real and imaginary part at a frequency in mHz. -/
opaque Config.toneTransfer : PortId → Nat → Rat × Rat
/-- Magnitude and phase of a tone result, and the admittance behind RH, where no tone current or no voltage was
found: R146 and R156 state no quotient (log 14). -/
opaque Config.openTone : PortId → Nat → F32 × Int
opaque Config.openAdmittance : PortId → Rat
/-- The code of a gas channel whose sum is not finite (R217 states none). -/
opaque Config.gasNotFinite : Fin 16 → Int
/-- The temperature of a resistance for which the Callendar-Van Dusen equation has no solution in the range
of IEC 60751 from -200 degC: R, R0, A, B, C (log 14). -/
opaque Config.rtdUnsolved : F32 → F32 → F32 → F32 → F32 → F32
/-- R(T) in milliohm of a plate whose R0 and alpha are not given (R125; log 15). -/
opaque Config.plateOhm : PortId → Rat
/-- The coefficients of the low-pass FIR stages of the weaves (R195 gives their response, not their
values): weave, FIR B or A, index in the first half. -/
opaque Config.weaveCoef : Fin 24 → Bool → Nat → Int
/-- The SHUTDOWN threshold of the chip in 0.01 degC, limited to 160 +- 5 degC where it is used
(Table 13-3). -/
opaque Config.shutdownAt : Int
/-- The word of a slot in which the mailbox checker found a real uncorrectable error (R401): TICK names no word. Applied
to the n-th free value. -/
opaque Config.slotWord : Nat → Fin 16
/-- An NVM program fails for wear (R255): the cells' state is not the model's. Applied to the n-th free
value. -/
opaque Config.nvmWorn : Nat → Bool
/-- Whether the program of the black-box record with NUMBER n lasts into the second tick after its own (25 to 40 us,
Table 20-2). -/
opaque Config.recordLong : Nat → Bool
/-- How many positions in a row fail verification when the black-box record after NUMBER n is programmed
(R429). -/
opaque Config.recordVoids : Nat → Nat
/-- The patch level of a firmware patch image, whose format the spec does not give (R364; log 24). -/
opaque Config.patchLevel : List Byte → W32

end Sys2Proof
end

