-- ==== Sys2Proof/Machine/Bytes.lean ====
section
/-!
DEFINITION. Bytes and numbers: least significant byte first and two's complement (R6), saturation,
rounding, and the codes and digests of the NVM and the lock: CRC-32 and SHA-256 (R421), CRC-16
(R427), HMAC-SHA-256 (R442).
-/

namespace Sys2Proof.Machine

/-! ## Byte order (R6) -/

/-- The number a list of bytes spells, least significant first. -/
def leNat : List Byte → Nat
  | [] => 0
  | b :: bs => b.toNat + 256 * leNat bs

/-- The n low bytes of a number, least significant first. -/
def toLE : Nat → Nat → List Byte
  | 0, _ => []
  | n + 1, v => BitVec.ofNat 8 v :: toLE n (v / 256)

/-- The n low bytes of an integer in two's complement. -/
def toLEInt (n : Nat) (v : Int) : List Byte := toLE n (v % (256 ^ n : Nat)).toNat

/-- n bytes from offset off; bytes beyond the end read as absent. -/
def slice (l : List Byte) (off n : Nat) : List Byte := (l.drop off).take n

def u8 (l : List Byte) (i : Nat) : Nat := (l.getD i 0).toNat
def u16 (l : List Byte) (i : Nat) : Nat := leNat (slice l i 2)
def u32 (l : List Byte) (i : Nat) : Nat := leNat (slice l i 4)
def u48 (l : List Byte) (i : Nat) : Nat := leNat (slice l i 6)
def u64 (l : List Byte) (i : Nat) : Nat := leNat (slice l i 8)

/-- A w-bit number read as two's complement. -/
def signed (w v : Nat) : Int := (BitVec.ofNat w v).toInt
def s16 (l : List Byte) (i : Nat) : Int := signed 16 (u16 l i)
def s32 (l : List Byte) (i : Nat) : Int := signed 32 (u32 l i)
def f32At (l : List Byte) (i : Nat) : F32 := BitVec.ofNat 32 (u32 l i)

/-- All bytes from i on for n are zero (reserved content, R10). -/
def zeros (l : List Byte) (i n : Nat) : Bool := (slice l i n).all (· == 0)

/-- The offset of the first non-zero byte among n from i, if there is one. -/
def firstNonZero (l : List Byte) (i n : Nat) : Option Nat :=
  ((slice l i n).findIdx? (· != 0)).map (· + i)

/-- Writes bytes into a list from offset off, keeping its length. -/
def overwrite (l : List Byte) (off : Nat) (d : List Byte) : List Byte :=
  l.take off ++ (d.take (l.length - off)) ++ l.drop (off + d.length)

/-! ## Notice and record arguments -/

/-- One byte, two bytes, four bytes of an 8-byte argument field, counted from its first byte. -/
def argB (i v : Nat) : W64 := BitVec.ofNat 64 (v % 256) <<< (8 * i)
def argH (i v : Nat) : W64 := BitVec.ofNat 64 (v % 65536) <<< (8 * i)
def argW (i v : Nat) : W64 := BitVec.ofNat 64 (v % 4294967296) <<< (8 * i)
def argHi (i : Nat) (v : Int) : W64 := argH i (v % 65536).toNat
def argWi (i : Nat) (v : Int) : W64 := argW i (v % 4294967296).toNat

/-! ## Saturation and rounding -/

def satNat (max v : Nat) : Nat := min v max
/-- Limits v to the signed range of w bits. -/
def satInt (w : Nat) (v : Int) : Int := max (-(2 ^ (w - 1) : Nat)) (min v ((2 ^ (w - 1) : Nat) - 1))

/-- round(x) to the nearest integer; an exact half goes the way Config.tieUp says (log 10). -/
def roundRat (x : Rat) : Int :=
  let d := x - (x.floor : Rat)
  if d < 1 / 2 then x.floor
  else if 1 / 2 < d then x.floor + 1
  else if Config.tieUp x then x.floor + 1 else x.floor

/-- The counter c plus k, saturating at all ones. -/
def satAdd {w : Nat} (c : BitVec w) (k : Nat) : BitVec w := BitVec.ofNat w (min (c.toNat + k) (2 ^ w - 1))

/-- The counter c plus k, of which the spec does not state what follows the largest count (log 26). -/
def countUp {w : Nat} (c : BitVec w) (k : Nat) : BitVec w :=
  if c.toNat + k < 2 ^ w then BitVec.ofNat w (c.toNat + k)
  else BitVec.ofNat w (Config.pastMax w (c.toNat + k))

def boolNat (b : Bool) : Nat := if b then 1 else 0
def boolByte (b : Bool) : Byte := if b then 1 else 0
/-- Bits, lowest first, as a number. -/
def bits : List Bool → Nat
  | [] => 0
  | b :: bs => boolNat b + 2 * bits bs

/-! ## Cyclic redundancy checks -/

/-- n steps of a reflected 32-bit CRC register. -/
def crc32Bits : Nat → W32 → W32
  | 0, r => r
  | n + 1, r => crc32Bits n (if r.getLsbD 0 then (r >>> 1) ^^^ 0xEDB88320 else r >>> 1)

/-- The CRC-32 of R421. -/
def crc32 (l : List Byte) : W32 :=
  (l.foldl (fun r b => crc32Bits 8 (r ^^^ b.setWidth 32)) 0xFFFFFFFF) ^^^ 0xFFFFFFFF

def crc16Bits : Nat → W16 → W16
  | 0, r => r
  | n + 1, r => crc16Bits n (if r.getLsbD 15 then (r <<< 1) ^^^ 0x1021 else r <<< 1)

/-- The CRC-16 of R427. -/
def crc16 (l : List Byte) : W16 :=
  l.foldl (fun r b => crc16Bits 8 (r ^^^ ((b.setWidth 16 : W16) <<< (8 : Nat)))) 0xFFFF

/-! ## SHA-256 (FIPS 180-4) and HMAC (FIPS 198-1) -/

/-- The n words of 32 bits that a number spells, the most significant first. -/
def wordsOf (n x : Nat) : List W32 := (List.range n).map fun i => BitVec.ofNat 32 (x >>> (32 * (n - 1 - i)))

/-- The round constants, eight to a number. -/
def roundConstants : List W32 :=
  [0x428a2f9871374491b5c0fbcfe9b5dba53956c25b59f111f1923f82a4ab1c5ed5,
   0xd807aa9812835b01243185be550c7dc372be5d7480deb1fe9bdc06a7c19bf174,
   0xe49b69c1efbe47860fc19dc6240ca1cc2de92c6f4a7484aa5cb0a9dc76f988da,
   0x983e5152a831c66db00327c8bf597fc7c6e00bf3d5a7914706ca635114292967,
   0x27b70a852e1b21384d2c6dfc53380d13650a7354766a0abb81c2c92e92722c85,
   0xa2bfe8a1a81a664bc24b8b70c76c51a3d192e819d6990624f40e3585106aa070,
   0x19a4c1161e376c082748774c34b0bcb5391c0cb34ed8aa4a5b9cca4f682e6ff3,
   0x748f82ee78a5636f84c878148cc7020890befffaa4506cebbef9a3f7c67178f2].flatMap (wordsOf 8)

/-- The exclusive or of a word rotated right by several amounts, with a start. -/
def rotations (amounts : List Nat) (start x : W32) : W32 := amounts.foldl (fun s k => s ^^^ x.rotateRight k) start

/-- Bitwise: the first word chooses between the two others; the value most of the three have. -/
def choice (x y z : W32) : W32 := z ^^^ (x &&& (y ^^^ z))
def majority (x y z : W32) : W32 := (x &&& y) ||| (z &&& (x ||| y))

/-- The working words as two sequences, of which each round adds one word: the last four of the first and of the
second, newest first. -/
abbrev ShaState := List W32 × List W32

/-- One round, with the sum of its constant and its word of the schedule. -/
def shaRound (st : ShaState) (kw : W32) : ShaState :=
  match st with
  | ([p0, p1, p2, p3], [q0, q1, q2, q3]) =>
    let t := kw + q3 + rotations [6, 11, 25] 0 q0 + choice q0 q1 q2
    ([t + rotations [2, 13, 22] 0 p0 + majority p0 p1 p2, p0, p1, p2], [p3 + t, q0, q1, q2])
  | _ => st

/-- The next word of the schedule from those so far, newest first. -/
def shaNext (w : List W32) : W32 :=
  let at_ := fun (k : Nat) => w.getD (k - 1) 0
  at_ 16 + at_ 7 + rotations [7, 18] (at_ 15 >>> 3) (at_ 15) + rotations [17, 19] (at_ 2 >>> 10) (at_ 2)

/-- The rounds of a block: with each constant, the schedule has the words so far, newest first, and those to come. -/
def shaRounds : List W32 → List W32 → List W32 → ShaState → ShaState
  | [], _, _, st => st
  | k :: ks, past, [], st =>
    let w := shaNext past
    shaRounds ks (w :: past) [] (shaRound st (k + w))
  | k :: ks, past, w :: ws, st => shaRounds ks (w :: past) ws (shaRound st (k + w))

/-- A block of 64 bytes. -/
def shaBlock (st : ShaState) (block : List Byte) : ShaState :=
  let r := shaRounds roundConstants [] (wordsOf 16 (leNat block.reverse)) st
  (List.zipWith (· + ·) st.1 r.1, List.zipWith (· + ·) st.2 r.2)

/-- The message with a one bit, zeros and its length in bits behind it: whole blocks. -/
def shaPad (l : List Byte) : List Byte :=
  l ++ [0x80] ++ List.replicate ((119 - l.length % 64) % 64) 0 ++ (toLE 8 (8 * l.length)).reverse

/-- The digest of a message. -/
def sha256 (l : List Byte) : List Byte :=
  let m := shaPad l
  let start : ShaState := (wordsOf 4 0x6a09e667bb67ae853c6ef372a54ff53a, wordsOf 4 0x510e527f9b05688c1f83d9ab5be0cd19)
  let r := (List.range (m.length / 64)).foldl (fun st k => shaBlock st (slice m (64 * k) 64)) start
  (r.1 ++ r.2).flatMap fun w => (toLE 4 w.toNat).reverse

/-- HMAC-SHA-256 with a key of at most 64 bytes. -/
def hmacSha256 (key msg : List Byte) : List Byte :=
  let k := key ++ List.replicate (64 - key.length) 0
  sha256 (k.map (· ^^^ 0x5C) ++ sha256 (k.map (· ^^^ 0x36) ++ msg))

end Sys2Proof.Machine
end

