-- ==== Sys2Proof/Machine/State.lean ====
section
/-!
DEFINITION. The state of the Rexia AQ-16 as plain data, field by field as INVENTORY.md lists it, the
reasons a step can stop, and the state at reset: the start of BOOT after a power-on reset (log 2).
A field whose reset value the spec does not give starts at the default written here (log 1).
-/

namespace Sys2Proof.Machine

/-! ## Device and power -/

/-- The device states of Table 1-4 and Table 1-5; DOZE is a condition within READY or RUN. -/
inductive Dev where
  | off | boot | held | ready | run | safe | latched
deriving DecidableEq, Repr

/-- STATE.HCAUSE (R22). -/
inductive HeldCause where
  | none | noBolt | hostHold
deriving DecidableEq, Repr

/-- STATE.FRAME (R22). -/
inductive FrameSource where
  | noFrame | following | absent | byBolt
deriving DecidableEq, Repr

/-- STATE.CLK (R22). -/
inductive ClockState where
  | freeRunning | fsync | refclk | holdover
deriving DecidableEq, Repr

/-- The SYSTEM record (Table 20-5), with its defaults. -/
structure SysRec where
  selfFrames : Bool := false
  /-- 0 none, 1 FSYNC, 2 REFCLK. -/
  discipline : Fin 3 := 0
  autostart : Bool := false
  refResume : Bool := true
  tbActive : Bool := false
  holdMin : Nat := 60
  autoK : Nat := 10
  autoFrames : Nat := 360000
  autoPorts : BitVec 16 := 0
  attnMask : W16 := 0x03EF
  attnCfg : W32 := 0x000A0803
deriving DecidableEq, Repr

/-- A wake in progress (R329, R459): the LT of the tick in which the wake event was taken, whether a
bus transaction caused it. -/
structure Waking where
  since : W64
  byBus : Bool
deriving DecidableEq, Repr

/-- Power, device state, rails, clock and what the device record holds (spec/01, spec/22). -/
structure Core where
  dev : Dev := .boot
  hcause : HeldCause := .none
  wake : Bool := false
  stopping : Bool := false
  /-- The ramp-down in progress ends in HELD (SYS.HOLD), not in READY. -/
  stopToHeld : Bool := false
  doze : Bool := false
  waking : Option Waking := none
  /-- A wake event but for the bus's was taken in this tick (Table 1-6). -/
  woke : Bool := false
  /-- Conversion and the paused ports resume at the next boundary (R25, R79). -/
  wakeResume : Bool := false
  /-- In reset by RESET_N; the level of the pin; the reset is that of a power-up (R451, R460). -/
  rstLow : Bool := false
  rstPin : Bool := false
  powerUp : Bool := false
  /-- VDD above the power-on threshold (R449). -/
  powered : Bool := true
  bootTicks : Nat := 0
  porchUp : Bool := false
  /-- The cause SYS.INFO reports (R452). -/
  bootCause : Fin 4 := 0
  /-- The cause latch of R450 and the cause of the power-up in progress (R460). -/
  causeLatch : Bool := false
  everBooted : Bool := false
  /-- LT of the tick in which SYS.RESET posted OK (R453). -/
  resetPosted : Option W64 := none
  lt : W64 := 0
  bootCount : W32 := 1
  patchLevel : W32 := 0
  /-- The patch level of the stored patch, applied at the next BOOT (R365). -/
  patchStored : W32 := 0
  railsUp : Bool := false
  /-- Consecutive samplings out of regulation of VAP, VAN, VHT and the reference (R18). -/
  railBad : Vector Nat 4 := Vector.replicate 4 0
  /-- The departures whose blocks are stopped (R18). -/
  railHeld : BitVec 4 := 0
  /-- Ticks since a departed rail or the reference is back in regulation (R184, R408). -/
  railGood : Vector Nat 4 := Vector.replicate 4 0
  reeveRuns : Bool := true
  wdogTicks : Nat := 0
  refOn : Bool := false
  /-- LT of the tick from which the 25 ms of R183 count; LT of the tick in which the reference was
  enabled, from which those of Table 1-5 count. -/
  refSince : W64 := 0
  refEnabled : W64 := 0
  refWasOn : Bool := false
  /-- RUN has been asked for by SYS.START or autostart and waits for its boundary (R24). -/
  startAuto : Bool := false
  clk : ClockState := .freeRunning
  discPresent : Bool := false
  discEver : Bool := false
  /-- Consecutive ticks with REFCLK measured within 200 ppm (R487, R480). -/
  refclkGood : Nat := 0
  vddMv : Nat := 0
  iddUa : Nat := 0
  /-- Frames since notice 0x0104, by direction (R483). -/
  vddNoticeLow : Option Nat := none
  vddNoticeHigh : Option Nat := none
  sys : SysRec := {}
  /-- The sensors whose mean compensates the oscillator and the reference (R279, R282). -/
  oscSensor : Fin 9 := 0
  refSensor : Fin 9 := 0
  /-- The temperature those compensations stand at, in 0.01 degC (R282). -/
  oscComp : Option Int := none
  refComp : Option Int := none
deriving DecidableEq, Repr

/-- The pins that carry a level of the Rexia's own, and the inputs it has caught (spec/24, R47). -/
structure Pins where
  /-- True: the open-drain output sinks (is low). -/
  faultN : Bool := false
  almaN : Bool := false
  almbN : Bool := false
  /-- A source was uncleared and unmasked as the tick began: FAULT_N stays low to its end (R406). -/
  faultFrom : Bool := false
  /-- SYNC_N is driven low in the 4 ticks after this LT (R202). -/
  syncFrom : Option W64 := none
  /-- The device-wide SYNC response (Table 8-4). -/
  syncResponse : Bool := true
  /-- The level of QUIET, high until a first change is reported, as a board without a radio ties it; the spec
  gives no level (DESIGN CHOICE, log 57). Its level at the last sampling, and whether a low pulse or a change
  was caught since (R47). -/
  quiet : Bool := true
  quietAtSample : Bool := true
  quietCaught : Bool := false
deriving DecidableEq, Repr

/-! ## The frame scheduler (spec/02) -/

/-- A TDD pattern: 160 bytes (R39). -/
abbrev Pattern := Vector Byte 160

/-- The witness template (R58): by frame, the present one first and 16 before it, the results in LSB
of the 250 pA range with their ticks. -/
abbrev Witness := List (List (Nat × Int))

/-- The frame scheduler: the counters of FT, FSYNC following and loss, patterns, polders' margins and
the counts of FRAME.STATUS. -/
structure Frame where
  number : W32 := 0
  tick : Nat := 0
  started : Bool := false
  src : FrameSource := .noFrame
  /-- A boundary falls in this tick and its effects are not yet taken. -/
  boundary : Bool := false
  /-- That boundary is the start of frame 0: no frame has ended at it. -/
  first : Bool := false
  /-- Frame numbers have wrapped since frame 0. -/
  wrapped : Bool := false
  lastLen : Nat := 0
  /-- Ticks since the base from which the expected tick is counted (R31). -/
  sinceBase : Nat := 0
  /-- What the scheduler did with FSYNC in this tick, for the event that reports it (Table 2-1). -/
  edge : Bool := false
  slip : Option Int := none
  edgeIgnored : Bool := false
  selfMade : Bool := false
  reacquired : Bool := false
  waitOver : Bool := false
  missed : Nat := 0
  /-- Ticks since the last sampled edge and edges in a row 638 to 642 ticks apart (R32, R487). -/
  sinceEdge : Option Nat := none
  goodEdges : Nat := 0
  /-- The clock's own watch of FSYNC with self-generated frames (R487): ticks since the base of the
  expected tick, and periods in a row without an edge. -/
  clockSince : Nat := 0
  clockMissed : Nat := 0
  waitTicks : Nat := 0
  slips : W32 := 0
  ignored : W32 := 0
  cuts : W32 := 0
  contradicted : W32 := 0
  hours : W32 := 0
  /-- Tick 639 of the frame before was predicted quiet under its own pattern (R44). -/
  quietBefore : Bool := true
  /-- R49: polder ticks not quiet in this frame and the last, the run of such counted frames, frames
  since the notice. -/
  badPolder : Nat := 0
  badLast : Nat := 0
  badRun : Nat := 0
  badSince : Option Nat := none
  /-- R60: the ports unguarded in this frame, and frames since unguarded measurement began. -/
  unguarded : BitVec 16 := 0
  unguardedFrames : Nat := 0
  patterns : Vector Pattern 4 := Vector.replicate 4 (Vector.replicate 160 0xAA)
  active : Fin 4 := 0
  lead : Nat := 2
  trail : Nat := 1
  guarded : Nat := 4
  witness : Witness := []
deriving DecidableEq, Repr

/-- A placed window: start tick and length (R51). -/
structure Win where
  start : Nat
  len : Nat
deriving DecidableEq, Repr

/-- A heater part of the plan (R269): the port, its step and the frame tick it drives from. -/
structure HeatPart where
  port : PortId
  step : Nat
  tick : Nat
  ticks : Nat
  /-- The parts of the same step before it in the frame. -/
  nth : Nat := 0
deriving DecidableEq, Repr

/-- The plan of one frame (R51 to R57, R267 to R273). -/
structure Plan where
  polders : List (Nat × Nat) := []
  /-- As packed, before any deferral (R56). -/
  packed : Vector (List Win) 16 := Vector.replicate 16 []
  /-- Those that run. -/
  placed : Vector (List Win) 16 := Vector.replicate 16 []
  /-- The port was packed as unguarded (R57), or into polders (R51). -/
  unguarded : BitVec 16 := 0
  inPolders : BitVec 16 := 0
  /-- The ports on a guarded range, and L and Lmin of each, for the cause of notice 0x1206 (R56). -/
  guarded : BitVec 16 := 0
  lens : Vector (Nat × Nat) 16 := Vector.replicate 16 (0, 0)
  heat : List HeatPart := []
  /-- The parts refused (R126). -/
  heatRefused : List HeatPart := []
  /-- The plan was frozen below SEVERE and may end its hold on the heaters (R286). -/
  heatersOk : Bool := true
  /-- Gauze excitation allowed in this frame, by port (R273). -/
  gauze : BitVec 16 := 0
  /-- First tick of a seam training run (R181). -/
  training : Option Nat := none
  /-- theta of R272 in percent. -/
  theta : Nat := 100
  /-- Planned price in 0.01 uJ (R268). -/
  price : Nat := 0
  /-- The margins and the pattern the plan was formed with, for the cause of notice 0x1206 (R56). -/
  lead : Nat := 2
  trail : Nat := 1
deriving DecidableEq, Repr

/-- The plan in force, the plan frozen for the next frame. -/
structure PlanSt where
  cur : Option Plan := none
  next : Option Plan := none
  /-- LT of this frame's freeze, once it has passed (R267). -/
  frozenAt : Option W64 := none
deriving DecidableEq, Repr

/-! ## Ports (spec/03, spec/04) -/

/-- Port modes (Table 3-1). -/
inductive Mode where
  | none | ec4 | ec3 | mox | irt | cap | aux
deriving DecidableEq, Repr

/-- Port states (Table 3-7). -/
inductive PortState where
  | disabled | stopped | starting | running | stopping | paused | shut
deriving DecidableEq, Repr

/-- The first or last conversion of a window (R94): signed packet count so far, the converter's code
as a voltage, its sampling instant in clocks since LT 0 (in twill Weft's may lie on a half clock, R175), and
whether the seam was stale (R180). -/
structure Sample where
  np : Int
  v : Rat
  clk : Rat
  stale : Bool
deriving DecidableEq, Repr

/-- A window that is open on a current input. -/
structure OpenWin where
  /-- The frame it lies in. -/
  frame : W32
  start : Nat
  len : Nat
  /-- LT of its first tick. -/
  first : W64
  /-- The tables name the signal. -/
  named : Bool
  /-- Placed in a polder (R48), or unguarded (R57). -/
  inPolder : Bool
  isUnguarded : Bool
  range : Fin 8
  startSample : Option Sample := none
  breach : Bool := false
  neighbour : Bool := false
  cellSettling : Bool := false
  /-- The sign of a clip that fixed the result (R98). -/
  clip : Option Bool := none
  /-- The template's mean over its ticks in LSB of the 250 pA range, once it has ended (R59). -/
  corr : Rat := 0
deriving DecidableEq, Repr

/-- A current input of a port (spec/04). -/
structure Input where
  lo : Fin 8 := 0
  hi : Fin 8 := 7
  start : Fin 8 := 7
  s : Nat := 10
  range : Fin 8 := 7
  /-- The range the next plan takes (R54), if a change is decided. -/
  nextRange : Option (Fin 8) := none
  /-- An overload step to be made at the next window (R100). -/
  stepUp : Bool := false
  /-- The range of the plan frozen for the next frame. -/
  planned : Option (Fin 8) := none
  /-- The old range of a change of which no window has completed yet (R104). -/
  changed : Option (Fin 8) := none
  pinned : Option (Fin 8) := none
  nearRun : Nat := 0
  lowRun : Nat := 0
  /-- This frame: one range so far and no result that breaks the low-signal rule (R103). -/
  lowOk : Bool := false
  results : Nat := 0
  ovrSeen : Bool := false
  /-- Frames since the ceiling notice, while OVR recurs (R100). -/
  ceilAge : Option Nat := none
  qp : Vector Rat 8
  cf : Vector Rat 8
  /-- The last first-conversion of a tick: LT of its tick and the sample (R94). -/
  lastSample : Option (W64 × Sample) := none
  openWin : Option OpenWin := none
  doneWin : Option OpenWin := none
  /-- The integrator is reset at the start of the next tick (R98). -/
  resetNext : Bool := false
  /-- NEIGHBOUR_OVR is owed up to this LT inclusive, because of another input (R98). -/
  neighbourTo : Option W64 := none
deriving DecidableEq, Repr

/-- One port. -/
structure Port where
  mode : Mode := .none
  rtd : Bool := false
  state : PortState := .disabled
  departs : Bool := false
  /-- Target bias code, applied bias in microvolts as an exact number, rate in 0.01 mV/ms, VCM in
  10 mV (R87, Table 4-1). -/
  bias : Int := 0
  applied : Rat := 0
  target : Rat := 0
  rate : Nat := 100
  /-- The rate of the ramp in progress: that of PORT.BIAS as the ramp began (R90). -/
  rampRate : Nat := 100
  vcm : Nat := 70
  ramping : Bool := false
  /-- LT of the tick in which the target was reached. -/
  reachedAt : W64 := 0
  /-- The potentiostat is engaged at zero bias in tick 639 before a start (R79). -/
  engaged : Bool := false
  /-- 0 10 uA, 1 100 uA, 2 1 mA (R488). -/
  aux : Fin 3 := 2
  ring : Byte := 0
  vlayer : Int := 200
  len : Nat := 32
  lmin : Nat := 16
  settle : Nat := 30
  shortSettle : Nat := 2
  /-- CELL_SETTLING in force; the LT of the tick from which it counts, once known; short or full
  (R106 to R108). -/
  settling : Bool := false
  settleFrom : Option W64 := none
  settleShort : Bool := false
  /-- The tick (LT) in which the last settling time ended (R108). -/
  settledAt : Option W64 := none
  /-- The last tick (LT) in which the port was in calibration hold (R244). -/
  heldAt : Option W64 := none
  inputs : Vector Input 2
  rank : Fin 4 := 1
  rest : Bool := false
  breach : W32 := 0
  unguardedCount : W32 := 0
  pinBad : Nat := 0
  ringBad : Nat := 0
  ceBad : Nat := 0
  ringNoticed : Bool := false
  ceNoticed : Bool := false
  vreBad : Nat := 0
  vreAge : Option Nat := none
  /-- The frame in which VRE was last compared (R91). -/
  vreFrame : Option W32 := none
  /-- Trims of the voltage path, in microvolt and ppm, and of the potentiostat's bias code in microvolt (R257). -/
  offset : Rat
  gainPpm : Rat
  biasErr : Rat
deriving DecidableEq, Repr

/-! ## Heated sensors (spec/05) -/

/-- Plate parameters (Table 5-2), in the units of HEAT.PLATE (Table 16-6). -/
structure Plate where
  /-- R0 and alpha are given. -/
  tcr : Bool := false
  tmax : Nat := 450
  /-- mOhm. -/
  r0 : Nat := 0
  /-- 0.1 ppm/K. -/
  alpha : Int := 0
  /-- 0.001 ppm/K^2. -/
  beta : Int := 0
  /-- 0.1 mW, mA, 0.1 K/mW, 0.1 ms. -/
  pmax : Nat := 600
  imax : Nat := 40
  rth : Nat := 200
  tau : Nat := 100
  coupled : BitVec 16 := 0
  /-- 0 the die sensor, 1 to 5 a source of Table 9-3, with its port or sensor. -/
  ambient : Nat := 0
  ambientIdx : Nat := 0
deriving DecidableEq, Repr

/-- A profile step: the fields of Table 5-3. -/
structure HeatStep where
  /-- 0 OFF, 1 TEMP, 2 POWER. -/
  kind : Nat
  inFrames : Bool
  ramp : Bool
  capture : Option (Fin 64)
  setpoint : Nat
  duration : Nat
  span : Nat
deriving DecidableEq, Repr

inductive EndMode where
  | loop | onceOff | onceHold
deriving DecidableEq, Repr

structure Profile where
  steps : List HeatStep
  endMode : EndMode
  autostart : Bool
deriving DecidableEq, Repr

/-- Stopped; running its steps; holding a setpoint after ONCE_HOLD; holding the last setpoint until a
frame-locked replacement can start (R124). -/
inductive HeatRun where
  | stopped | running | held | waiting
deriving DecidableEq, Repr

/-- Causes of a heater trip (Table 5-5, HEAT.STATUS). -/
inductive Trip where
  | openElement | shortedElement | overtemperature | jump
deriving DecidableEq, Repr

/-- A result a feature may be taken from (R131): first and last tick it covers, value (ampere or
volt), flags. -/
structure FeatureIn where
  first : W64
  last : W64
  value : Rat
  flags : W16
deriving DecidableEq, Repr

/-- A feature span that has ended (R131): feature, first and last tick. -/
structure SpanEnd where
  feature : Fin 64
  first : W64
  last : W64
deriving DecidableEq, Repr

/-- What a step asks for as the plan prices it: its kind, and its setpoint, for a RAMP the larger of its two
(R125). -/
structure Drive where
  kind : Nat
  set : Nat
deriving DecidableEq, Repr

/-- What is in force in a tick: the step's number, the tick in which it began, and what it asks for. -/
abbrev InForce := Nat × W64 × Drive

/-- One heater driver. -/
structure Heater where
  plate : Plate := {}
  profile : Option Profile := none
  nextProfile : Option Profile := none
  run : HeatRun := .stopped
  /-- The step in force and the LT of its first tick. -/
  step : Nat := 0
  since : W64 := 0
  /-- No step of this iteration has begun: the step still in force, an OFF step before a start (R127). -/
  lead : Option HeatStep := none
  /-- Ticks of the iteration's timeline gone, and the ticks realignment adds to it (R122). -/
  pos : Nat := 0
  adj : Int := 0
  /-- A step has fallen due and has not begun (R127). -/
  due : Option Nat := none
  /-- The last step of the iteration has ended (R120). -/
  iterEnd : Bool := false
  /-- The profile starts at the next frame boundary (R121). -/
  startNext : Bool := false
  /-- The replacement was loaded after the doorbell of a HEAT.STOP that still waits (R136). -/
  late : Bool := false
  /-- The driver gave drive in the tick before; it gives drive in this tick; this is the probe tick
  (R117). -/
  before : Bool := false
  drove : Bool := false
  probe : Bool := false
  /-- The last off-profile tick (R132). -/
  lastOff : Option W64 := none
  /-- The last measurement: VHS in uV, IHT in nA (R116). -/
  vhsUv : Nat := 0
  ihtNa : Nat := 0
  limit : Option HeatLimit := none
  /-- The driver runs at a limit in this tick (R132). -/
  atLimit : Bool := false
  limitTicks : Nat := 0
  limitAge : Option Nat := none
  openRun : Nat := 0
  shortRun : Nat := 0
  /-- A check of Table 5-5 has tripped in this tick, and the trip in force. -/
  tripDue : Option Trip := none
  trip : Option Trip := none
  /-- A trip has come since the last new start: the drive stays off (R135). -/
  tripped : Bool := false
  skipped : W32 := 0
  /-- T_m of R269 in degC at the end of the last planned frame, whose LT `tmLt` is; none: at the ambient. -/
  tm : Option Rat := none
  tmLt : W64 := 0
  /-- What has been in force in this frame before this tick, newest first: the parts of R126 as they ran. -/
  ran : List InForce := []
  results : List FeatureIn := []
  spanEnd : Option SpanEnd := none
deriving DecidableEq, Repr

/-! ## The system side -/

/-- A lane's emitted value with its flags. -/
structure Out where
  value : W24
  flags : W16
deriving DecidableEq, Repr

/-- A SAMPLE ring entry (Table 14-2), as its 64 bits. -/
abbrev SampleEntry := W64

/-- A NOTICE ring entry (Table 14-4), as its 128 bits. -/
abbrev NoticeEntry := BitVec 128

/-- The KIND of a notice (Table 14-4) but for the gap marker. -/
inductive Kind where
  | ordinary | alarm | fault
deriving DecidableEq, Repr

/-- A notice raised during BOOT, held to its end (R303). -/
structure HeldNotice where
  code : W16
  kind : Kind
  args : W64
deriving DecidableEq, Repr

/-- The rings, their sluices and the live values' latch (spec/14). -/
structure Rings where
  sample : List SampleEntry := []
  sseq : Byte := 0
  /-- Entries dropped since the last marker; a gap is pending while it is some. -/
  sgap : Option Nat := none
  /-- A gap was pending and an entry free at the start of this tick: its marker is due (R302). -/
  gapDue : Bool := false
  sdrop : W32 := 0
  notice : List NoticeEntry := []
  nseq : Byte := 0
  ngap : Option Nat := none
  ndrop : W16 := 0
  nalost : W16 := 0
  held : List HeldNotice := []
  water : Nat := 4096
  armed : Bool := true
  slatch : SampleEntry := 0x00000000FD000000
  nlatch : NoticeEntry := 0
  /-- The ring positions the next entries take (R415, Table 19-2). -/
  swr : Nat := 0
  nwr : Nat := 0
  lvFlags : W16 := 0
  lvTag : Byte := 0xFD
  lvGen : Byte := 0
deriving DecidableEq, Repr

/-- Live values: 24 bits, GEN, and the flag word (R310, R311). -/
structure Live where
  value : W24 := 0
  gen : Byte := 0
  flags : W16 := 0
deriving DecidableEq, Repr

inductive AttnState where
  | idle | pending | sent | halted
deriving DecidableEq, Repr

/-- What holds back the next attempt after a failure or a loss (R339). -/
inductive AttnWait where
  | none | forStop | forFree | backoff
deriving DecidableEq, Repr

/-- The bus port (spec/15). -/
structure Bus where
  pointer : W16 := 0
  toutScl : Bool := false
  toutSda : Bool := false
  addrMis : Bool := false
  addr : BitVec 7 := 0
  addrValid : Bool := false
  nfail : Byte := 0
  arbLost : Byte := 0
  /-- The bytes the Rexia drove in the last read transaction: the model's output. -/
  rdata : List Byte := []
  busy : Bool := true
  /-- The Rexia takes part in a transaction: since its address match, to the next START or STOP (R330). -/
  inTrans : Bool := false
  attn : W16 := 0
  attnMask : W16 := 0x03EF
  attnCfg : W32 := 0x000A0803
  machine : AttnState := .idle
  /-- LT of the last success, for RENOTIFY. -/
  sentAt : W64 := 0
  failRun : Nat := 0
  /-- LT of the tick whose events coincide with a read of ATTN that found the machine PENDING: a masked bit one of
  them leaves set keeps it PENDING (R337, R9). -/
  readPending : Option W64 := none
  wait : AttnWait := .none
  /-- LT of the STOP, or of the bus becoming free, from which the backoff counts (R339). -/
  backoffFrom : W64 := 0
  /-- The 12 bytes of a digest check that the reeve has still to compare (R334). -/
  digestAsked : Option (List Byte) := none
  /-- The bytes of the last Host Notify write (R338): the model's output. -/
  notified : List Byte := []
deriving DecidableEq, Repr

/-- Status codes (Table 17-11). -/
inductive Status where
  | ok | pending | badOpcode | badLength | badArg | busy | wrongState | refCold
  | locked | ledgerShort | nvmHot | nvmWorn | boltInvalid
deriving DecidableEq, Repr

/-- MBSTAT.STATE (Table 16-3). -/
inductive SlotState where
  | free | queued | running | pending | done
deriving DecidableEq, Repr

structure Slot where
  bytes : Vector Byte 64 := Vector.replicate 64 0
  st : SlotState := .free
  ign : Bool := false
  /-- The request had its effect in the tick of its doorbell (R202, R246) and waits for its answer. -/
  early : Bool := false
  /-- LT of the tick in which its last accepted doorbell was taken. -/
  rung : W64 := 0
  /-- The word that was uncorrectable at its doorbell (R401). -/
  bad : Option (Fin 16) := none
deriving DecidableEq, Repr

/-- What a PENDING command waits for. -/
inductive Wait where
  /-- The k-th next frame boundary, 1 the next (R347). -/
  | boundary (k : Nat)
  /-- The boundary of the stated frame (R41). -/
  | frame (n : W32)
  /-- The port being STOPPED (R80). -/
  | portStop (p : PortId)
  | sysStop
  | sysHold
  | sysStart
  /-- The boundary that follows the freeze at which it applies (R266, R292). -/
  | grant
  | thermAck
  | gauzeFall (p : PortId)
  | calStep (p : PortId)
  | calElec (t : CalTarget)
  | timeEdge (d : Dom)
  | boltCommit
  | boxErase
  | patch
  | urgent
  | syncRelease
  /-- Applied, and the final status falls due at the boundary (R142, R226). -/
  | effectAt (n : W32)
deriving DecidableEq, Repr

/-- A PENDING command: its slot, opcode and request (for a chunked one SEL and the object), and what
it waits for. -/
structure Pend where
  slot : SlotId
  op : W16
  payload : List Byte
  wait : Wait
  /-- LT of the doorbell's execution. -/
  since : W64
deriving DecidableEq, Repr

/-- A final status a stalled reeve has not posted yet (R13): slot, STATUS, DETAIL and response. -/
structure Owed where
  slot : SlotId
  status : Status
  detail : Nat
  resp : List Byte
deriving DecidableEq, Repr

/-- A chunk staging (R349). -/
structure Staging where
  op : W16
  sel : Nat
  total : Nat
  data : List Byte
  /-- LT of the last chunk. -/
  last : W64
  /-- The object is complete and HELD (SEQ.LOAD only). -/
  complete : Bool := false
deriving DecidableEq, Repr

/-- The snapshot of a read object (R350). -/
structure Snapshot where
  op : W16
  sel : Nat
  frame : W32
  data : List Byte
deriving DecidableEq, Repr

structure Mbox where
  slots : Vector Slot 4 := Vector.replicate 4 {}
  /-- QUEUED slots in doorbell order (R344). -/
  queue : List SlotId := []
  /-- Doorbells to be taken in this tick, or at the end of BOOT (R343, R346); those whose DBELL byte a burst has
  written since. -/
  rung : Byte := 0
  rungNext : Byte := 0
  pend : List Pend := []
  /-- Completions that wait for a stalled reeve, in order (R13). -/
  owed : List Owed := []
  staging : List Staging := []
  snaps : List Snapshot := []
deriving DecidableEq, Repr

/-- A PPS stamp (R384): frame, tick, clock, the domain's time at the edge in 2^-40 s. -/
structure Stamp where
  frame : W32
  tick : Nat
  clock : Nat
  lt : W64
  time : Nat
deriving DecidableEq, Repr

/-- A network time domain (R378 to R389). Its time is held in units of 2^-48 s. -/
structure Domain where
  time : Nat := 0
  valid : Bool := false
  inc : Nat := 4398046511
  /-- D(t) and INC of the last ticks before this one, newest first (R380). -/
  past : List (Nat × Nat) := []
  /-- The increment that takes over in the next tick (R383, R388). -/
  nextInc : Option Nat := none
  reeve : Bool := false
  stamp : Option Stamp := none
  edges : W32 := 0
  present : Bool := false
  /-- Accepted before, since BOOT or the report of absence. -/
  hasLast : Bool := false
  /-- LT and clock of the last accepted edge. -/
  lastLt : W64 := 0
  lastClock : Nat := 0
  /-- The absence has been reported. -/
  reported : Bool := false
  outliers : Nat := 0
  outlierAge : Option Nat := none
  /-- The last accepted intervals in clocks, newest first, at most eight (R388). -/
  history : List Nat := []
  locked : Bool := false
  lockRun : Nat := 0
  unlockRun : Nat := 0
  lastErr : Int := 0
  /-- The edge a waiting TIME.SET applies at: LT of its tick and its clock (R382). -/
  setEdge : Option (W64 × Nat) := none
deriving DecidableEq, Repr

/-- A time trigger (R393). -/
structure Trigger where
  /-- 0 FT, 1 TA, 2 TB. -/
  base : Nat
  action : Nat
  wake : Bool
  repeats : Bool
  port : PortId
  /-- FT: frame and tick; TA, TB: time in 2^-40 s. -/
  frame : W32
  tick : Nat
  time : Nat
  period : Nat
deriving DecidableEq, Repr

structure Time where
  ta : Domain := {}
  tb : Domain := {}
  activeTb : Bool := false
  /-- O of R390, in 2^-48 s. -/
  o : Int := 0
  /-- O became zero in this tick (R391). -/
  slewDone : Bool := false
  triggers : Vector (Option Trigger) 16 := Vector.replicate 16 none
  /-- Actions of wake triggers to be carried out after the wake (R395). -/
  owed : List (Fin 16 × Trigger) := []
deriving DecidableEq, Repr

/-- Fault classes (R405). -/
inductive FClass where
  | notice | minor | severe | grave
deriving DecidableEq, Repr

/-- A reaction in progress (R407). -/
structure Reaction where
  /-- Ticks of grace left; it does not run during BOOT (R406). -/
  grace : Nat
  /-- Ticks since the event. -/
  age : Nat := 0
  /-- LT of the action tick, once taken. -/
  action : Option W64 := none
  /-- The action has to be checked in the eighth tick after it (R408). -/
  checks : Bool := false
  /-- Boundaries since the action. -/
  boundaries : Nat := 0
  /-- The reeve has taken its action of Table 19-1. -/
  acted : Bool := false
deriving DecidableEq, Repr

/-- One fault source (spec/19). -/
structure FSource where
  cls : FClass := .minor
  n : Nat := 3
  w : Nat := 6000
  masked : Bool := false
  inForce : FClass := .minor
  /-- Promoted since its last clear (R404). -/
  promoted : Bool := false
  observed : Bool := false
  forced : Bool := false
  /-- The FORCE bit, and the value it takes from the next tick (R413). -/
  force : Bool := false
  nextForce : Option Bool := none
  nextMask : Option Bool := none
  /-- Ages in frames of the events since the last clear, as long as any window can hold them (R404). -/
  events : List Nat := []
  consequent : Nat := 0
  reaction : Option Reaction := none
  det : Bool := false
  prevDet : Bool := false
  /-- Ticks in a row without detection, up to 8. -/
  quietTicks : Nat := 0
  /-- The detection comes from an injected word (R415). -/
  detInjected : Bool := false
  /-- The event of the tick before was not taken in it: it is taken in this one (R402, log 74). -/
  owed : Bool := false
  /-- The event of this tick is taken (R402). -/
  taken : Bool := false
  /-- Cleared since the last event (R402). -/
  fresh : Bool := false
  /-- A FAULT.CONFIG that waits for the end of the reaction (R417). -/
  pendCfg : Option (FClass × Nat × Nat) := none
deriving DecidableEq, Repr

structure Faults where
  src : Vector FSource 64
  /-- Grace time in ms. -/
  grace : Nat := 50
  /-- FAULT.ECC: the armed word (checker, address, mask), and the words written with it: checker,
  address and whether uncorrectable (R415). -/
  armed : Option (Fin 5 × Nat × Nat) := none
  injected : List (Fin 5 × Nat × Bool) := []
  /-- The sources whose hold lasts until the tick after the clear (R408): heater drivers off by
  VHT or PWR_OVL, converters held, heater groups off, heater parts deferred. -/
  heatHeld : BitVec 64 := 0
  convHeld : Bool := false
  /-- The reeve's action for PWR_OVL: the plan defers every heater part until the clear (Table 19-1). -/
  heatDefer : Bool := false
  /-- The sources cleared in this tick: their holds end in the next (R408). -/
  freed : BitVec 64 := 0
  /-- The uncorrectable words that the checkers of the rings and of the mailbox have reported in this tick, each until
  the read that finds its word (R401). -/
  found : BitVec 64 := 0
deriving DecidableEq, Repr

/-- What a bolt slot holds (R371, R424). -/
structure BoltSlot where
  bytes : List Byte := []
  /-- The object's announced length while staging. -/
  total : Nat := 0
  /-- The last chunk passed the selvedge check. -/
  valid : Bool := false
  /-- The slot's commit mark in the device record, none written while empty (R424). -/
  mark : List Byte := []
  rejected : Bool := false
deriving DecidableEq, Repr

structure Bolt where
  a : BoltSlot := {}
  b : BoltSlot := {}
  /-- Slot in force: some false A, some true B. -/
  inForce : Option Bool := none
  gen : W32 := 0
  digest : List Byte := []
  /-- The slot the running BOLT.STAGE writes. -/
  target : Bool := false
deriving DecidableEq, Repr

/-- A black-box record before its NUMBER and CHECK (Table 20-6). -/
structure Rec where
  type : Byte
  staged : Bool
  holdup : Bool
  atValid : Bool
  temp : Int
  lt : W64
  atSec : W32
  atFrac : W16
  args : W64
deriving DecidableEq, Repr

structure Box where
  /-- Readable records by physical position, newest first (R429). -/
  recs : List (Nat × List Byte) := []
  /-- Position of the newest. -/
  newest : Nat := 0
  number : W32 := 0
  eraseCount : W32 := 0
  ready : Bool := true
  staged : List Rec := []
  /-- The 64th place: the STAGE_OVERFLOW record as it was produced, and the records it counts (R430). -/
  overflow : Option Rec := none
  dropped : Nat := 0
  /-- The last program of a record: its LT, and the NUMBER before it (R436). -/
  begun : Option (W64 × W32) := none
  /-- An open heat interval: NUMBER of its HEAT_ENTRY once written, staged records committed and
  dropped in it (R431). -/
  heat : Option (Option W32 × Nat × Nat) := none
  erasing : Bool := false
  pageErase : Bool := false
  /-- A record has failed verification: source 13 detects in the next tick (R429). -/
  wear : Bool := false
deriving DecidableEq, Repr

structure Lock where
  sealed : Bool := true
  /-- 0 SEALED, 1 SERVICE, 2 FACTORY. -/
  level : Fin 3 := 0
  fails : Nat := 0
  attempts : W32 := 0
  /-- A lockout in force: its length in s and the LT it counts from (R443, R444). -/
  lockout : Option (Nat × W64) := none
  nonce : Option (List Byte × W64) := none
deriving DecidableEq, Repr

/-- One die sensor (spec/13). -/
structure Sensor where
  reading : Option Int := none
  sum : Int := 0
  count : Nat := 0
  mean : Option Int := none
  /-- The mean of the frame just ended and its missed ticks (R289). -/
  missed : Nat := 0
  missedLast : Nat := 0
  /-- It held the highest reading in a tick of this frame, of the last (R290). -/
  highest : Bool := false
  highestLast : Bool := false
  /-- The thresholds crossed rising and not yet falling: WARM, HOT, SEVERE, SHUTDOWN (R284). -/
  up : BitVec 4 := 0
  /-- Dwell counts of WARM, HOT, SEVERE, SHUTDOWN rising and of the first three falling. -/
  rise : Vector Nat 4 := Vector.replicate 4 0
  fall : Vector Nat 3 := Vector.replicate 3 0
  failed : Bool := false
deriving DecidableEq, Repr

structure Therm where
  sensors : Vector Sensor 9 := Vector.replicate 9 {}
  /-- Device thermal state as last reported (R285). -/
  state : Fin 5 := 0
  hold : Fin 5 := 0
  forced : Bool := false
  failures : Nat := 0
  /-- theta of the plan in force, percent. -/
  theta : Nat := 100
  /-- Deepest state since tick 0 of this frame, and of the last frame (R286, R290). -/
  deepest : Fin 5 := 0
  deepestLast : Fin 5 := 0
  /-- The heat comparator of R431 and its dwell. -/
  heatHigh : Bool := false
  heatRise : Nat := 0
  heatFall : Nat := 0
  /-- SEVERE has switched the heaters off; a plan frozen below SEVERE ends it (R286). LT of the tick in which
  it last did. -/
  heatersOff : Bool := false
  offAt : Option W64 := none
  /-- LT of the tick in which the device last left NORMAL (R431). -/
  warmAt : Option W64 := none
  /-- The temperature comparators are owed the means of the frame just ended (R231). -/
  leveeDue : Bool := false
  /-- The reading crossings of this tick are settled, but a declared failure is not yet (R291). -/
  stale : Bool := false
  /-- The nearest sensor chosen by the median rule, by row of Table 13-1 (R279). -/
  chosen : Vector (Option (Fin 9)) 9 := Vector.replicate 9 none
  /-- THERM.ACK accepted and not yet used (R292). -/
  ack : Bool := false
deriving DecidableEq, Repr

/-! ## Gauze, converters, lanes, gas, levees, calibration, ledger -/

/-- A tone (Table 6-2): harmonic, amplitude in 0.01 mV rms, start phase in 1/65536 turn. -/
structure Tone where
  k : Nat
  amp : Nat
  phase : Nat
deriving DecidableEq, Repr

/-- A tone plan (Table 6-1). -/
structure TonePlan where
  /-- Base frequency in mHz. -/
  f0 : Nat
  tones : List Tone
  lead : Nat
  m : Nat
  count : Nat
  vref : Bool
  floor : Fin 8
  fit : Bool
  autostart : Bool
deriving DecidableEq, Repr

inductive GauzePhase where
  | idle | lead | integ | fall
deriving DecidableEq, Repr

/-- A tone result (Table 6-4) with its whole flag word. -/
structure ToneResult where
  zmag : F32
  zph : Int
  k : Nat
  imag : F32
  serial : Nat
  flags : W16
  measured : Bool
deriving DecidableEq, Repr

/-- Parameters of the cell model (R152). -/
structure CellFit where
  rs : F32
  rct : F32
  cdl : F32
deriving DecidableEq, Repr

/-- The last cell-health report (R155): status 0 fitted, 1 and 2 rejected, 3 no reference. -/
structure Health where
  cell : CellFit := { rs := 0, rct := 0, cdl := 0 }
  hi : Nat := 0
  residual : Nat := 0
  flags : W16 := 0
  status : Fin 4 := 3
deriving DecidableEq, Repr

/-- A conversion the gauze engine demodulates (R146): its sampling instant in clocks since LT 0, the charge in
coulomb or the voltage, its flags. -/
structure Demod where
  clk : Rat
  x : Rat
  flags : W16
deriving DecidableEq, Repr

/-- The run of a plan: LT of its start tick; base periods gone at the start of the integration in progress; integrations
completed; the conversions of I1 and of the reference signal in it (R146). -/
structure GauzeRun where
  start : W64
  intStart : Nat
  serial : Nat
  charge : List Demod
  volts : List Demod
deriving DecidableEq, Repr

/-- The gauze engine of one port (spec/06). -/
structure Gauze where
  /-- The loaded plan; none runs the default of the port's mode (R138). -/
  plan : Option TonePlan := none
  phase : GauzePhase := .idle
  /-- Frame boundaries until each triggered start that waits (R142). -/
  starts : List Nat := []
  /-- LT of the start tick; base periods gone at the start of the integration in progress. -/
  start : W64 := 0
  intStart : Nat := 0
  fallFrom : W64 := 0
  /-- What discards an integration falls within the one that begins as the last ends (R147). -/
  spoilt : Bool := false
  /-- Excitation is withheld in this frame (R273). -/
  withheld : Bool := false
  /-- The conversions of I1 and of the reference signal since the start of the integration (R146). -/
  charge : List Demod := []
  volts : List Demod := []
  /-- A run that this boundary has ended or restarted just as an integration of it had ended, whose results are still to
  come (R148). -/
  ended : Option GauzeRun := none
  /-- LT of the last tick in which a slow tone was applied (R150). -/
  slowAt : Option W64 := none
  /-- Integrations since the plan started; completed, discarded and skipped starts for GAUZE.STATUS. -/
  serial : Nat := 0
  completed : W16 := 0
  discarded : W32 := 0
  skipped : W32 := 0
  results : List ToneResult := []
  /-- F0 of the plan that gave them. -/
  resultsF0 : Nat := 0
  /-- A fit is due (R152). -/
  fitDue : Bool := false
  health : Option Health := none
  refs : Option CellFit := none
  /-- Fits that may supply references at a commit (R253), with LT and frame of their completion, newest
  first; and whether the first to come shall. -/
  goodFits : List (CellFit × W64 × W32) := []
  refsWanted : Bool := false
  /-- k of Rs, Rct, Cdl: 3.0, 3.0, 2.0 (R154). -/
  spread : CellFit := { rs := 0x40400000, rct := 0x40400000, cdl := 0x40000000 }
  threshold : Nat := 500
  hiLow : Bool := false
  /-- C0, h0 to h3 (R156). -/
  cap : List F32 := [0, 0, 0, 0, 0]
  /-- RH in 0.01 %RH with its flags, and its age in integrations. -/
  rh : Option (Nat × W16) := none
  rhAge : Nat := 0
  /-- Formed in this gas frame, and in the one that closed in this frame's tick 0 (R206). -/
  rhNew : Bool := false
  rhClosed : Option (Nat × W16) := none
deriving DecidableEq, Repr

/-- CLASS of a sequence entry (Table 7-2). -/
inductive EntryClass where
  | port | internal | swatch | reserved | open_
deriving DecidableEq, Repr

/-- A sequence entry (Table 7-2). -/
structure Entry where
  cls : EntryClass
  port : PortId := 0
  sig : Nat := 0
  src : Nat := 0
  acq : Nat := 8
  gain : Fin 5 := 0
  lane : Option LaneId := none
deriving DecidableEq, Repr

/-- The three tables as given by the bolt or SEQ.LOAD; none: the default (R162). -/
structure Tables where
  warp : Option (List Entry) := none
  weft : Option (List Entry) := none
  twill : Option Entry := none
deriving DecidableEq, Repr

/-- A one-shot request that is being served (R173): its slot, LT of its doorbell, the slot's gain. -/
structure Urgent where
  slot : SlotId
  taken : W64
  /-- The clock of its sampling instant since LT 0. -/
  sample : Nat
deriving DecidableEq, Repr

/-- The seam's correction of Weft against Warp (R177): offset in LSB, gain as a part of one, timing in 1/256
clock. -/
structure SeamTrim where
  offset : Rat
  gain : Rat
  timing : Int
deriving DecidableEq, Repr

/-- Limited to the ranges of Table 7-8. -/
def SeamTrim.limited (x : Rat × Rat × Int) : SeamTrim :=
  { offset := max (-512) (min 512 x.1), gain := max (-1 / 200) (min (1 / 200) x.2.1)
    timing := max (-256) (min 256 x.2.2) }

/-- The seam (R177 to R181). -/
structure Seam where
  /-- The correction in force; it stays as twill is left (R179). -/
  trim : SeamTrim := SeamTrim.limited Config.seamFactory
  /-- The twill input's codes in this tick, newest first (R178). -/
  codes : List Int := []
  usable : Nat := 0
  sinceUsable : Nat := 0
  converged : Bool := false
  /-- A training has succeeded since the twill input was last set (R179). -/
  trained : Bool := false
  /-- 15 minutes without a usable tick (R180). -/
  aged : Bool := false
  /-- Notices due: converged, aged. -/
  convergedDue : Bool := false
  agedDue : Bool := false
  /-- First tick of the training run in progress. -/
  training : Option W64 := none
  fails : Nat := 0
  failRun : Nat := 0
  /-- The lane is reset at the first conversion after a training run. -/
  resetLane : Bool := false
deriving DecidableEq, Repr

/-- The self-test of one converter (R167, R172): the gains and swatches (0 ZERO, 1 POS, 2 NEG) queued, the LT of
the tick in which they were, frames since, the codes of swatches not yet judged, and the swatches outside
their limit in the last cycle. -/
structure SwatchTest where
  queue : List (Fin 5 × Fin 3) := []
  since : W64 := 0
  age : Nat := 0
  codes : List ((Fin 5 × Fin 3) × Int) := []
  failed : List (Fin 5 × Fin 3) := []
deriving DecidableEq, Repr

/-- Warp and Weft (spec/07). -/
structure Seq where
  tables : Tables := {}
  /-- Twill selected by SEQ.MODE, and twill in force: selected in READY it starts with RUN (R174). -/
  twillNext : Bool := false
  twill : Bool := false
  running : Bool := false
  /-- Stopped by a departure or a hold and waiting to resume (R184). -/
  stopped : Bool := false
  startAsked : Bool := false
  warpFrame : W32 := 0
  warpTick : Nat := 0
  warpLt : W64 := 0
  weftFrame : W32 := 0
  weftTick : Nat := 0
  weftLt : W64 := 0
  /-- Wraps up to the last stop (R169). -/
  warpWraps : Nat := 0
  weftWraps : Nat := 0
  dropped : W32 := 0
  lost : W32 := 0
  twillNoWin : W16 := 0
  seam : Seam := {}
  urgent : List Urgent := []
  /-- Sampling clocks of the open slots one-shot requests have had in this tick and the last (R172). -/
  served : List Nat := []
  /-- A clip marks voltage, internal and swatch conversions up to this LT (R98). -/
  neighbourTo : Option W64 := none
  /-- The self-tests of Warp and Weft. -/
  tests : Vector SwatchTest 2 := Vector.replicate 2 {}
  /-- The witness sample of a tick: its LT, the sample, and whether a port was unguarded in that tick, so that
  the witness integrates over it (R58, R171). -/
  witness : Option (W64 × Sample × Bool) := none
deriving DecidableEq, Repr

/-- A filter setting (Table 8-1): the weave it comes from, or none for a custom filter with its
coefficients, FIR A first. -/
structure Setting where
  weave : Option (Fin 24) := some 0
  k : Nat := 0
  dc : Nat := 1
  sc : Nat := 0
  na : Nat := 0
  da : Nat := 1
  sa : Nat := 0
  nb : Nat := 0
  db : Nat := 1
  sb : Nat := 0
  coef : List Int := []
deriving DecidableEq, Repr

/-- What a pending WEAVE.SET brings its lane: its slot, the setting and RING (R197, R201). -/
structure LaneSet where
  slot : SlotId
  setting : Setting
  ring : Bool
deriving DecidableEq, Repr

/-- A value in a FIR's delay line, with the SAT it carries (R199). -/
structure Tap where
  v : Int
  sat : Bool
deriving DecidableEq, Repr

/-- The resets a lane has taken in one tick, which are one reset (R203). -/
structure LaneReset where
  at_ : W64
  sync : Bool := false
  applied : Bool := false
deriving DecidableEq, Repr

/-- An output as a lane emitted it: the range of its inputs (R208), the port signal it was formed from, and the
gas frames closed since (R209). -/
structure Emitted where
  out : Out
  range : Fin 8
  src : Option (PortId × Nat)
  /-- GAIN of its entry, and the lane's setting (R208). -/
  gain : Fin 5 := 0
  setting : Setting := {}
  age : Nat := 0
deriving DecidableEq, Repr

/-- One filter lane (spec/08). -/
structure Lane where
  setting : Setting := {}
  ring : Bool := true
  phase : Nat := 0
  /-- The staged custom coefficients (R197), and the settings pending WEAVE.SETs bring. -/
  staged : Option (List Int) := none
  pendSets : List LaneSet := []
  /-- CIC integrators and combs, the counting phases, the delay lines newest first (R189, R190). -/
  integ : List W64 := []
  comb : List W64 := []
  cicCount : Nat := 0
  aLine : List Tap := []
  aCount : Nat := 0
  bLine : List Tap := []
  bCount : Nat := 0
  /-- Inputs taken since the reset, and those with flags, newest first (R199). -/
  taken : Nat := 0
  flagged : List (Nat × W16) := []
  settleLeft : Nat := 1
  discard : Nat := 0
  ranged : Bool := false
  lastReset : Option LaneReset := none
  satCount : W32 := 0
  live : Live := {}
  /-- The range of the inputs it takes (R208). -/
  range : Fin 8 := 0
  /-- Its outputs in this gas frame and in the one that closed in this frame's tick 0 (R206, R209), oldest
  first. -/
  outs : List Emitted := []
  closed : List Emitted := []
  /-- Its outputs of closed gas frames without SETTLING or RANGED, newest first, one for each signal and flag
  word (R209). -/
  held : List Emitted := []
deriving DecidableEq, Repr

/-- A gas channel's settings (Table 9-4). -/
structure Channel where
  name : List Byte := List.replicate 8 0
  offset : F32 := 0
  /-- 0 0.01, 1 0.1, 2 1, 3 10 ppb. -/
  rscale : Fin 4 := 0
  series : Fin 5 := 0
  ring : Bool := true
deriving DecidableEq, Repr

/-- An output of a series: value in 0.01 ppb, flags, coverage, changes (R220). -/
structure SeriesOut where
  value : Int := 0
  flags : W16 := 0
  coverage : Nat := 0
  changes : Nat := 0
deriving DecidableEq, Repr

/-- A block in progress (R220), with its number. -/
structure Block where
  index : Nat := 0
  sum : Int := 0
  flags : W16 := 0
  count : Nat := 0
  changes : Nat := 0
  /-- The blocks of the changes made since its end, one each, while its average waits for a computation. -/
  later : List Nat := []
deriving DecidableEq, Repr

/-- A port's value (R210): its own flags, those it contributed with last, gas frames closed since. -/
structure PortValue where
  value : Option F32 := none
  flags : W16 := 0
  out : W16 := 0
  age : Nat := 0
  missing : Bool := false
deriving DecidableEq, Repr

/-- A port's environment quantity (R211): last valid value, and whether the fallback serves. -/
structure EnvUse where
  last : Option F32 := none
  fallback : Bool := false
  /-- The source in use is none (code 0x7): the difference is zero (R211). -/
  absent : Bool := false
deriving DecidableEq, Repr

/-- What a port gives as an environment source (R211, R212): value, flags, gas frames closed since. -/
structure EnvGiven where
  value : F32
  flags : W16
  age : Nat
deriving DecidableEq, Repr

/-- A feature passed to the engine (R131): value, flags, gas frames closed since. -/
structure Feature where
  value : Rat
  flags : W16
  age : Nat
deriving DecidableEq, Repr

/-- Drift adaptation of a port (R223 to R225). -/
structure Adapt where
  a : F32 := 0x3F800000
  frozen : Bool := false
  /-- Lowest and highest a of the current and the 30 preceding periods, newest first, and frames gone in
  the current one. -/
  periods : List (F32 × F32) := []
  periodFrames : Nat := 0
  /-- Limits acted since the last system calibration. -/
  acted40 : Bool := false
  acted30 : Bool := false
  /-- a of the last adaptation record. -/
  recorded : F32 := 0x3F800000
  /-- A fit that has passed R223 waits for tick 1: the new a, q, and the limits that acted. -/
  next : Option (F32 × F32 × Nat) := none
  /-- The frame that fit completed in. -/
  nextFrom : W32 := 0
  /-- The frame of the last system calibration's commit (R264). -/
  committed : Option W32 := none
  /-- What the NVM holds, and frames since it was written. -/
  stored : Option (F32 × List (F32 × F32)) := none
  sinceStore : Nat := 360000
deriving DecidableEq, Repr

/-- The gas engine (spec/09). A model is the GAS.MODEL object in force (Table 16-11); an empty list is
MODEL 0x0 with the defaults of Table 9-2. -/
structure Gas where
  models : Vector (List Byte) 16 := Vector.replicate 16 []
  matrix : List F32 := List.replicate 256 0
  channels : Vector Channel 16 := Vector.replicate 16 {}
  values : Vector PortValue 16 := Vector.replicate 16 {}
  envT : Vector EnvUse 16 := Vector.replicate 16 {}
  envH : Vector EnvUse 16 := Vector.replicate 16 {}
  given : Vector (Option EnvGiven) 16 := Vector.replicate 16 none
  hostT : Option (Int × Nat) := none
  hostH : Option (Int × Nat) := none
  /-- Features passed in closed gas frames, and those passed in this one (R206). -/
  features : Vector (List (Fin 64 × Feature)) 16 := Vector.replicate 16 []
  passed : Vector (List (Fin 64 × Feature)) 16 := Vector.replicate 16 []
  blocks : Vector (Vector Block 4) 16 := Vector.replicate 16 (Vector.replicate 4 {})
  /-- Outputs of the five series by channel. -/
  outs : Vector (Vector SeriesOut 5) 16 := Vector.replicate 16 (Vector.replicate 5 {})
  adapt : Vector Adapt 16 := Vector.replicate 16 {}
  missed : W32 := 0
  /-- The gas frame closed in this frame's tick 0 was one of RUN, and its computation is to be made. -/
  due : Bool := false
  /-- Ports whose hold reached into that gas frame and has ended (R222). -/
  holdEnded : BitVec 16 := 0
  /-- The run of misses in progress (R207): its first frame, those not yet counted, and whether its
  notice is raised. -/
  missRun : Option (W32 × Nat × Bool) := none
  /-- The last frame missed; runs that ended before they were counted. -/
  missLast : W32 := 0
  missOld : List (W32 × Nat × Bool) := []
  /-- A one-shot action of a time trigger emits the channels at the next computation (R395). -/
  oneShot : Bool := false
  live : Vector Live 16 := Vector.replicate 16 {}
deriving DecidableEq, Repr

/-- A decided event of a comparator (R235): LT of the tick that decided it, overtop or settle, the
direction, the value and its flags. -/
structure LeveeEvent where
  at_ : W64
  overtop : Bool
  above : Bool
  value : Int
  flags : W16
deriving DecidableEq, Repr

/-- A comparator (spec/10). -/
structure Levee where
  /-- The 20 bytes of Table 10-1: off, with the default IGNORE. -/
  rec_ : List Byte := List.replicate 17 0 ++ [0x10, 0, 0]
  /-- As evaluated, ahead of the events not yet taken. -/
  evOut : Bool := false
  evAbove : Bool := false
  out : Bool := false
  above : Bool := false
  outCount : Nat := 0
  inCount : Nat := 0
  latched : Bool := false
  /-- The last value evaluated, with its flags. -/
  last : Int := 0
  lastFlags : W16 := 0
  decided : List LeveeEvent := []
deriving DecidableEq, Repr

/-- A step that averages (R247, R249): its length and concentration, the LT of its doorbell, the gas
frames closed and covered so far, and the sums over those covered: inputs, dT, dH, flags. -/
structure Average where
  span : Bool
  n : Nat
  c : Int
  after : W64
  gone : Nat := 0
  covered : Nat := 0
  sums : List Rat := []
  sumT : Rat := 0
  sumH : Rat := 0
  flags : W16 := 0
deriving DecidableEq, Repr

/-- The report of a step (R250, R358): result 0 none, 1 valid, 2 coverage low, 3 not finite, 4
implausible; the coefficients it computes by their byte offset in the model's record. -/
structure StepReport where
  result : Fin 5 := 0
  committed : Bool := false
  covered : Nat := 0
  flags : W16 := 0
  dT : Rat := 0
  dH : Rat := 0
  means : List F32 := []
  coefs : List (Nat × F32) := []
  /-- The MODEL code it was computed under (R264). -/
  code : Nat := 0
deriving DecidableEq, Repr

/-- A system calibration session (R246 to R254). -/
structure CalSession where
  /-- LT of the tick in which the hold began. -/
  begun : W64
  /-- The hold limit is reached: the hold ends at the next boundary. -/
  atLimit : Bool := false
  avg : Option Average := none
  /-- The most recent zero and span step that can be committed. -/
  zero : Option StepReport := none
  span : Option StepReport := none
deriving DecidableEq, Repr

/-- A port's calibration record (R255): MODEL code, generation, coefficients by byte offset. -/
structure CalRec where
  code : Nat
  gen : W32
  coefs : List (Nat × F32)
deriving DecidableEq, Repr

/-- The sums of a least squares solution for qp and cf (R258) over the conversions under test: charge Q against
packets n and integrator change v. -/
structure Solve where
  nn : Rat := 0
  nv : Rat := 0
  vv : Rat := 0
  nq : Rat := 0
  vq : Rat := 0
  last : Option Sample := none
deriving DecidableEq, Repr

/-- An electrical self-calibration (R257): frames left, none while it waits for its boundary; of a port target
the sums of each input's range under test and the pairs solved so far by input and range; of a converter the
codes of each gain's swatches, as their sum and number. -/
structure ElecRun where
  target : CalTarget
  gain : Nat
  left : Option Nat
  sums : Vector Solve 2 := Vector.replicate 2 {}
  pairs : Vector (Vector (Option (Rat × Rat)) 8) 2 := Vector.replicate 2 (Vector.replicate 8 none)
  codes : Vector (Vector (Int × Nat) 3) 5 := Vector.replicate 5 (Vector.replicate 3 (0, 0))
deriving DecidableEq, Repr

/-- A target's record (R259, R261, R358): last result, failures in a row and in total, frame of the last
calibration, frames and temperature since it, and whether an entry to RUN calls for one. -/
structure ElecStat where
  result : Fin 3 := 0
  run : Nat := 0
  total : W32 := 0
  frame : W32 := 0
  age : Nat := 0
  temp : Option Int := none
  entry : Bool := false
deriving DecidableEq, Repr

/-- Electrical coefficients of one port: qp and cf of I1 and I2, offset and gain of its voltage path, its bias
code's error. -/
structure PortElec where
  qp : Vector (Vector Rat 8) 2
  cf : Vector (Vector Rat 8) 2
  offset : Rat
  gainPpm : Rat
  biasErr : Rat
deriving DecidableEq, Repr

/-- A set of electrical coefficients (R262): ports, converter trims by gain (offset in LSB, gain error
in ppm), the reference's correction offset in ppm. -/
structure ElecSet where
  ports : Vector PortElec 16
  conv : Vector (Vector (Rat × Rat) 5) 2
  ref : Rat
deriving DecidableEq, Repr

/-- Calibration (spec/11). -/
structure Cal where
  sessions : Vector (Option CalSession) 16 := Vector.replicate 16 none
  /-- The last zero and span step of each port. -/
  steps : Vector (StepReport × StepReport) 16 := Vector.replicate 16 ({}, {})
  /-- The calibration records in NVM, and those staged (R255). -/
  recs : Vector (Option CalRec) 16 := Vector.replicate 16 none
  staged : Vector (Option CalRec) 16 := Vector.replicate 16 none
  runs : List ElecRun := []
  /-- By target: P0 to P15, Warp, Weft, reference. -/
  stats : Vector ElecStat 19 := Vector.replicate 19 {}
  conv : Vector (Vector (Rat × Rat) 5) 2
  refTrim : Rat
  /-- The set in NVM, and frames since it was written (R262). -/
  stored : Option ElecSet := none
  sinceStore : Nat := 8640000
  /-- Frames since the last reference and charge standard check, and whether it failed (R263). -/
  selfAge : Vector Nat 2 := Vector.replicate 2 0
  selfFail : Vector Bool 2 := Vector.replicate 2 false
deriving DecidableEq, Repr

/-- The ledger counters of one port (Table 12-5), and frames since its last deferral and its last
deferral notice. -/
structure PortLedger where
  winThermal : W32 := 0
  winLedger : W32 := 0
  heatThermal : W32 := 0
  heatHeadroom : W32 := 0
  heatLedger : W32 := 0
  gauze : W32 := 0
  deferAge : Option Nat := none
  noticeAge : Option Nat := none
deriving DecidableEq, Repr

/-- The energy ledger (spec/12). Energy is held in nW times ticks, 640 000 of which are 0.01 uJ. -/
structure Ledger where
  /-- Allowance and reserve in uJ, cap in mW (Table 12-1). -/
  ea : Nat := 10000
  er : Nat := 200
  pcap : Nat := 900
  debt : Nat := 0
  booked : Nat := 0
  ticks : Nat := 0
  vddSum : Nat := 0
  vddMin : Nat := 0
  pMax : Nat := 0
  lastBooked : Nat := 0
  lastPrice : Nat := 0
  /-- Sum and number of the VDD samples of the frame just ended. -/
  lastSum : Nat := 0
  lastTicks : Nat := 0
  lastMin : Nat := 0
  lastMax : Nat := 0
  total : Nat := 0
  ports : Vector PortLedger 16 := Vector.replicate 16 {}
  peak : W32 := 0
  reserve : W32 := 0
  overrun : W32 := 0
  overload : W32 := 0
  overloadRun : Nat := 0
  reserveAge : Option Nat := none
  overrunAge : Option Nat := none
deriving DecidableEq, Repr

/-! ## Stops -/

/-- The reasons a command can stop the model: none. Every command of the table has an effect or does
nothing, so the type has no constructor a meaning can use. -/
inductive Fault where
deriving DecidableEq, Repr

/-- The refusals. -/
inductive Refusal where
  /-- A command whose arm has no meaning yet: answered by Dispatch alone; safe. -/
  | notModelled (mnemonic : String)
deriving DecidableEq, Repr

/-! ## The machine -/

/-- The state of the block. -/
structure State where
  /-- The device, its power, rails and clock. -/
  core : Core
  /-- Pin levels. -/
  pins : Pins
  /-- The frame scheduler. -/
  frame : Frame
  /-- The plan in force and the one frozen. -/
  plan : PlanSt
  /-- P0 to P15. -/
  ports : Vector Port 16
  /-- The heater drivers. -/
  heat : Vector Heater 16
  /-- The gauze engine by port. -/
  gauze : Vector Gauze 16
  /-- Warp and Weft. -/
  seq : Seq
  /-- The filter lanes. -/
  lanes : Vector Lane 64
  /-- The gas engine. -/
  gas : Gas
  /-- The comparators. -/
  levees : Vector Levee 48
  /-- Calibration. -/
  cal : Cal
  /-- The energy ledger. -/
  ledger : Ledger
  /-- The die sensors. -/
  therm : Therm
  /-- SAMPLE and NOTICE rings. -/
  rings : Rings
  /-- The bus port. -/
  bus : Bus
  /-- The mailbox slots. -/
  mbox : Mbox
  /-- The time bases. -/
  time : Time
  /-- The fault collector. -/
  faults : Faults
  /-- The bolt slots. -/
  bolt : Bolt
  /-- The black box. -/
  box : Box
  /-- The field lock. -/
  lock : Lock
  /-- The model's own (log 3): indexes the free values drawn so far. -/
  free : Nat
  /-- Commands waiting, first in first out. -/
  pending : List Instr
deriving DecidableEq, Repr

namespace State

/-- Update of `core`. -/
def modCore (f : Core → Core) (s : State) : State := { s with core := f s.core }
/-- Update of `pins`. -/
def modPins (f : Pins → Pins) (s : State) : State := { s with pins := f s.pins }
/-- Update of `frame`. -/
def modFrame (f : Frame → Frame) (s : State) : State := { s with frame := f s.frame }
/-- Update of `plan`. -/
def modPlan (f : PlanSt → PlanSt) (s : State) : State := { s with plan := f s.plan }
/-- Update of `ports`. -/
def modPorts (f : Vector Port 16 → Vector Port 16) (s : State) : State := { s with ports := f s.ports }
/-- Update of `heat`. -/
def modHeat (f : Vector Heater 16 → Vector Heater 16) (s : State) : State := { s with heat := f s.heat }
/-- Update of `gauze`. -/
def modGauze (f : Vector Gauze 16 → Vector Gauze 16) (s : State) : State := { s with gauze := f s.gauze }
/-- Update of `seq`. -/
def modSeq (f : Seq → Seq) (s : State) : State := { s with seq := f s.seq }
/-- Update of `lanes`. -/
def modLanes (f : Vector Lane 64 → Vector Lane 64) (s : State) : State := { s with lanes := f s.lanes }
/-- Update of `gas`. -/
def modGas (f : Gas → Gas) (s : State) : State := { s with gas := f s.gas }
/-- Update of `levees`. -/
def modLevees (f : Vector Levee 48 → Vector Levee 48) (s : State) : State := { s with levees := f s.levees }
/-- Update of `cal`. -/
def modCal (f : Cal → Cal) (s : State) : State := { s with cal := f s.cal }
/-- Update of `ledger`. -/
def modLedger (f : Ledger → Ledger) (s : State) : State := { s with ledger := f s.ledger }
/-- Update of `therm`. -/
def modTherm (f : Therm → Therm) (s : State) : State := { s with therm := f s.therm }
/-- Update of `rings`. -/
def modRings (f : Rings → Rings) (s : State) : State := { s with rings := f s.rings }
/-- Update of `bus`. -/
def modBus (f : Bus → Bus) (s : State) : State := { s with bus := f s.bus }
/-- Update of `mbox`. -/
def modMbox (f : Mbox → Mbox) (s : State) : State := { s with mbox := f s.mbox }
/-- Update of `time`. -/
def modTime (f : Time → Time) (s : State) : State := { s with time := f s.time }
/-- Update of `faults`. -/
def modFaults (f : Faults → Faults) (s : State) : State := { s with faults := f s.faults }
/-- Update of `bolt`. -/
def modBolt (f : Bolt → Bolt) (s : State) : State := { s with bolt := f s.bolt }
/-- Update of `box`. -/
def modBox (f : Box → Box) (s : State) : State := { s with box := f s.box }
/-- Update of `lock`. -/
def modLock (f : Lock → Lock) (s : State) : State := { s with lock := f s.lock }
/-- Update of one port. -/
def modPort (p : PortId) (f : Port → Port) : State → State := modPorts fun v => v.set p (f v[p])
/-- Update of one current input. -/
def modInput (p : PortId) (i : Fin 2) (f : Input → Input) : State → State :=
  modPort p fun q => { q with inputs := q.inputs.set i (f q.inputs[i]) }
/-- Update of one heater driver. -/
def modHeater (p : PortId) (f : Heater → Heater) : State → State := modHeat fun v => v.set p (f v[p])
/-- Update of the gauze of one port. -/
def modGauzeAt (p : PortId) (f : Gauze → Gauze) : State → State := modGauze fun v => v.set p (f v[p])
/-- Update of one lane. -/
def modLane (l : LaneId) (f : Lane → Lane) : State → State := modLanes fun v => v.set l (f v[l])
/-- Update of one comparator. -/
def modLevee (k : Fin 48) (f : Levee → Levee) : State → State := modLevees fun v => v.set k (f v[k])
/-- Update of one fault source. -/
def modSource (n : Source) (f : FSource → FSource) : State → State :=
  modFaults fun v => { v with src := v.src.set n (f v.src[n]) }
/-- Update of one mailbox slot. -/
def modSlot (n : SlotId) (f : Slot → Slot) : State → State :=
  modMbox fun m => { m with slots := m.slots.set n (f m.slots[n]) }
/-- Update of one die sensor. -/
def modSensor (t : Fin 9) (f : Sensor → Sensor) : State → State :=
  modTherm fun m => { m with sensors := m.sensors.set t (f m.sensors[t]) }
/-- A free value is drawn: the counter moves on (log 3). -/
def drawFree (s : State) : State := { s with free := s.free + 1 }

end State

/-- A current input of port p as the factory leaves it. -/
def Input.factory (p : PortId) (i : Fin 2) : Input :=
  { qp := Vector.ofFn fun r => Config.packetCharge p i r
    cf := Vector.ofFn fun r => Config.feedbackCap p i r }

/-- A port at BOOT before the bolt (R65). -/
def Port.factory (p : PortId) : Port :=
  { inputs := Vector.ofFn fun i => Input.factory p i
    offset := Config.portOffset p
    gainPpm := Config.portGain p
    biasErr := Config.portBias p }

/-- Calibration as the factory leaves it. -/
def Cal.factory : Cal :=
  { conv := Vector.ofFn fun c => Vector.ofFn fun g => (Config.convOffset c g, Config.convGain c g)
    refTrim := Config.refTrim }

/-- The default class, N, W and mask of a fault source (Table 19-1, R406). -/
def FSource.default (n : Source) : FSource :=
  let k := n.val
  let c : FClass × Nat × Nat :=
    if k < 4 ∨ k = 54 then (.grave, 255, 1)
    else if k < 9 then (.severe, 255, 1)
    else if k < 12 then (.minor, 4, 6000)
    else if k < 14 then (.minor, 255, 1)
    else if k < 16 then (.minor, 4, 6000)
    else if k < 32 then (.minor, 3, 6000)
    else if k < 36 then (.minor, 8, 6000)
    else if k < 40 then (.minor, 3, 6000)
    else if k < 48 then (.minor, 255, 1)
    else if k = 48 then (.minor, 4, 6000)
    else if k < 51 then (.notice, 255, 6000)
    else (.notice, 255, 1)
  { cls := c.1, n := c.2.1, w := c.2.2, inForce := c.1, masked := 49 ≤ k ∧ k ≤ 53 }

/-- The collector with every source cleared (R406). -/
def Faults.cleared : Faults := { src := Vector.ofFn FSource.default }

/-- The machine right after reset: the start of BOOT after a power-on reset, the NVM as the factory
left it (logs 1 and 2). -/
def State.reset : State :=
  { core := {}, pins := {}, frame := {}, plan := {}, ports := Vector.ofFn Port.factory
    heat := Vector.replicate 16 {}, gauze := Vector.replicate 16 {}, seq := {}
    lanes := Vector.replicate 64 {}, gas := {}, levees := Vector.replicate 48 {}, cal := Cal.factory
    ledger := {}, therm := {}, rings := {}, bus := {}, mbox := {}, time := {}
    faults := Faults.cleared, bolt := {}, box := {}, lock := {}, free := 0, pending := [] }

end Sys2Proof.Machine
end

