-- ==== Sys2Proof/Machine/Flags.lean ====
section
/-!
DEFINITION. The flag word of Table 14-1 (R295): its bits, the FLAGS byte, and unions of flags.
-/

namespace Sys2Proof.Machine

namespace Flag
def ovr : W16 := 0x0001
def neighbourOvr : W16 := 0x0002
def settling : W16 := 0x0004
def cellSettling : W16 := 0x0008
def calHold : W16 := 0x0010
def seamStale : W16 := 0x0020
def breach : W16 := 0x0040
def unguarded : W16 := 0x0100
def heatDev : W16 := 0x0200
def gauzeLf : W16 := 0x0400
def sat : W16 := 0x0800
def ranged : W16 := 0x1000
def carried : W16 := 0x2000
end Flag

/-- The flag f if b holds. -/
def flagIf (b : Bool) (f : W16) : W16 := if b then f else 0

/-- The flag word w has flag f. -/
def hasFlag (w f : W16) : Bool := w &&& f != 0

/-- Any bit of [13:8] is set: the entry needs its extension (R295, R298). -/
def needsExt (w : W16) : Bool := w &&& 0x3F00 != 0

/-- The FLAGS byte of R295. -/
def flagsByte (w : W16) : Byte := (w.setWidth 8 &&& 0x7F) ||| (if needsExt w then 0x80 else 0)

/-- The union of flag words (R15). -/
def flagUnion (l : List W16) : W16 := l.foldl (· ||| ·) 0

end Sys2Proof.Machine
end

