-- ==== Sys2Proof/Machine/Ops.lean ====
section
/-!
DEFINITION. Named operations over the state that several commands share: notices and their ring
(spec/14), attention causes (spec/15), posting to a mailbox slot (spec/16), black-box records
(spec/20), fault sources (spec/19), the device thermal state (spec/13) and the time (spec/18).
-/

namespace Sys2Proof.Machine

/-! ## Time -/

/-- Ticks of LT from t to now. -/
def State.since (s : State) (t : W64) : Nat := (s.core.lt - t).toNat

/-- The active domain (R390). -/
def State.activeDomain (s : State) : Domain := if s.time.activeTb then s.time.tb else s.time.ta

/-- AT in units of 2^-48 s, modulo 2^112 (R390). -/
def State.atTime (s : State) : Nat :=
  (((s.activeDomain.time : Int) + s.time.o) % (2 ^ 112 : Nat)).toNat

/-- Whole seconds, and the fraction in 2^-40 s, of a time in 2^-48 s (R380). -/
def secOf (t : Nat) : Nat := t / 2 ^ 48 % 2 ^ 64
def frac40 (t : Nat) : Nat := t % 2 ^ 48 / 2 ^ 8

/-! ## The reeve -/

/-- The reeve executes: powered and past BOOT, not stalled, not halted by DOZE (Table 1-4). -/
def State.reeveActive (s : State) : Bool :=
  s.core.reeveRuns && !s.core.doze && !s.core.rstLow && s.core.resetPosted.isNone &&
    s.core.dev != .off && s.core.dev != .boot

/-- Measuring: RUN outside DOZE (Table 1-4). -/
def State.measuring (s : State) : Bool := s.core.dev == .run && !s.core.doze

/-! ## Attention causes (R335, R337) -/

/-- Cause bits of Table 15-7. -/
inductive Cause where
  | levee | alarmN | notice | sWater | mbox | fault | state | digest | bus | wake
deriving DecidableEq, Repr

def Cause.bit : Cause → Nat
  | .levee => 0 | .alarmN => 1 | .notice => 2 | .sWater => 3 | .mbox => 4
  | .fault => 5 | .state => 6 | .digest => 7 | .bus => 8 | .wake => 9

def Cause.mask (c : Cause) : W16 := (1 : W16) <<< c.bit

/-- A masked cause went from 0 to 1: IDLE and HALTED move to PENDING, where the count of consecutive
failures starts again (R337). -/
def Bus.maskedRise (b : Bus) : Bus :=
  match b.machine with
  | .idle => { b with machine := .pending, failRun := 0 }
  | .halted => { b with machine := .pending, failRun := 0 }
  | .pending => b
  | .sent => b

/-- The cause is set in ATTN in the tick with LT `now` (R335). Where its event coincides with a read of ATTN that
found the machine PENDING, it has never left PENDING, and the count of failures goes on (R337, R9). -/
def Bus.setCause (now : W64) (m : W16) (b : Bus) : Bus :=
  if b.attn &&& m != 0 then b
  else
    let b' := { b with attn := b.attn ||| m }
    if b.attnMask &&& m == 0 then b'
    else if b.readPending == some now then { b' with machine := .pending }
    else b'.maskedRise

def attn (c : Cause) (s : State) : State := s.modBus (Bus.setCause s.core.lt c.mask)

/-! ## Notices (R303 to R305) -/

/-- The two KIND bits (Table 14-4). -/
def Kind.code : Kind → Nat
  | .ordinary => 0 | .alarm => 1 | .fault => 2

/-- An entry of the NOTICE ring (Table 14-4); kind 3 is the gap marker. -/
def noticeEntry (s : State) (code : W16) (kind : Nat) (args : W64) : NoticeEntry :=
  code.setWidth 128 ||| (s.rings.nseq.setWidth 128 <<< (16 : Nat)) |||
    (BitVec.ofNat 128 (kind % 4) <<< (24 : Nat)) |||
    (BitVec.ofNat 128 (s.frame.tick % 1024) <<< (32 : Nat)) |||
    (BitVec.ofNat 128 (s.frame.number.toNat % 4194304) <<< (42 : Nat)) |||
    (args.setWidth 128 <<< (64 : Nat))

/-- A word of a checker is written (R415): with its check bits inverted if it is the armed word,
which disarms the command; sound otherwise. -/
def Faults.wordWritten (checker : Fin 5) (addr : Nat) (f : Faults) : Faults :=
  let rest := f.injected.filter fun x => !(x.1 == checker && x.2.1 == addr)
  match f.armed with
  | some (c, a, m) =>
    if c = checker ∧ a = addr then
      { f with armed := none
               injected := (c, a, decide (2 ≤ (List.range 8).countP fun i => m.testBit i)) :: rest }
    else { f with injected := rest }
  | none => { f with injected := rest }

/-- What a read of a word detects (R415): some true uncorrectable, some false correctable. -/
def Faults.wordError (checker : Fin 5) (addr : Nat) (f : Faults) : Option Bool :=
  (f.injected.find? fun x => x.1 == checker && x.2.1 == addr).map (·.2.2)

/-- One entry enters the NOTICE ring; NLEVEL rising from 0 sets its cause (R315). -/
def pushNotice (code : W16) (kind : Nat) (args : W64) (s : State) : State :=
  let e := noticeEntry s code kind args
  let wasEmpty := s.rings.notice.isEmpty
  let w := s.rings.nwr
  let s := s.modFaults fun f => (f.wordWritten 3 (2 * w)).wordWritten 3 (2 * w + 1)
  let s := s.modRings fun r =>
    { r with notice := r.notice ++ [e], nseq := r.nseq + 1, nwr := (r.nwr + 1) % 512 }
  if wasEmpty then attn .notice s else s

/-- The NOTICE gap marker (R304). -/
def pushNoticeGap (n : Nat) (s : State) : State :=
  pushNotice 0x0C01 3 (argW 0 (satNat 0xFFFFFFFF n)) (s.modRings fun r => { r with ngap := none })

/-- An ordinary notice is dropped and counted (R304). -/
def Rings.dropOrdinary (r : Rings) : Rings :=
  { r with nseq := r.nseq + 1, ndrop := satAdd r.ndrop 1, ngap := some (r.ngap.getD 0 + 1) }

/-- An alarm or fault notice is dropped and counted (R305). -/
def Rings.dropAlarm (r : Rings) : Rings :=
  { r with nseq := r.nseq + 1, nalost := satAdd r.nalost 1 }

/-- The pending gap's marker, if an ordinary entry can be written (R304). -/
def noticeGap (s : State) : State :=
  match s.rings.ngap with
  | some n => if s.rings.notice.length < 480 then pushNoticeGap n s else s
  | none => s

/-- A notice outside BOOT and OFF: written, or dropped and counted (R304, R305). -/
def emitNotice (code : W16) (kind : Kind) (args : W64) (s : State) : State :=
  match kind with
  | .ordinary =>
    let s := noticeGap s
    if s.rings.notice.length < 480 then pushNotice code 0 args s else s.modRings Rings.dropOrdinary
  | .alarm =>
    if s.rings.notice.length < 512 then attn .alarmN (pushNotice code 1 args s)
    else s.modRings Rings.dropAlarm
  | .fault =>
    if s.rings.notice.length < 512 then attn .alarmN (pushNotice code 2 args s)
    else s.modRings Rings.dropAlarm

/-- A notice is raised: held during BOOT, otherwise taken by the ring (R303). -/
def notice (code : W16) (kind : Kind) (args : W64) (s : State) : State :=
  match s.core.dev with
  | .off => s
  | .boot => s.modRings fun r => { r with held := r.held ++ [{ code, kind, args }] }
  | _ => emitNotice code kind args s

/-- The notices held during BOOT enter the ring in the order they were raised (R303). -/
def flushHeld (s : State) : State :=
  s.rings.held.foldl (fun s h => emitNotice h.code h.kind h.args s)
    (s.modRings fun r => { r with held := [] })

/-- STATE.DEV changes (R23, Table 15-7). -/
def setDev (d : Dev) (s : State) : State :=
  if s.core.dev = d then s else attn .state (s.modCore fun c => { c with dev := d })

/-! ## Posting (R344, Table 17-11) -/

def Status.code : Status → Byte
  | .ok => 0x00 | .pending => 0x01 | .badOpcode => 0x10 | .badLength => 0x11 | .badArg => 0x12
  | .busy => 0x20 | .wrongState => 0x21 | .refCold => 0x22 | .locked => 0x30
  | .ledgerShort => 0x31 | .nvmHot => 0x40 | .nvmWorn => 0x41 | .boltInvalid => 0x50

/-- A list of bytes as the 64 bytes of a slot. -/
def slotBytes (l : List Byte) : Vector Byte 64 := Vector.ofFn fun i => l.getD i 0

/-- The slot after a posting: payload, RLEN, DETAIL, STATUS and STATE in one tick (R344). -/
def Slot.posted (st : SlotState) (code : Byte) (detail : Nat) (resp : List Byte) (x : Slot) : Slot :=
  { x with
    bytes := slotBytes (overwrite (overwrite x.bytes.toList 4
      ([code, BitVec.ofNat 8 resp.length] ++ toLE 2 detail)) 8 resp)
    st := st }

/-- The quotient rounded up. -/
def ceilDiv (a b : Nat) : Nat := (a + b - 1) / b

/-- The words of slot n that a posting with a response of k bytes writes: STATUS to DETAIL, and the response (R415). -/
def Faults.slotWritten (n : SlotId) (k : Nat) (f : Faults) : Faults :=
  (List.range (1 + ceilDiv k 4)).foldl (fun f w => f.wordWritten 4 (16 * n.val + 1 + w)) f

/-- The command of slot n waits no longer. -/
def Mbox.unpend (n : SlotId) (m : Mbox) : Mbox := { m with pend := m.pend.filter (·.slot != n) }

/-- A final status: the slot becomes DONE and ATTN.MBOX is set (R344). -/
def postNow (n : SlotId) (st : Status) (detail : Nat) (resp : List Byte) (s : State) : State :=
  attn .mbox (((s.modSlot n (Slot.posted .done st.code detail resp)).modMbox
    (Mbox.unpend n)).modFaults (Faults.slotWritten n resp.length))

/-- The reeve posts: not while it is stalled (R13) or halted in DOZE, nor after the OK of SYS.RESET (Table 17-12). -/
def State.posts (s : State) : Bool := s.core.reeveRuns && !s.core.doze && s.core.resetPosted.isNone

/-- A final status. Completion is the firmware's, so that it waits for a reeve that is stalled or halted (R13); that of
LEVEE.ACK is the hardware's (R357). -/
def post (n : SlotId) (st : Status) (detail : Nat) (resp : List Byte) (s : State) : State :=
  if s.posts || u16 s.mbox.slots[n].bytes.toList 0 == 0x0802 then postNow n st detail resp s
  else s.modMbox fun m =>
    { m.unpend n with owed := m.owed ++ [{ slot := n, status := st, detail := detail, resp := resp }] }

/-- What a stalled or halted reeve owed is posted (R13). -/
def postOwed (s : State) : State :=
  if s.posts then
    s.mbox.owed.foldl (fun s x => postNow x.slot x.status x.detail x.resp s)
      (s.modMbox fun m => { m with owed := [] })
  else s

/-- A final status without response payload. -/
def postStatus (n : SlotId) (st : Status) (s : State) : State := post n st 0 [] s
/-- OK with a response. -/
def postOk (n : SlotId) (resp : List Byte) (s : State) : State := post n .ok 0 resp s

/-- ACCEPTED_PENDING with the frame it names (R347). -/
def postPending (n : SlotId) (frame : W32) (s : State) : State :=
  (s.modSlot n (Slot.posted .pending Status.pending.code 0 (toLE 4 frame.toNat))).modFaults (Faults.slotWritten n 4)

/-- The command waits as PENDING (R344). -/
def pendOn (n : SlotId) (op : W16) (payload : List Byte) (w : Wait) (frame : W32) (s : State) : State :=
  (postPending n frame s).modMbox fun m =>
    { m with pend := m.pend ++ [{ slot := n, op, payload, wait := w, since := s.core.lt }] }

/-- Every PENDING command for which p holds completes with st. -/
def completeWhere (p : Pend → Bool) (st : Status) (s : State) : State :=
  (s.mbox.pend.filter p).foldl (fun s x => postStatus x.slot st s) s

/-- The frame of the next boundary: frame 0 until frames run (R30, R347). -/
def State.nextFrame (s : State) : W32 := if s.frame.started then s.frame.number + 1 else 0

/-! ## The device thermal state (R284, R288) -/

/-- A sensor's level: the highest threshold crossed rising and not yet falling (R284). -/
def Sensor.level (x : Sensor) : Fin 5 :=
  if x.up.getLsbD 3 then 4 else if x.up.getLsbD 2 then 3 else if x.up.getLsbD 1 then 2
  else if x.up.getLsbD 0 then 1 else 0

/-- A sensor counts for the device thermal state (R284). -/
def Sensor.deviceLevel (x : Sensor) : Fin 5 := if x.failed then 0 else x.level

def maxFin5 (a b : Fin 5) : Fin 5 := if a < b then b else a

/-- The device thermal state of R284. -/
def State.thermState (s : State) : Fin 5 :=
  let m := s.therm.sensors.toList.foldl (fun a x => maxFin5 a x.deviceLevel) 0
  maxFin5 (maxFin5 m s.therm.hold) (if s.therm.forced then 3 else 0)

/-- NVM writes are allowed (R288). A sensor without a reading does not hold them (log 12). -/
def State.nvmAllowed (s : State) : Bool :=
  s.therm.state == 0 &&
    s.therm.sensors.toList.all fun x => x.failed || (-4000 : Int) ≤ x.reading.getD 0

/-- The hottest reading of a sensor not declared failed; 0x8000 where there is none (R427, R280). -/
def State.hottest (s : State) : Int :=
  s.therm.sensors.toList.foldl
    (fun m x => if x.failed then m else max m (x.reading.getD (-32768))) (-32768)

/-! ## Black-box records (R427 to R430) -/

/-- A record as produced now (Table 20-6). -/
def mkRec (s : State) (type : Byte) (args : W64) : Rec :=
  { type, staged := !s.nvmAllowed, holdup := false, atValid := s.activeDomain.valid
    temp := s.hottest, lt := s.core.lt, atSec := BitVec.ofNat 32 (secOf s.atTime)
    atFrac := BitVec.ofNat 16 (frac40 s.atTime / 2 ^ 24), args }

/-- Its 32 bytes under a NUMBER (Table 20-6). -/
def Rec.bytes (number : W32) (r : Rec) : List Byte :=
  let b := toLE 4 number.toNat ++
    [r.type, BitVec.ofNat 8 (bits [r.staged, r.holdup, r.atValid])] ++
    toLEInt 2 r.temp ++ toLE 8 r.lt.toNat ++ toLE 4 r.atSec.toNat ++ toLE 2 r.atFrac.toNat ++
    toLE 8 r.args.toNat
  b ++ toLE 2 (crc16 b).toNat

/-- The position the next record takes (R429). -/
def Box.nextPos (b : Box) : Nat := if b.recs.isEmpty then 0 else (b.newest + 1) % 1536

/-- A record is programmed at the next position; one that fails verification there is voided and takes the
position after it; the first of a page starts the erase of the page after it (R429). A HEAT_ENTRY's NUMBER and the staged records committed in an interval are noted
(R431). -/
def Box.write (r : Rec) (b : Box) : Box :=
  let voids := Config.recordVoids b.number.toNat
  let used := (List.range (voids + 1)).map fun k => (b.nextPos + k) % 1536
  let pos := (b.nextPos + voids) % 1536
  let number := countUp b.number 1
  let first := used.any (· % 16 == 0)
  let recs := b.recs.filter fun e => !used.any fun x => x % 16 == 0 && e.1 / 16 == (x / 16 + 1) % 96
  { b with
    wear := b.wear || voids != 0
    recs := (pos, r.bytes number) :: recs
    newest := pos
    number := number
    pageErase := b.pageErase || first
    -- the next position lies in this page, or in the one that its first record has had erased
    ready := pos % 16 != 15 || !(b.pageErase || first)
    heat := match b.heat with
      | some (none, c, d) =>
        if r.type = 0x04 then some (some number, c, d) else some (none, c + boolNat r.staged, d)
      | some (some k, c, d) => some (some k, c + boolNat r.staged, d)
      | none => none }

/-- Bytes of the NVM are programmed, in its 64-bit words (R418, R415). -/
def Faults.nvmWritten (off len : Nat) (f : Faults) : Faults :=
  (List.range (ceilDiv (off % 8 + len) 8)).foldl (fun f k => f.wordWritten 1 (off / 8 + k)) f

/-- Where the black box lies in the NVM (Table 20-1). -/
def boxOffset : Nat := 0x10000

/-- A record is programmed in this tick, and in the two after it at most (Table 20-2). -/
def programRecord (r : Rec) (s : State) : State :=
  let s := s.modBox fun b => { b.write r with begun := some (s.core.lt, b.number) }
  s.modFaults (Faults.nvmWritten (boxOffset + 32 * s.box.newest) 32)

/-- A record is staged in SRAM, or dropped and counted when the first 63 places are full: the STAGE_OVERFLOW record is
produced with the first one dropped, and has the place kept for it (R430). -/
def Box.stage (r : Rec) (b : Box) : Box :=
  if b.staged.length < 63 then { b with staged := b.staged ++ [r] }
  else
    { b with dropped := b.dropped + 1
             overflow := b.overflow.or (some { r with type := 0x07, staged := true, holdup := false, args := 0 })
             heat := b.heat.map fun h => (h.1, h.2.1, h.2.2 + 1) }

/-- A record is produced: written while writes are allowed and none waits before it, staged
otherwise (R430, R434). -/
def boxRecord (type : Byte) (args : W64) (s : State) : State :=
  let r := mkRec s type args
  if r.staged || s.box.erasing || !s.box.staged.isEmpty then s.modBox (Box.stage r) else programRecord r s

/-! ## Fault sources (R402) -/

/-- The sources raised by the reeve's firmware (R400). -/
def firmwareSource (n : Source) : Bool := n = 12 || n = 13 || (40 ≤ n && n ≤ 47)

/-- The detector of source n reports its condition in this tick (R402); sources 55 to 63 never
detect, and firmware sources are not raised while the reeve is stalled (R400). -/
def raise (n : Source) (s : State) : State :=
  if 55 ≤ n.val || (firmwareSource n && !s.core.reeveRuns) then s
  else s.modSource n fun x => { x with det := true }

/-- A detection from an injected word (R415); a real error found in this tick combines with it. -/
def raiseInjected (n : Source) (s : State) : State :=
  s.modSource n fun x => { x with det := true, detInjected := x.detInjected || !x.det }

/-- The words of a checker at the addresses for which `at_` holds are read (R401, R415): the error of each injected one
is detected, by the sources ue and ce, and a real uncorrectable one that this tick has reported is found here. Whether
a word is uncorrectable. -/
def readWords (checker : Fin 5) (at_ : Nat → Bool) (ue ce : Source) (s : State) : Bool × State :=
  let errs := (s.faults.injected.filter fun x => x.1 == checker && at_ x.2.1).map (·.2.2)
  let real := s.faults.found.getLsbD ue.val
  let t := if errs.contains true then raiseInjected ue s else s
  let t := if errs.contains false && !real then raiseInjected ce t else t
  (real || errs.contains true, t.modFaults fun f => { f with found := f.found &&& ~~~(1#64 <<< ue.val) })

/-- Bytes of the NVM are read. -/
def readNvm (off len : Nat) (s : State) : State :=
  (readWords 1 (fun a => decide (off / 8 ≤ a ∧ 8 * a < off + len)) 6 50 s).2

/-- A source is uncleared (R403). -/
def FSource.uncleared (x : FSource) : Bool := x.observed || x.forced

/-- FAULT_N is to be low (R406). -/
def State.faultLow (s : State) : Bool :=
  s.faults.src.toList.any fun x => x.uncleared && !x.masked

/-- A SEVERE source is uncleared, which bars SYS.RECOVER (R412). -/
def State.severeUncleared (s : State) : Bool :=
  s.faults.src.toList.any fun x => x.inForce == .severe && x.uncleared

/-- FSUM (Table 19-3). -/
def State.fsum (s : State) : Nat := bits (s.faults.src.toList.map FSource.uncleared)

/-! ## Nearest sensors (R279) -/

/-- Table 13-1: the sensor, then its replacements, of each row. -/
def replacements : Vector (List (Fin 9)) 9 :=
  #v[[0, 5, 6], [1, 2, 5], [2, 1, 3], [3, 4, 2], [4, 3, 5], [5, 0, 6], [6, 5, 0], [7, 3, 4], [8, 6, 5]]

/-- The nearest sensor of a row of Table 13-1: the first listed one not failed, else the sensor the
reeve chose (R279). -/
def State.nearest (s : State) (row : Fin 9) : Fin 9 :=
  match replacements[row].find? fun t => !s.therm.sensors[t].failed with
  | some t => t
  | none => (s.therm.chosen[row]).getD row

/-- The row of Table 13-1 of a port. -/
def portRow (p : PortId) : Fin 9 := if p < 4 then 1 else if p < 8 then 2 else if p < 12 then 3 else 4

end Sys2Proof.Machine
end

