-- ==== Sys2Proof/Machine/Operands.lean ====
section
/-!
DEFINITION. The requests of the mailbox: the opcodes of protocol 3 with their lengths and accepted
states (Tables 16-5 to 16-14 and 17-1 to 17-9), and the checks of R346 steps 1 to 3.
-/

namespace Sys2Proof.Machine

/-- How the length of a request is given. -/
inductive LenKind where
  | fixed (n : Nat)
  /-- A chunk of R349. -/
  | chunked
  /-- GAUZE.HEALTH: 4, 16 or 18 by its operation (Table 16-7). -/
  | health
deriving DecidableEq, Repr

/-- A row of the command tables. -/
structure CmdRow where
  op : Nat
  len : LenKind
  states : List Dev

def hyrs : List Dev := [.held, .ready, .run, .safe]
def hyrsl : List Dev := [.held, .ready, .run, .safe, .latched]

/-- The PORT family. -/
def portCmds : List CmdRow :=
  [⟨0x0201, .fixed 4, hyrs⟩, ⟨0x0202, .fixed 8, hyrs⟩, ⟨0x0203, .fixed 6, hyrs⟩,
   ⟨0x0204, .fixed 4, hyrs⟩, ⟨0x0205, .fixed 4, hyrs⟩, ⟨0x0206, .fixed 2, hyrs⟩,
   ⟨0x0207, .fixed 2, hyrs⟩, ⟨0x0208, .fixed 4, hyrs⟩, ⟨0x0209, .fixed 1, [.run]⟩,
   ⟨0x020A, .fixed 1, [.run]⟩, ⟨0x020B, .fixed 1, hyrs⟩]

/-- The HEAT family. -/
def heatCmds : List CmdRow :=
  [⟨0x0301, .fixed 36, hyrs⟩, ⟨0x0302, .chunked, hyrs⟩, ⟨0x0303, .fixed 1, [.run]⟩,
   ⟨0x0304, .fixed 1, [.run]⟩, ⟨0x0305, .fixed 1, hyrs⟩]

/-- The GAUZE family. -/
def gauzeCmds : List CmdRow :=
  [⟨0x0401, .chunked, hyrs⟩, ⟨0x0402, .fixed 1, [.run]⟩, ⟨0x0403, .fixed 1, [.run]⟩,
   ⟨0x0404, .fixed 2, hyrs⟩, ⟨0x0405, .health, hyrs⟩, ⟨0x0406, .fixed 1, hyrs⟩,
   ⟨0x0407, .fixed 24, hyrs⟩]

/-- The SEQ family. -/
def seqCmds : List CmdRow :=
  [⟨0x0501, .chunked, hyrs⟩, ⟨0x0502, .fixed 1, [.ready, .run]⟩, ⟨0x0503, .fixed 4, [.ready, .run]⟩,
   ⟨0x0504, .fixed 1, hyrs⟩, ⟨0x0505, .fixed 0, [.run]⟩, ⟨0x0506, .fixed 1, hyrs⟩]

/-- The WEAVE family. -/
def weaveCmds : List CmdRow :=
  [⟨0x0601, .fixed 16, hyrs⟩, ⟨0x0602, .chunked, hyrs⟩, ⟨0x0603, .fixed 1, hyrs⟩,
   ⟨0x0604, .fixed 1, hyrs⟩, ⟨0x0605, .fixed 4, [.held, .ready, .safe]⟩, ⟨0x0606, .fixed 2, hyrs⟩,
   ⟨0x0607, .fixed 8, hyrs⟩]

/-- The GAS family. -/
def gasCmds : List CmdRow :=
  [⟨0x0701, .chunked, hyrs⟩, ⟨0x0702, .chunked, hyrs⟩, ⟨0x0703, .fixed 16, hyrs⟩,
   ⟨0x0704, .fixed 4, [.ready, .run]⟩, ⟨0x0705, .fixed 1, hyrs⟩, ⟨0x0706, .fixed 0, hyrs⟩,
   ⟨0x0707, .fixed 2, hyrs⟩]

/-- The LEVEE family. -/
def leveeCmds : List CmdRow :=
  [⟨0x0801, .fixed 24, hyrs⟩, ⟨0x0802, .fixed 8, [.run]⟩, ⟨0x0803, .fixed 2, hyrs⟩]

/-- The CAL family. -/
def calCmds : List CmdRow :=
  [⟨0x0901, .fixed 4, [.run]⟩, ⟨0x0902, .fixed 4, [.run]⟩, ⟨0x0903, .fixed 8, [.run]⟩,
   ⟨0x0904, .fixed 2, [.run]⟩, ⟨0x0905, .fixed 1, [.run]⟩, ⟨0x0906, .fixed 3, [.run]⟩,
   ⟨0x0907, .fixed 2, [.ready, .run]⟩, ⟨0x0908, .fixed 2, hyrs⟩, ⟨0x0909, .fixed 1, hyrs⟩]

/-- The FRAME family. -/
def frameCmds : List CmdRow :=
  [⟨0x1201, .chunked, hyrs⟩, ⟨0x1202, .fixed 8, hyrs⟩, ⟨0x1203, .fixed 4, hyrs⟩,
   ⟨0x1204, .fixed 8, [.run]⟩, ⟨0x1205, .fixed 8, hyrs⟩]

/-- The SYS family. -/
def sysCmds : List CmdRow :=
  [⟨0x0101, .fixed 0, [.ready]⟩, ⟨0x0102, .fixed 0, [.run]⟩, ⟨0x0103, .fixed 0, [.ready, .run]⟩,
   ⟨0x0104, .fixed 0, [.held]⟩, ⟨0x0105, .fixed 0, [.ready, .run]⟩, ⟨0x0106, .fixed 1, hyrs⟩,
   ⟨0x0107, .fixed 0, [.safe]⟩, ⟨0x0108, .fixed 0, hyrsl⟩, ⟨0x0109, .chunked, [.held]⟩]

/-- The RING family. -/
def ringCmds : List CmdRow :=
  [⟨0x0C01, .fixed 1, hyrs⟩, ⟨0x0C02, .fixed 2, hyrs⟩]

/-- The TIME family. -/
def timeCmds : List CmdRow :=
  [⟨0x0D01, .fixed 20, hyrs⟩, ⟨0x0D02, .fixed 8, hyrs⟩, ⟨0x0D03, .fixed 2, hyrs⟩,
   ⟨0x0D04, .fixed 1, hyrs⟩, ⟨0x0D05, .fixed 1, hyrs⟩, ⟨0x0D06, .fixed 28, hyrs⟩,
   ⟨0x0D07, .fixed 0, hyrs⟩]

/-- The LEDGER family. -/
def ledgerCmds : List CmdRow :=
  [⟨0x0A01, .fixed 8, hyrs⟩, ⟨0x0A02, .fixed 2, hyrs⟩, ⟨0x0A03, .fixed 8, hyrs⟩]

/-- The THERM family. -/
def thermCmds : List CmdRow :=
  [⟨0x0B01, .fixed 0, hyrs⟩, ⟨0x0B02, .fixed 0, hyrs⟩, ⟨0x0B03, .fixed 2, hyrs⟩,
   ⟨0x0B04, .fixed 0, hyrs⟩]

/-- The FAULT family. -/
def faultCmds : List CmdRow :=
  [⟨0x0E01, .fixed 2, hyrsl⟩, ⟨0x0E02, .fixed 8, hyrs⟩, ⟨0x0E03, .fixed 8, hyrs⟩,
   ⟨0x0E04, .fixed 2, hyrs⟩, ⟨0x0E05, .fixed 8, hyrs⟩, ⟨0x0E06, .fixed 2, hyrs⟩]

/-- The BOLT family. -/
def boltCmds : List CmdRow :=
  [⟨0x0F01, .chunked, hyrs⟩, ⟨0x0F02, .fixed 4, hyrs⟩, ⟨0x0F03, .fixed 0, hyrs⟩]

/-- The BOX family. -/
def boxCmds : List CmdRow :=
  [⟨0x1001, .fixed 0, hyrsl⟩, ⟨0x1002, .fixed 2, hyrsl⟩, ⟨0x1003, .fixed 1, [.held]⟩]

/-- The LOCK family. -/
def lockCmds : List CmdRow :=
  [⟨0x1101, .fixed 8, hyrs⟩, ⟨0x1102, .fixed 0, hyrs⟩, ⟨0x1103, .fixed 16, hyrs⟩,
   ⟨0x1104, .fixed 0, hyrs⟩]

/-- Every opcode protocol 3 defines. -/
def cmdRows : List CmdRow :=
  portCmds ++ heatCmds ++ gauzeCmds ++ seqCmds ++ weaveCmds ++ gasCmds ++
  leveeCmds ++ calCmds ++ frameCmds ++ sysCmds ++ ringCmds ++ timeCmds ++
  ledgerCmds ++ thermCmds ++ faultCmds ++ boltCmds ++ boxCmds ++ lockCmds

def cmdRow (op : Nat) : Option CmdRow := cmdRows.find? fun r => r.op == op

/-! ## The request in a slot (Table 16-1) -/

def Slot.op (x : Slot) : Nat := u16 x.bytes.toList 0
def Slot.len (x : Slot) : Nat := u8 x.bytes.toList 3
def Slot.payload (x : Slot) : List Byte := slice x.bytes.toList 8 (min x.len 56)

/-- BAD_LENGTH with its DETAIL for a LEN other than the one wanted (R346 step 2). -/
def lenFault (len want : Nat) : Option Nat := if len < want then some len else if want < len then some want else none

/-- Step 2 of R346. An empty Weft table is the one chunk of LEN 8 (R349). -/
def lengthFault (op : Nat) (kind : LenKind) (len : Nat) (p : List Byte) : Option Nat :=
  match kind with
  | .fixed n => lenFault len n
  | .health =>
    lenFault len (if len ≤ 1 then 4 else if u8 p 1 = 1 then 16 else if u8 p 1 = 2 then 18 else 4)
  | .chunked =>
    let empty := op = 0x0501 ∧ len = 8 ∧ u16 p 0 = 1 ∧ u16 p 2 = 0 ∧ u16 p 4 = 0 ∧ (u8 p 6).testBit 0
    if empty then none
    else if len < 9 then some len
    else if 56 < len then some 56
    else if u16 p 4 < u16 p 2 + (len - 8) then some (8 + (u16 p 4 - u16 p 2))
    else none

/-- Steps 1 to 3 of R346: the refusal, if there is one. -/
def requestFault (x : Slot) (dev : Dev) : Option (Status × Nat) :=
  match cmdRow x.op with
  | none => some (.badOpcode, 0)
  | some r =>
    match lengthFault x.op r.len x.len x.payload with
    | some d => some (.badLength, d)
    | none => if r.states.contains dev then none else some (.wrongState, 0)

end Sys2Proof.Machine
end

