-- ==== Sys2Proof/Machine/Porch.lean ====
section
/-!
DEFINITION. The porch (Table 15-2): every register as the bytes it reads as, and the read of a run
of bytes in one transaction with its latches, pops and clears (R307 to R311, R322 to R326).
-/

namespace Sys2Proof.Machine

/-! ## Registers -/

/-- STATE.DEV (R22). OFF is never read. -/
def Dev.code : Dev → Nat
  | .off => 0 | .boot => 1 | .held => 2 | .ready => 3 | .run => 4 | .safe => 5 | .latched => 6

def HeldCause.code : HeldCause → Nat
  | .none => 0 | .noBolt => 1 | .hostHold => 2

def FrameSource.code : FrameSource → Nat
  | .noFrame => 0 | .following => 1 | .absent => 2 | .byBolt => 3

def ClockState.code : ClockState → Nat
  | .freeRunning => 0 | .fsync => 1 | .refclk => 2 | .holdover => 3

/-- STATE (R22). -/
def State.stateWord (s : State) : Nat :=
  s.core.dev.code + 16 * s.core.hcause.code + 64 * boolNat s.core.wake +
    128 * boolNat s.core.stopping + 256 * s.frame.src.code + 1024 * s.core.clk.code +
    4096 * boolNat (s.frame.unguarded != 0)

/-- BUS (Table 15-4). -/
def Bus.word (b : Bus) : Nat :=
  bits [b.toutScl, b.toutSda, b.addrMis] + 256 * b.addr.toNat + 32768 * boolNat b.addrValid +
    65536 * b.nfail.toNat + 16777216 * b.arbLost.toNat

def SlotState.code : SlotState → Nat
  | .free => 0 | .queued => 1 | .running => 2 | .pending => 3 | .done => 4

/-- MBSTAT (Table 16-3). -/
def Mbox.stat (m : Mbox) : List Byte :=
  m.slots.toList.map fun x => BitVec.ofNat 8 (x.st.code + 8 * boolNat x.ign)

/-- RLEVEL (Table 14-6). -/
def Rings.level (r : Rings) : Nat :=
  r.sample.length % 16384 + 65536 * (r.notice.length % 1024) +
    1073741824 * boolNat r.ngap.isSome + 2147483648 * boolNat r.sgap.isSome

/-- TSNAP (Table 18-3). -/
def State.tsnap (s : State) : List Byte :=
  toLE 4 s.frame.number.toNat ++
  toLE 2 (s.frame.tick % 1024) ++
  [BitVec.ofNat 8 (bits [s.time.ta.valid, s.time.tb.valid, s.time.activeTb, s.time.o != 0,
    s.time.ta.present, s.time.tb.present, s.time.ta.locked, s.time.tb.locked]), 0] ++
  toLE 8 s.core.lt.toNat ++ toLE 8 (secOf s.atTime) ++ toLE 5 (frac40 s.atTime) ++ [0, 0, 0]

/-- Ticks in a second of LT. -/
def ticksPerSecond : Nat := 64000

/-- LOCKREM: seconds a lockout in force still runs, 0 without one (Table 21-2). -/
def State.lockRem (s : State) : Nat :=
  match s.lock.lockout with
  | some (len, t) => len - s.since t / ticksPerSecond
  | none => 0

/-- A nonce lives 60 s (R442). -/
def nonceLife : Nat := 3840000

/-- A nonce is valid until the start of the first tick at which its life has passed (R442). -/
def State.nonceValid (s : State) : Bool := s.lock.nonce.any fun x => decide (s.since x.2 < nonceLife)

/-- LOCK (Table 21-2). -/
def State.lockBytes (s : State) : List Byte :=
  let nrem := match s.lock.nonce with
    | some (_, t) => 60 - s.since t / ticksPerSecond
    | none => 0
  [BitVec.ofNat 8 (s.lock.level.val + 4 * boolNat s.lock.sealed +
      8 * boolNat s.lock.lockout.isSome + 16 * boolNat s.nonceValid),
    BitVec.ofNat 8 (satNat 255 s.lock.fails)] ++
  toLE 4 s.lockRem ++ [BitVec.ofNat 8 nrem, 0] ++ toLE 4 s.lock.attempts.toNat ++ [0, 0, 0, 0]

/-- ID (Table 15-3). -/
def idBytes : List Byte := [0x5A, 0x0C, 0x16, 0xA0, 0xC1, 0x03, 0x02, 0x03]

/-- The registers from 0x0000 to 0x00FF: address and present bytes (Table 15-2). DBELL reads as 0
(R8); unassigned addresses have no row and read as 0. -/
def State.registers (s : State) : List (Nat × List Byte) :=
  [(0x00, idBytes), (0x08, toLE 2 s.stateWord), (0x0A, toLE 2 s.bus.attn.toNat),
   (0x0C, toLE 2 s.bus.attnMask.toNat), (0x10, toLE 4 s.bus.attnCfg.toNat),
   (0x14, toLE 4 s.bus.word), (0x18, toLE 8 s.fsum), (0x24, s.mbox.stat),
   (0x28, toLE 4 s.rings.level), (0x2C, toLE 4 s.rings.sdrop.toNat),
   (0x30, toLE 2 s.rings.ndrop.toNat ++ toLE 2 s.rings.nalost.toNat),
   (0x34, toLE 2 s.rings.lvFlags.toNat ++ [s.rings.lvTag, s.rings.lvGen]),
   (0x40, s.tsnap), (0x60, s.lockBytes)]

/-- The register that holds address a, if one does. -/
def State.registerAt (s : State) (a : Nat) : Option (Nat × List Byte) :=
  s.registers.find? fun r => decide (r.1 ≤ a ∧ a < r.1 + r.2.length)

/-- The live value of tag t: lanes 0 to 63, gas channels 64 to 79 (R310). -/
def State.liveOf (s : State) (t : Nat) : Live :=
  if h : t < 64 then s.lanes[t].live else if h' : t - 64 < 16 then s.gas.live[t - 64] else {}

def Live.bytes (l : Live) : List Byte := toLE 3 l.value.toNat ++ [l.gen]

/-- The tag of the live value at address a (R310). -/
def liveTag (a : Nat) : Option Nat :=
  if 0x300 ≤ a ∧ a < 0x440 then some ((a - 0x300) / 4) else none

/-- The byte a read of one porch address outside any transaction's latches gives (R322). -/
def porchByte (s : State) (a : Nat) : Byte :=
  match s.registerAt a with
  | some (b, d) => d.getD (a - b) 0
  | none =>
    if 0x100 ≤ a ∧ a < 0x200 then (s.mbox.slots.toList.getD ((a - 0x100) / 64) {}).bytes.toList.getD (a % 64) 0
    else if 0x200 ≤ a ∧ a < 0x208 then (toLE 8 s.rings.slatch.toNat).getD (a - 0x200) 0
    else if 0x210 ≤ a ∧ a < 0x220 then (toLE 16 s.rings.nlatch.toNat).getD (a - 0x210) 0
    else match liveTag a with
      | some t => (s.liveOf t).bytes.getD (a % 4) 0
      | none => 0

/-! ## Clears and pops of a read -/

/-- A read of ATTN leaves no bit set, and the attention machine IDLE: the events of the tick it coincides with
follow in the next TICK, and a masked bit that one of them sets makes it PENDING again (R337, R9). -/
def Bus.readAttn (now : W64) (b : Bus) : Bus :=
  { b with attn := 0, machine := .idle
           readPending := if b.machine = .pending then some (now + 1) else none }

/-- What the read of the byte at address a clears, as the last of an RC register or field (R326): STATE.WAKE and
BUS.ARBLOST lie in a byte of their own, ATTN is cleared if its first byte was read in the transaction too. -/
def readClears (a : Nat) (first : Bool) (s : State) : State :=
  if a = 0x08 then s.modCore fun c => { c with wake := false }
  else if a = 0x0B ∧ first then s.modBus (Bus.readAttn s.core.lt)
  else if a = 0x17 then s.modBus fun b => { b with arbLost := 0 }
  else s

def emptySample : SampleEntry := 0x00000000FD000000

/-- The oldest SAMPLE entry is latched into the sluice (R307); an entry whose word is found
uncorrectable is latched as the empty entry, and the ECC source is raised (R401). -/
def latchSample (s : State) : State :=
  match s.rings.sample with
  | [] => s.modRings fun r => { r with slatch := emptySample }
  | e :: _ =>
    let pos := (s.rings.swr + 8192 - s.rings.sample.length) % 8192
    let x := readWords 2 (· == pos) 14 51 s
    x.2.modRings fun r => { r with slatch := if x.1 then emptySample else e }

def latchNotice (s : State) : State :=
  match s.rings.notice with
  | [] => s.modRings fun r => { r with nlatch := 0 }
  | e :: _ =>
    let pos := (s.rings.nwr + 512 - s.rings.notice.length) % 512
    let x := readWords 3 (· / 2 == pos) 15 52 s
    x.2.modRings fun r => { r with nlatch := if x.1 then 0 else e }

/-- The SWATER cause is re-armed once SLEVEL has fallen to half the watermark (R315). -/
def Rings.rearm (r : Rings) : Rings :=
  { r with armed := r.armed || decide (2 * r.sample.length ≤ r.water) }

/-- The entry read through is popped (R307). -/
def popSample : State → State := State.modRings fun r => { r with sample := r.sample.tail }.rearm
def popNotice : State → State := State.modRings fun r => { r with notice := r.notice.tail }

/-! ## One transaction -/

/-- A read transaction in progress: the address, the object whose first byte this transaction has
read with its latched bytes, and the bytes driven so far. -/
structure Rd where
  s : State
  addr : Nat
  first : Option (Nat × List Byte) := none
  data : List Byte := []

/-- The byte driven from an object latched in this transaction, or from the present state. -/
def Rd.byte (x : Rd) (base : Nat) (present : List Byte) : Byte :=
  match x.first with
  | some (b, d) => if b = base then d.getD (x.addr - base) 0 else present.getD (x.addr - base) 0
  | none => present.getD (x.addr - base) 0

/-- This transaction read the first byte of the object at base. -/
def Rd.hasFirst (x : Rd) (base : Nat) : Bool := (x.first.map (·.1)) == some base

/-- One byte of a register of 0x0000 to 0x00FF (R324, R326). -/
def Rd.register (x : Rd) (base : Nat) (present : List Byte) : Rd :=
  let x := if x.addr = base then { x with first := some (base, present) } else x
  let b := x.byte base present
  { x with s := readClears x.addr (x.hasFirst base) x.s, addr := x.addr + 1, data := x.data ++ [b] }

/-- One byte of a sluice of n bytes (R307, R308). -/
def Rd.sluice (x : Rd) (base n : Nat) (latch pop : State → State) (entry : State → List Byte) : Rd :=
  let x := if x.addr = base then
      let s := latch x.s
      { x with s := s, first := some (base, entry s) }
    else x
  let b := (entry x.s).getD (x.addr - base) 0
  if x.addr = base + n - 1 then
    { x with s := if x.hasFirst base then pop x.s else x.s, addr := base, first := none,
             data := x.data ++ [b] }
  else { x with addr := x.addr + 1, data := x.data ++ [b] }

/-- One byte of the live value with tag t, latched at the first of its bytes read in this
transaction (R311). -/
def Rd.live (x : Rd) (t : Nat) : Rd :=
  let base := 0x300 + 4 * t
  let x := if x.hasFirst base then x else
    let l := x.s.liveOf t
    { x with
      s := x.s.modRings fun r => { r with lvFlags := l.flags, lvTag := BitVec.ofNat 8 t, lvGen := l.gen }
      first := some (base, l.bytes) }
  { x with addr := x.addr + 1, data := x.data ++ [x.byte base []] }

/-- One byte is read and the pointer moves on (R323). -/
def Rd.step (x : Rd) : Rd :=
  let a := x.addr % 65536
  let x := { x with addr := a }
  match x.s.registerAt a with
  | some (base, present) => x.register base present
  | none =>
    if 0x200 ≤ a ∧ a < 0x208 then
      x.sluice 0x200 8 latchSample popSample (fun s => toLE 8 s.rings.slatch.toNat)
    else if 0x210 ≤ a ∧ a < 0x220 then
      x.sluice 0x210 16 latchNotice popNotice (fun s => toLE 16 s.rings.nlatch.toNat)
    else match liveTag a with
      | some t => x.live t
      | none => { x with addr := a + 1, data := x.data ++ [porchByte x.s a] }

def Rd.run : Nat → Rd → Rd
  | 0, x => x
  | n + 1, x => Rd.run n x.step

/-- The Rexia acknowledges its own address (R328). -/
def State.acks (s : State) : Bool :=
  s.core.porchUp && s.bus.addrValid && !s.core.doze && s.core.resetPosted.isNone &&
    !s.core.rstLow && s.core.dev != .off

/-- A wake event is taken in DOZE (R25); one already taken stands (R329). -/
def wakeEvent (byBus : Bool) (s : State) : State :=
  let s := if byBus then s else s.modCore fun c => { c with woke := true }
  if s.core.doze && s.core.waking.isNone then
    s.modCore fun c => { c with waking := some { since := c.lt, byBus } }
  else s

/-- The address is refused: in DOZE the address match of a transaction addressed to the Rexia is a
wake event (R329); otherwise nothing is taken (R328). -/
def refuse (s : State) : State :=
  let s := s.modBus fun b => { b with rdata := [], inTrans := false }
  if s.bus.addrValid then wakeEvent true s else s

/-- The Rexia has acknowledged its address: it takes part until the next START or STOP (R330). -/
def Bus.join (b : Bus) : Bus := { b with inTrans := true }

/-- A read transaction of n bytes: from address a, to which the host has set the pointer, or from the pointer as it
stands. The bytes are driven and the pointer is left behind the last (R323). With n = 0 the clock stops within the
first byte (R331). -/
def readAt (a : Option Nat) (n : Nat) (s : State) : State :=
  if s.acks then
    let x := Rd.run n { s := s, addr := a.getD s.bus.pointer.toNat }
    x.s.modBus fun b => { b.join with rdata := x.data, pointer := BitVec.ofNat 16 x.addr }
  else refuse s

/-- The address of byte k of an object of the porch. -/
def byteAt {n : Nat} (base : Nat) (k : Option (Fin n)) : Option Nat := k.map fun i => base + i.val

end Sys2Proof.Machine
end

