-- ==== Sys2Proof/Machine/Rings.lean ====
section
/-!
DEFINITION. The rings (spec/14): entries and gap markers of the SAMPLE ring, live values, and the
commands SAMPLE_GAP_MARKER, NOTICE_GAP_MARKER, SAMPLE_SLUICE_READ, NOTICE_SLUICE_READ and
LIVE_VALUE_READ.
-/

namespace Sys2Proof.Machine

/-- The SAMPLE ring takes entries (R300). -/
def State.ringOpen (s : State) : Bool := s.core.dev == .ready || s.core.dev == .run

/-- A SAMPLE ring entry (Table 14-2). -/
def sampleEntry (s : State) (value : W24) (tag flags : Byte) : SampleEntry :=
  value.setWidth 64 ||| (tag.setWidth 64 <<< (24 : Nat)) ||| (flags.setWidth 64 <<< (32 : Nat)) |||
    (BitVec.ofNat 64 (s.frame.tick % 1024) <<< (40 : Nat)) |||
    (BitVec.ofNat 64 (s.frame.number.toNat % 64) <<< (50 : Nat)) |||
    (s.rings.sseq.setWidth 64 <<< (56 : Nat))

/-- One entry enters the SAMPLE ring (R299); SLEVEL rising to the watermark sets its cause, once
armed (R315). -/
def pushSample (value : W24) (tag flags : Byte) (s : State) : State :=
  let e := sampleEntry s value tag flags
  let w := s.rings.swr
  let s := s.modFaults fun f => f.wordWritten 2 w
  let s := s.modRings fun r =>
    { r with sample := r.sample ++ [e], sseq := r.sseq + 1, swr := (r.swr + 1) % 8192 }
  if s.rings.armed ∧ s.rings.water ≤ s.rings.sample.length then
    attn .sWater (s.modRings fun r => { r with armed := false })
  else s

/-- n entries are dropped and counted, and a gap is pending (R301). -/
def Rings.dropSample (n : Nat) (r : Rings) : Rings :=
  { r with sseq := r.sseq + BitVec.ofNat 8 n, sdrop := satAdd r.sdrop n,
           sgap := some (r.sgap.getD 0 + n) }

/-- The gap marker that is due in this tick (R302). -/
def sampleGap (s : State) : State :=
  match s.rings.sgap with
  | some n =>
    if s.rings.gapDue && s.ringOpen && decide (s.rings.sample.length < 8192) then
      pushSample (BitVec.ofNat 24 (satNat 0xFFFFFF n)) 0xFF 0
        (s.modRings fun r => { r with sgap := none, gapDue := false })
    else s
  | none => s

/-- An output becomes one entry, or two with its extension, or is dropped whole (R298, R301), as every
one is while a gap pends (R302). A closed ring produces nothing (R300). -/
def emitSample (tag : Byte) (o : Out) (s : State) : State :=
  if !s.ringOpen then s
  else
    let s := sampleGap s
    let n := if needsExt o.flags then 2 else 1
    if s.rings.sgap.isNone ∧ s.rings.sample.length + n ≤ 8192 then
      let s := pushSample o.value tag (flagsByte o.flags) s
      if needsExt o.flags then pushSample (o.flags.setWidth 24) 0xFE 0 s else s
    else s.modRings (Rings.dropSample n)

/-- A live value takes an output: GEN moves on (R310). -/
def Live.update (o : Out) (l : Live) : Live := { value := o.value, gen := l.gen + 1, flags := o.flags }

/-- SAMPLE_GAP_MARKER (R302). -/
def execSampleGapMarker (s : State) : Host.Outcome State Fault Refusal := .next (sampleGap s)

/-- NOTICE_GAP_MARKER (R304): outside BOOT and OFF. -/
def execNoticeGapMarker (s : State) : Host.Outcome State Fault Refusal :=
  .next (if s.core.dev = .off ∨ s.core.dev = .boot then s else noticeGap s)

/-- SAMPLE_SLUICE_READ (R307): a read transaction of n bytes from byte `first` of the sluice. -/
def execSampleSluiceRead (first : Option (Fin 8)) (n : Nat) (s : State) : Host.Outcome State Fault Refusal :=
  .next (readAt (byteAt 0x200 first) n s)

/-- NOTICE_SLUICE_READ (R307). -/
def execNoticeSluiceRead (first : Option (Fin 16)) (n : Nat) (s : State) : Host.Outcome State Fault Refusal :=
  .next (readAt (byteAt 0x210 first) n s)

/-- LIVE_VALUE_READ (R311): n bytes from byte `first` of the live values at 0x0300. -/
def execLiveValueRead (first : Option (Fin 320)) (n : Nat) (s : State) : Host.Outcome State Fault Refusal :=
  .next (readAt (byteAt 0x300 first) n s)

end Sys2Proof.Machine
end

