-- ==== Sys2Proof/Machine/Mailbox.lean ====
section
/-!
DEFINITION. The mailbox machinery (R341 to R350): dispatch, chunked writes and read
objects, the commands COMMAND_DISPATCH, CHUNK_STAGING_TIMEOUT, and the RING family.
-/

namespace Sys2Proof.Machine

/-- The host owns a slot while it is FREE or DONE (R343). -/
def SlotState.hostOwned : SlotState → Bool
  | .free => true | .done => true | .queued => false | .running => false | .pending => false

/-! ## Dispatch -/

/-- The offset of the word of slot n that was uncorrectable at its doorbell (R401). -/
def State.badWord (s : State) (n : SlotId) : Option Nat := s.mbox.slots[n].bad.map fun k => 4 * k.val

/-- The slot becomes RUNNING and steps 1 to 3 of R346 are taken: the first failure is posted. -/
def dispatchSlot (n : SlotId) (s : State) : State :=
  let s := s.modSlot n fun x => { x with st := .running }
  match s.badWord n with
  | some off => post n .badArg (0x8000 + off) [] s
  | none =>
    match requestFault s.mbox.slots[n] s.core.dev with
    | some (st, d) => post n st d [] s
    | none => s

/-- A request taken in the tick of its doorbell: SEQ.URGENT while the reeve runs (R344), LEVEE.ACK
(R357) and RING.CLEAR (R314), which are taken in class 7 of that tick. -/
def State.immediate (s : State) (op : Nat) : Bool :=
  s.core.dev != .boot && ((op == 0x0503 && s.reeveActive) || op == 0x0802 || op == 0x0C01)

/-- The mailbox checker at the doorbell of slot n: what it detects, and the uncorrectable word (R401). Which word a real
error lies in is a free value: TICK does not name it. -/
def mboxDetect (n : SlotId) (s : State) : State :=
  let x := readWords 4 (· / 16 == n.val) 48 53 s
  let known := (List.finRange 16).find? fun k => s.faults.wordError 4 (16 * n.val + k.val) == some true
  if x.1 then
    x.2.drawFree.modSlot n fun y => { y with bad := some (known.getD (Config.slotWord s.free)) }
  else x.2.modSlot n fun y => { y with bad := none }

/-- The reeve has a slot in hand: it takes one at a time. A SEQ.URGENT that waits for its conversion does not keep it,
and LEVEE.ACK and RING.CLEAR are the hardware's (R344, R314, R357). -/
def State.slotInHand (s : State) : Bool :=
  s.mbox.slots.toList.any fun x => x.st == .running && x.op != 0x0503 && x.op != 0x0802 && x.op != 0x0C01

/-- An attempt at the lock in slot n: it is counted, and what happens until its comparison does not undo it. -/
def State.attempting (s : State) (n : SlotId) : Bool :=
  let x := s.mbox.slots[n]
  x.st == .running && x.early && (x.op == 0x1101 || x.op == 0x1103)

/-- A request that has passed the checks begins an attempt, if it is one: the Rexia counts it before it compares
(R440). -/
def beginAttempt (n : SlotId) (s : State) : State :=
  let x := s.mbox.slots[n]
  if x.st = .running ∧ (x.op = 0x1101 ∨ x.op = 0x1103) ∧ s.nvmAllowed ∧ s.lock.lockout = none then
    (s.modLock fun l => { l with attempts := satAdd l.attempts 1, fails := satNat 255 (l.fails + 1) }).modSlot n
      fun x => { x with early := true }
  else s

/-- COMMAND_DISPATCH (R344): the reeve takes the oldest QUEUED slot. -/
def execCommandDispatch (s : State) : Host.Outcome State Fault Refusal :=
  .next (
    if s.reeveActive && !s.slotInHand then
      match s.mbox.queue with
      | n :: q => beginAttempt n (dispatchSlot n (s.modMbox fun m => { m with queue := q }))
      | [] => s
    else s)

/-! ## Running a request -/

/-- A row acts on slot n if the slot is RUNNING a request of the row's opcode, while the reeve executes
(R13); LEVEE.ACK and RING.CLEAR take effect with their doorbell (R314, R357). -/
def State.runs (s : State) (n : SlotId) (op : Nat) : Bool :=
  s.mbox.slots[n].st == .running && s.mbox.slots[n].op == op &&
    (s.reeveActive || op == 0x0802 || op == 0x0C01)

/-- The row's effect on the payload of its slot. -/
def onSlot (n : SlotId) (op : Nat) (f : List Byte → State → State) (s : State) : State :=
  if s.runs n op then f s.mbox.slots[n].payload s else s

/-- BAD_ARG with its DETAIL. -/
def badArg (n : SlotId) (d : Nat) : State → State := post n .badArg d []

/-- Posts the refusal if there is one, goes on otherwise. -/
def orRefuse (n : SlotId) (r : Option (Status × Nat)) (k : State → State) (s : State) : State :=
  match r with
  | some (st, d) => post n st d [] s
  | none => k s

/-- Boundaries until a command of the plan is due (R347): the boundary after next if its doorbell was
taken after the freeze of the next frame's plan. Without such a plan, outside RUN, there is no freeze. -/
def State.planBoundaries (s : State) (n : SlotId) : Nat :=
  match s.plan.next, s.plan.frozenAt with
  | some _, some t => if t < s.mbox.slots[n].rung then 2 else 1
  | _, _ => 1

/-- The frame that begins k boundaries from now (R347). -/
def State.frameIn (s : State) (k : Nat) : W32 :=
  if s.frame.started then s.frame.number + BitVec.ofNat 32 k else BitVec.ofNat 32 (k - 1)

/-- The command is due at the k-th next boundary. -/
def pendBoundary (n : SlotId) (op : Nat) (p : List Byte) (k : Nat) (s : State) : State :=
  pendOn n (BitVec.ofNat 16 op) p (.boundary k) (s.frameIn k) s

/-! ## Chunked writes (R349) -/

/-- The staging buffer of an opcode; SEQ.LOAD has one for each SEL. -/
def Staging.holds (op : W16) (sel : Nat) (g : Staging) : Bool :=
  g.op == op && (op != 0x0501 || g.sel == sel)

/-- 60 s have passed without a chunk (R349). -/
def State.expired (s : State) (g : Staging) : Bool := decide (3840000 ≤ s.since g.last)

/-- What is staged; a timeout in the tick of a chunk is taken first (Table 16-16). -/
def State.stagingOf (s : State) (op : W16) (sel : Nat) : Option Staging :=
  s.mbox.staging.find? fun g => g.holds op sel && !s.expired g

def dropStaging (op : W16) (sel : Nat) : State → State := State.modMbox fun m =>
  { m with staging := m.staging.filter fun g => !g.holds op sel }

/-- The fault of a chunk that continues a staging: the payload offset of the first field that does
not continue it; 0 where there is no staging. -/
def continueFault (g : Option Staging) (p : List Byte) : Option Nat :=
  match g with
  | none => some 0
  | some g =>
    if g.sel ≠ u16 p 0 then some 0
    else if g.data.length ≠ u16 p 2 ∨ g.complete then some 2
    else if g.total ≠ u16 p 4 then some 4
    else if (u8 p 6).testBit 0 then some 6
    else none

/-- How a chunked command differs: which SEL and TOTAL are valid, what a first chunk does, what each
accepted chunk does, and what the last chunk does with the whole object. -/
structure ChunkCmd where
  op : W16
  holdOk : Bool := false
  selOk : Nat → Bool
  totalOk : Nat → Nat → Bool
  /-- A refusal before any field is checked. -/
  bar : State → Option Status := fun _ => none
  /-- A resource that is unavailable for a chunk in order; the staging is kept (R346 step 6). -/
  late : State → Option Status := fun _ => none
  onFirst : Nat → State → State := fun _ s => s
  onChunk : List Byte → State → State := fun _ s => s
  /-- The object is complete: slot, SEL, object. -/
  done : SlotId → Nat → List Byte → State → State

/-- One chunk (R349). -/
def chunk (c : ChunkCmd) (n : SlotId) (p : List Byte) (s : State) : State :=
  let sel := u16 p 0
  let total := u16 p 4
  let flags := u8 p 6
  let data := p.drop 8
  match c.bar s with
  | some st => postStatus n st s
  | none =>
    let first := flags.testBit 0 ∧ u16 p 2 = 0
    if first ∧ !c.selOk sel then badArg n 0 s
    else if first ∧ !c.totalOk sel total then badArg n 4 s
    else
      match (if first then none else continueFault (s.stagingOf c.op sel) p) with
      | some d => badArg n d (dropStaging c.op sel s)
      | none =>
        if flags / 2 ≠ 0 ∧ ¬ (c.holdOk ∧ flags / 4 = 0) then badArg n 6 s
        else if u8 p 7 ≠ 0 then badArg n 7 s
        else
          match c.late s with
          | some st => postStatus n st s
          | none =>
          let before := if first then [] else ((s.stagingOf c.op sel).map (·.data)).getD []
          let all := before ++ data
          let s := dropStaging c.op sel s
          let s := c.onChunk data (if first then c.onFirst total s else s)
          let g : Staging := { op := c.op, sel, total, data := all, last := s.core.lt }
          if all.length < total then
            post n .ok all.length [] (s.modMbox fun m => { m with staging := m.staging ++ [g] })
          else if flags.testBit 1 then
            postStatus n .ok
              (s.modMbox fun m => { m with staging := m.staging ++ [{ g with complete := true }] })
          else c.done n sel all s

/-- CHUNK_STAGING_TIMEOUT (R349): 60 s without a chunk discard the staging. -/
def execChunkStagingTimeout (op : W16) (sel : Fin 3) (s : State) : Host.Outcome State Fault Refusal :=
  .next (
    match s.mbox.staging.find? (Staging.holds op sel.val) with
    | some g => if s.expired g then dropStaging op g.sel s else s
    | none => s)

/-! ## Read objects (R350) -/

/-- A read object: which SEL is valid, its bytes, and what CLEAR clears. -/
structure ReadCmd where
  op : W16
  selOk : Nat → Bool
  object : Nat → State → List Byte
  clear : Nat → State → State := fun _ s => s

def snapOf (op : W16) (sel : Nat) (s : State) : Option Snapshot :=
  s.mbox.snaps.find? fun x => x.op == op && x.sel == sel

/-- A snapshot is taken in the tick the request runs (R350). -/
def takeSnap (op : W16) (sel : Nat) (data : List Byte) : State → State := fun s =>
  s.modMbox fun m =>
    { m with snaps := { op, sel, frame := s.frame.number, data } ::
               m.snaps.filter fun x => !(x.op == op && x.sel == sel) }

/-- The response to a read of a snapshot. -/
def Snapshot.response (off : Nat) (x : Snapshot) : List Byte :=
  toLE 2 x.data.length ++ toLE 2 off ++ toLE 4 x.frame.toNat ++ slice x.data off 48

/-- One request of a read object (R350). -/
def readObject (c : ReadCmd) (n : SlotId) (p : List Byte) (s : State) : State :=
  let sel := u16 p 0
  let off := u16 p 2
  let snap := if off = 0 then some { op := c.op, sel, frame := s.frame.number, data := c.object sel s }
    else snapOf c.op sel s
  if !c.selOk sel then badArg n 0 s
  else match snap with
  | none => badArg n 2 s
  | some x =>
    if x.data.length ≤ off then badArg n 2 s
    else if u8 p 4 / 2 ≠ 0 then badArg n 4 s
    else match firstNonZero p 5 3 with
    | some d => badArg n d s
    | none =>
      let s := if off = 0 then
          let s := takeSnap c.op sel x.data s
          if (u8 p 4).testBit 0 then c.clear sel s else s
        else s
      postOk n (x.response off) s

/-! ## The RING family (R366) -/

/-- RING.CLEAR's effect (R314): the pending gap of an emptied ring is cancelled. -/
def Rings.clear (b : Nat) (r : Rings) : Rings :=
  let r := if b.testBit 0 then { r with sdrop := 0, ndrop := 0, nalost := 0 } else r
  let r := if b.testBit 1 then { r with sample := [], sgap := none, gapDue := false }.rearm else r
  if b.testBit 2 then { r with notice := [], ngap := none } else r

/-- RING_CLEAR (R314, R366). -/
def execRingClear (n : SlotId) (s : State) : Host.Outcome State Fault Refusal :=
  .next (onSlot n 0x0C01 (fun p s =>
    if u8 p 0 / 8 ≠ 0 then badArg n 0 s
    else postStatus n .ok (s.modRings (Rings.clear (u8 p 0)))) s)

/-- RING.WATER's payload in range (R366). -/
def ringWaterFault (p : List Byte) : Option Nat :=
  if u16 p 0 = 0 ∨ 8192 < u16 p 0 then some 0 else none

/-- RING.WATER's effect (R315, R490): the cause is re-armed, and set at once where SLEVEL already
lies at or above the new watermark. -/
def applyRingWater (p : List Byte) (s : State) : State :=
  if u16 p 0 ≤ s.rings.sample.length then
    attn .sWater (s.modRings fun r => { r with water := u16 p 0, armed := false })
  else s.modRings fun r => { r with water := u16 p 0, armed := true }

/-- RING_WATER (R490, R366). -/
def execRingWater (n : SlotId) (s : State) : Host.Outcome State Fault Refusal :=
  .next (onSlot n 0x0C02 (fun p =>
    orRefuse n ((ringWaterFault p).map (.badArg, ·)) fun s =>
      postStatus n .ok (applyRingWater p s)) s)

end Sys2Proof.Machine
end

