-- ==== Sys2Proof/Machine/Polders.lean ====
section
/-!
DEFINITION. TDD patterns and the polders they form (R39, R43, R44).
-/

namespace Sys2Proof.Machine

/-! ## Patterns and polders (R39, R43, R44) -/

/-- The class of a tick. -/
def Pattern.cls (x : Pattern) (t : Nat) : Nat := (x.toList.getD (t / 4) 0).toNat / 4 ^ (t % 4) % 4
/-- Uplink and guard are predicted quiet. -/
def Pattern.quiet (x : Pattern) (t : Nat) : Bool := x.cls t == 1 || x.cls t == 2

/-- The maximal runs of true from position t on, the run in progress having begun at `cur`. -/
def runsFrom (t : Nat) (cur : Option Nat) : List Bool → List (Nat × Nat)
  | [] => match cur with
    | some a => [(a, t - 1)]
    | none => []
  | true :: r => runsFrom (t + 1) (cur.or (some t)) r
  | false :: r => match cur with
    | some a => (a, t - 1) :: runsFrom (t + 1) none r
    | none => runsFrom (t + 1) none r

/-- A run less its margins, if anything is left. -/
def trimRun (lead trail : Nat) (before after : Bool) (r : Nat × Nat) : Option (Nat × Nat) :=
  let a := r.1 + (if r.1 = 0 ∧ before then 0 else lead)
  let e := r.2 + 1 - (if r.2 = 639 ∧ after then 0 else trail)
  if a < e then some (a, e - 1) else none

/-- The polders of a pattern; whether tick 639 before it and tick 0 after it are predicted quiet. -/
def Pattern.polders (lead trail : Nat) (before after : Bool) (x : Pattern) : List (Nat × Nat) :=
  (runsFrom 0 none ((List.range 640).map x.quiet)).filterMap (trimRun lead trail before after)

def Frame.pattern (f : Frame) : Pattern := f.patterns[f.active]

/-- A pattern object as it is loaded. -/
def parsePattern (o : List Byte) : Pattern := Vector.ofFn fun i => o.getD i.val 0

/-- A pending command due at the next boundary. -/
def Pend.dueNext (f : W32) (x : Pend) : Bool :=
  match x.wait with
  | .boundary k => k ≤ 1
  | .frame n => n == f + 1
  | _ => false

/-- The pattern of the frame after, with the reloads and switches due there (R42, R44). -/
def State.nextPattern (s : State) : Pattern :=
  let due := s.mbox.pend.filter (Pend.dueNext s.frame.number)
  let loads := due.filter (·.op == 0x1201)
  let sel : Fin 4 := ((due.filter (·.op == 0x1202)).getLast?.map fun x => Fin.ofNat 4 (u8 x.payload 0)).getD s.frame.active
  let own := loads.filter fun x => u8 x.payload 0 == sel.val
  (own.getLast?.map fun x => parsePattern (x.payload.drop 1)).getD s.frame.patterns[sel]

/-- The polders of the frame in progress: those of its plan, or those the active pattern forms where it has
none (R43, R49). -/
def State.polders (s : State) : List (Nat × Nat) :=
  match s.plan.cur with
  | some x => x.polders
  | none =>
    Pattern.polders s.frame.lead s.frame.trail s.frame.quietBefore (s.nextPattern.quiet 0) s.frame.pattern

end Sys2Proof.Machine
end

