-- ==== Sys2Proof/Machine/Reals.lean ====
section
/-!
DEFINITION. The elementary functions the spec names (logarithm, exponential, sine, arc tangent, square
root), on exact rationals: series in fixed point with 2^-160 as the last place, summed until the terms are
below it. Each answer is the real value to within 2^-128 of it or of 1, whichever is larger (log 11).
-/

namespace Sys2Proof.Machine

def absRat (x : Rat) : Rat := if x < 0 then -x else x

def pow2 (e : Int) : Rat := if e < 0 then 1 / ((2 ^ (-e).toNat : Nat) : Rat) else ((2 ^ e.toNat : Nat) : Rat)

/-- floor(log2 a) of a positive rational. -/
def log2Rat (a : Rat) : Int :=
  let e : Int := (Nat.log2 a.num.toNat : Int) - Nat.log2 a.den
  if a < pow2 e then e - 1 else e

/-! ## Fixed point -/

/-- One in fixed point. -/
def fxOne : Int := 2 ^ 160
def fxMul (a b : Int) : Int := a * b / fxOne
def fxOf (x : Rat) : Int := (x * (fxOne : Rat)).floor
def fxRat (a : Int) : Rat := (a : Rat) / (fxOne : Rat)

/-- p / (2 k + 1) + p q / (2 k + 3) + p q^2 / (2 k + 5) ..., of n terms. -/
def oddSeries (q : Int) : Nat → Nat → Int → Int
  | 0, _, _ => 0
  | n + 1, k, p => p / (2 * k + 1 : Nat) + oddSeries q n (k + 1) (fxMul p q)

/-- p + p q / (m + d) + p q^2 / ((m + d) (m + 2 d)) ... with the divisor of each further term given by its
place, of n terms. -/
def powerSeries (q : Int) (f : Nat → Nat) : Nat → Nat → Int → Int
  | 0, _, _ => 0
  | n + 1, k, p => p + powerSeries q f n (k + 1) (fxMul p q / (f k : Nat))

/-- Arc tangent of z for |z| up to 1/2, and its hyperbolic sister. -/
def fxAtan (z : Int) : Int := oddSeries (-fxMul z z) 80 0 z
def fxAtanh (z : Int) : Int := oddSeries (fxMul z z) 80 0 z

def fxLn2 : Int := 2 * fxAtanh (fxOne / 3)
/-- Machin's formula. -/
def fxPi : Int := 16 * fxAtan (fxOne / 5) - 4 * fxAtan (fxOne / 239)

/-! ## The functions -/

def pi : Rat := fxRat fxPi

/-- The square root of a non-negative number, to 160 bits below its leading one. -/
def sqrtRat (x : Rat) : Rat :=
  if x ≤ 0 then 0
  else
    let e := 320 - 2 * (log2Rat x / 2)
    ((Nat.sqrt (x * pow2 e).floor.toNat : Nat) : Rat) * pow2 (-(e / 2))

/-- ln x of a positive number. -/
def lnRat (x : Rat) : Rat :=
  let e := log2Rat x
  let m := x / pow2 e
  fxRat (e * fxLn2 + 2 * fxAtanh (fxOf ((m - 1) / (m + 1))))

/-- exp x; beyond +-200 the value at that bound, which no number format of the spec tells from it. -/
def expRat (x : Rat) : Rat :=
  let y := if x < -200 then -200 else if 200 < x then 200 else x
  let a := fxOf y
  let k := (2 * a + fxLn2) / (2 * fxLn2)
  fxRat (powerSeries (a - k * fxLn2) (fun n => n + 1) 60 0 fxOne) * pow2 k

/-- Sine of up to a quarter turn. -/
def sinQuarter (t : Rat) : Rat :=
  let x := fxMul (fxOf t) (2 * fxPi)
  fxRat (powerSeries (-fxMul x x) (fun n => (2 * n + 2) * (2 * n + 3)) 40 0 x)

/-- Sine and cosine of an angle in turns. -/
def sinTurn (t : Rat) : Rat :=
  let f := t - (t.floor : Rat)
  let g := if 1 / 2 ≤ f then f - 1 / 2 else f
  let v := sinQuarter (if 1 / 4 < g then 1 / 2 - g else g)
  if 1 / 2 ≤ f then -v else v
def cosTurn (t : Rat) : Rat := sinTurn (t + 1 / 4)

/-- Arc tangent in turns of a number from 0 to 1. -/
def atanTurn (t : Rat) : Rat :=
  let a := if 1 / 2 < t then fxPi / 4 + fxAtan (fxOf ((t - 1) / (t + 1))) else fxAtan (fxOf t)
  fxRat a / (2 * pi)

/-- The angle of a point in turns, above -1/2 and up to 1/2; 0 at the origin, which has none (log 11). -/
def angleTurn (re im : Rat) : Rat :=
  let a := if re < 0 then -re else re
  let b := if im < 0 then -im else im
  let q := if a = 0 ∧ b = 0 then 0 else if b ≤ a then atanTurn (b / a) else 1 / 4 - atanTurn (a / b)
  let h := if re < 0 then 1 / 2 - q else q
  if im < 0 then -h else h

end Sys2Proof.Machine
end

