-- ==== Sys2Proof/Machine/F32.lean ====
section
/-!
DEFINITION. IEEE 754 single precision (R214): each operation on the exact values, rounded to nearest, ties to
even, with the standard's infinities and signed zeros; every NaN is one. The functions the standard does not
define (ln, exp, powers) are the real values rounded the same way (log 11).
-/

namespace Sys2Proof.Machine

namespace F32

/-- The one NaN. -/
def nan : F32 := 0x7FC00000
def inf : F32 := 0x7F800000
def one : F32 := 0x3F800000

def negative (x : F32) : Bool := x.getLsbD 31
def neg (x : F32) : F32 := x ^^^ 0x80000000
def abs (x : F32) : F32 := x &&& 0x7FFFFFFF
def finite (x : F32) : Bool := x.toNat / 8388608 % 256 != 255
def isNan (x : F32) : Bool := !finite x && x.toNat % 8388608 != 0
def isInf (x : F32) : Bool := abs x == inf
def isZero (x : F32) : Bool := abs x == 0
/-- A value with a sign. -/
def signed (neg? : Bool) (x : F32) : F32 := if neg? then neg x else x

/-- The value of a finite number; of an infinity 2^128 with its sign, which orders it above every number. -/
def toRat (x : F32) : Rat :=
  let e := x.toNat / 8388608 % 256
  let m := x.toNat % 8388608
  let v := if e = 0 then (m : Rat) * pow2 (-149) else ((m + 8388608 : Nat) : Rat) * pow2 ((e : Int) - 150)
  if x.getLsbD 31 then -v else v

/-- The integer nearest a non-negative number, ties to even. -/
def roundEven (x : Rat) : Nat :=
  let f := x.floor.toNat
  let d := x - (f : Rat)
  if d < 1 / 2 then f else if 1 / 2 < d then f + 1 else if f % 2 = 0 then f else f + 1

/-- The word of a sign, an exponent and a rounded significand. -/
def pack (neg : Bool) (e : Int) (m : Nat) : F32 :=
  let b := ((e + 126) * 8388608 + m).toNat
  let b := if 0x7F800000 ≤ b then 0x7F800000 else b
  BitVec.ofNat 32 (b + if neg then 2147483648 else 0)

/-- The nearest single precision number. -/
def ofRat (x : Rat) : F32 :=
  if x = 0 then 0
  else
    let a := if x < 0 then -x else x
    let e := max (log2Rat a) (-126)
    pack (x < 0) e (roundEven (a / pow2 (e - 23)))

def ofInt (x : Int) : F32 := ofRat (x : Rat)

def add (x y : F32) : F32 :=
  if isNan x || isNan y then nan
  else if isInf x then (if isInf y && negative x != negative y then nan else x)
  else if isInf y then y
  else if isZero x && isZero y then (if negative x && negative y then x else 0)
  else ofRat (toRat x + toRat y)
def sub (x y : F32) : F32 := add x (neg y)

def mul (x y : F32) : F32 :=
  let n := negative x != negative y
  if isNan x || isNan y then nan
  else if isInf x || isInf y then (if isZero x || isZero y then nan else signed n inf)
  else if isZero x || isZero y then signed n 0
  else ofRat (toRat x * toRat y)

def div (x y : F32) : F32 :=
  let n := negative x != negative y
  if isNan x || isNan y then nan
  else if isInf x then (if isInf y then nan else signed n inf)
  else if isInf y then signed n 0
  else if isZero y then (if isZero x then nan else signed n inf)
  else if isZero x then signed n 0
  else ofRat (toRat x / toRat y)

/-- The nearest number to the square root of a non-negative rational. -/
def sqrtOf (x : Rat) : F32 := ofRat (Sys2Proof.Machine.sqrtRat x)

/-- ln x: -infinity at zero, NaN below. -/
def ln (x : F32) : F32 :=
  if isNan x then nan
  else if isZero x then neg inf
  else if negative x then nan
  else if isInf x then inf
  else ofRat (lnRat (toRat x))

def exp (x : F32) : F32 :=
  if isNan x then nan
  else if isInf x then (if negative x then 0 else inf)
  else ofRat (expRat (toRat x))

/-- x to the power g of a positive number. -/
def pow (x g : F32) : F32 :=
  if finite x && finite g && decide (0 < toRat x) then ofRat (expRat (toRat g * lnRat (toRat x)))
  else exp (mul g (ln x))

def lt (x y : F32) : Bool := !isNan x && !isNan y && decide (toRat x < toRat y)
def le (x y : F32) : Bool := !isNan x && !isNan y && decide (toRat x ≤ toRat y)
def sum (l : List F32) : F32 := l.foldl add 0
end F32

/-- round() of R217 and R220: half away from zero. -/
def roundAway (x : Rat) : Int := if x < 0 then -((-x + 1 / 2).floor) else (x + 1 / 2).floor

end Sys2Proof.Machine
end

