-- ==== Sys2Proof/Machine/Circuit.lean ====
section
/-!
DEFINITION. The cell model of R152 and its least squares fit: Z(f) = Rs + Rct / (1 + j 2 pi f Rct Cdl), each
complex residual weighted by 1 / |Zk|.
-/

namespace Sys2Proof.Machine

/-! ## Complex numbers -/

/-- A complex number: real and imaginary part. -/
abbrev Cplx := Rat × Rat

def Cplx.add (x y : Cplx) : Cplx := (x.1 + y.1, x.2 + y.2)
def Cplx.sub (x y : Cplx) : Cplx := (x.1 - y.1, x.2 - y.2)
def Cplx.scale (k : Rat) (x : Cplx) : Cplx := (k * x.1, k * x.2)
def Cplx.mul (x y : Cplx) : Cplx := (x.1 * y.1 - x.2 * y.2, x.1 * y.2 + x.2 * y.1)
def Cplx.norm2 (x : Cplx) : Rat := x.1 * x.1 + x.2 * x.2
/-- x / y for a y that is not zero. -/
def Cplx.div (x y : Cplx) : Cplx := (Cplx.mul x (y.1, -y.2)).scale (1 / y.norm2)
/-- A magnitude at an angle in turns. -/
def Cplx.polar (r t : Rat) : Cplx := (r * cosTurn t, r * sinTurn t)

/-! ## The model -/

/-- A measured impedance at a frequency in Hz. -/
structure Spot where
  f : Rat
  z : Cplx

/-- 1 / (1 + j 2 pi f tau), which the model is linear in for a time constant tau = Rct Cdl. -/
def Spot.branch (tau : Rat) (x : Spot) : Cplx := Cplx.div (1, 0) (1, 2 * pi * x.f * tau)

/-- Z(f) of R152. -/
def cellModel (rs rct cdl f : Rat) : Cplx :=
  Cplx.add (rs, 0) (Cplx.div (rct, 0) (1, 2 * pi * f * rct * cdl))

/-- The mean square of the weighted residuals of a model with this Rs, Rct and time constant. -/
def fitCost (l : List Spot) (rs rct tau : Rat) : Rat :=
  (l.map fun x =>
    (Cplx.sub (Cplx.add (rs, 0) ((x.branch tau).scale rct)) x.z).norm2 / x.z.norm2).sum / l.length

/-- The Rs and Rct of least cost for a time constant: the normal equations. -/
def fitLinear (l : List Spot) (tau : Rat) : Rat × Rat :=
  let sum := fun (f : Spot → Cplx → Rat) => (l.map fun x => f x (x.branch tau) / x.z.norm2).sum
  let a := sum fun _ _ => 1
  let b := sum fun _ g => g.1
  let c := sum fun _ g => g.norm2
  let p := sum fun x _ => x.z.1
  let q := sum fun x g => g.1 * x.z.1 + g.2 * x.z.2
  let d := a * c - b * b
  if d = 0 then (p / a, 0) else ((p * c - q * b) / d, (a * q - b * p) / d)

/-- The least cost with a time constant. -/
def costAt (l : List Spot) (tau : Rat) : Rat := fitCost l (fitLinear l tau).1 (fitLinear l tau).2 tau

/-- Time constants four to the octave over the range R153 allows, 1 ns to 10^8 s and beyond. -/
def tauGrid : List Rat :=
  (List.range 60).flatMap fun (k : Nat) => [16, 19, 23, 27].map fun (m : Nat) => (m : Rat) / 16 * pow2 ((k : Int) - 31)

/-- The entry of least cost. -/
def bestTau (l : List Spot) (grid : List Rat) : Rat :=
  (grid.foldl (fun (m : Option (Rat × Rat)) t =>
    let c := costAt l t
    match m with
    | some (_, d) => if c < d then some (t, c) else m
    | none => some (t, c)) none |>.map (·.1)).getD 1

/-- The minimum between two time constants, to n steps of 5/8. -/
def refineTau (l : List Spot) : Nat → Rat → Rat → Rat
  | 0, lo, hi => (lo + hi) / 2
  | n + 1, lo, hi =>
    let a := lo + 3 / 8 * (hi - lo)
    let b := lo + 5 / 8 * (hi - lo)
    if costAt l a ≤ costAt l b then refineTau l n lo b else refineTau l n a hi

/-- The fit of R152: Rs, Rct, Cdl and the rms relative residual. For a given time constant the least squares
are solved exactly; the time constant is found on a grid and refined (DESIGN CHOICE, log 14: the spec gives
no procedure). -/
def cellFit (l : List Spot) : (Rat × Rat × Rat) × Rat :=
  let l := l.filter fun x => decide (x.z.norm2 ≠ 0)
  let t := bestTau l tauGrid
  let tau := refineTau l 60 (t * 27 / 32) (t * 38 / 32)
  let r := fitLinear l tau
  ((r.1, r.2, if r.2 = 0 then 0 else tau / r.2), sqrtRat (fitCost l r.1 r.2 tau))

end Sys2Proof.Machine
end

