-- ==== Sys2Proof/Machine/Profiles.lean ====
section
/-!
DEFINITION. Heater profiles as they stand (R118, R119): lengths, the step in force, and the ticks that are
off-profile (R132).
-/

namespace Sys2Proof.Machine

def HeatStep.ticks (x : HeatStep) : Nat := if x.inFrames then x.duration * 640 else x.duration
def Profile.length (x : Profile) : Nat := (x.steps.map HeatStep.ticks).sum
def Profile.locked (x : Profile) : Bool := x.length % 640 == 0

def offStep : HeatStep :=
  { kind := 0, inFrames := false, ramp := false, capture := none, setpoint := 0, duration := 1, span := 0 }
def Profile.stepAt (k : Nat) (x : Profile) : HeatStep := x.steps.getD k offStep

/-- The step in force, if the profile drives at all: while a first step is moved, the step it follows. -/
def Heater.inForce (h : Heater) : Option HeatStep :=
  match h.run, h.profile with
  | .stopped, _ => none
  | _, some pr => some (h.lead.getD (pr.stepAt h.step))
  | _, none => none

/-- The profile calls for drive. -/
def Heater.calls (h : Heater) : Bool := (h.inForce.map fun x => x.kind != 0).getD false

/-- A limit puts the tick off-profile (R132): in a POWER step, or more than tau after a TEMP step began; tau in 0.1 ms
is 6.4 ticks a step. -/
def Heater.limitCounts (now : W64) (h : Heater) : Bool :=
  match h.inForce with
  | some x => x.kind == 2 || decide (64 * h.plate.tau < 10 * (now - h.since).toNat)
  | none => false

/-- The tick is off-profile (R132). -/
def Heater.offProfile (now : W64) (h : Heater) : Bool :=
  h.calls && (!h.drove || (h.atLimit && h.limitCounts now))

/-- The setpoint of a step, a RAMP at the larger of its two. -/
def Profile.setpoint (pr : Profile) (k : Nat) : Nat :=
  let x := pr.stepAt k
  let y := if k = 0 then x.setpoint else (pr.stepAt (k - 1)).setpoint
  if x.ramp then max x.setpoint y else x.setpoint

/-- What the step in force asks for. -/
def Heater.priced (h : Heater) : Drive :=
  match h.lead, h.profile with
  | some x, _ => { kind := x.kind, set := x.setpoint }
  | none, some pr => { kind := (pr.stepAt h.step).kind, set := pr.setpoint h.step }
  | none, none => { kind := 0, set := 0 }

/-- What is in force. -/
def Heater.inForceNow (h : Heater) : InForce := (h.step, h.since, h.priced)

/-- The tick now over joins the parts as they ran; a frame begins with none. -/
def Heater.noteRan (boundary : Bool) (h : Heater) : Heater :=
  { h with ran := if boundary then [] else if h.run = .stopped ∨ h.ran.head? = some h.inForceNow then h.ran
                  else h.inForceNow :: h.ran }

/-- The parts of the step in force that the frame has had before this one. -/
def Heater.nth (h : Heater) : Nat :=
  (if h.ran.head? = some h.inForceNow then h.ran.tail else h.ran).countP (·.1 == h.step)

end Sys2Proof.Machine
end

