-- ==== Sys2Proof/Machine/LowPass.lean ====
section
/-!
DEFINITION. The linear-phase low-pass stages of the weaves (R195): what the rule asks of their response, and
for each length a filter that answers it. The spec gives the response and not the values: the chip's own
coefficients are Config's, taken where they answer the rule, and the filter here stands in where they do not
(log 9).
-/

namespace Sys2Proof.Machine

/-- The gain of an even-length linear-phase filter in Q1.23, given by its first half, at a frequency in cycles
per input of the stage. -/
def firGain (half : List Int) (n : Nat) (f : Rat) : Rat :=
  2 * (half.zipIdx.map fun e => (e.1 : Rat) * cosTurn (f * (e.2 - ((n : Rat) - 1) / 2))).sum / 8388608

/-- The ratio of an amount of decibel in thousandths. -/
def decibel (m : Int) : Rat := expRat (lnRat 10 * ((m : Rat) / 20000))

/-- The frequencies at which a response is held: 16 n + 1 equally spaced ones up to half the input rate, and the two
band edges. -/
def heldAt (n d : Nat) : List Rat :=
  [2 / (5 * (d : Rat)), 3 / (5 * (d : Rat))] ++ (List.range (16 * n + 1)).map fun (j : Nat) => (j : Rat) / (32 * n : Nat)

/-- The response R195 asks of a stage of n taps and decimation d. -/
def lowPassOk (n d : Nat) (rejection : Int) (half : List Int) : Bool :=
  let top := decibel 5
  let stop := decibel (-1000 * rejection)
  half.length == n / 2 && half.all (fun h => satInt 24 h == h) &&
    (heldAt n d).all fun f =>
      let a := firGain half n f
      (decide (2 < 5 * (d : Rat) * f) || decide (1 ≤ a * top ∧ a ≤ top)) &&
        (decide (5 * (d : Rat) * f < 3) || decide (-stop ≤ a ∧ a ≤ stop))

/-! First halves, by taps and decimation. -/

def lowPass32by2 : List Int :=
   [2636, -21952, 9987, 42303, -27259, -80488, 60588, 139583, -119225, -231783, 224111, 390526, -441267, -759463, 1188126, 3814609]
def lowPass64by4 : List Int :=
   [10039, -6545, -10629, -10703, -2666, 11290, 22363, 20228, 1183, -26303, -43978, -34754, 3653, 52205, 78170, 55323] ++
   [-14775, -95728, -132483, -85326, 37545, 171971, 226035, 134853, -87482, -332287, -434532, -252677, 248547, 958611, 1651788, 2079150]
def lowPass128by8 : List Int :=
   [10719, -1360, -2296, -3587, -4868, -5731, -5801, -4814, -2698, 389, 4042, 7660, 10525, 11934, 11339, 8488] ++
   [3515, -3009, -10127, -16609, -21150, -22591, -20177, -13732, -3810, 8332, 20820, 31483, 38148, 39026, 33145, 20572] ++
   [2585, -18420, -39175, -56015, -65448, -64800, -52770, -29846, 1548, 37202, 71590, 98619, 112562, 109051, 85977, 44145] ++
   [-12434, -76714, -139244, -189211, -215798, -209659, -164346, -77419, 48840, 207324, 386602, 572004, 747174, 895887, 1003926, 1060749]
def lowPass64by2 : List Int :=
   [-9, 167, 361, -287, -1161, 394, 2881, -275, -6083, -413, 11508, 2226, -20073, -5992, 32871, 12882] ++
   [-51207, -24525, 76721, 43231, -111725, -72531, 160076, 118551, -229574, -194112, 339655, 333988, -555500, -683741, 1294559, 3721559]
def lowPass128by4 : List Int :=
   [-10, 7, 51, 122, 179, 150, -16, -293, -537, -534, -134, 591, 1277, 1397, 586, -1010] ++
   [-2602, -3063, -1606, 1511, 4765, 5974, 3594, -1986, -8056, -10703, -7101, 2230, 12787, 17962, 12871, -1913] ++
   [-19295, -28645, -21896, 535, 27959, 43925, 35546, 2643, -39278, -65496, -55884, -8757, 54093, 96221, 86469, 19760] ++
   [-74158, -141900, -134681, -39684, 103934, 217186, 220049, 79616, -158080, -373371, -419035, -189353, 320048, 992778, 1626511, 2010175]
def lowPass256by8 : List Int :=
   [-9, -4, -1, 6, 17, 33, 52, 71, 86, 93, 87, 64, 22, -37, -109, -183] ++
   [-247, -288, -290, -243, -142, 8, 195, 393, 572, 696, 732, 653, 449, 128, -280, -724] ++
   [-1136, -1441, -1567, -1460, -1095, -486, 310, 1192, 2031, 2680, 3003, 2891, 2296, 1236, -185, -1792] ++
   [-3352, -4604, -5299, -5246, -4346, -2627, -252, 2484, 5191, 7429, 8777, 8905, 7635, 4996, 1237, -3179] ++
   [-7628, -11405, -13828, -14353, -12674, -8803, -3104, 3727, 10737, 16835, 20957, 22235, 20159, 14694, 6339, -3896] ++
   [-14600, -24137, -30887, -33497, -31131, -23645, -11686, 3329, 19363, 34008, 44830, 49745, 47379, 37350, 20436, -1439] ++
   [-25377, -47864, -65240, -74250, -72588, -59343, -35287, -2938, 33633, 69244, 98257, 115361, 116394, 99092, 63634, 12925] ++
   [-47486, -109831, -164897, -203044, -215375, -194898, -137549, -42927, 85369, 239850, 409710, 581820, 742016, 876561, 973596, 1024416]

/-- A filter of n taps that answers R195; of 32 taps none does, and this one has 0.007 dB of ripple with the 50 dB of its
stopband (log 9). -/
def lowPassOf (n : Nat) (deep : Bool) : List Int :=
  if n = 32 then lowPass32by2 else if n = 256 then lowPass256by8
  else if n = 64 then (if deep then lowPass64by2 else lowPass64by4)
  else if deep then lowPass128by4 else lowPass128by8

/-- The stopband is at least 50 dB down, not 90: the FIR A of W16, the FIR B of W11, W12, W20 and W22. -/
def shallow (w : Fin 24) (b : Bool) : Bool :=
  if b then w == 11 || w == 12 || w == 20 || w == 22 else w == 16

/-- The low-pass stage of a weave, n taps with decimation d: the chip's coefficients, mirrored. -/
def lowPass (w : Fin 24) (b : Bool) (n d : Nat) : List Int :=
  let chip := (List.range (n / 2)).map (Config.weaveCoef w b)
  let half := if lowPassOk n d (if shallow w b then 50 else 90) chip then chip else lowPassOf n (!shallow w b)
  half ++ half.reverse

end Sys2Proof.Machine
end

