-- ==== Sys2Proof/Machine/Lanes.lean ====
section
/-!
DEFINITION. The filter lanes (spec/08): the weaves, the three stages, flags through a lane, resets,
and the WEAVE family but for WEAVE.SET, whose load rule needs the sequence tables.
-/

namespace Sys2Proof.Machine

/-! ## The weaves (Table 8-2) -/

def mkWeave (w : Fin 24) (cic a b : Nat × Nat × Nat) : Setting :=
  { weave := some w, k := cic.1, dc := cic.2.1, sc := cic.2.2, na := a.1, da := a.2.1, sa := a.2.2
    nb := b.1, db := b.2.1, sb := b.2.2 }

/-- A bypassed stage. -/
def by0 : Nat × Nat × Nat := (0, 1, 0)

/-- The rows of Table 8-2: CIC K / Dc / s, FIR A N / D / s, FIR B N / D / s. -/
def weaveRows : List ((Nat × Nat × Nat) × (Nat × Nat × Nat) × (Nat × Nat × Nat)) :=
  [(by0, by0, by0), ((1, 4, 2), by0, by0), ((1, 16, 4), by0, by0), ((1, 64, 6), by0, by0),
   ((1, 256, 8), by0, by0), ((2, 16, 8), by0, by0), ((2, 64, 12), by0, by0), ((2, 256, 16), by0, by0),
   ((3, 8, 9), (64, 2, 23), by0), ((3, 32, 15), (64, 2, 23), by0), ((4, 64, 24), (128, 4, 23), by0),
   ((4, 128, 28), (128, 4, 23), (32, 2, 23))] ++
  [((5, 64, 30), (256, 8, 23), (64, 4, 23)), ((1, 128, 7), (5, 5, 23), by0),
   ((1, 128, 7), (5, 5, 23), (8, 8, 23)), ((5, 32, 25), (256, 8, 23), by0), (by0, (32, 2, 23), by0),
   ((2, 4, 4), by0, by0), ((3, 8, 9), (64, 2, 23), by0), ((4, 16, 16), (128, 4, 23), by0),
   ((5, 64, 30), (256, 8, 23), (64, 4, 23)), (by0, (64, 2, 23), by0),
   ((3, 256, 24), (64, 2, 23), (128, 8, 23)), ((3, 8, 9), by0, by0)]

def weave (w : Fin 24) : Setting :=
  let r := weaveRows.getD w.val (by0, by0, by0)
  mkWeave w r.1 r.2.1 r.2.2

def clamp24 (v : Int) : Int := satInt 24 v

/-- The coefficients of a weave's FIR (R195): the box filters as given, every other stage a low-pass. -/
def weaveFir (w : Fin 24) (b : Bool) (n d : Nat) : List Int :=
  if w = 13 then List.replicate n 1677722
  else if w = 14 then List.replicate n (if b then 1048576 else 1677722)
  else lowPass w b n d

/-- The coefficients of FIR A and FIR B of a setting. -/
def Setting.coefA (x : Setting) : List Int :=
  match x.weave with
  | some w => if x.na = 0 then [] else weaveFir w false x.na x.da
  | none => x.coef.take x.na
def Setting.coefB (x : Setting) : List Int :=
  match x.weave with
  | some w => if x.nb = 0 then [] else weaveFir w true x.nb x.db
  | none => (x.coef.drop x.na).take x.nb

/-! ## Derived numbers (R188, R190, R191, R199) -/

/-- A bypassed stage counts as decimation 1, a bypassed FIR as one tap (R188). -/
def Setting.edc (x : Setting) : Nat := if x.k = 0 then 1 else x.dc
def Setting.eda (x : Setting) : Nat := if x.na = 0 then 1 else x.da
def Setting.edb (x : Setting) : Nat := if x.nb = 0 then 1 else x.db
def Setting.ena (x : Setting) : Nat := max 1 x.na
def Setting.enb (x : Setting) : Nat := max 1 x.nb

/-- Dt (R190). -/
def Setting.dt (x : Setting) : Nat := x.edc * x.eda * x.edb
/-- The span P (R191). -/
def Setting.span (x : Setting) : Nat :=
  x.k * (x.edc - 1) + (x.ena - 1) * x.edc + (x.enb - 1) * x.edc * x.eda + 1
/-- The settling count S (R199). -/
def Setting.settle (x : Setting) : Nat := max 1 (ceilDiv x.span x.dt - 1)
/-- The load for an input multiplicity u (R196). -/
def Setting.load (u : Nat) (x : Setting) : Nat :=
  x.na * ceilDiv u (x.edc * x.eda) + x.nb * ceilDiv u x.dt

/-! ## The stages (R189) -/

/-- Shift with rounding, then saturation; answers whether sat24 limited. -/
def shiftSat (s : Nat) (acc : Int) : Tap :=
  let y := if s = 0 then acc else (acc + (2 ^ (s - 1) : Nat)) / (2 ^ s : Nat)
  let z := clamp24 y
  { v := z, sat := z != y }

/-- K integrators at the input rate, each taking the one before it. -/
def integrate : Nat → W64 → List W64 → List W64
  | 0, _, _ => []
  | n + 1, x, regs => let y := regs.headD 0 + x; y :: integrate n y regs.tail

/-- K combs: the registers after it, and the result. -/
def combs : Nat → W64 → List W64 → List W64 × W64
  | 0, x, _ => ([], x)
  | n + 1, x, regs => let r := combs n (x - regs.headD 0) regs.tail; (x :: r.1, r.2)

/-- The CIC takes one input; a result on every Dc-th. -/
def Lane.cic (v : Int) (l : Lane) : Lane × Option Tap :=
  let x := l.setting
  if x.k = 0 then (l, some (shiftSat x.sc v))
  else
    let integ := integrate x.k (BitVec.ofInt 64 v) l.integ
    let l := { l with integ := integ }
    if l.cicCount + 1 < x.edc then ({ l with cicCount := l.cicCount + 1 }, none)
    else
      let r := combs x.k (integ.getLastD 0) l.comb
      ({ l with comb := r.1, cicCount := 0 }, some (shiftSat x.sc r.2.toInt))

/-- The sum of products of a FIR. -/
def dot (h : List Int) (line : List Tap) : Int := ((h.zip line).map fun e => e.1 * e.2.v).sum

/-- A FIR result: its own saturation and the SAT of what it covers. -/
def firOut (h : List Int) (s : Nat) (line : List Tap) : Tap :=
  let y := shiftSat s (dot h line)
  { y with sat := y.sat || line.any (·.sat) }

def Lane.firA (t : Tap) (l : Lane) : Lane × Option Tap :=
  let x := l.setting
  if x.na = 0 then
    let y := shiftSat x.sa t.v
    (l, some { y with sat := y.sat || t.sat })
  else
    let line := (t :: l.aLine).take x.na
    if l.aCount + 1 < x.da then ({ l with aLine := line, aCount := l.aCount + 1 }, none)
    else ({ l with aLine := line, aCount := 0 }, some (firOut x.coefA x.sa line))

def Lane.firB (t : Tap) (l : Lane) : Lane × Option Tap :=
  let x := l.setting
  if x.nb = 0 then
    let y := shiftSat x.sb t.v
    (l, some { y with sat := y.sat || t.sat })
  else
    let line := (t :: l.bLine).take x.nb
    if l.bCount + 1 < x.db then ({ l with bLine := line, bCount := l.bCount + 1 }, none)
    else ({ l with bLine := line, bCount := 0 }, some (firOut x.coefB x.sb line))

/-- The three stages in series. -/
def Lane.stages (v : Int) (l : Lane) : Lane × Option Tap :=
  match l.cic v with
  | (l, none) => (l, none)
  | (l, some t) =>
    match l.firA t with
    | (l, none) => (l, none)
    | (l, some t) => l.firB t

/-! ## Inputs and outputs -/

/-- The lane takes an input with its flags and may complete an output (R190, R199). -/
def Lane.accept (v : Int) (fl : W16) (l : Lane) : Lane × Option Out :=
  let n := l.taken + 1
  let kept := l.flagged.filter fun e => n < e.1 + l.setting.span
  let l := { l with taken := n, flagged := if fl = 0 then kept else (n, fl) :: kept }
  match l.stages v with
  | (l, none) => (l, none)
  | (l, some t) =>
    let flags := flagUnion (l.flagged.map (·.2)) ||| flagIf t.sat Flag.sat |||
      flagIf (0 < l.settleLeft) Flag.settling ||| flagIf l.ranged Flag.ranged
    ({ l with settleLeft := l.settleLeft - 1, ranged := false,
              satCount := countUp l.satCount (boolNat t.sat) },
     some { value := BitVec.ofInt 24 t.v, flags })

/-- An input arrives in the tick with this LT: discarded in the tick of a SYNC, or by the phase
delay, or taken (R200, R203). -/
def Lane.input (now : W64) (v : Int) (fl : W16) (l : Lane) : Lane × Option Out :=
  if l.lastReset.any (fun r => r.at_ == now && r.sync) then (l, none)
  else if 0 < l.discard then ({ l with discard := l.discard - 1 }, none)
  else l.accept v fl

/-- The causes of a reset that matter to it (Table 8-3). -/
inductive ResetKind where
  /-- The phase delay is applied. -/
  | applied
  /-- The phase delay is none and the inputs of the tick enter. -/
  | plain
  | sync
  | range
deriving DecidableEq, Repr

/-- A lane reset (R200): registers zero, counting phase and S restart. Resets of one tick are one
reset: the phase delay is applied if one says so and none is a SYNC (R203). -/
def Lane.reset (now : W64) (kind : ResetKind) (l : Lane) : Lane :=
  let old := l.lastReset.filter (·.at_ == now)
  let r : LaneReset :=
    { at_ := now
      sync := (old.map (·.sync)).getD false || kind == .sync
      applied := (old.map (·.applied)).getD false || kind == .applied }
  { l with
    integ := List.replicate l.setting.k 0, comb := List.replicate l.setting.k 0, cicCount := 0
    aLine := [], aCount := 0, bLine := [], bCount := 0, taken := 0, flagged := []
    settleLeft := l.setting.settle
    discard := if r.applied && !r.sync then l.phase else 0
    ranged := l.ranged || kind == .range
    lastReset := some r }

def resetLane (kind : ResetKind) (l : LaneId) (s : State) : State :=
  s.modLane l (Lane.reset s.core.lt kind)

def resetLanes (kind : ResetKind) (ls : List LaneId) (s : State) : State :=
  ls.foldl (fun s l => resetLane kind l s) s

/-- Every lane is reset. -/
def resetAllLanes (kind : ResetKind) (s : State) : State :=
  s.modLanes fun v => v.map (Lane.reset s.core.lt kind)

/-- A SYNC resets every lane if the response is on; in states without running lanes, none (R202). -/
def laneSync (s : State) : State :=
  if s.pins.syncResponse && s.measuring then resetAllLanes .sync s else s

/-- The Rexia's own WEAVE.SYNC holds SYNC_N low since before this tick, which leaves no falling edge to take: it asserts
the pin at clock 480 of the tick after the doorbell, the edge is taken in the tick after that (R467), and the pin is
released four ticks after it was asserted. -/
def State.syncHeld (s : State) : Bool := s.pins.syncFrom.any fun t => decide (3 ≤ s.since t ∧ s.since t ≤ 5)

/-- SYNC_N_FALL (R202): the Rexia's own edge like any other. Overlapping low pulses make one edge (R471). -/
def execSyncNFall (s : State) : Host.Outcome State Fault Refusal := .next (if s.syncHeld then s else laneSync s)

/-- General calls are taken: outside OFF, reset, BOOT and DOZE (R334). -/
def State.takesSync (s : State) : Bool :=
  s.core.dev != .off && s.core.dev != .boot && !s.core.rstLow && !s.core.doze

/-- GENERAL_CALL_SYNC (R334, R202). -/
def execGeneralCallSync (s : State) : Host.Outcome State Fault Refusal :=
  .next (if s.takesSync then laneSync s else s)

/-! ## The effective impulse response (R191, R198) -/

/-- Convolution. -/
def convolve (a b : List Int) : List Int :=
  (List.range (a.length + b.length - 1)).map fun n =>
    ((List.range a.length).map fun k => if k ≤ n then a.getD k 0 * b.getD (n - k) 0 else 0).sum

/-- A response at a rate d times lower, seen at the input rate. -/
def stretch (d : Nat) (h : List Int) : List Int :=
  match h with
  | [] => []
  | x :: xs => x :: xs.flatMap fun y => List.replicate (d - 1) 0 ++ [y]

/-- K boxes of length d. -/
def boxes (d : Nat) : Nat → List Int
  | 0 => [1]
  | k + 1 => convolve (List.replicate d 1) (boxes d k)

/-- The impulse response of the cascade. -/
def Setting.response (x : Setting) : List Int :=
  let a := if x.na = 0 then [1] else x.coefA
  let b := if x.nb = 0 then [1] else x.coefB
  convolve (convolve (boxes x.edc x.k) (stretch x.edc a)) (stretch (x.edc * x.eda) b)

/-- The DC gain (R208). -/
def Setting.dcGain (x : Setting) : Rat :=
  ((x.response.sum : Int) : Rat) / ((2 ^ (x.sc + x.sa + x.sb) : Nat) : Rat)

/-- G in 1/256 input sample; none if the response has no DC (R198). -/
def Setting.delay (x : Setting) : Option Int :=
  let h := x.response
  let d := h.sum
  if d = 0 then none
  else some (roundRat (256 * (((h.zipIdx.map fun e => e.1 * (e.2 : Int)).sum : Int) : Rat) / (d : Rat)))

/-- The WEAVE.DELAY response (Table 16-9). -/
def Setting.delayBytes (x : Setting) : List Byte :=
  let h := x.response
  toLE 4 x.span ++ toLE 4 x.dt ++ toLE 2 x.settle ++ toLEInt 4 (x.delay.getD 0) ++
    [BitVec.ofNat 8 (bits [h == h.reverse, x.delay.isNone])]

/-! ## The WEAVE family (R355) -/

def laneOf (k : Nat) : LaneId := Fin.ofNat 64 k
/-- The lane byte is in range. -/
def laneFault (p : List Byte) : Option Nat := if 63 < u8 p 0 then some 0 else none

/-- The settings that WEAVE.SETs still PENDING bring a lane, oldest first. -/
def State.laneSets (s : State) (l : LaneId) : List LaneSet :=
  s.lanes[l].pendSets.filter fun x => s.mbox.pend.any fun y =>
    y.slot == x.slot && y.op == 0x0601 && u8 y.payload 0 == l.val

/-- The custom coefficients a lane holds in the coefficient memory (R197): those in force, those of every
pending WEAVE.SET, and the staged set but for lane n. -/
def State.laneCoefs (s : State) (n l : LaneId) : Nat :=
  s.lanes[l].setting.coef.length + ((s.laneSets l).map fun x => x.setting.coef.length).sum +
    if l = n then 0 else (s.lanes[l].staged.map (·.length)).getD 0
/-- Every set held but for the staged set of lane n. -/
def State.coefHeld (s : State) (n : LaneId) : Nat := ((List.finRange 64).map (s.laneCoefs n)).sum

/-- The coefficients of a WEAVE.COEF object. -/
def coefList (obj : List Byte) : List Int :=
  (List.range (obj.length / 4)).map fun k => s32 obj (4 * k)

/-- A coefficient that is no sign-extended 24-bit number: its byte offset in the object. -/
def coefFault (obj : List Byte) : Option Nat :=
  ((coefList obj).findIdx? fun v => clamp24 v != v).map (4 * ·)

def weaveCoefTotal (t : Nat) : Bool := decide (4 ≤ t ∧ t ≤ 2560 ∧ t % 4 = 0)

/-- The object becomes the lane's staged set (R197). -/
def stageCoef (l : LaneId) (obj : List Byte) : State → State :=
  State.modLane l fun x => { x with staged := some (coefList obj) }

/-- WEAVE.COEF as a chunked command. -/
def weaveCoefCmd : ChunkCmd :=
  { op := 0x0602, selOk := fun k => k < 64, totalOk := fun _ t => weaveCoefTotal t
    done := fun n sel obj s =>
      match coefFault obj with
      | some d => badArg n d s
      | none =>
        if 8192 < s.coefHeld (laneOf sel) + obj.length / 4 then postStatus n .busy s
        else postStatus n .ok (stageCoef (laneOf sel) obj s) }

/-- WEAVE_COEF (R197). -/
def execWeaveCoef (n : SlotId) (s : State) : Host.Outcome State Fault Refusal :=
  .next (onSlot n 0x0602 (fun p s => chunk weaveCoefCmd n p s) s)

/-- WEAVE_DELAY (R198). -/
def execWeaveDelay (n : SlotId) (s : State) : Host.Outcome State Fault Refusal :=
  .next (onSlot n 0x0603 (fun p =>
    orRefuse n ((laneFault p).map (.badArg, ·)) fun s =>
      postOk n s.lanes[laneOf (u8 p 0)].setting.delayBytes s) s)

/-- SYNC_N is driven low in the 4 ticks after this one (R202). -/
def pullSync : State → State := fun s => s.modPins fun x => { x with syncFrom := some s.core.lt }

/-- WEAVE_SYNC (R202): SYNC_N is low in the 4 ticks after the doorbell, and the command completes at its release,
or at once where the reeve comes to run it later. After a stall the ticks count from its execution (log 68). An
operation that is neither 0, 1 nor 2 is refused here. -/
def execWeaveSync (n : SlotId) (s : State) : Host.Outcome State Fault Refusal :=
  .next (onSlot n 0x0604 (fun p s =>
    if u8 p 0 = 0 then
      let s' := if s.mbox.slots[n].early then s else pullSync s
      if s'.pins.syncFrom.isNone then postStatus n .ok s'
      else s'.modMbox fun m =>
        { m with pend := m.pend ++
            [{ slot := n, op := 0x0604, payload := p, wait := .syncRelease, since := s.core.lt }] }
    else if u8 p 0 ≤ 2 then s
    else badArg n 0 s) s)

/-- WEAVE_SYNC_RELEASE (R202). -/
def execWeaveSyncRelease (s : State) : Host.Outcome State Fault Refusal :=
  .next (
    match s.pins.syncFrom with
    | some t =>
      if s.since t = 5 then
        completeWhere (·.wait == .syncRelease) .ok (s.modPins fun x => { x with syncFrom := none })
      else s
    | none => s)

/-- The SYNC response is turned on or off (R202). -/
def applySyncResponse (p : List Byte) : State → State := State.modPins fun x =>
  { x with syncResponse := u8 p 0 == 1 }

/-- WEAVE_SYNC_RESPONSE (R202). -/
def execWeaveSyncResponse (n : SlotId) (s : State) : Host.Outcome State Fault Refusal :=
  .next (onSlot n 0x0604 (fun p s =>
    if u8 p 0 = 1 ∨ u8 p 0 = 2 then postStatus n .ok (applySyncResponse p s) else s) s)

def weavePhaseFault (p : List Byte) : Option Nat :=
  (laneFault p).or <| (firstNonZero p 1 1).or (if 1023 < u16 p 2 then some 2 else none)

def applyWeavePhase (p : List Byte) : State → State :=
  State.modLane (laneOf (u8 p 0)) fun x => { x with phase := u16 p 2 }

/-- WEAVE_PHASE (R203). -/
def execWeavePhase (n : SlotId) (s : State) : Host.Outcome State Fault Refusal :=
  .next (onSlot n 0x0605 (fun p =>
    orRefuse n ((weavePhaseFault p).map (.badArg, ·)) fun s => postStatus n .ok (applyWeavePhase p s)) s)

/-- The coefficients WEAVE.READ returns (R195). -/
def weaveObject (w : Nat) : List Byte :=
  let x := weave (Fin.ofNat 24 w)
  (x.coefA ++ x.coefB).flatMap (toLEInt 4)

def weaveReadCmd : ReadCmd :=
  { op := 0x0607, selOk := fun k => k < 24, object := fun k _ => weaveObject k }

/-- WEAVE_READ (R195). -/
def execWeaveRead (n : SlotId) (s : State) : Host.Outcome State Fault Refusal :=
  .next (onSlot n 0x0607 (fun p s => readObject weaveReadCmd n p s) s)

end Sys2Proof.Machine
end

