-- ==== Sys2Proof/Machine/Box.lean ====
section
/-!
DEFINITION. The black box (spec/20): staging and writing of records, the heat interval, erasure and
the BOX family.
-/

namespace Sys2Proof.Machine

/-! ## The NVM (R418) -/

/-- The regions of Table 20-1. -/
inductive NvmRegion where
  | boltA | boltB | blackBox | factory | coefficients | patches | device | reserved
deriving DecidableEq, Repr

/-- Where each region begins, in bytes. -/
def NvmRegion.offset : NvmRegion → Nat
  | .boltA => 0x00000 | .boltB => 0x08000 | .blackBox => 0x10000 | .factory => 0x1C000
  | .coefficients => 0x20000 | .patches => 0x30000 | .device => 0x70000 | .reserved => 0x74000

/-- Its size in bytes. -/
def NvmRegion.size (r : NvmRegion) : Nat := 1024 * match r with
  | .boltA | .boltB => 32 | .blackBox => 48 | .factory => 16 | .coefficients => 64 | .patches => 256
  | .device => 16 | .reserved => 48

/-- The erase unit, and the pages of a region. -/
def nvmPage : Nat := 512
def NvmRegion.pages (r : NvmRegion) : Nat := r.size / nvmPage

/-- The records a page holds, and the record positions of the black box (R429). -/
def recordsPerPage : Nat := nvmPage / 32
def boxPositions : Nat := NvmRegion.blackBox.pages * recordsPerPage

/-! ## Staged records (R430) -/

/-- Every sensor not declared failed reads below 121 degC (R293). -/
def State.coolForLatched (s : State) : Bool :=
  s.therm.sensors.toList.all fun x => x.failed || (x.reading.getD 0 < (12100 : Int))

/-- Staged records can be written: writes are allowed, or in LATCHED every sensor reads below 121
degC (R26, R293). -/
def State.stagedDue (s : State) : Bool :=
  !s.box.staged.isEmpty && !s.box.erasing && s.core.reeveRuns && s.core.dev != .off &&
    s.core.dev != .boot && (s.nvmAllowed || (s.core.dev == .latched && s.coolForLatched))

/-- The oldest staged record is written; behind the last follows the STAGE_OVERFLOW record, with its notice, its count
now final (R430, R435, log 76). What is behind the record in progress stays staged if writes become held (R436). -/
def writeStaged (s : State) : State :=
  match s.box.staged with
  | r :: rest =>
    let s := programRecord r (s.modBox fun b => { b with staged := rest })
    match rest, s.box.overflow with
    | [], some o =>
      let n := s.box.dropped
      notice 0x0F04 .ordinary (argH 0 n)
        ((programRecord { o with args := argH 0 n } s).modBox fun b => { b with overflow := none, dropped := 0 })
    | _, _ => s
  | [] => s

/-- STAGED_RECORDS_WRITE (R430). -/
def execStagedRecordsWrite (s : State) : Host.Outcome State Fault Refusal :=
  .next (if s.stagedDue then writeStaged s else s)

/-! ## The heat interval (R431) -/

/-- The sensor with the hottest reading among those not declared failed. -/
def State.hottestSensor (s : State) : Fin 9 :=
  ((List.finRange 9).foldl (fun (m : Option (Fin 9 × Int)) t =>
    let x := s.therm.sensors[t]
    match x.failed, x.reading, m with
    | false, some v, some (u, w) => if w < v then some (t, v) else some (u, w)
    | false, some v, none => some (t, v)
    | _, _, m => m) none).map (·.1) |>.getD 0

/-- The heat comparator's rising crossing is due in this tick, its eighth at 115 degC or above (R431). -/
def State.heatEntryDue (s : State) : Bool := !s.therm.heatHigh && decide (s.therm.heatRise = 8)

/-- WARM was taken by a crossing in this tick, and nothing older waits to be written: a HEAT_ENTRY of the tick
is programmed all the same (R431). -/
def State.warmNow (s : State) : Bool :=
  s.therm.warmAt == some s.core.lt && !s.therm.forced && !s.box.erasing &&
    s.box.staged.all (·.lt == s.core.lt)

/-- A HEAT_ENTRY is written, or staged as any record is (R431, R436). -/
def heatEntry (s : State) : State :=
  let args := argB 0 s.hottestSensor.val
  let s := s.modBox fun b => { b with heat := some (none, 0, 0) }
  if s.warmNow then programRecord { mkRec s 0x04 args with staged := false } s else boxRecord 0x04 args s

/-- HEAT_ENTRY (R431): a crossing while an interval is open writes no record. -/
def execHeatEntry (s : State) : Host.Outcome State Fault Refusal :=
  .next (
    if s.heatEntryDue then
      let s := s.modTherm fun t => { t with heatHigh := true, heatFall := 0 }
      if s.box.heat.isSome then s else heatEntry s
    else s)

/-- The interval closes (R431); one that a reset has left open waits for the end of BOOT (R432). -/
def State.heatCloseDue (s : State) : Bool :=
  s.box.heat.isSome && !s.therm.heatHigh && s.box.staged.isEmpty && s.core.dev != .off && s.core.dev != .boot

/-- HEAT_CLOSE (R431). -/
def execHeatClose (s : State) : Host.Outcome State Fault Refusal :=
  .next (
    match s.box.heat with
    | some (k, c, d) =>
      if s.heatCloseDue then
        boxRecord 0x05 (argW 0 (k.getD 0).toNat ||| argH 4 c ||| argH 6 d)
          (s.modBox fun b => { b with heat := none })
      else s
    | none => s)

/-- PAGE_ERASE_COMPLETE (R429). -/
def execPageEraseComplete (s : State) : Host.Outcome State Fault Refusal :=
  .next (if s.box.pageErase then s.modBox fun b => { b with pageErase := false, ready := true } else s)

/-! ## The BOX family (R373) -/

/-- The BOX.INFO response (Table 17-8). -/
def State.boxInfo (s : State) : List Byte :=
  toLE 4 s.box.number.toNat ++ toLE 2 s.box.newest ++
    [BitVec.ofNat 8 (s.box.staged.length + boolNat (s.box.dropped != 0)),
     BitVec.ofNat 8 (bits [s.box.ready, s.box.heat.isSome])] ++ toLE 4 s.box.eraseCount.toNat

/-- BOX_INFO (R373). -/
def execBoxInfo (n : SlotId) (s : State) : Host.Outcome State Fault Refusal :=
  .next (onSlot n 0x1001 (fun _ s => postOk n s.boxInfo s) s)

/-- The BOX.READ response for an age: nothing beyond the records written. -/
def Box.readAge (age : Nat) (b : Box) : List Byte :=
  match b.recs[age]? with
  | some (pos, d) => toLE 2 age ++ toLE 2 pos ++ d
  | none => []

/-- BOX_READ (R434). -/
def execBoxRead (n : SlotId) (s : State) : Host.Outcome State Fault Refusal :=
  .next (onSlot n 0x1002 (fun p s =>
    if 1535 < u16 p 0 then badArg n 0 s
    else
      let pos := (s.box.recs[u16 p 0]?.map (·.1)).getD 1536
      let s := if pos < 1536 then readNvm (boxOffset + 32 * pos) 32 s else s
      postOk n (s.box.readAge (u16 p 0)) s) s)

/-- BOX_ERASE (R434, R363): the lock must be open at factory level, which is checked first. -/
def execBoxErase (n : SlotId) (s : State) : Host.Outcome State Fault Refusal :=
  .next (onSlot n 0x1003 (fun p s =>
    if s.lock.level ≠ 2 then postStatus n .locked s
    else if u8 p 0 ≠ 0xE5 then badArg n 0 s
    else if !s.nvmAllowed then postStatus n .nvmHot s
    else pendOn n 0x1003 p .boxErase s.frame.number (s.modBox fun b => { b with erasing := true })) s)

/-- All 96 pages are erased and BOX_ERASED is written as position 0 (R434). -/
def eraseBox (s : State) : State :=
  let k := countUp s.box.eraseCount 1
  let r := { mkRec s 0x0F (argW 0 k.toNat) with staged := false }
  programRecord r (s.modBox fun b => { b with recs := [], newest := 0, eraseCount := k, erasing := false })

/-- BOX_ERASE_DONE (R434): no page and no record is begun while writes are held (R288). -/
def execBoxEraseDone (s : State) : Host.Outcome State Fault Refusal :=
  .next (
    if s.box.erasing && s.nvmAllowed then completeWhere (·.wait == .boxErase) .ok (eraseBox s) else s)

end Sys2Proof.Machine
end

