-- ==== Sys2Proof/Machine/Therm.lean ====
section
/-!
DEFINITION. The thermal block (spec/13): readings and dwell counts, the device thermal state, the
sensor cross-check, compensation, and the THERM family. The crossings themselves and SHUTDOWN, which
stop outputs, are in Escalation.lean.
-/

namespace Sys2Proof.Machine

/-- Rising thresholds in 0.01 degC (Table 13-3); SHUTDOWN is the chip's, within 160 +- 5 degC. -/
def riseAt : Vector Int 4 :=
  #v[12500, 14000, 15000, max 15500 (min 16500 Config.shutdownAt)]
/-- Release points (Table 13-3). -/
def fallBelow : Vector Int 3 := #v[12100, 13600, 14600]

/-- A dwell count: one more while the condition holds, zero otherwise (R283). -/
def dwell (b : Bool) (n : Nat) : Nat := if b then min 8 (n + 1) else 0

/-- A sensor takes one reading (R280, R283). -/
def Sensor.take (r : Int) (top : Bool) (x : Sensor) : Sensor :=
  { x with
    reading := some r, sum := x.sum + r, count := x.count + 1
    highest := x.highest || (top && !x.failed)
    rise := Vector.ofFn fun l => if x.failed then 0 else dwell (riseAt[l] ≤ r) x.rise[l]
    fall := Vector.ofFn fun l => if x.failed then 0 else dwell (r < fallBelow[l]) x.fall[l] }

/-- The highest reading among sensors not failed, of those delivered in this tick. -/
def topReading (th : Therm) (temps : Vector (Option Int) 9) : Option Int :=
  (List.finRange 9).foldl (fun m t =>
    match th.sensors[t].failed, temps[t], m with
    | false, some v, some w => some (max v w)
    | false, some v, none => some v
    | _, _, m => m) none

/-- The readings of one tick, and the heat comparator on the hottest sensor (R280, R283, R431). -/
def Therm.tick (temps : Vector (Option Int) 9) (th : Therm) : Therm :=
  let top := topReading th temps
  let sensors := Vector.ofFn fun (t : Fin 9) =>
    match temps[t] with
    | some r => th.sensors[t].take r (top == some r)
    | none => { th.sensors[t] with missed := th.sensors[t].missed + 1 }
  match top with
  | some v =>
    let rise := dwell (11500 ≤ v) th.heatRise
    let fall := dwell (v < 11100) th.heatFall
    { th with sensors := sensors, heatRise := rise, heatFall := fall
              heatHigh := th.heatHigh && fall < 8 }
  | none => { th with sensors := sensors }

/-- At a frame boundary a sensor's mean over the frame just ended is fixed (R280); whole is false at
the start of frame 0, before which no frame has completed. -/
def Sensor.roll (whole : Bool) (x : Sensor) : Sensor :=
  { x with
    mean := if whole then
        (if x.count = 0 then none else some (roundRat ((x.sum : Rat) / x.count)))
      else x.mean
    sum := 0, count := 0, missed := 0, highest := false
    missedLast := if whole then x.missed else 0
    highestLast := whole && x.highest }

def Therm.roll (whole : Bool) (th : Therm) : Therm :=
  { th with sensors := th.sensors.map (Sensor.roll whole) }

/-- The deepest state of the frame that begins counts from the state its boundary meets (R286). -/
def Therm.boundary (th : Therm) : Therm := { th with deepestLast := th.deepest, deepest := th.state }

/-! ## The device thermal state (R284, R285) -/

/-- The device thermal state becomes `new`: each change is one alarm notice and one record. -/
def setTherm (new : Fin 5) (cause : Nat) (s : State) : State :=
  let old := s.therm.state
  if new = old then s
  else
    let s := s.modTherm fun t => 
      { t with state := new, deepest := maxFin5 t.deepest new
               warmAt := if old = 0 then some s.core.lt else t.warmAt }
    let s := notice 0x0B01 .alarm (argB 0 new.val ||| argB 1 old.val ||| argB 2 cause) s
    boxRecord 0x03 (argB 0 new.val ||| argB 1 old.val ||| argB 2 cause) s

/-- It follows from the sensors, the hold level and the forced state (R284, R291). -/
def thermUpdate (cause : Nat) (s : State) : State :=
  setTherm s.thermState cause (s.modTherm fun t => { t with stale := false })

/-- A crossing of threshold l of sensor t is due in this tick (R283). -/
def Sensor.crossDue (l : Fin 3) (rising : Bool) (x : Sensor) : Bool :=
  !x.failed &&
    if rising then decide (x.rise[l.val] = 8) && !x.up.getLsbD l.val
    else decide (x.fall[l] = 8) && x.up.getLsbD l.val

/-- SHUTDOWN of a sensor is due in this tick (R283, R293). -/
def Sensor.shutdownDue (x : Sensor) : Bool := !x.failed && decide (x.rise[3] = 8) && !x.up.getLsbD 3

/-- Some crossing is due and not yet taken, SHUTDOWN among them (R285). -/
def State.crossingsDue (s : State) : Bool :=
  s.therm.sensors.toList.any fun x =>
    x.shutdownDue || (List.finRange 3).any fun l => x.crossDue l true || x.crossDue l false

/-- theta in percent of a device thermal state (Table 13-3, R286). -/
def thetaOf (l : Fin 5) : Nat := if l < 2 then 100 else if l = 2 then 50 else 0

/-- theta for the plan being frozen (R286): a shallower one only if the device has been in the
shallower state since tick 0 of this frame; `free` lifts that rule (R292). -/
def Therm.thetaNext (ended : Bool) (th : Therm) : Nat :=
  let now := thetaOf th.state
  if now ≤ th.theta ∨ ended ∨ thetaOf th.deepest = now then now else th.theta

/-! ## The cross-check (R289 to R292) -/

def sortInts (l : List Int) : List Int := l.mergeSort (· ≤ ·)

/-- Twice the median; an even number gives the sum of the two middle values (log 13). -/
def twiceMedian (l : List Int) : Int :=
  let m := sortInts l
  m.getD ((m.length - 1) / 2) 0 + m.getD (m.length / 2) 0

/-- Sensors not failed that have a mean over the last frame. -/
def Therm.means (th : Therm) : List (Fin 9 × Int) :=
  (List.finRange 9).filterMap fun t =>
    if th.sensors[t].failed then none else th.sensors[t].mean.map fun m => (t, m)

/-- Twice the distance of a sensor's mean from the median of the others. -/
def Therm.deviation (th : Therm) (t : Fin 9) (m : Int) : Nat :=
  (2 * m - twiceMedian ((th.means.filter (·.1 != t)).map (·.2))).natAbs

/-- The sensor declared failed by deviation: more than 15 degC, the largest difference, the lowest
number among equals (R289; log 13). Where no other sensor has a mean there is no median to differ from. -/
def Therm.deviant (th : Therm) : Option (Fin 9) :=
  if th.sensors.toList.countP (fun x => !x.failed) < 3 then none
  else
    (th.means.foldl (fun (b : Option (Fin 9 × Nat)) e =>
      let d := if th.means.length ≤ 1 then 0 else th.deviation e.1 e.2
      if 3000 < d ∧ (b.map (·.2)).getD 0 < d then some (e.1, d) else b) none).map (·.1)

/-- The mean the notice carries. -/
def Sensor.meanWord (x : Sensor) : Int := x.mean.getD (-32768)

/-- A failure of sensor t sets the hold level (R290): theta of the plan in force below 1, or the device in WARM or
deeper, and the sensor was the hottest in some tick of the frame judged. -/
def State.failureHolds (s : State) (t : Fin 9) : Bool :=
  s.therm.sensors[t].highestLast && (s.plan.cur.any (fun x => decide (x.theta < 100)) || s.therm.state != 0)

/-- One sensor is declared failed (R289): its comparators leave R283 and R284, the hold level is set
under R290, the second failure since BOOT forces full throttle (R292). -/
def declareFailed (t : Fin 9) (noReading : Bool) (s : State) : State :=
  let x := s.therm.sensors[t]
  let holds := s.failureHolds t
  let s := s.modSensor t fun x => { x with failed := true }
  let s := s.modTherm fun th =>
    { th with
      failures := th.failures + 1
      hold := if holds then maxFin5 th.deepest th.deepestLast else th.hold
      forced := th.forced || decide (1 ≤ th.failures)
      heatersOff := th.heatersOff || decide (1 ≤ th.failures)
      ack := th.ack && !decide (1 ≤ th.failures)
      stale := true }
  raise 12 (notice 0x0B02 .ordinary
    (argB 0 t.val ||| argB 1 (boolNat noReading) ||| argHi 4 x.meanWord) s)

/-- The hold level drops one level when the remaining sensors are cool enough (R290). -/
def Therm.holdDrop (th : Therm) : Therm :=
  let top := (th.means.map (·.2)).foldl max (-32768)
  if h : 0 < th.hold.val ∧ th.hold.val ≤ 3 ∧ !th.means.isEmpty ∧
      top + 1000 < fallBelow.toList.getD (th.hold.val - 1) 0 then
    { th with hold := ⟨th.hold.val - 1, by omega⟩ }
  else th

/-- The sensor the reeve chooses for a row whose listed sensors have all failed: the median of the
means, the higher middle one, the lower number among equals (R279). -/
def Therm.medianSensor (th : Therm) : Option (Fin 9) :=
  let m := sortInts (th.means.map (·.2))
  match m[m.length / 2]? with
  | some v => (th.means.find? (·.2 == v)).map (·.1)
  | none => none

/-- The choice is made for every row that needs it (R279). -/
def Therm.choose (th : Therm) : Therm :=
  { th with chosen := Vector.ofFn fun row =>
      if replacements[row].all (fun t => th.sensors[t].failed) then
        match th.chosen[row] with
        | some t => if th.sensors[t].failed then th.medianSensor else some t
        | none => th.medianSensor
      else th.chosen[row] }

/-- The sensors without a reading in 8 or more ticks of the frame judged (R289). -/
def Therm.silent (th : Therm) : List (Fin 9) :=
  (List.finRange 9).filter fun t => !th.sensors[t].failed && decide (8 ≤ th.sensors[t].missedLast)

/-- The deepest level of the sensors not failed (R284). -/
def Therm.levels (th : Therm) : Fin 5 := th.sensors.toList.foldl (fun a x => maxFin5 a x.deviceLevel) 0

/-- The failures declared in this tick: every sensor without a reading in 8 or more ticks, and one by
deviation, both judged on the sensors not failed as the tick begins (R289, log 13). The hold level drops in a frame
in which no failure sets it (R290). In the tick of a declaration the levels stand as they were, and only the hold
level and the forced state act (R291). -/
def crossCheck (s : State) : State :=
  let dev := s.therm.deviant.filter fun t => !s.therm.silent.contains t
  let failing := s.therm.silent ++ dev.toList
  let levels := s.therm.levels
  let kept := failing.any s.failureHolds
  let s := s.therm.silent.foldl (fun s t => declareFailed t true s) s
  let s := dev.toList.foldl (fun s t => declareFailed t false s) s
  let s := if kept then s else s.modTherm Therm.holdDrop
  if failing.isEmpty then thermUpdate 0xFF s
  else
    let floor := maxFin5 s.therm.hold (if s.therm.forced then 3 else 0)
    setTherm (maxFin5 levels floor) 0xFF (s.modTherm Therm.choose)

/-- Tick 1 of a frame, with the reeve running: the cross-check and the compensation are due. -/
def State.tickOne (s : State) : Bool := s.reeveActive && s.frame.started && s.frame.tick == 1

/-! ## Compensation (R282) -/

/-- A correction moves to the mean, by no more than 1 degC (R282). -/
def compStep (old : Option Int) (mean : Int) : Int :=
  match old with
  | none => mean
  | some v => max (v - 100) (min (v + 100) mean)

/-- One block's compensation: the sensor in use and the temperature it stands at. -/
def compensate (block : Nat) (row : Fin 9) (used : Fin 9) (comp : Option Int) (s : State) :
    (Fin 9 × Option Int) × State :=
  let t := s.nearest row
  if t = used then
    ((used, match s.therm.sensors[used].mean with
      | some m => some (compStep comp m)
      | none => comp), s)
  else ((t, comp), notice 0x0B03 .ordinary (argB 0 block ||| argB 1 t.val) s)

/-- OSC_REF_COMPENSATION (R282). -/
def execOscRefCompensation (s : State) : Host.Outcome State Fault Refusal :=
  .next (
    if s.tickOne then
      let (o, s) := compensate 0 0 s.core.oscSensor s.core.oscComp s
      let (r, s) := compensate 1 0 s.core.refSensor s.core.refComp s
      s.modCore fun c => { c with oscSensor := o.1, oscComp := o.2, refSensor := r.1, refComp := r.2 }
    else s)

/-! ## The THERM family (R369) -/

def Therm.failedMask (th : Therm) : Nat := bits (th.sensors.toList.map (·.failed))

/-- THERM_READ (R280). -/
def execThermRead (n : SlotId) (s : State) : Host.Outcome State Fault Refusal :=
  .next (onSlot n 0x0B01 (fun _ s =>
    postOk n (s.therm.sensors.toList.flatMap (fun x =>
      toLEInt 2 (x.reading.getD (-32768)) ++ toLEInt 2 x.meanWord) ++ toLE 2 s.therm.failedMask) s) s)

/-- theta of the plan in force in percent (R369). -/
def State.thetaInForce (s : State) : Nat := (s.plan.cur.map (·.theta)).getD s.therm.theta

/-- THERM_STATUS (R284). -/
def execThermStatus (n : SlotId) (s : State) : Host.Outcome State Fault Refusal :=
  .next (onSlot n 0x0B02 (fun _ s =>
    postOk n ([BitVec.ofNat 8 s.therm.state.val, BitVec.ofNat 8 s.therm.hold.val,
      boolByte s.therm.forced, BitVec.ofNat 8 s.thetaInForce] ++
      s.therm.sensors.toList.map (fun x => BitVec.ofNat 8 x.level.val) ++ [0] ++
      toLE 2 s.therm.failedMask) s) s)

/-- THERM.POLICY's effect (R287). -/
def applyThermPolicy (p : List Byte) : State → State := State.modPorts fun v =>
  Vector.ofFn fun k => { v[k] with rest := (u16 p 0).testBit k.val }

/-- THERM_POLICY (R287). -/
def execThermPolicy (n : SlotId) (s : State) : Host.Outcome State Fault Refusal :=
  .next (onSlot n 0x0B03 (fun p s => postStatus n .ok (applyThermPolicy p s)) s)

/-- THERM_ACK (R292): it ends the forced state at the next freeze; OK falls due at the boundary
whose plan is frozen without it. -/
def execThermAck (n : SlotId) (s : State) : Host.Outcome State Fault Refusal :=
  .next (onSlot n 0x0B04 (fun p s =>
    if s.therm.forced then
      let k := if s.plan.frozenAt.isSome then 2 else 1
      (pendOn n 0x0B04 p .thermAck (s.frameIn k) s).modTherm fun t => { t with ack := true }
    else postStatus n .wrongState s) s)

end Sys2Proof.Machine
end

