-- ==== Sys2Proof/Machine/Levees.lean ====
section
/-!
DEFINITION. The levees (spec/10): the record, evaluation, overtop and settle, the alarm pins, and the
LEVEE family.
-/

namespace Sys2Proof.Machine

/-! ## The record (Table 10-1) -/

def Levee.kind (x : Levee) : Nat := u8 x.rec_ 0 % 4
def Levee.index (x : Levee) : Nat := u8 x.rec_ 1
def Levee.series (x : Levee) : Nat := u8 x.rec_ 2
def Levee.action (x : Levee) : Nat := u8 x.rec_ 3 % 8
def Levee.latch (x : Levee) : Bool := (u8 x.rec_ 3).testBit 3
def Levee.low (x : Levee) : Int := s32 x.rec_ 4
def Levee.high (x : Levee) : Int := s32 x.rec_ 8
def Levee.berm (x : Levee) : Int := (u32 x.rec_ 12 : Nat)
def Levee.dwell (x : Levee) : Nat := u8 x.rec_ 16
def Levee.ignore (x : Levee) : Nat := u16 x.rec_ 17

/-- The largest INDEX of a kind. -/
def leveeIndexMax (kind : Nat) : Nat := if kind = 1 then 63 else if kind = 2 then 15 else 9

/-- The first byte of a record that breaks R229. -/
def leveeRecFault (r : List Byte) : Option Nat :=
  let x : Levee := { rec_ := r }
  let k := x.kind
  if u8 r 0 / 4 ≠ 0 then some 0
  else if k ≠ 0 ∧ leveeIndexMax k < x.index then some 1
  else if u8 r 2 / 8 ≠ 0 then some 2
  else if k ≠ 0 ∧ (if k = 2 then 4 < x.series else x.series ≠ 0) then some 2
  else if 4 < x.action ∨ u8 r 3 / 16 ≠ 0 ∨ (x.latch ∧ x.action < 3) then some 3
  else if k = 1 ∧ (x.low < -8388608 ∨ 8388607 < x.low) then some 4
  else if k = 1 ∧ (x.high < -8388608 ∨ 8388607 < x.high) then some 8
  else if k ≠ 0 ∧ x.high - x.berm < x.low + x.berm then some 12
  else if k ≠ 0 ∧ x.dwell = 0 then some 16
  else if x.ignore / 1024 ≠ 0 then some 18
  else if u8 r 19 ≠ 0 then some 19
  else none

/-! ## Evaluation (R231 to R235) -/

/-- The flags of IGNORE as flag words, lowest bit first. -/
def ignoreFlags : List W16 :=
  [Flag.ovr, Flag.neighbourOvr, Flag.breach, Flag.unguarded, Flag.cellSettling, Flag.heatDev,
   Flag.gauzeLf, Flag.seamStale, Flag.sat, Flag.carried]

/-- A value is skipped (R232). -/
def Levee.skips (fl : W16) (x : Levee) : Bool :=
  hasFlag fl Flag.settling || hasFlag fl Flag.calHold ||
    (ignoreFlags.zipIdx.any fun e => x.ignore.testBit e.2 && hasFlag fl e.1)

/-- One value that is not skipped (R233); an event it decides waits for the next tick (R235). -/
def Levee.take (now : W64) (v : Int) (fl : W16) (x : Levee) : Levee :=
  let x := { x with last := v, lastFlags := fl }
  if !x.evOut then
    if v < x.low ∨ x.high < v then
      if x.outCount + 1 < x.dwell then { x with outCount := x.outCount + 1 }
      else
        let above := decide (x.high < v)
        { x with evOut := true, evAbove := above, outCount := 0, inCount := 0
                 decided := x.decided ++ [{ at_ := now, overtop := true, above, value := v, flags := fl }] }
    else { x with outCount := 0 }
  else
    if x.low + x.berm ≤ v ∧ v ≤ x.high - x.berm then
      if x.inCount + 1 < x.dwell then { x with inCount := x.inCount + 1 }
      else
        { x with evOut := false, outCount := 0, inCount := 0
                 decided := x.decided ++
                   [{ at_ := now, overtop := false, above := x.evAbove, value := v, flags := fl }] }
    else { x with inCount := 0 }

/-- The comparator is given a value of its source. -/
def Levee.eval (now : W64) (v : Int) (fl : W16) (x : Levee) : Levee :=
  if x.skips fl then x else x.take now v fl

/-- Every comparator of a source is given a value; they evaluate only in RUN (R240). -/
def leveeFeed (kind index series : Nat) (v : Int) (fl : W16) (s : State) : State :=
  if s.measuring then
    s.modLevees fun c => c.map fun x =>
      if x.kind = kind ∧ x.index = index ∧ x.series = series then x.eval s.core.lt v fl else x
  else s

/-- Temperature comparators: the mean of a sensor over the frame just ended, in tick 1 (R231). -/
def leveeTemps (s : State) : State :=
  let s := (List.finRange 9).foldl (fun s t =>
    match s.therm.sensors[t].failed, s.therm.sensors[t].mean with
    | false, some m => leveeFeed 3 t.val 0 m 0 s
    | _, _ => s) s
  match (s.therm.means.map (·.2)).max? with
  | some m => leveeFeed 3 9 0 m 0 s
  | none => s

/-! ## Events (R236 to R238) -/

/-- The KIND of a comparator's notices (R238). -/
def Levee.noticeKind (x : Levee) : Kind := if 3 ≤ x.action then .alarm else .ordinary

/-- The notice of an event (R306): 0 overtop, 1 settle, 2 withdrawn. -/
def leveeNotice (k : Fin 48) (x : Levee) (ev : Nat) (above : Bool) (v : Int) (fl : W16) (s : State) : State :=
  if x.action = 0 then s
  else notice 0x0801 x.noticeKind
    (argB 0 k.val ||| argB 1 (ev + 4 * boolNat above) ||| argH 2 fl.toNat ||| argWi 4 v) s

/-- ALMA_N and ALMB_N are to be low (R237). -/
def Levee.holdsPin (a : Nat) (x : Levee) : Bool :=
  decide (x.kind ≠ 0 ∧ x.action = a) && (x.out || (x.latch && x.latched))
def State.pinLow (a : Nat) (s : State) : Bool := s.levees.toList.any (Levee.holdsPin a)

def leveeNo (k : Nat) : Fin 48 := Fin.ofNat 48 k

/-- A new record of comparator k takes effect at the boundary in this tick: it is applied first, and an
overtop due in this tick is not taken (R243); a settle is, before the boundary (R36). -/
def State.recordDue (s : State) (k : Fin 48) : Bool :=
  s.frame.boundary && s.mbox.pend.any fun x => x.op == 0x0801 && leveeNo (u8 x.payload 0) == k

/-- The next event comparator k takes: decided in an earlier tick, while in RUN (R235, R240, R243). -/
def State.leveeDue (s : State) (k : Fin 48) (overtop : Bool) : Option LeveeEvent :=
  if s.measuring && !(overtop && s.reeveActive && s.recordDue k) then
    match s.levees[k].decided with
    | e :: _ => if e.overtop = overtop ∧ e.at_ ≠ s.core.lt then some e else none
    | [] => none
  else none

/-- The event is taken (R236). -/
def takeLevee (k : Fin 48) (e : LeveeEvent) (s : State) : State :=
  let x := s.levees[k]
  let s := s.modLevee k fun x =>
    { x with out := e.overtop, above := e.above, decided := x.decided.tail
             latched := x.latched || e.overtop }
  let s := leveeNotice k x (boolNat !e.overtop) e.above e.value e.flags s
  if 2 ≤ x.action then attn .levee s else s

/-- LEVEE_OVERTOP (R233). -/
def execLeveeOvertop (k : Fin 48) (s : State) : Host.Outcome State Fault Refusal :=
  .next (match s.leveeDue k true with
    | some e => takeLevee k e s
    | none => s)

/-- LEVEE_SETTLE (R233). -/
def execLeveeSettle (k : Fin 48) (s : State) : Host.Outcome State Fault Refusal :=
  .next (match s.leveeDue k false with
    | some e => takeLevee k e s
    | none => s)

/-- A comparator back at IN with zero counts, no latch and nothing decided (R230, R240). -/
def Levee.cleared (x : Levee) : Levee :=
  { rec_ := x.rec_, last := x.last, lastFlags := x.lastFlags }

/-- Entry to RUN (R240). -/
def leveesEnter : State → State := State.modLevees fun c => c.map Levee.cleared

/-- A departure from RUN to the device state in force now (R240): one notice records it. -/
def leveesLeave (s : State) : State :=
  notice 0x0802 .ordinary (argB 0 s.core.dev.code) (leveesEnter s)

/-! ## The LEVEE family (R357) -/

/-- The request of LEVEE.SET. -/
def leveeSetFault (p : List Byte) : Option Nat :=
  if 47 < u8 p 0 then some 0
  else (firstNonZero p 1 3).or ((leveeRecFault (slice p 4 20)).map (· + 4))

/-- A record takes effect (R230): the withdrawn notice follows the record replaced. -/
def applyLevee (k : Fin 48) (r : List Byte) (s : State) : State :=
  let x := s.levees[k]
  let s := s.modLevee k fun x => { Levee.cleared x with rec_ := r }
  if x.out then leveeNotice k x 2 x.above x.last x.lastFlags s else s

def applyLeveeSet (p : List Byte) : State → State := applyLevee (leveeNo (u8 p 0)) (slice p 4 20)

/-- LEVEE_SET (R230). -/
def execLeveeSet (n : SlotId) (s : State) : Host.Outcome State Fault Refusal :=
  .next (onSlot n 0x0801 (fun p =>
    orRefuse n ((leveeSetFault p).map (.badArg, ·)) fun s =>
      if s.core.dev = .run then pendBoundary n 0x0801 p 1 s
      else postStatus n .ok (applyLeveeSet p s)) s)

/-- LEVEE_ACK (R237): in hardware. -/
def execLeveeAck (n : SlotId) (s : State) : Host.Outcome State Fault Refusal :=
  .next (onSlot n 0x0802 (fun p s =>
    match firstNonZero p 6 2 with
    | some d => badArg n d s
    | none =>
      postStatus n .ok (s.modLevees fun v => Vector.ofFn fun k =>
        if (u48 p 0).testBit k.val then { v[k] with latched := false } else v[k])) s)

def leveeStatusFault (p : List Byte) : Option Nat :=
  if 47 < u8 p 0 then some 0
  else if u8 p 1 = 0 ∨ 7 < u8 p 1 ∨ 48 < u8 p 0 + u8 p 1 then some 1 else none

/-- The counts stand until the event is taken: the one that has decided it at DWELL (R233). -/
def Levee.counts (x : Levee) : Nat × Nat :=
  match x.decided with
  | e :: _ => if e.overtop then (x.dwell, 0) else (0, x.dwell)
  | [] => (x.outCount, x.inCount)

/-- The 8 bytes of one comparator. -/
def Levee.status (x : Levee) : List Byte :=
  [BitVec.ofNat 8 (bits [x.out, x.above, x.latch && x.latched]), BitVec.ofNat 8 x.counts.1,
    BitVec.ofNat 8 x.counts.2, 0] ++ toLEInt 4 x.last

/-- LEVEE_STATUS (R357). -/
def execLeveeStatus (n : SlotId) (s : State) : Host.Outcome State Fault Refusal :=
  .next (onSlot n 0x0803 (fun p =>
    orRefuse n ((leveeStatusFault p).map (.badArg, ·)) fun s =>
      postOk n ((List.range (u8 p 1)).flatMap fun k => (s.levees[leveeNo (u8 p 0 + k)]).status) s) s)

end Sys2Proof.Machine
end

