-- ==== Sys2Proof/Machine/Emit.lean ====
section
/-!
DEFINITION. What a lane input and a lane output do (spec/08, spec/14, R208, R231): the filter takes
the input; an output updates the live value, is given to the comparators, is kept for the gas engine
and, with RING set, enters the SAMPLE ring.
-/

namespace Sys2Proof.Machine

/-- The sequence entries in force: those of both tables, or the twill entry (R162, R176). -/
def defaultWarp : List Entry :=
  { cls := .reserved } :: List.replicate 31 { cls := .internal, src := 0x15 }
def openTable : List Entry := [{ cls := .open_ }]

def State.warpTable (s : State) : List Entry := s.seq.tables.warp.getD defaultWarp
/-- An empty Weft table behaves as one open slot with ACQ 8 (R164). -/
def State.weftTable (s : State) : List Entry :=
  match s.seq.tables.weft.getD [] with
  | [] => openTable
  | l => l

/-- The table a converter runs. -/
def State.tableOf (s : State) (c : Conv) : List Entry :=
  if s.seq.twill then s.seq.tables.twill.toList
  else match c with | .warp => s.warpTable | .weft => s.weftTable

/-- Every entry that is converted at present. -/
def State.entries (s : State) : List Entry :=
  if s.seq.twill then s.seq.tables.twill.toList else s.warpTable ++ s.weftTable

/-- The entry of a port's signal. -/
def State.entryOf (s : State) (p : PortId) (sig : Nat) : Option Entry :=
  s.entries.find? fun e => e.cls == .port && e.port == p && e.sig == sig

/-- The lane a current input feeds. -/
def State.laneOfInput (s : State) (p : PortId) (i : Fin 2) : Option LaneId :=
  (s.entryOf p i.val).bind (·.lane)

/-- The lanes a port feeds. -/
def State.lanesOfPort (s : State) (p : PortId) : List LaneId :=
  s.entries.filterMap fun e => if e.cls == .port && e.port == p then e.lane else none

/-- The signal code VD, from which IRT features are taken (R131). -/
def sigVD : Nat := 2

/-- Ports whose VD feeds lane l in IRT. -/
def State.irtPorts (s : State) (l : LaneId) : List PortId :=
  (List.finRange 16).filter fun p =>
    s.ports[p].mode == .irt && ((s.entryOf p sigVD).bind (·.lane)) == some l

/-- Clocks in one wrap of a table. -/
def wrapClocks (l : List Entry) : Nat := (l.map fun e => e.acq + 22).sum

/-- Clocks between two conversions of an entry of a converter's table; in twill half a conversion. -/
def State.periodOf (s : State) (p : PortId) (sig : Nat) : Rat :=
  if s.seq.twill then (wrapClocks s.seq.tables.twill.toList : Rat) / 2
  else if s.warpTable.any (fun e => e.cls == .port && e.port == p && e.sig == sig) then
    (wrapClocks s.warpTable : Rat)
  else (wrapClocks s.weftTable : Rat)

/-- The volts that a value of a voltage lane stands for, taken with a setting and a GAIN (R208). -/
def voltsOf (x : Setting) (gain : Fin 5) (v : Int) : Rat :=
  (v : Rat) / 8388608 * (5 / 4) / (x.dcGain * ((2 ^ gain.val : Nat) : Rat))

/-- GAIN of the entry that gives a port's signal. -/
def State.gainOf (s : State) (p : PortId) (sig : Nat) : Fin 5 := ((s.entryOf p sig).map (·.gain)).getD 0

/-- A result joins those that a span of up to 255 ticks may still take (R131). -/
def FeatureIn.keep (now : W64) (x : FeatureIn) (l : List FeatureIn) : List FeatureIn :=
  x :: l.filter fun r => decide (now.toNat ≤ r.last.toNat + 1024)

/-- An output of a VD lane may serve a feature: its time is the emission tick less the group delay
(R131). -/
def irtOutput (l : LaneId) (o : Out) (s : State) : State :=
  (s.irtPorts l).foldl (fun s p =>
    let g : Int := s.lanes[l].setting.delay.getD 0
    let back := (roundRat ((g : Rat) / 256 * s.periodOf p sigVD / 960)).toNat
    let t := s.core.lt - BitVec.ofNat 64 back
    let x : FeatureIn :=
      { first := t, last := t, value := voltsOf s.lanes[l].setting (s.gainOf p sigVD) o.value.toInt, flags := o.flags }
    s.modHeater p fun h => { h with results := FeatureIn.keep s.core.lt x h.results }) s

/-- The port signal a lane takes. -/
def State.sourceOf (s : State) (l : LaneId) : Option (PortId × Nat) :=
  (s.entries.find? fun e => e.cls == .port && e.lane == some l).map fun e => (e.port, e.sig)

/-- A lane emits an output. -/
def emitLane (l : LaneId) (o : Out) (s : State) : State :=
  let s := s.modLane l fun x => { x with live := x.live.update o, outs := x.outs ++
    [{ out := o, range := x.range, src := s.sourceOf l, setting := x.setting
       gain := ((s.sourceOf l).map fun e => s.gainOf e.1 e.2).getD 0 }] }
  let s := leveeFeed 1 l.val 0 o.value.toInt o.flags (irtOutput l o s)
  if s.lanes[l].ring then emitSample (BitVec.ofNat 8 l.val) o s else s

/-- An input with its flags arrives at a lane in this tick. -/
def laneInput (l : LaneId) (v : Int) (fl : W16) (s : State) : State :=
  let r := s.lanes[l].input s.core.lt v fl
  let s := s.modLane l fun _ => r.1
  match r.2 with
  | some o => emitLane l o s
  | none => s

end Sys2Proof.Machine
end

