-- ==== Sys2Proof/Machine/Time.lean ====
section
/-!
DEFINITION. The network time domains (spec/18): advance, PPS capture and acceptance, the reeve servo,
setting and switching, and the TIME family but for TIME.TRIGGER.
-/

namespace Sys2Proof.Machine

/-- The nominal increment (R367). -/
def nominalInc : Nat := 4398046511

def State.dom (s : State) (d : Dom) : Domain :=
  match d with | .ta => s.time.ta | .tb => s.time.tb

def State.modDom (d : Dom) (f : Domain → Domain) (s : State) : State :=
  match d with
  | .ta => s.modTime fun t => { t with ta := f t.ta }
  | .tb => s.modTime fun t => { t with tb := f t.tb }

def domCode : Dom → Nat
  | .ta => 0 | .tb => 1

def domOf (k : Nat) : Dom := if k = 1 then .tb else .ta

/-- The domain in the next tick (R381): it advances by the increment of the present one. Eight ticks back are kept, more
than the reeve takes to serve an edge (R382 gives it two). -/
def Domain.advance (x : Domain) : Domain :=
  { x with time := (x.time + x.inc) % 2 ^ 112, inc := x.nextInc.getD x.inc, nextInc := none
           past := (x.time, x.inc) :: x.past.take 7 }

/-- O moves towards zero by 50 ppm of the increment, or by what remains (R391). -/
def slewStep (inc : Nat) (o : Int) : Int :=
  let q : Int := (inc / 20000 : Nat)
  if o < 0 then min 0 (o + q) else max 0 (o - q)

/-- Both domains and O in the next tick (R381, R391). -/
def Time.advance (t : Time) : Time :=
  let inc := if t.activeTb then t.tb.inc else t.ta.inc
  let o := slewStep inc t.o
  { t with ta := t.ta.advance, tb := t.tb.advance, o := o,
           slewDone := t.slewDone || (t.o != 0 && o == 0) }

/-- D(t) and INC of the tick k ticks before this one; beyond those kept, at the present increment. -/
def Domain.back (k : Nat) (x : Domain) : Int × Nat :=
  match ((x.time, x.inc) :: x.past)[k]? with
  | some e => (e.1, e.2)
  | none => (x.time - k * x.inc, x.inc)

/-- The time of a domain at clock c of the tick k ticks before this one (R380). -/
def Domain.at (k c : Nat) (x : Domain) : Int :=
  (x.back k).1 + ((c * (x.back k).2 / 960 : Nat) : Int)

/-- The fraction as a signed value in (-0.5 s, +0.5 s], in 2^-48 s (R388). -/
def phaseOf (t : Int) : Int :=
  let f := t % (2 ^ 48 : Nat)
  if (2 ^ 47 : Nat) < f then f - (2 ^ 48 : Nat) else f

/-- A phase in units of 10^-k s, truncated. -/
def phaseIn (scale : Nat) (e : Int) : Int := (e * scale).tdiv (2 ^ 48 : Nat)

/-! ## PPS edges -/

/-- The frame and tick k ticks before this one (R384); before frame 0 they read zero. -/
def State.countBack (s : State) (k : Nat) : W32 × Nat :=
  if !s.frame.started then (0, 0)
  else if k ≤ s.frame.tick then (s.frame.number, s.frame.tick - k)
  else if s.frame.number = 0 ∧ !s.frame.wrapped then (0, 0)
  else (s.frame.number - 1, s.frame.tick + s.frame.lastLen - k)

/-- Clocks from the last accepted edge to an edge at clock c of the tick with this LT. -/
def Domain.interval (lt : W64) (c : Nat) (x : Domain) : Nat :=
  (lt - x.lastLt).toNat * 960 + c - x.lastClock

/-- The edge is accepted: the first, or one in the window of Table 18-2 (R387). -/
def Domain.accepts (lt : W64) (c : Nat) (x : Domain) : Bool :=
  !x.hasLast || (61378560 ≤ x.interval lt c && x.interval lt c ≤ 61501440)

/-- The frequency error over the accepted intervals, against the nominal increment (R388 step 2;
log 21). Without an interval it is the one that the increment in force, which the servo resumes from, corrects. -/
def freqError (inc : Nat) (h : List Nat) : Rat :=
  if h.isEmpty then 1 - (inc : Rat) / nominalInc
  else (h.map fun (k : Nat) => ((k * nominalInc : Nat) : Rat) / (960 * 2 ^ 48) - 1).sum / h.length

def clampRat (lo hi x : Rat) : Rat := if x < lo then lo else if hi < x then hi else x

/-- The increment the servo writes (R388 step 3); rounding log 21. The bounds are the last increments within the
1000 ppm of R367. -/
def servoInc (y : Rat) (e : Int) : Nat :=
  let ph := clampRat (-1 / 10000) (1 / 10000) ((e : Rat) / 2 ^ 48 / 16)
  let d : Nat := nominalInc / 1000
  max (nominalInc - d) (min (nominalInc + d) (roundRat (nominalInc * (1 - y - ph))).toNat)

/-- Lock bookkeeping of R389 with phase error e; answers the domain and the notice to raise. -/
def Domain.lockStep (e : Int) (x : Domain) : Domain × Option Bool :=
  let within := decide ((e.natAbs : Int) * 1000000000 ≤ 200 * (2 ^ 48 : Nat))
  let beyond := decide (1000 * (2 ^ 48 : Nat) < (e.natAbs : Int) * 1000000000)
  let x := { x with lockRun := if within then x.lockRun + 1 else 0,
                    unlockRun := if beyond then x.unlockRun + 1 else 0, lastErr := e }
  if !x.locked ∧ 8 ≤ x.lockRun then ({ x with locked := true }, some true)
  else if x.locked ∧ 2 ≤ x.unlockRun then ({ x with locked := false }, some false)
  else (x, none)

/-- Notices 0x0D05 and 0x0D06 (Table 18-4). -/
def lockNotice (d : Dom) (e : Int) (r : Option Bool) (s : State) : State :=
  match r with
  | some true => notice 0x0D05 .ordinary (argB 0 (domCode d)) s
  | some false =>
    notice 0x0D06 .ordinary (argB 0 (domCode d) ||| argWi 4 (satInt 32 (phaseIn 1000000000 e))) s
  | none => s

/-- The reeve servo at an accepted edge with phase error e (R388, R389). -/
def servo (d : Dom) (e : Int) (s : State) : State :=
  if !((s.dom d).reeve && (s.dom d).valid) then s
  else
    let r := (s.dom d).lockStep e
    let s := lockNotice d e r.2 (s.modDom d fun _ => r.1)
    if (2 ^ 48 : Nat) < (e.natAbs : Int) * 1000 then
      notice 0x0D04 .ordinary (argB 0 (domCode d) ||| argWi 4 (satInt 32 (phaseIn 1000000 e))) s
    else s.modDom d fun x => { x with nextInc := some (servoInc (freqError x.inc x.history) e) }

/-- An accepted edge: stamp, presence, the interval it ends (R384, R387). -/
def Domain.accept (f : W32) (t c : Nat) (lt : W64) (e : Int) (x : Domain) : Domain :=
  { x with
    stamp := some { frame := f, tick := t, clock := c, lt := lt, time := (e % (2 ^ 112 : Nat)).toNat / 2 ^ 8 }
    edges := countUp x.edges 1
    present := true, hasLast := true, reported := false
    lastLt := lt, lastClock := c
    history := if x.hasLast then (x.interval lt c :: x.history).take 8 else x.history }

/-- An edge outside the window is counted; notice 0x0D03 at the first after 6000 frames without one
(R387, Table 18-4). -/
def outlier (d : Dom) (s : State) : State :=
  let x := s.dom d
  let due := (x.outlierAge.map fun a => decide (6000 ≤ a)).getD true
  let s := if due then
      notice 0x0D03 .ordinary (argB 0 (domCode d) ||| argW 4 (x.outliers + 1)) s
    else s
  s.modDom d fun x => { x with outlierAge := some 0, outliers := if due then 0 else x.outliers + 1 }

/-- Stamps are made whenever the reeve runs, but not in LATCHED (R384). -/
def State.stamps (s : State) : Bool := s.reeveActive && s.core.dev != .latched

/-- PPS_EDGE (R384, R385): the edge fell at `clock` of the tick `ticksBack` ticks before this one. -/
def ppsEdge (d : Dom) (ticksBack : Nat) (clock : Fin 960) (s : State) : State :=
  if !s.stamps then s
  else
    let lt := s.core.lt - BitVec.ofNat 64 ticksBack
    let x := s.dom d
    if !x.accepts lt clock.val then outlier d s
    else
      let ft := s.countBack ticksBack
      let at_ := x.at ticksBack clock.val
      let back := x.reported
      let s := s.modDom d (Domain.accept ft.1 ft.2 clock.val lt at_)
      let s := if back then notice 0x0D02 .ordinary (argB 0 (domCode d)) s else s
      let s := if s.mbox.pend.any (·.wait == .timeEdge d) then
          s.modDom d fun x => { x with setEdge := some (x.setEdge.getD (lt, clock.val)) }
        else s
      servo d (phaseOf at_) s

def execPpsEdge (d : Dom) (ticksBack : Nat) (clock : Fin 960) (s : State) : Host.Outcome State Fault Refusal :=
  .next (ppsEdge d ticksBack clock s)

/-- No accepted edge for 2.0 s (R387). -/
def State.ppsAbsentDue (s : State) (d : Dom) : Bool :=
  (s.dom d).present && s.reeveActive && decide (122880000 ≤ (s.dom d).interval s.core.lt 0)

/-- PPS_ABSENT (R387, R389). The last accepted intervals stand: only a TIME.SET clears them (R388). -/
def execPpsAbsent (d : Dom) (s : State) : Host.Outcome State Fault Refusal :=
  .next (
    if s.ppsAbsentDue d then
      let x := s.dom d
      let s := s.modDom d fun x =>
        { x with present := false, hasLast := false, reported := true, locked := false,
                 lockRun := 0, unlockRun := 0 }
      let s := notice 0x0D01 .ordinary (argB 0 (domCode d)) s
      if x.locked then lockNotice d x.lastErr (some false) s else s
    else s)

/-! ## Setting a domain -/

/-- The value of a TIME.SET request in 2^-48 s (R367). -/
def timeSetValue (p : List Byte) : Nat := (u64 p 4 * 2 ^ 40 + leNat (slice p 12 5)) * 2 ^ 8

/-- A domain takes a value: it becomes valid, the frequency history is cleared, the increment stays,
and notice 0x0D07 is raised (R382, R388). -/
def loadDomain (d : Dom) (v : Nat) (atEdge : Bool) (s : State) : State :=
  let x := s.dom d
  let step := if x.valid then satInt 32 ((((v : Int) - x.time) * 1000000).tdiv (2 ^ 48 : Nat)) else 0
  let s := s.modDom d fun x =>
    { x with time := v % 2 ^ 112, valid := true, history := [], setEdge := none }
  notice 0x0D07 .ordinary (argB 0 (domCode d) ||| argB 1 (boolNat atEdge) ||| argWi 4 step) s

/-- The pending TIME.SET of a domain. -/
def State.timeSetPend (s : State) (d : Dom) : Option Pend :=
  s.mbox.pend.find? fun x => x.op == 0x0D01 && domOf (u8 x.payload 0) == d

/-- A TIME.SET that waits for the boundary that falls in this tick, or whose edge lies two ticks back
(R382). -/
def State.timeSetDue (s : State) (x : Pend) : Bool :=
  match x.wait with
  | .boundary k => s.frame.boundary && decide (k ≤ 1)
  | .timeEdge d => match (s.dom d).setEdge with
    | some (lt, _) => decide (2 ≤ s.since lt)
    | none => false
  | _ => false

/-- A pending TIME.SET takes effect and completes with OK (R382). -/
def applyTimeSet (x : Pend) (s : State) : State :=
  let d := domOf (u8 x.payload 0)
  let v := timeSetValue x.payload
  match x.wait, (s.dom d).setEdge with
  | .timeEdge _, some (lt, c) =>
    let inc := (s.dom d).inc
    postStatus x.slot .ok (loadDomain d (v + (960 * s.since lt - c) * inc / 960) true s)
  | _, _ => postStatus x.slot .ok (loadDomain d v false s)

/-- TIME_SET_APPLY (R382): the reeve loads the domain. -/
def execTimeSetApply (d : Dom) (s : State) : Host.Outcome State Fault Refusal :=
  .next (
    match s.timeSetPend d with
    | some x => if s.reeveActive && s.timeSetDue x then applyTimeSet x s else s
    | none => s)

/-- TIME_SET_EDGE_TIMEOUT (R367): 2 s without an edge. -/
def execTimeSetEdgeTimeout (d : Dom) (s : State) : Host.Outcome State Fault Refusal :=
  .next (
    match s.timeSetPend d with
    | some x =>
      if x.wait = .timeEdge d ∧ (s.dom d).setEdge.isNone ∧ 128000 ≤ s.since x.since then
        postStatus x.slot .busy s
      else s
    | none => s)

/-! ## The switch -/

/-- A TIME.SET of the new domain that is due in this tick at an edge comes before the switch (Table 18-5). -/
def stepFirst (d : Dom) (s : State) : State :=
  match s.timeSetPend d with
  | some x => if s.timeSetDue x then applyTimeSet x s else s
  | none => s

/-- A pending TIME.SELECT takes effect (R391): AT does not step. -/
def applyTimeSelect (d : Dom) (s : State) : State :=
  let s := stepFirst d s
  let tb := decide (d = .tb)
  if s.time.activeTb = tb then s
  else
    let o : Int := (s.activeDomain.time : Int) + s.time.o - (s.dom d).time
    let done := s.time.o != 0 && o == 0
    let s := s.modTime fun t => { t with activeTb := tb, o := o, slewDone := t.slewDone || done }
    boxRecord 0x0D (argB 0 (domCode d) ||| argWi 2 (satInt 32 (phaseIn 1000000000 o))) s

/-- SLEW_COMPLETE (R391). -/
def execSlewComplete (s : State) : Host.Outcome State Fault Refusal :=
  .next (
    if s.time.slewDone then
      notice 0x0D08 .ordinary (argB 0 (boolNat s.time.activeTb))
        (s.modTime fun t => { t with slewDone := false })
    else s)

/-! ## The TIME family (R367) -/

/-- The domain byte is 0 or 1. -/
def domFault (p : List Byte) : Option Nat := if 1 < u8 p 0 then some 0 else none

/-- TIME.SET's fields. -/
def timeSetFault (p : List Byte) : Option Nat :=
  (domFault p).or <| (if 1 < u8 p 1 then some 1 else none).or <|
    (firstNonZero p 2 2).or (firstNonZero p 17 3)

/-- TIME_SET (R382). -/
def execTimeSet (n : SlotId) (s : State) : Host.Outcome State Fault Refusal :=
  .next (onSlot n 0x0D01 (fun p =>
    orRefuse n ((timeSetFault p).map (.badArg, ·)) fun s =>
      let d := domOf (u8 p 0)
      if (s.timeSetPend d).isSome then postStatus n .busy s
      else if u8 p 1 = 1 then
        pendOn n 0x0D01 p (.timeEdge d) s.nextFrame (s.modDom d fun x => { x with setEdge := none })
      else pendBoundary n 0x0D01 p 1 s) s)

/-- The increment departs from the nominal by more than 1000 ppm (R367). -/
def incFault (inc : Nat) : Bool :=
  decide (nominalInc < 1000 * ((inc : Int) - nominalInc).natAbs)

def timeIncrFault (p : List Byte) : Option Nat :=
  (domFault p).or <| (firstNonZero p 1 1).or (if incFault (u48 p 2) then some 2 else none)

/-- TIME_INCR (R383). -/
def execTimeIncr (n : SlotId) (s : State) : Host.Outcome State Fault Refusal :=
  .next (onSlot n 0x0D02 (fun p =>
    orRefuse n ((timeIncrFault p).map (.badArg, ·)) fun s =>
      let d := domOf (u8 p 0)
      if (s.dom d).reeve then postStatus n .wrongState s
      else postStatus n .ok (s.modDom d fun x => { x with nextInc := some (u48 p 2) })) s)

def timeServoFault (p : List Byte) : Option Nat :=
  (domFault p).or (if 1 < u8 p 1 then some 1 else none)

/-- A domain handed to the host: the servo holds it no longer (R392). -/
def Domain.toHost (x : Domain) : Domain := { x with reeve := false, locked := false, lockRun := 0 }

/-- TIME.SERVO's effect. -/
def applyTimeServo (p : List Byte) (s : State) : State :=
  s.modDom (domOf (u8 p 0)) fun x => if u8 p 1 = 1 then { x with reeve := true } else x.toHost

/-- TIME_SERVO (R388). -/
def execTimeServo (n : SlotId) (s : State) : Host.Outcome State Fault Refusal :=
  .next (onSlot n 0x0D03 (fun p =>
    orRefuse n ((timeServoFault p).map (.badArg, ·)) fun s =>
      postStatus n .ok (applyTimeServo p s)) s)

/-- TIME_SELECT (R391). -/
def execTimeSelect (n : SlotId) (s : State) : Host.Outcome State Fault Refusal :=
  .next (onSlot n 0x0D04 (fun p =>
    orRefuse n ((domFault p).map (.badArg, ·)) fun s =>
      if (s.dom (domOf (u8 p 0))).valid then pendBoundary n 0x0D04 p 1 s
      else postStatus n .wrongState s) s)

/-- The TIME.PPS response (Table 17-3). -/
def Stamp.response (edges : W32) (x : Stamp) : List Byte :=
  toLE 4 x.frame.toNat ++ toLE 2 x.tick ++ toLE 2 x.clock ++ toLE 8 (x.time / 2 ^ 40) ++
    toLE 5 (x.time % 2 ^ 40) ++ [0, 0, 0] ++ toLE 4 edges.toNat

/-- TIME_PPS (R384). -/
def execTimePps (n : SlotId) (s : State) : Host.Outcome State Fault Refusal :=
  .next (onSlot n 0x0D05 (fun p =>
    orRefuse n ((domFault p).map (.badArg, ·)) fun s =>
      let x := s.dom (domOf (u8 p 0))
      postOk n ((x.stamp.map (Stamp.response x.edges)).getD []) s) s)

/-- The TIME.STATUS response (Table 17-3). -/
def State.timeStatus (s : State) : List Byte :=
  [boolByte s.time.activeTb, BitVec.ofNat 8 (bits [s.time.ta.reeve, s.time.tb.reeve]),
    BitVec.ofNat 8 (bits [s.time.ta.present, s.time.tb.present]),
    BitVec.ofNat 8 (s.time.triggers.toList.countP (·.isSome))] ++
  toLE 6 s.time.ta.inc ++ toLE 6 s.time.tb.inc ++ toLEInt 8 (s.time.o.tdiv 256)

/-- TIME_STATUS (R367). -/
def execTimeStatus (n : SlotId) (s : State) : Host.Outcome State Fault Refusal :=
  .next (onSlot n 0x0D07 (fun _ s => postOk n s.timeStatus s) s)

end Sys2Proof.Machine
end

