-- ==== Sys2Proof/Machine/Seq.lean ====
section
/-!
DEFINITION. Warp and Weft (spec/07): sequence tables and their checks, starts, the gauze and load
conditions on them, one-shot requests, the seam, the self-test, and the SEQ family; with them
WEAVE.SET and WEAVE.STATUS, which need the tables (R196).
-/

namespace Sys2Proof.Machine

/-! ## Signals and modes (Tables 3-1 and 3-2) -/

/-- The signals a port's mode provides (R67): I1, I2, VD, VRE, VCE, VHS, IHT, VRG. -/
def Port.provides (q : Port) (sig : Nat) : Bool :=
  match q.mode with
  | .none => false
  | .ec4 => sig == 0 || sig == 1 || sig == 3 || sig == 4 || sig == 7
  | .ec3 => sig == 0 || sig == 3 || sig == 4 || sig == 7
  | .mox => sig == 0 || sig == 5 || sig == 6 || sig == 7
  | .irt => sig == 2 || sig == 5 || sig == 6
  | .cap => sig == 0 || sig == 4 || sig == 7
  | .aux => sig == 7 || if q.rtd then sig == 5 || sig == 6 else sig == 2

def Mode.isEc (m : Mode) : Bool := m == .ec4 || m == .ec3

/-- The number of current inputs a mode has. -/
def Mode.inputs (m : Mode) : Nat :=
  match m with
  | .ec4 => 2 | .ec3 => 1 | .mox => 1 | .cap => 1 | .none => 0 | .irt => 0 | .aux => 0

/-- The port is STARTING, RUNNING or STOPPING. -/
def Port.driven (q : Port) : Bool := q.state == .starting || q.state == .running || q.state == .stopping
/-- Its lanes have outputs as scheduled (Table 3-7). -/
def Port.measures (q : Port) : Bool := q.state == .starting || q.state == .running

/-! ## Entries (Table 7-2) -/

def entryClass (k : Nat) : EntryClass :=
  if k = 0 then .port else if k = 1 then .internal else if k = 2 then .swatch
  else if k = 3 then .reserved else .open_

/-- Internal channel codes of Table 7-3. -/
def internalOk (k : Nat) : Bool := k ≤ 8 || (0x10 ≤ k && k ≤ 0x15)

/-- The first byte of a record that breaks Table 7-2. -/
def entryFault (r : List Byte) : Option Nat :=
  let c := u8 r 0 % 8
  if 4 < c ∨ u8 r 0 / 8 ≠ 0 then some 0
  else if (if c = 0 then (u8 r 1).testBit 7 else u8 r 1 ≠ 0) then some 1
  else if (if c = 1 then !internalOk (u8 r 2) else if c = 2 then 3 < u8 r 2 else u8 r 2 ≠ 0) then some 2
  else if u8 r 3 < 2 then some 3
  else if 4 < u8 r 4 then some 4
  else if (u8 r 5).testBit 7 ∨ ((u8 r 5).testBit 6 ∧ u8 r 5 % 64 ≠ 0) then some 5
  else firstNonZero r 6 2

def parseEntry (r : List Byte) : Entry :=
  { cls := entryClass (u8 r 0 % 8), port := Fin.ofNat 16 (u8 r 1), sig := u8 r 1 / 16 % 8
    src := u8 r 2, acq := u8 r 3, gain := Fin.ofNat 5 (u8 r 4)
    lane := if (u8 r 5).testBit 6 then none else some (laneOf (u8 r 5 % 64)) }

/-- The k records of 8 bytes of an object. -/
def records (obj : List Byte) : List (List Byte) :=
  (List.range (obj.length / 8)).map fun k => slice obj (8 * k) 8

/-- The first byte at fault in the records of an object. -/
def recordsFault (obj : List Byte) : Option Nat :=
  (records obj).zipIdx.findSome? fun e => (entryFault e.1).map (· + 8 * e.2)

/-! ## Table rules (R93, R164) -/

def Entry.isCurrent (e : Entry) : Bool := e.cls == .port && e.sig < 2
/-- VD, VRE, VCE, VHS, IHT, VRG of a port. -/
def Entry.isVoltage (e : Entry) : Bool := e.cls == .port && 2 ≤ e.sig

/-- Two entries name the same lane. -/
def Entry.sameLane (a b : Entry) : Bool := a.lane.isSome && a.lane == b.lane
/-- Two entries name the same current signal. -/
def Entry.sameCurrent (a b : Entry) : Bool := a.isCurrent && b.isCurrent && a.port == b.port && a.sig == b.sig
/-- Two entries name voltage signals of one port. -/
def Entry.sameBuffer (a b : Entry) : Bool := a.isVoltage && b.isVoltage && a.port == b.port

def wrapAt (l : List Entry) (k : Nat) : Nat := wrapClocks (l.take (k + 1))

/-- The byte of entry k of table l that breaks a rule of R164 or R93 within l or against the other
table and the twill entry: its class, its signal, its acquisition time or its lane. -/
def entryBreak (warp : Bool) (l other : List Entry) (tw : Option Entry) (e : Entry) (k : Nat) : Option Nat :=
  let before := l.take k
  if (if warp then e.cls == .open_ || (e.cls == .reserved && before.any (·.cls == .reserved))
      else e.cls == .reserved) then some 0
  else if other.any (Entry.sameBuffer e) || before.any (Entry.sameCurrent e) ||
      other.any (Entry.sameCurrent e) || (e.isCurrent && decide (960 < wrapClocks l)) then some 1
  else if warp && decide (960 < wrapAt l k) then some 3
  else if before.any (Entry.sameLane e) || other.any (Entry.sameLane e) || tw.any (Entry.sameLane e) then some 5
  else none

/-- The offset in table l of the first byte that breaks a rule. -/
def tableBreak (warp : Bool) (l other : List Entry) (tw : Option Entry) : Option Nat :=
  l.zipIdx.findSome? fun (e, k) => (entryBreak warp l other tw e k).map (· + 8 * k)

/-- A set of tables breaks R164. -/
def Tables.broken (x : Tables) : Bool :=
  let w := x.warp.getD defaultWarp
  let f := x.weft.getD []
  w.countP (·.cls == .reserved) != 1 || (tableBreak true w f x.twill).isSome ||
    (tableBreak false f w x.twill).isSome

/-- The DETAIL of a refused set: within the object handed by the last chunk, 0 if the fault lies
elsewhere (R349). -/
def Tables.detail (sel : Nat) (x : Tables) : Nat :=
  let w := x.warp.getD defaultWarp
  let f := x.weft.getD []
  if sel = 0 then (tableBreak true w f x.twill).getD 0
  else if sel = 1 then (tableBreak false f w x.twill).getD 0
  else if x.twill.any fun e => (w ++ f).any (Entry.sameLane e) then 5
  else 0

/-! ## Load (R187, R196) -/

/-- The input multiplicity of an entry's lane (R187). -/
def entryMult (w : Nat) (twill : Bool) (e : Entry) : Nat :=
  if e.isCurrent || e.cls == .reserved then 1
  else if twill then ceilDiv 1920 (e.acq + 22) else ceilDiv 960 w

/-- The load of the lanes a table feeds, under a lane's setting f. -/
def tableLoad (f : LaneId → Setting) (twill : Bool) (l : List Entry) : Nat :=
  (l.map fun e => match e.lane with
    | some k => (f k).load (entryMult (wrapClocks l) twill e)
    | none => 0).sum

/-- The load of all lanes that run in a weave mode (R196). -/
def Tables.load (f : LaneId → Setting) (twill : Bool) (x : Tables) : Nat :=
  if twill then tableLoad f true x.twill.toList
  else tableLoad f false (x.warp.getD defaultWarp) + tableLoad f false (x.weft.getD [])

def State.settingOf (s : State) (l : LaneId) : Setting := s.lanes[l].setting
def overLoad (f : LaneId → Setting) (twill : Bool) (x : Tables) : Bool := decide (3840 < x.load f twill)

/-! ## Tone plans and converters (R138, R144) -/

/-- The default plans of R138. -/
def defaultEcPlan : TonePlan :=
  { f0 := 100, tones := [⟨1, 100, 0⟩, ⟨10, 100, 0⟩, ⟨100, 100, 0⟩], lead := 1, m := 1, count := 1
    vref := false, floor := 0, fit := true, autostart := false }
def defaultCapPlan : TonePlan :=
  { f0 := 1050000, tones := [⟨1, 2500, 0⟩], lead := 21, m := 21, count := 0
    vref := false, floor := 0, fit := false, autostart := true }

/-- The plan of a port (R137). -/
def State.tonePlan (s : State) (p : PortId) : TonePlan :=
  s.gauze[p].plan.getD (if s.ports[p].mode == .cap then defaultCapPlan else defaultEcPlan)

def Gauze.running (g : Gauze) : Bool := g.phase != .idle

/-- The signals a plan demodulates. -/
def demodSignals (cap vref : Bool) : List Nat := if vref then [0, if cap then 4 else 3] else [0]

/-- R144 for a plan of port p on a set of tables. -/
def Tables.serves (twill cap : Bool) (p : PortId) (pl : TonePlan) (x : Tables) : Bool :=
  (demodSignals cap pl.vref).all fun sig =>
    let named := fun (l : List Entry) => l.any fun e => e.cls == .port && e.port == p && e.sig == sig
    let warp := x.warp.getD defaultWarp
    let weft := x.weft.getD []
    pl.tones.all fun t =>
      let f := t.k * pl.f0
      if twill then
        named x.twill.toList && decide (f * 32 * wrapClocks x.twill.toList ≤ 2 * 61440000000)
      else if named weft then decide (f * 32 * wrapClocks weft ≤ 61440000000)
      else named warp && decide (f * 32 * wrapClocks warp ≤ 61440000000 ∧ f ≤ 2000000)

/-- Some running plan would lose its conditions (R144). -/
def State.gauzeBroken (s : State) (twill : Bool) (x : Tables) : Bool :=
  (List.finRange 16).any fun p =>
    s.gauze[p].running && !x.serves twill (s.ports[p].mode == .cap) p (s.tonePlan p)

/-! ## The reference (R183) -/

/-- 25 ms have passed since it was switched on or came back into regulation. -/
def State.refWarm (s : State) : Bool :=
  s.core.refOn && s.core.railBad[3] == 0 && decide (s.core.refSince.toNat + 1600 ≤ s.core.lt.toNat)

/-- Both converters are held by a departure of VAP, which feeds them (Table 1-3), or by source 10
(R183). -/
def State.convHeld (s : State) : Bool := s.faults.convHeld || s.core.railHeld.getLsbD 0

/-! ## Open slots and swatches (R167, R171, R172) -/

/-- Begin clocks of a table's entries in one wrap. -/
def begins (l : List Entry) : List (Entry × Nat) :=
  l.zipIdx.map fun e => (e.1, wrapClocks (l.take e.2))

/-- The sampling clocks, since LT 0, of the open slots that begin in the tick with LT t (R172); in READY Weft
runs for the request alone, from clock 0 (R173). -/
def State.openSlots (s : State) (t : W64) : List Nat :=
  if s.core.dev = .run then
    let l := s.weftTable
    let w := wrapClocks l
    let c0 := (t - s.seq.weftLt).toNat * 960
    let base := s.seq.weftLt.toNat * 960
    if w = 0 then []
    else
      (List.range (960 / w + 2)).flatMap fun j =>
        let wrap := c0 / w + j
        (begins l).filterMap fun (e, b) =>
          let c := wrap * w + b
          if e.cls = .open_ ∧ c0 ≤ c ∧ c < c0 + 960 then some (base + c + e.acq) else none
  else
    match s.weftTable.find? (·.cls == .open_) with
    | some e => [t.toNat * 960 + e.acq]
    | none => [t.toNat * 960 + 8]

def convIdx : Conv → Fin 2
  | .warp => 0 | .weft => 1
def convTarget : Conv → CalTarget
  | .warp => .warp | .weft => .weft

/-- Length of an electrical calibration in frames (Table 11-4). -/
def targetFrames : CalTarget → Nat
  | .port _ => 72
  | .warp => 100
  | .weft => 100
  | .ref => 10

/-- The gains a converter's table uses. -/
def State.gainsInUse (s : State) (c : Conv) : List (Fin 5) :=
  let l := match c with
    | .warp => s.warpTable
    | .weft => s.weftTable
  (List.finRange 5).filter fun g => l.any fun e => e.gain == g

/-- The gains whose offset and gain a running calibration of the converter measures (R257). -/
def State.gainsUnderCal (s : State) (c : Conv) : List (Fin 5) :=
  match s.cal.runs.find? fun r => r.left.any (0 < ·) && r.target == convTarget c with
  | some r => if r.gain = 0xFF then s.gainsInUse c else [Fin.ofNat 5 r.gain]
  | none => []

/-- ZERO, POS and NEG at each gain in use, and at each gain under calibration, are queued (R167). -/
def queueSwatches (c : Conv) (s : State) : State :=
  let gains := (s.gainsInUse c ++ s.gainsUnderCal c).eraseDups
  s.modSeq fun q => { q with tests := q.tests.set (convIdx c) { q.tests[convIdx c] with
    queue := gains.flatMap fun g => (List.finRange 3).map fun w => (g, w), since := s.core.lt, age := 0 } }

/-! ## Starts (R169, R170) -/

def startWarp (s : State) : State := s.modSeq fun q =>
  { q with warpFrame := s.frame.number, warpTick := s.frame.tick, warpLt := s.core.lt }

/-- A request is dropped (R173). -/
def dropOne (n : SlotId) (st : Status) (s : State) : State :=
  postStatus n st (s.modSeq fun q =>
    { q with dropped := countUp q.dropped 1, urgent := q.urgent.filter (·.slot != n) })

/-- What Weft is restarted with: a request's conversion in progress is discarded, and one that was to begin in
this tick takes the open slot of its place in the new table, if there is one (R170; the status of a request
whose conversion is discarded is a DESIGN CHOICE, log 62). -/
def reassignUrgent (s : State) : State :=
  let fresh := s.seq.urgent.filter fun u => u.taken + 1 == s.core.lt
  let slots := if s.seq.twill then [] else s.openSlots s.core.lt
  let kept := (fresh.zip slots).map fun e => { e.1 with sample := e.2 }
  let s := s.modSeq fun q => { q with urgent := (q.urgent.filter fun u => u.taken == s.core.lt) ++ kept }
  ((s.mbox.pend.filter fun x => x.wait == .urgent && !(s.seq.urgent.any fun u => u.slot == x.slot)).map (·.slot)).foldl
    (fun s n => dropOne n .busy s) s

def startWeft (s : State) : State := reassignUrgent (s.modSeq fun q =>
  { q with weftFrame := s.frame.number, weftTick := s.frame.tick, weftLt := s.core.lt, served := [] })

/-- Weft's self-test waits in its queue; a start with nothing queued begins a cycle. -/
def startTests (s : State) : State :=
  if s.seq.twill || !s.seq.tests[1].queue.isEmpty then s else queueSwatches .weft s

/-- Both converters start in this tick. -/
def startConverters (s : State) : State :=
  startTests (startWeft (startWarp (s.modSeq fun q =>
    { q with running := true, stopped := false, startAsked := false })))

/-- Wraps of a converter since its last start, counted while it runs (R169). -/
def State.warpCount (s : State) : Nat :=
  if s.seq.running then s.since s.seq.warpLt * 960 / max 1 (wrapClocks (s.tableOf .warp)) else s.seq.warpWraps
def State.weftCount (s : State) : Nat :=
  if s.seq.running then s.since s.seq.weftLt * 960 / max 1 (wrapClocks (s.tableOf .weft)) else s.seq.weftWraps

/-- The converters stop; what they were converting is discarded, a training run abandoned (R184), and
the wrap counts stand. -/
def stopConverters (s : State) : State := s.modSeq fun q =>
  { q with running := false, seam := { q.seam with training := none, codes := [] }, witness := none
           warpWraps := s.warpCount, weftWraps := s.weftCount }

def tableLanes (l : List Entry) : List LaneId := l.filterMap (·.lane)

/-- Entry to twill, and a new twill input, start the seam unconverged, from the correction it last held (R179);
staleness by age lasts until a training succeeds (R180). -/
def Seam.enter (x : Seam) : Seam :=
  { x with codes := [], usable := 0, sinceUsable := 0, converged := false, trained := false, convergedDue := false,
           agedDue := false, training := none, failRun := 0, resetLane := false }

/-- New tables apply (R170): a changed converter restarts while running, and the lanes its old and new
tables name are reset. -/
def applyTables (x : Tables) (s : State) : State :=
  let old := s.seq.tables
  let s' := s.modSeq fun q => { q with tables := x }
  if !s.seq.running then s'
  else if s.seq.twill then
    if x.twill = old.twill then s'
    else
      resetLanes .plain (tableLanes (old.twill.toList ++ x.twill.toList))
        (startConverters (s'.modSeq fun q => { q with seam := q.seam.enter }))
  else
    let wOld := old.warp.getD defaultWarp
    let wNew := x.warp.getD defaultWarp
    let fOld := old.weft.getD []
    let fNew := x.weft.getD []
    let s' := if wNew = wOld then s' else resetLanes .plain (tableLanes (wOld ++ wNew)) (startWarp s')
    if fNew = fOld then s' else resetLanes .plain (tableLanes (fOld ++ fNew)) (startWeft s')

/-- The weave mode selected takes over (R174). -/
def enterMode : State → State := State.modSeq fun q =>
  if q.twill = q.twillNext then q
  else { q with twill := q.twillNext, seam := if q.twillNext then q.seam.enter else q.seam }

/-- RUN ends: twill is left, and the mode selected waits for the next RUN (R174). -/
def leaveTwill : State → State := State.modSeq fun q => { q with twill := false }

/-- A weave mode applies (R174): in RUN at this boundary, else from the next entry to RUN; the one in force
already changes nothing. -/
def applyMode (twill : Bool) (s : State) : State :=
  let t := s.seq.tables
  let was := s.seq.twill
  let s := s.modSeq fun q => { q with twillNext := twill }
  if s.core.dev ≠ .run ∨ was = twill then s
  else
    let s := enterMode s
    if s.seq.running then
      resetLanes .plain (tableLanes (s.warpTable ++ s.weftTable ++ t.twill.toList)) (startConverters s)
    else s

/-! ## SEQ.LOAD (R162, R170, R349) -/

/-- A staged object in the payload of a pending load: SEL, number of records, the records. -/
def packLoad (l : List (Nat × List Byte)) : List Byte :=
  l.flatMap fun e => [BitVec.ofNat 8 e.1, BitVec.ofNat 8 (e.2.length / 8)] ++ e.2

/-- The tables after an object is taken. -/
def Tables.take (sel : Nat) (obj : List Byte) (x : Tables) : Tables :=
  let l := (records obj).map parseEntry
  if sel = 0 then { x with warp := some l }
  else if sel = 1 then { x with weft := some l }
  else { x with twill := l.head? }

/-- The tables after at most n packed objects. -/
def unpackLoad : Nat → List Byte → Tables → Tables
  | 0, _, x => x
  | n + 1, p, x =>
    if p.isEmpty then x
    else
      let k := 8 * u8 p 1
      unpackLoad n (p.drop (2 + k)) (x.take (u8 p 0) (slice p 2 k))

def applySeqLoad (p : List Byte) (s : State) : State := applyTables (unpackLoad 3 p s.seq.tables) s

/-- The tables, the weave mode and a lane's setting as the commands already PENDING will leave them. -/
def State.tablesNext (s : State) : Tables :=
  (s.mbox.pend.filter (·.op == 0x0501)).foldl (fun x y => unpackLoad 3 y.payload x) s.seq.tables
def State.twillNext (s : State) : Bool :=
  (s.mbox.pend.filter (·.op == 0x0502)).foldl (fun _ y => u8 y.payload 0 == 1) s.seq.twillNext
def State.settingNext (s : State) (l : LaneId) : Setting :=
  ((s.laneSets l).getLast?.map (·.setting)).getD s.lanes[l].setting

/-- Tables and a weave mode that a SEQ command may not bring: too great a load (R196), or a running plan without
its conditions (R144). -/
def State.chainBusy (s : State) (twill : Bool) (x : Tables) : Bool :=
  overLoad s.settingNext twill x || s.gauzeBroken twill x

/-- The same with the lanes' settings in force, as a boundary finds them. -/
def State.chainBusyNow (s : State) (twill : Bool) (x : Tables) : Bool :=
  overLoad (fun k => s.lanes[k].setting) twill x || s.gauzeBroken twill x

def seqLoadDone (n : SlotId) (sel : Nat) (obj : List Byte) (s : State) : State :=
  match recordsFault obj with
  | some d => badArg n d s
  | none =>
    let held := (s.mbox.staging.filter fun g => g.op == 0x0501 && g.complete && g.sel != sel).map
      fun g => (g.sel, g.data)
    let payload := packLoad (held ++ [(sel, obj)])
    let s := s.modMbox fun m => { m with staging := m.staging.filter fun g => g.op != 0x0501 }
    match held.findSome? fun e => recordsFault e.2 with
    | some _ => badArg n 0 s
    | none =>
      let x := unpackLoad 3 payload s.tablesNext
      if x.broken then badArg n (x.detail sel) s
      else if s.chainBusy s.twillNext x then postStatus n .busy s
      else if s.core.dev = .run then pendBoundary n 0x0501 payload 1 s
      else postStatus n .ok (applySeqLoad payload s)

def seqLoadCmd : ChunkCmd :=
  { op := 0x0501, holdOk := true, selOk := fun k => k < 3
    totalOk := fun sel t =>
      decide (t % 8 = 0 ∧ (if sel = 0 then 8 ≤ t ∧ t ≤ 256 else if sel = 1 then t ≤ 256 else t = 8))
    done := seqLoadDone }

/-- SEQ_LOAD (R170). -/
def execSeqLoad (n : SlotId) (s : State) : Host.Outcome State Fault Refusal :=
  .next (onSlot n 0x0501 (fun p s => chunk seqLoadCmd n p s) s)

/-! ## SEQ.MODE (R174) -/

/-- A plan other than one of the twill input's port with VREF 0 runs (R174). -/
def State.twillBusy (s : State) (x : Tables) : Bool :=
  let tp := x.twill.map (·.port)
  (List.finRange 16).any fun p =>
    s.gauze[p].running && (tp != some p || (s.tonePlan p).vref)

/-- The twill entry can be twilled. -/
def Tables.twillOk (x : Tables) : Bool := x.twill.any fun e => e.cls == .port || e.cls == .internal

/-- A mode is refused, with these tables. -/
def seqModeRefusal (p : List Byte) (x : Tables) (s : State) : Option (Status × Nat) :=
  let tw := u8 p 0 == 1
  if 1 < u8 p 0 then some (.badArg, 0)
  else if tw && !x.twillOk then some (.badArg, 0)
  else if (tw && s.twillBusy x) || s.chainBusy tw x then some (.busy, 0)
  else none

/-- SEQ_MODE (R174). -/
def execSeqMode (n : SlotId) (s : State) : Host.Outcome State Fault Refusal :=
  .next (onSlot n 0x0502 (fun p s =>
    orRefuse n (seqModeRefusal p s.tablesNext s) (fun s =>
      if s.core.dev = .run then pendBoundary n 0x0502 p 1 s
      else postStatus n .ok (applyMode (u8 p 0 == 1) s)) s) s)

/-! ## SEQ.URGENT (R172, R173) -/

/-- The entry a request asks for. -/
def urgentEntry (p : List Byte) : Entry :=
  { cls := entryClass (u8 p 0), port := Fin.ofNat 16 (u8 p 1), sig := u8 p 1 / 16 % 8
    src := u8 p 2, gain := Fin.ofNat 5 (u8 p 3) }

def urgentFault (p : List Byte) (s : State) : Option Nat :=
  let e := urgentEntry p
  if 2 < u8 p 0 then some 0
  else if (if u8 p 0 = 0 then decide ((u8 p 1).testBit 7 ∨ e.sig < 2) || !s.ports[e.port].provides e.sig
      else u8 p 1 != 0) then some 1
  else if (if u8 p 0 = 1 then !internalOk (u8 p 2) else if u8 p 0 = 2 then 3 < u8 p 2
      else u8 p 2 ≠ 0) then some 2
  else if 4 < u8 p 3 then some 3 else none

/-- SEQ_URGENT (R173). -/
def execSeqUrgent (n : SlotId) (s : State) : Host.Outcome State Fault Refusal :=
  .next (onSlot n 0x0503 (fun p s =>
    let drop := fun (s : State) => dropOne n .busy s
    match urgentFault p s with
    | some d => badArg n d s
    | none =>
      if s.seq.twill then drop s
      else if !s.refWarm || s.convHeld then postStatus n .refCold s
      else
        let used := s.seq.urgent.countP fun u => u.taken == s.core.lt
        match (s.openSlots (s.core.lt + 1))[used]? with
        | none => drop s
        | some c => if s.core.dev = .run ∧ !s.seq.running then drop s else
          (s.modSeq fun q => { q with urgent := q.urgent ++ [{ slot := n, taken := s.core.lt, sample := c }] }).modMbox
            fun m => { m with pend := m.pend ++
              [{ slot := n, op := 0x0503, payload := p, wait := .urgent, since := s.core.lt }] }) s)

/-! ## Codes (R160, R161) -/

/-- v G / 1.25 V x 131072, in LSB. -/
def lsb (g : Fin 5) (v : Rat) : Rat := v * ((2 ^ g.val : Nat) : Rat) / (5 / 4) * 131072
/-- A code of 18 bits. -/
def code18 (x : Rat) : Int := satInt 18 (roundRat x)
/-- round(v G / 1.25 V x 131072), limited. -/
def convCode (g : Fin 5) (v : Rat) : Int := code18 (lsb g v)

/-- What an internal channel brings to the converter of its voltage (Table 7-3). -/
def internalScale (k : Nat) : Rat :=
  if k = 0x10 then 1 / 2 else if k = 0x11 then 1 / 4 else if k = 0x12 then 1 / 2 else if k = 0x13 then 1 / 4
  else if k = 0x14 then 1 / 2 else if k = 0x15 then 0 else 1

/-- A swatch in LSB at any gain (Table 7-5); TONE at a phase in turns. -/
def swatchLsb (k : Nat) (turn : Rat) : Rat :=
  131072 * (if k = 0 then 0 else if k = 1 then 4 / 5 else if k = 2 then -4 / 5 else sinTurn turn / 2)

/-- A voltage of port p after the trims of its voltage path (R257). -/
def Port.pathVolts (v : Rat) (q : Port) : Rat := (v - q.offset / 1000000) * (1 - q.gainPpm / 1000000)

/-- What entry e brings to its converter in LSB: the operand, but for what the Rexia puts in its place (R163,
R166). The phase of TONE, which the rule leaves open in plain weave, is a free value (log 3). -/
def State.sourceLsb (s : State) (e : Entry) (v : Rat) : Rat :=
  match e.cls with
  | .port => lsb e.gain (if e.sig < 2 then v else s.ports[e.port].pathVolts v)
  | .internal => lsb e.gain (internalScale e.src * v)
  | .swatch => swatchLsb e.src (Config.tonePhase s.free)
  | .reserved => lsb e.gain v
  | .open_ => 0

/-- The trims of a converter at a gain, in LSB and ppm (R257), and on Weft in twill the seam (R177). -/
def State.trimmed (s : State) (c : Conv) (g : Fin 5) (x : Rat) : Rat :=
  let t := s.cal.conv[convIdx c][g]
  let y := (x - t.1) * (1 - t.2 / 1000000)
  if s.seq.twill && c == .weft then (y - s.seq.seam.trim.offset) * (1 - s.seq.seam.trim.gain) else y

/-- The code of a conversion of entry e (R160); `err` is the converter's own error in LSB. -/
def State.codeOf (s : State) (c : Conv) (e : Entry) (v err : Rat) : Int :=
  code18 (s.trimmed c e.gain (s.sourceLsb e v + err))

/-- A conversion of TONE takes the next free phase. -/
def drawTone (e : Entry) (s : State) : State := if e.cls = .swatch ∧ e.src = 3 then s.drawFree else s

def codeOvr (c : Int) : W16 := flagIf (c == -131072 || c == 131071) Flag.ovr

/-- Off-profile ticks of port p from LT t on. -/
def Heater.offSince (t : W64) (h : Heater) : Bool :=
  match h.lastOff with
  | some o => decide (t.toNat ≤ o.toNat)
  | none => false

/-- Port p is under electrical calibration (R258), up to tick 0 of the boundary that ends it (R244). -/
def State.elecCal (s : State) (p : PortId) : Bool :=
  s.cal.runs.any fun r => r.target == .port p && r.left.any (0 < ·)

/-- Calibration hold (R244); in READY an electrical calibration needs none (R260). -/
def State.calHold (s : State) (p : PortId) : Bool :=
  s.cal.sessions[p].isSome || (s.core.dev == .run && s.elecCal p)

/-- The seam is stale: twill until converged, or aged (R180). -/
def State.seamStale (s : State) : Bool := s.seq.twill && (!s.seq.seam.converged || s.seq.seam.aged)

/-- The conversion is marked by a clip (R98). -/
def State.convNeighbour (s : State) : Bool := s.seq.neighbourTo.any fun t => decide (s.core.lt.toNat ≤ t.toNat)

/-- The settling time in ticks that counts from the target. -/
def Port.settleTicks (q : Port) : Nat := (if q.settleShort then q.shortSettle else q.settle) * 3840000

/-- The settling time has passed (R108). -/
def State.settleDue (s : State) (p : PortId) : Bool :=
  let q := s.ports[p]
  q.settling && match q.settleFrom with
    | some t => decide (q.settleTicks ≤ s.since t)
    | none => false

/-- CELL_SETTLING of what port p begins in this tick: the tick in which the time ends begins clean
(R108). -/
def State.settlingNow (s : State) (p : PortId) : Bool := s.ports[p].settling && !s.settleDue p

/-- CELL_SETTLING of a conversion of port p begun in tick `began` (R108). -/
def State.settlingAt (s : State) (p : PortId) (began : W64) : Bool :=
  let q := s.ports[p]
  s.settlingNow p ||
    (if q.settling then decide (began.toNat < s.core.lt.toNat)
     else q.settledAt.any fun t => decide (began.toNat < t.toNat))

/-- Some tick from LT `from_` on, this one among them, was one of calibration hold (R244). -/
def State.holdFrom (s : State) (p : PortId) (from_ : W64) : Bool :=
  s.calHold p || s.ports[p].heldAt.any fun t => decide (from_.toNat ≤ t.toNat)

/-- A slow tone is applied to port p in this tick (R150). -/
def State.slowTone (s : State) (p : PortId) : Bool :=
  s.gauze[p].running && !s.gauze[p].withheld &&
    (s.tonePlan p).tones.any fun t => decide (t.k * (s.tonePlan p).f0 < 10000)

/-- Some tick from LT `from_` on, this one among them, had one. -/
def State.slowFrom (s : State) (p : PortId) (from_ : W64) : Bool :=
  s.slowTone p || s.gauze[p].slowAt.any fun t => decide (from_.toNat ≤ t.toNat)

/-- The flags of a port's conversions, begun in the tick with LT `from_` (R108, R109, R133, R150, R244). -/
def State.portFlags (s : State) (p : PortId) (sig : Nat) (from_ : W64) : W16 :=
  let q := s.ports[p]
  flagIf (s.settlingAt p from_) Flag.cellSettling ||| flagIf (s.holdFrom p from_) Flag.calHold |||
    flagIf (sig < 2 && s.slowFrom p from_) Flag.gauzeLf |||
    flagIf ((sig == 0 || sig == 2 || sig == 5 || sig == 6) && (q.mode == .mox || q.mode == .irt) &&
      (s.heat[p].offSince from_ || s.heat[p].offProfile s.core.lt)) Flag.heatDev

/-- The flags of a conversion of entry e that is no current signal. -/
def State.convFlags (s : State) (e : Entry) (from_ : W64) : W16 :=
  flagIf s.convNeighbour Flag.neighbourOvr ||| flagIf s.seamStale Flag.seamStale |||
    (if e.cls = .port then s.portFlags e.port e.sig from_ else 0)

/-- URGENT_CONVERSION_DONE (R173): the request posts its code and sampling instant. -/
def execUrgentConversionDone (n : SlotId) (v err : Rat) (s : State) : Host.Outcome State Fault Refusal :=
  .next (
    match s.seq.urgent.find? (·.slot == n), s.mbox.pend.find? (fun x => x.slot == n && x.wait == .urgent) with
    | some u, some x =>
      if (u.sample + 21) / 960 ≤ s.core.lt.toNat then
        let e := urgentEntry x.payload
        let c := s.codeOf .weft e v err
        let fl := codeOvr c ||| s.convFlags e (u.taken + 1)
        let ft := s.countBack (s.core.lt.toNat - u.sample / 960)
        postOk n (toLEInt 4 c ++ toLE 2 fl.toNat ++ toLE 4 ft.1.toNat ++ toLE 2 ft.2 ++
          toLE 2 (u.sample % 960))
          (drawTone e (s.modSeq fun q =>
            { q with urgent := q.urgent.filter (·.slot != n)
                     served := u.sample :: q.served.filter fun c => decide (s.core.lt.toNat ≤ c / 960 + 1) }))
      else s
    | _, _ => s)

/-! ## The converter self-test (R167) -/

def outside01 (c ref : Int) : Bool := decide (ref.natAbs < 1000 * (c - ref).natAbs)

/-- A swatch's code lies outside its limit (Table 7-5). -/
def swatchBad (c : Conv) (g : Fin 5) (w : Fin 3) (code : Int) : Bool :=
  if w = 0 then decide (16 < code.natAbs)
  else if w = 1 then outside01 code (Config.swatchPos c g) else outside01 code (Config.swatchNeg c g)

/-- Sum and number of the codes a calibration of the converter has of each swatch. -/
def ElecRun.addCode (g : Fin 5) (w : Fin 3) (code : Int) (r : ElecRun) : ElecRun :=
  let e := r.codes[g][w]
  { r with codes := r.codes.set g (r.codes[g].set w (e.1 + code, e.2 + 1)) }

/-- The code of the swatch at the head of a converter's queue is kept for its judgement and for a calibration
of that gain in progress. -/
def keepSwatch (c : Conv) (g : Fin 5) (w : Fin 3) (code : Int) (s : State) : State :=
  let s := s.modSeq fun q => { q with tests := q.tests.set (convIdx c) { q.tests[convIdx c] with
    queue := q.tests[convIdx c].queue.tail
    codes := ((g, w), code) :: q.tests[convIdx c].codes.filter (·.1 != (g, w)) } }
  if (s.gainsUnderCal c).contains g then
    s.modCal fun x => { x with runs := x.runs.map fun r =>
      if r.target == convTarget c then r.addCode g w code else r }
  else s

/-- A conversion serves the swatch at the head of the converter's queue (R171, R172). One marked
NEIGHBOUR_OVR is not judged, and the swatch waits for the next (R98). -/
def serveSwatch (c : Conv) (err : Rat) (s : State) : State :=
  match s.seq.tests[convIdx c].queue with
  | [] => s
  | (g, w) :: _ =>
    if s.convNeighbour then s
    else keepSwatch c g w (s.codeOf c { cls := .swatch, src := w.val, gain := g } 0 err) s

/-- Warp's conversions that are not the witness's go on with the self-test: a cycle follows a cycle. -/
def serveWarp (err : Rat) (s : State) : State :=
  serveSwatch .warp err (if s.seq.tests[0].queue.isEmpty then queueSwatches .warp s else s)

/-- A queued swatch takes an open slot of Weft that begins in a tick after it was queued and that no request
has (R172), by the clock of its sampling instant. -/
def serveOpen (began : W64) (clk : Nat) (err : Rat) (s : State) : State :=
  if s.seq.served.contains clk || s.seq.urgent.any (·.sample == clk) then s
  else if began.toNat ≤ s.seq.tests[1].since.toNat then s
  else
    let s := serveSwatch .weft err s
    if s.seq.tests[1].queue.isEmpty && !(s.gainsUnderCal .weft).isEmpty then queueSwatches .weft s else s

/-- Weft's cycle comes round (R167): the model queues it 3000 frames after the last (DESIGN CHOICE, log 66). -/
def weftCycle (s : State) : State :=
  let t := s.seq.tests[1]
  let s := s.modSeq fun q => { q with tests := q.tests.map fun t => { t with age := t.age + 1 } }
  if s.seq.running && !s.seq.twill && t.queue.isEmpty && (decide (3000 ≤ t.age + 1) || !(s.gainsUnderCal .weft).isEmpty) then
    queueSwatches .weft s
  else s

/-- The codes of a cycle at gain g, once all three are there. -/
def SwatchTest.cycle (g : Fin 5) (t : SwatchTest) : Option (List (Fin 3 × Int)) :=
  let l := (List.finRange 3).filterMap fun w => (t.codes.find? fun x => x.1 == (g, w)).map fun x => (w, x.2)
  if l.length = 3 then some l else none

/-- The cycle is judged: the swatches of the gain outside their limits now, and whether one was in the last
cycle too. -/
def SwatchTest.judge (c : Conv) (g : Fin 5) (l : List (Fin 3 × Int)) (t : SwatchTest) : SwatchTest × Bool :=
  let bad := (l.filter fun x => swatchBad c g x.1 x.2).map fun x => (g, x.1)
  ({ t with codes := t.codes.filter (·.1.1 != g), failed := bad ++ t.failed.filter (·.1 != g) },
    bad.any t.failed.contains)

/-- CONVERTER_SELF_TEST (R167): a cycle of ZERO, POS and NEG at a gain is complete; a limit missed in two
consecutive cycles raises the converter's source. Suspended in twill. -/
def execConverterSelfTest (c : Conv) (g : Fin 5) (s : State) : Host.Outcome State Fault Refusal :=
  .next (
    if s.seq.twill || !s.seq.running then s
    else match s.seq.tests[convIdx c].cycle g with
      | none => s
      | some l =>
        let r := s.seq.tests[convIdx c].judge c g l
        let s := s.modSeq fun q => { q with tests := q.tests.set (convIdx c) r.1 }
        if r.2 then raise (if c = .warp then 40 else 41) s else s)

/-! ## The seam (R178 to R181) -/

/-- The part of a tick's codes at frequencies within 1 % of the twill rate of half of it, as sum of squares
over the codes less their mean (R178): the bins of their Fourier transform that lie there. -/
def nearHalf (x : List Rat) : Rat :=
  let n := x.length
  let bins := (List.range n).filter fun (k : Nat) => decide (absRat ((k : Rat) / (n : Rat) - 1 / 2) ≤ 1 / 100)
  (bins.map fun k =>
    let a := (x.zipIdx.map fun e => e.1 * cosTurn ((k * e.2 : Nat) / (n : Rat))).sum
    let b := (x.zipIdx.map fun e => e.1 * sinTurn ((k * e.2 : Nat) / (n : Rat))).sum
    a * a + b * b).sum / n

/-- A tick is usable by the codes of the twill input in it (R178). -/
def usableTick (codes : List Int) : Bool :=
  let n := codes.length
  let mean : Rat := ((codes.sum : Int) : Rat) / (n : Rat)
  let x := codes.map fun (c : Int) => (c : Rat) - mean
  let energy := (x.map fun v => v * v).sum
  decide (0 < n) && decide (((128 * 128 * n : Nat) : Rat) ≤ energy) && decide (10 * nearHalf x ≤ 9 * energy)

/-- The seam at the end of a tick of twill (R178, R179, R180). A usable tick updates the correction: to what,
the spec does not say, and it is a free value within Table 7-8 (log 3). -/
def Seam.tick (usable : Bool) (draw : Nat) (x : Seam) : Seam :=
  let x := { x with codes := [] }
  if usable then
    let n := x.usable + 1
    { x with trim := SeamTrim.limited (Config.seamUpdate draw), usable := n, sinceUsable := 0
             convergedDue := x.convergedDue || (!x.converged && (x.trained || decide (6400 ≤ n))) }
  else
    let k := x.sinceUsable + 1
    { x with sinceUsable := k, agedDue := x.agedDue || (!x.aged && decide (k = 57600000)) }

/-- SEAM_CONVERGED (R179). -/
def execSeamConverged (s : State) : Host.Outcome State Fault Refusal :=
  .next (
    if s.seq.twill && s.seq.seam.convergedDue then
      notice 0x0502 .ordinary 0 (s.modSeq fun q =>
        { q with seam := { q.seam with converged := true, convergedDue := false } })
    else s)

/-- SEAM_STALE_TIMEOUT (R180): only a converged seam becomes stale by age. -/
def execSeamStaleTimeout (s : State) : Host.Outcome State Fault Refusal :=
  .next (
    if s.seq.twill && s.seq.seam.agedDue then
      let was := s.seamStale
      let s := s.modSeq fun q => { q with seam := { q.seam with aged := true, agedDue := false } }
      if was then s else notice 0x0501 .ordinary 0 s
    else s)

/-- SEAM_TRAINING_END (R181): after 64 ticks of TONE the spurs are met, or not. A success ends staleness by
age at once; a seam that has not converged does so with the next usable tick (R179). -/
def execSeamTrainingEnd (spursMet : Bool) (s : State) : Host.Outcome State Fault Refusal :=
  .next (
    match s.seq.seam.training with
    | some t =>
      if 64 ≤ s.since t then
        if spursMet then
          let stale := s.seamStale
          let s := s.modSeq fun q => { q with seam := { q.seam with
            training := none, trained := true, aged := false, sinceUsable := 0, failRun := 0
            resetLane := true } }
          if stale && !s.seamStale then notice 0x0502 .ordinary 0 s else s
        else
          let s' := s.modSeq fun q => { q with seam := { q.seam with
            training := none, fails := min 255 (q.seam.fails + 1), failRun := q.seam.failRun + 1 } }
          if s.seq.seam.failRun + 1 = 16 then
            raise 42 (s'.modSeq fun q => { q with seam := { q.seam with failRun := 0 } })
          else s'
      else s
    | none => s)

/-! ## SEQ.REF, SEQ.START, SEQ.STATUS -/

/-- The reference buffer is switched on. -/
def refEnable : State → State := State.modCore fun c =>
  if c.refOn then c else { c with refOn := true, refSince := c.lt, refEnabled := c.lt }
def refDisable : State → State := State.modCore fun c => { c with refOn := false }

/-- SEQ_REF (R183). -/
def execSeqRef (n : SlotId) (s : State) : Host.Outcome State Fault Refusal :=
  .next (onSlot n 0x0504 (fun p s =>
    if 1 < u8 p 0 then badArg n 0 s
    else if s.core.dev = .run then
      if u8 p 0 = 1 then postStatus n .ok s else postStatus n .wrongState s
    else if u8 p 0 = 1 then postStatus n .ok (refEnable s)
    else postStatus n .ok (refDisable s)) s)

/-- SEQ_START (R184): the resumption itself is REFERENCE_RESUME. -/
def execSeqStart (n : SlotId) (s : State) : Host.Outcome State Fault Refusal :=
  .next (onSlot n 0x0505 (fun p s =>
    if !s.refWarm || s.convHeld then postStatus n .refCold s
    else pendBoundary n 0x0505 p 1 (s.modSeq fun q => { q with startAsked := true })) s)

/-- SEQ.START at its boundary: OK, or REF_COLD if the reference is not warm (R183). Where the converters run it
has nothing to resume, and a later stop asks for a SEQ.START of its own (R184). -/
def applySeqStart (n : SlotId) (s : State) : State :=
  if s.refWarm && !s.convHeld then
    postStatus n .ok (s.modSeq fun q => { q with startAsked := q.startAsked && !q.running })
  else postStatus n .refCold (s.modSeq fun q => { q with startAsked := false })

/-- REFERENCE_RESUME (R184): at a boundary with the reference warm and nothing holding the
converters, by the bolt's setting or an accepted SEQ.START. -/
def State.resumeDue (s : State) : Bool :=
  s.measuring && s.seq.stopped && s.refWarm && !s.convHeld && s.frame.tick == 0 &&
    (s.core.sys.refResume || s.seq.startAsked)

def resumeConversion (s : State) : State := resetAllLanes .applied (startConverters s)

def execReferenceResume (s : State) : Host.Outcome State Fault Refusal :=
  .next (if s.resumeDue then resumeConversion s else s)

/-- The SEQ.STATUS response (Table 16-8). -/
def State.seqStatus (s : State) : List Byte :=
  toLE 4 s.seq.warpFrame.toNat ++ toLE 2 s.seq.warpTick ++
    toLE 4 s.warpCount ++
  toLE 4 s.seq.weftFrame.toNat ++ toLE 2 s.seq.weftTick ++
    toLE 4 s.weftCount ++
  toLE 4 s.seq.dropped.toNat ++ toLE 4 s.seq.lost.toNat ++ toLE 2 s.seq.twillNoWin.toNat ++
  [BitVec.ofNat 8 s.seq.seam.fails, BitVec.ofNat 8 (bits [s.seq.twill, s.seamStale])]

/-- SEQ_STATUS (R354). -/
def execSeqStatus (n : SlotId) (s : State) : Host.Outcome State Fault Refusal :=
  .next (onSlot n 0x0506 (fun p s =>
    if 1 < u8 p 0 then badArg n 0 s
    else
      let s' := postOk n s.seqStatus s
      if u8 p 0 = 1 then
        s'.modSeq fun q => { q with dropped := 0, lost := 0, twillNoWin := 0, seam := { q.seam with fails := 0 } }
      else s') s)

/-! ## WEAVE.SET and WEAVE.STATUS (R201, R204) -/

/-- The decimation of a bypassed stage is 0 or 1, of a stage in use within its range (R188). -/
def decimBad (used : Bool) (lo hi d : Nat) : Bool := if used then d < lo || hi < d else 1 < d

/-- WEAVE.SET's fields: the first at fault (Tables 8-1 and 16-9). -/
def weaveSetFault (p : List Byte) (s : State) : Option Nat :=
  let na := u16 p 8
  let nb := u8 p 12
  if 63 < u8 p 0 then some 0
  else if u8 p 1 ≠ 0xFF ∧ 23 < u8 p 1 then some 1
  else if 1 < u8 p 2 then some 2
  else if u8 p 3 ≠ 0 then some 3
  else if u8 p 1 ≠ 0xFF then firstNonZero p 4 12
  else if 5 < u8 p 4 then some 4
  else if 31 < u8 p 5 then some 5
  else if decimBad (u8 p 4 != 0) 2 256 (u16 p 6) then some 6
  else if 512 < na then some 8
  else if ((s.lanes[laneOf (u8 p 0)].staged.map (·.length)).getD 0) ≠ na + nb then some 8
  else if decimBad (na != 0) 1 32 (u8 p 10) then some 10
  else if 31 < u8 p 11 then some 11
  else if 128 < nb then some 12
  else if decimBad (nb != 0) 1 8 (u8 p 13) then some 13
  else if 31 < u8 p 14 then some 14
  else if u8 p 15 ≠ 0 then some 15 else none

/-- The setting a WEAVE.SET asks for. -/
def weaveSetting (p : List Byte) (coef : List Int) : Setting :=
  if u8 p 1 = 0xFF then
    { weave := none, k := u8 p 4, dc := u16 p 6, sc := u8 p 5, na := u16 p 8, da := u8 p 10
      sa := u8 p 11, nb := u8 p 12, db := u8 p 13, sb := u8 p 14, coef := coef }
  else weave (Fin.ofNat 24 (u8 p 1))

/-- The setting a WEAVE.SET brings its lane; a custom one takes the staged set with it. -/
def takeStaged (n : SlotId) (p : List Byte) (x : Lane) : Lane :=
  let st := weaveSetting p (x.staged.getD [])
  { x with pendSets := x.pendSets.filter (·.slot != n) ++ [{ slot := n, setting := st, ring := u8 p 2 == 1 }]
           staged := if u8 p 1 = 0xFF then none else x.staged }

/-- The load of R196 would be exceeded with a setting of a lane, by what is in force. -/
def State.overLoadWith (s : State) (l : LaneId) (x : Setting) : Bool :=
  overLoad (fun k => if k = l then x else s.lanes[k].setting) s.seq.twillNext s.seq.tables

/-- The setting of the WEAVE.SET in slot n takes effect; the lane is reset (R201). -/
def applyWeaveSet (n : SlotId) (p : List Byte) (s : State) : State :=
  let l := laneOf (u8 p 0)
  match s.lanes[l].pendSets.find? (·.slot == n) with
  | some y =>
    resetLane .plain l (s.modLane l fun x =>
      { x with setting := y.setting, ring := y.ring, pendSets := x.pendSets.filter (·.slot != n) })
  | none => s

/-- WEAVE.SET at its boundary: what the commands before it have left may not bear its load (R196). -/
def applyWeaveSetAt (n : SlotId) (p : List Byte) (s : State) : State :=
  let l := laneOf (u8 p 0)
  if s.lanes[l].pendSets.any fun y => y.slot == n && s.overLoadWith l y.setting then
    postStatus n .busy (s.modLane l fun x => { x with pendSets := x.pendSets.filter (·.slot != n) })
  else postStatus n .ok (applyWeaveSet n p s)

/-- WEAVE_SET (R201): BUSY where the load of R196 would be exceeded. -/
def execWeaveSet (n : SlotId) (s : State) : Host.Outcome State Fault Refusal :=
  .next (onSlot n 0x0601 (fun p s =>
    match weaveSetFault p s with
    | some d => badArg n d s
    | none =>
      let l := laneOf (u8 p 0)
      let st := weaveSetting p (s.lanes[l].staged.getD [])
      if overLoad (fun k => if k = l then st else s.settingNext k) s.twillNext s.tablesNext then
        postStatus n .busy s
      else
        let s := s.modLane l (takeStaged n p)
        if s.core.dev = .run then pendBoundary n 0x0601 p 1 s
        else postStatus n .ok (applyWeaveSet n p s)) s)

/-- WEAVE_STATUS (R204). -/
def execWeaveStatus (n : SlotId) (s : State) : Host.Outcome State Fault Refusal :=
  .next (onSlot n 0x0606 (fun p s =>
    if 63 < u8 p 0 then badArg n 0 s
    else if 1 < u8 p 1 then badArg n 1 s
    else
      let l := laneOf (u8 p 0)
      let x := s.lanes[l]
      let filter : Nat := match x.setting.weave with
        | some w => w.val
        | none => 0xFF
      let s' := postOk n ([BitVec.ofNat 8 filter, boolByte x.ring] ++ toLE 2 x.settleLeft ++
        toLE 2 x.discard ++ toLE 4 x.satCount.toNat ++
        toLE 2 (s.seq.tables.load s.settingOf s.seq.twill) ++ [boolByte s.pins.syncResponse]) s
      if u8 p 1 = 1 then s'.modLane l fun x => { x with satCount := 0 } else s') s)

end Sys2Proof.Machine
end

