-- ==== Sys2Proof/Machine/Heat.lean ====
section
/-!
DEFINITION. Heated sensors (spec/05): plates, profiles and their timeline, the drive and its checks,
features, and the HEAT family.
-/

namespace Sys2Proof.Machine

/-! ## Plates (Table 5-2, R115) -/

/-- R(T) in mOhm at a temperature in degC (R115). -/
def Plate.resistance (t : Rat) (x : Plate) : Rat :=
  let d := t - 25
  (x.r0 : Rat) * (1 + (x.alpha : Rat) / 10000000 * d + (x.beta : Rat) / 1000000000 * d * d)

/-- The roots of R115 for a measured resistance, in degC. -/
def Plate.roots (r : Rat) (x : Plate) : List Rat :=
  if !x.tcr ∨ x.r0 = 0 then []
  else
    let c := r / (x.r0 : Rat) - 1
    let a := (x.alpha : Rat) / 10000000
    let b := (x.beta : Rat) / 1000000000
    if b = 0 then (if a = 0 then [] else [25 + c / a])
    else
      let disc := a * a + 4 * b * c
      if disc < 0 then []
      else [25 + (-a + sqrtRat disc) / (2 * b), 25 + (-a - sqrtRat disc) / (2 * b)]

/-- The temperature nearest the setpoint (R115). -/
def Plate.temperature (r set : Rat) (x : Plate) : Option Rat :=
  (x.roots r).foldl (fun (m : Option Rat) t => match m with
    | none => some t
    | some u => if absRat (t - set) < absRat (u - set) then some t else some u) none

/-- min(2 VDD, 3.6 V) in volts, VDD in mV (R111). -/
def vhtOf (mv : Nat) : Rat := ((min (2 * mv) 3600 : Nat) : Rat) / 1000

/-! ## Profiles (R118, R119) -/

/-- The end of step k on the timeline. -/
def Profile.endOf (k : Nat) (x : Profile) : Nat := ((x.steps.take (k + 1)).map HeatStep.ticks).sum
/-- The step at a position of the timeline. -/
def Profile.stepIndex (pos : Nat) (x : Profile) : Nat :=
  ((List.range x.steps.length).find? fun k => decide (pos < x.endOf k)).getD (x.steps.length - 1)

/-- The first byte at fault in a step record, given the step before (Table 5-3). Step 0 has none, in a LOOP profile
too: RAMP on it is refused (DESIGN CHOICE, log 75). -/
def stepFault (pl : Plate) (prev : Option (List Byte)) (r : List Byte) : Option Nat :=
  let kind := u8 r 0 % 4
  let ticks := if (u8 r 0).testBit 2 then u16 r 4 * 640 else u16 r 4
  let cap := (u8 r 1).testBit 7
  if kind = 3 ∨ (kind = 1 ∧ !pl.tcr) ∨ u8 r 0 / 16 ≠ 0 then some 0
  else if (u8 r 0).testBit 3 ∧
      (pl.coupled ≠ 0 ∨ (prev.map fun q => u8 q 0 % 4) ≠ some kind) then some 0
  else if (u8 r 1).testBit 6 then some 1
  else if kind = 0 ∧ u16 r 2 ≠ 0 then some 2
  else if kind = 1 ∧ 10 * pl.tmax < u16 r 2 then some 2
  else if kind = 2 ∧ 100 * pl.pmax < u16 r 2 then some 2
  else if u16 r 4 = 0 then some 4
  else if (if cap then u8 r 6 = 0 ∨ ticks < u8 r 6 else u8 r 6 ≠ 0) then some 6
  else if u8 r 7 ≠ 0 then some 7 else none

def parseStep (r : List Byte) : HeatStep :=
  { kind := u8 r 0 % 4, inFrames := (u8 r 0).testBit 2, ramp := (u8 r 0).testBit 3
    capture := if (u8 r 1).testBit 7 then some (Fin.ofNat 64 (u8 r 1)) else none
    setpoint := u16 r 2, duration := u16 r 4, span := u8 r 6 }

/-- The first byte at fault in a profile object (Table 16-6). -/
def profileFault (pl : Plate) (o : List Byte) : Option Nat :=
  let n := u8 o 0
  if n = 0 ∨ 64 < n ∨ o.length ≠ 4 + 8 * n then some 0
  else if 2 < u8 o 1 then some 1
  else if 1 < u8 o 2 then some 2
  else if u8 o 3 ≠ 0 then some 3
  else
    let rs := records (o.drop 4)
    rs.zipIdx.findSome? fun (r, k) =>
      let at_ := fun d => 4 + 8 * k + d
      match stepFault pl (if k = 0 then none else rs[k - 1]?) r with
      | some d => some (at_ d)
      | none =>
        let c := (parseStep r).capture
        if c.isSome && (rs.take k).any fun q => (parseStep q).capture == c then some (at_ 1) else none

def parseProfile (o : List Byte) : Profile :=
  { steps := (records (o.drop 4)).map parseStep
    endMode := if u8 o 1 = 0 then .loop else if u8 o 1 = 1 then .onceOff else .onceHold
    autostart := u8 o 2 == 1 }

/-! ## The drive -/

/-- The setpoint in force in a tick, in the unit of SETPOINT: a RAMP step moves it linearly over its loaded
length from that of the step before, which it has in its first tick (R118; the first tick's value is a DESIGN
CHOICE, log 61). A held setpoint is the final one. -/
def Heater.setpointAt (now : W64) (h : Heater) : Rat :=
  match h.inForce, h.profile with
  | some x, some pr =>
    if x.ramp ∧ h.lead.isNone ∧ 0 < h.step ∧ h.run = .running then
      let a : Rat := (pr.stepAt (h.step - 1)).setpoint
      a + ((x.setpoint : Rat) - a) * min x.ticks (now - h.since).toNat / max 1 x.ticks
    else (x.setpoint : Rat)
  | _, _ => 0

/-- What the loop regulates to in a tick (R115, R118): the target resistance in mOhm of a TEMP step, the power
in uW of a POWER step. -/
inductive HeatTarget where
  | off
  | resistance (mOhm : Rat)
  | power (uW : Rat)

def Heater.target (now : W64) (h : Heater) : HeatTarget :=
  match h.inForce with
  | some x =>
    if x.kind = 1 then .resistance (h.plate.resistance (h.setpointAt now / 10))
    else if x.kind = 2 then .power (h.setpointAt now) else .off
  | none => .off

/-- The drive is cut in this tick, which is off-profile if the profile calls for it (R132). -/
def Heater.cut (h : Heater) : Heater := { h with drove := false, probe := false }

/-- The plate can run a step: one without R0 and alpha only POWER and OFF (R114). -/
def Plate.runs (x : Plate) (y : HeatStep) : Bool := x.tcr || y.kind != 1

/-- A fault's hold keeps the driver of port p off (Table 19-1). -/
def State.heatHeld (s : State) (p : PortId) : Bool :=
  s.faults.heatHeld.getLsbD 9 || s.faults.heatHeld.getLsbD 11 || s.faults.heatHeld.getLsbD (36 + p.val / 4)

/-- The part of step k of port p that falls in this frame is refused (R126): a part is known by its place among those
of its step in the frame, whenever it runs. -/
def State.partRefused (s : State) (p : PortId) (k : Nat) : Bool :=
  s.plan.cur.any fun x => x.heatRefused.any fun y => y.port == p && y.step == k && y.nth == s.heat[p].nth

/-- The driver of port p may drive. -/
def State.heatAllowed (s : State) (p : PortId) : Bool :=
  let h := s.heat[p]
  s.measuring && s.ports[p].state == .running && !h.tripped && !s.heatHeld p &&
    !s.therm.heatersOff && !s.core.railHeld.getLsbD 2 && !s.partRefused p h.step &&
    (h.inForce.map h.plate.runs).getD true

/-- The driver's decision for this tick, with its probe tick (R117). -/
def drive (p : PortId) (s : State) : State :=
  let d := s.heat[p].calls && s.heatAllowed p
  s.modHeater p fun h => { h with drove := d, probe := d && !h.before }

/-! ## Starting and ending -/

/-- The step in force ends in the tick before this one: its feature span is fixed, over the ticks it ran
(R131). A setpoint held after an iteration's end is no step. -/
def Heater.close (now : W64) (h : Heater) : Heater :=
  match h.run, h.inForce with
  | .running, some x =>
    match x.capture with
    | some f =>
      let ran := (now - h.since).toNat
      if ran = 0 then h
      else { h with spanEnd := some { feature := f, first := now - BitVec.ofNat 64 (min x.span ran), last := now - 1 } }
    | none => h
  | _, _ => h

/-- A step that captures nothing, for a step whose feature is taken. -/
def HeatStep.taken (x : HeatStep) : HeatStep := { x with capture := none }

/-- The profile of port p starts: its step 0 is due, and begins in this tick unless it is moved (R121, R127). What
has driven until then is the step before it: an OFF step for a stopped drive; a held or lengthened one began when it
did. -/
def Heater.begin (now : W64) (h : Heater) : Heater :=
  let before := match h.run with
    | .stopped => offStep
    | .running => h.inForce.getD offStep
    | .held => (h.inForce.getD offStep).taken
    | .waiting => (h.inForce.getD offStep).taken
  { h with run := .running, step := 0, since := if h.run = .stopped then now else h.since, pos := 0, adj := 0
           lead := some before, due := some 0, iterEnd := false, startNext := false, late := false }

/-- The profile starts, if the port has one its plate can run (R114); a waiting replacement is taken. -/
def startProfile (p : PortId) (s : State) : State :=
  match s.heat[p].nextProfile.or s.heat[p].profile with
  | some pr =>
    if pr.steps.all s.heat[p].plate.runs then
      s.modHeater p fun h => { h.begin s.core.lt with profile := some pr, nextProfile := none }
    else s
  | none => s

/-- The drive ends (R123). A step it cuts takes its feature as it ran (R131). -/
def Heater.stop (now : W64) (h : Heater) : Heater :=
  { h.close now with
    run := .stopped, drove := false, probe := false, due := none, iterEnd := false, lead := none
    startNext := false, late := false, profile := h.nextProfile.or h.profile, nextProfile := none
    openRun := 0, shortRun := 0 }
def stopProfile (p : PortId) (s : State) : State := s.modHeater p (Heater.stop s.core.lt)

/-- A new start restores the drive, unless the trip is still in force (R135). -/
def newStart (p : PortId) : State → State := State.modHeater p fun h => { h with tripped := h.trip.isSome }

/-- A port start starts an autostart profile (R121); a trip in force leaves its drive off (R135). -/
def heatPortStart (p : PortId) (s : State) : State :=
  let s := newStart p s
  match s.heat[p].profile with
  | some pr => if pr.autostart then startProfile p s else s
  | none => s

/-! ## The timeline (R119 to R127) -/

/-- One tick of the timeline: a step falls due, or the iteration ends. A timeline that is not
frame-locked waits while a moved step has not begun; a frame-locked iteration ends at a boundary. -/
def Heater.advance (h : Heater) : Heater :=
  match h.run, h.profile with
  | .running, some pr =>
    if !pr.locked && (h.due.isSome || h.iterEnd) then h
    else
      let pos := h.pos + 1
      if !pr.locked && decide (pr.length ≤ pos) then { h with pos := pos, iterEnd := true }
      else
        let k := pr.stepIndex pos
        { h with pos := pos, due := if k = h.step ∧ h.due.isNone then none else some k }
  | _, _ => h

/-- A window that a plan places for port p covers tick t of its frame. -/
def Plan.covers (t : Nat) (p : PortId) (x : Plan) : Bool :=
  (x.placed[p]).any fun w => decide (w.start ≤ t ∧ t < w.start + w.len)

/-- A window of a coupled port on a guarded range covers tick t of this frame (R127). -/
def State.coupledCover (s : State) (mask : BitVec 16) (t : Nat) : Bool :=
  (List.finRange 16).any fun p =>
    mask.getLsbD p.val && s.plan.cur.any (Plan.covers t p) &&
    (List.finRange s.ports[p].mode.inputs).any fun i =>
      decide ((s.ports[p].inputs.toList.getD i.val { qp := Vector.replicate 8 0, cf := Vector.replicate 8 0 }).range.val
        < s.frame.guarded)

/-- Step k differs from the step in force, so that its start may be moved. -/
def Heater.differs (k : Nat) (h : Heater) : Bool :=
  match h.profile, h.inForce with
  | some pr, some x => (pr.stepAt k).kind != x.kind || (pr.stepAt k).setpoint != x.setpoint
  | _, _ => false

/-- Step k begins in this tick; the steps of the iteration left with no ticks are counted (R122). -/
def Heater.enter (now : W64) (k : Nat) (h : Heater) : Heater :=
  let h := h.close now
  { h with step := k, since := now, due := none, lead := none
           skipped := countUp h.skipped (if h.lead.isSome then k else k - h.step - 1) }

/-- A port has an item deferred (R274): whether that is told, as the first after 100 frames without one or the first
at all, or 6000 frames after the last notice. -/
def PortLedger.defer (x : PortLedger) : PortLedger × Bool :=
  let tell := (x.deferAge.map fun a => decide (101 ≤ a)).getD true ||
    (x.noticeAge.map fun a => decide (6000 ≤ a)).getD true
  ({ x with deferAge := some 0, noticeAge := if tell then some 0 else x.noticeAge }, tell)

/-- The notice of a deferral names the port, the item kind and the cause (R274). -/
def deferralNotice (p : PortId) (kind cause : Nat) (s : State) : State :=
  let a := s.ledger.ports[p].defer
  let s := s.modLedger fun l => { l with ports := l.ports.set p a.1 }
  if a.2 then notice 0x0A01 .ordinary (argB 0 p.val ||| argB 1 kind ||| argB 2 cause) s else s

/-- A planned step that starts in the tick in which SEVERE has switched the heaters off does not drive, and
is counted as deferred for thermal cause (Table 2-3). One that the plan has refused is counted there. -/
def countCut (p : PortId) (s : State) : State :=
  let h := s.heat[p]
  if s.therm.offAt = some s.core.lt ∧ h.run = .running ∧ h.lead.isNone ∧ h.since = s.core.lt ∧ h.calls ∧ !s.partRefused p h.step then
    deferralNotice p 1 0 (s.modLedger fun l =>
      let x := { l.ports[p] with heatThermal := satAdd l.ports[p].heatThermal 1 }
      { l with ports := l.ports.set p x })
  else s

/-- The step due begins unless it is moved (R125 to R127). -/
def beginDue (p : PortId) (s : State) : State :=
  let h := s.heat[p]
  match h.due with
  | some k =>
    if h.differs k && s.coupledCover h.plate.coupled s.frame.tick then s
    else countCut p (drive p (s.modHeater p (Heater.enter s.core.lt k)))
  | none => s

/-- A start outside a boundary: step 0 begins at once, or is moved. -/
def startNow (p : PortId) (s : State) : State := beginDue p (startProfile p s)

/-- HEATER_STEP_START (R125). -/
def execHeaterStepStart (p : PortId) (s : State) : Host.Outcome State Fault Refusal := .next (beginDue p s)

/-- A ONCE_OFF profile has ended; a replacement loaded while it ran starts at the next boundary (R124). -/
def Heater.endOnce (now : W64) (h : Heater) : Heater :=
  { h.stop now with startNext := h.nextProfile.isSome, late := h.late }

/-- Steps of the iteration that have not begun at its end. -/
def Heater.unbegun (pr : Profile) (h : Heater) : Nat :=
  if h.lead.isSome then pr.steps.length else pr.steps.length - 1 - h.step

/-- The iteration of a heater ends in tick t of a frame (R120, R124): true if its replacement starts. -/
def Heater.iterate (now : W64) (t : Nat) (h : Heater) : Heater × Bool :=
  match h.profile with
  | none => (h, false)
  | some pr =>
    let h := { h with iterEnd := false, due := none, skipped := countUp h.skipped (h.unbegun pr) }
    match pr.endMode with
    | .loop =>
      match h.nextProfile with
      | some nx => if nx.locked && t != 0 then ({ h.close now with run := .waiting }, false) else (h, true)
      | none => ({ h with pos := 0, adj := 0, lead := h.inForce, step := 0, due := some 0 }, false)
    | .onceOff => (h.endOnce now, false)
    | .onceHold => ({ h.close now with run := .held }, false)

/-- The iteration of port p has ended: its first step may be moved like any other. -/
def iterate (p : PortId) (s : State) : State :=
  let r := s.heat[p].iterate s.core.lt s.frame.tick
  let s := s.modHeater p fun _ => r.1
  if r.2 then startNow p s else beginDue p s

/-- PROFILE_ITERATION_END (R120). -/
def execProfileIterationEnd (p : PortId) (s : State) : Host.Outcome State Fault Refusal :=
  .next (if s.heat[p].iterEnd then iterate p s else s)

/-- The events of a tick in a heater looked ahead: an iteration ends, a step begins unless it is moved. -/
def Heater.simEvents (now : W64) (t : Nat) (covered : Bool) (h : Heater) : Heater :=
  let h := if h.iterEnd then
      let r := h.iterate now t
      if r.2 then { r.1.begin now with profile := r.1.nextProfile.or r.1.profile, nextProfile := none } else r.1
    else h
  match h.due with
  | some k => if h.differs k && covered then h else h.enter now k
  | none => h

/-- A frame boundary for a heater, the frame just ended having had `len` ticks (R122, R124). -/
def Heater.boundary (len : Nat) (h : Heater) : Heater :=
  let h := { h with limitAge := h.limitAge.map (· + 1) }
  match h.run, h.profile with
  | .running, some pr =>
    if pr.locked then
      let adj := h.adj + len - 640
      if (pr.length : Int) + adj ≤ h.pos then { h with adj := adj, iterEnd := true, due := none }
      else { h with adj := adj }
    else h
  | _, _ => h

/-- The boundary starts a profile of this heater. -/
def Heater.swapDue (h : Heater) : Bool :=
  h.startNext || h.run == .waiting || (h.nextProfile.isSome && (h.run == .held ||
    (h.run == .running && (h.profile.map fun x => x.endMode != .loop).getD false)))

/-- What the boundary starts: a profile asked for, a waiting replacement, the replacement of a ONCE
profile (R121, R124). A replacement loaded after the doorbell of a HEAT.STOP waits for that (R136). -/
def heatBoundary (p : PortId) (s : State) : State :=
  let s := s.modHeater p (Heater.boundary s.frame.lastLen)
  let h := s.heat[p]
  if h.swapDue && !h.late then startProfile p s else s

/-! ## Measurements (R116, R132 to R135) -/

/-- The measured resistance in mOhm: VHS / IHT. -/
def resistanceOf (vhsUv ihtNa : Nat) : Option Rat :=
  if ihtNa = 0 then none else some ((vhsUv : Rat) * 1000000 / ihtNa)

/-- The setpoint in force in degC, for the choice of the root (R115). Where the step in force gives none, a
POWER or OFF step or no step, the spec names no root, and the model takes the one nearest 25 degC (DESIGN
CHOICE, log 61). -/
def Heater.setTemp (now : W64) (h : Heater) : Rat :=
  match h.inForce with
  | some x => if x.kind = 1 then h.setpointAt now / 10 else 25
  | none => 25

/-- What a driver delivers at most (R111): 40 mA, 60 mW and V_max at its current; a measurement never shows
more, and one at a bound names the limit reached. -/
def heatBounded (p : PortId) (vddMv : Nat) (m : HeatSample) : HeatSample × Option HeatLimit :=
  let i := min m.ihtNa 40000000
  let vmax := (max 0 ((vhtOf vddMv - (i : Rat) / 1000000000 * Config.rLoop p) * 1000000)).floor.toNat
  let pmax := if i = 0 then m.vhsUv else 60000000000000 / i
  let v := min m.vhsUv (min vmax pmax)
  ({ m with ihtNa := i, vhsUv := v },
    if i = 40000000 then some .current else if 0 < i ∧ v = pmax then some .power
    else if v = vmax then some .vmax else none)

/-- The checks of Table 5-5 on one measurement in a tick of drive, in the table's order. -/
def heatCheck (p : PortId) (vddMv : Nat) (now : W64) (m : HeatSample) (h : Heater) : Heater :=
  let vmax := vhtOf vddMv - (m.ihtNa : Rat) / 1000000000 * Config.rLoop p
  let open_ := decide (vmax - 1 / 20 ≤ (m.vhsUv : Rat) / 1000000) && decide (m.ihtNa < 500000)
  let r := resistanceOf m.vhsUv m.ihtNa
  let short := h.plate.tcr && (r.map fun (r : Rat) => decide (2 * r < (h.plate.r0 : Rat))).getD false
  let hot := match r.bind fun r => h.plate.temperature r (h.setTemp now) with
    | some t => decide ((h.plate.tmax : Rat) + 10 < t ∨ 510 < t)
    | none => false
  let jump := match r, resistanceOf h.vhsUv h.ihtNa with
    | some a, some b => decide (b < 10 * absRat (a - b)) &&
        decide (100 * ((m.ihtNa : Int) - h.ihtNa).natAbs < h.ihtNa)
    | _, _ => false
  let openRun := if open_ then h.openRun + 1 else 0
  let shortRun := if short then h.shortRun + 1 else 0
  let cause : Option Trip :=
    if open_ && (h.probe || 2 ≤ openRun) then some .openElement
    else if short && (h.probe || 2 ≤ shortRun) then some .shortedElement
    else if hot then some .overtemperature
    else if jump && !h.probe then some .jump else none
  { h with openRun := openRun, shortRun := shortRun, tripDue := h.tripDue.or cause }

/-- The measurement of tick `now` is taken (R111, R116, R134). -/
def Heater.measure (p : PortId) (vddMv : Nat) (now : W64) (x : HeatSample) (h : Heater) : Heater :=
  let m := (heatBounded p vddMv x).1
  let h := if h.drove && h.trip.isNone then heatCheck p vddMv now m h else { h with openRun := 0, shortRun := 0 }
  let lim := if h.drove then (heatBounded p vddMv x).2 else none
  { h with vhsUv := m.vhsUv, ihtNa := m.ihtNa, limit := lim
           limitTicks := if lim.isSome then h.limitTicks + 1 else 0
           limitAge := if lim.isSome then h.limitAge else none }

/-- HEATER_TRIP (R135). -/
def tripCode : Trip → Nat
  | .openElement => 1 | .shortedElement => 2 | .overtemperature => 3 | .jump => 4

def groupSource (base : Nat) (p : PortId) : Source := Fin.ofNat 64 (base + p.val / 4)

def execHeaterTrip (p : PortId) (s : State) : Host.Outcome State Fault Refusal :=
  .next (
    match s.heat[p].tripDue with
    | some c =>
      let s := s.modHeater p fun h => Heater.cut { h with trip := some c, tripped := true, tripDue := none }
      raise (groupSource 36 p) (notice 0x0302 .ordinary (argB 0 p.val ||| argB 1 (tripCode c)) s)
    | none => s)

def limitCode : HeatLimit → Nat
  | .current => 0 | .power => 1 | .vmax => 2

/-- HEATER_LIMIT_NOTICE (R134). -/
def execHeaterLimitNotice (p : PortId) (s : State) : Host.Outcome State Fault Refusal :=
  .next (
    let h := s.heat[p]
    match h.limit with
    | some l =>
      if 64000 ≤ h.limitTicks ∧ (h.limitAge.map fun a => decide (6000 ≤ a)).getD true then
        notice 0x0301 .ordinary (argB 0 p.val ||| argB 1 (limitCode l))
          (s.modHeater p fun h => { h with limitAge := some 0 })
      else s
    | none => s)

/-! ## Features (R131, R133) -/

/-- The results that lie wholly within a span. -/
def SpanEnd.within (x : SpanEnd) (l : List FeatureIn) : List FeatureIn :=
  l.filter fun r => decide (x.first.toNat ≤ r.first.toNat ∧ r.last.toNat ≤ x.last.toNat)

/-- FEATURE_CAPTURE (R131): the mean is passed to the gas engine; none is a missing feature. -/
def execFeatureCapture (p : PortId) (s : State) : Host.Outcome State Fault Refusal :=
  .next (
    match s.heat[p].spanEnd with
    | some x =>
      let rs := x.within s.heat[p].results
      let off := match s.heat[p].lastOff with
        | some o => decide (x.first.toNat ≤ o.toNat)
        | none => false
      let s := s.modHeater p fun h => { h with spanEnd := none }
      if rs.isEmpty then s
      else
        let f : Feature :=
          { value := (rs.map (·.value)).sum / rs.length
            flags := flagUnion (rs.map (·.flags)) ||| flagIf off Flag.heatDev, age := 0 }
        s.modGas fun g =>
          let l := (x.feature, f) :: g.passed[p].filter fun e => e.1 != x.feature || e.2.flags != f.flags
          { g with passed := g.passed.set p l }
    | none => s)

/-! ## The HEAT family (R352) -/

def portNo (k : Nat) : PortId := Fin.ofNat 16 k
/-- The port byte is in range. -/
def portFault (p : List Byte) : Option Nat := if 15 < u8 p 0 then some 0 else none

/-- The codes an ambient source may have: the die sensor, or 1 to 5 of Table 9-3 with a temperature. -/
def ambientFault (code idx : Nat) : Option Nat :=
  if 5 < code then some 30
  else if (if code = 1 then 8 < idx else if 2 ≤ code ∧ code ≤ 4 then 15 < idx else idx ≠ 0) then some 31
  else none

def heatPlateFault (p : List Byte) : Option Nat :=
  let tcr := u8 p 1 == 1
  if 15 < u8 p 0 then some 0
  else if 1 < u8 p 1 then some 1
  else if u16 p 2 < 50 ∨ 500 < u16 p 2 then some 2
  else if !tcr && (firstNonZero p 4 12).isSome then firstNonZero p 4 12
  else if tcr && (u32 p 4 < 5000 || 2000000 < u32 p 4) then some 4
  else if tcr && 100000 < (s32 p 8).natAbs then some 8
  else if tcr && 100000 < (s32 p 12).natAbs then some 12
  else if u16 p 16 = 0 ∨ 600 < u16 p 16 then some 16
  else if u8 p 18 = 0 ∨ 40 < u8 p 18 then some 18
  else if u8 p 19 ≠ 0 then some 19
  else if u32 p 20 = 0 ∨ 5000 < u32 p 20 then some 20
  else if u32 p 24 = 0 ∨ 10000 < u32 p 24 then some 24
  else (ambientFault (u8 p 30) (u8 p 31)).or (firstNonZero p 32 4)

def parsePlate (p : List Byte) : Plate :=
  { tcr := u8 p 1 == 1, tmax := u16 p 2, r0 := u32 p 4, alpha := s32 p 8, beta := s32 p 12
    pmax := u16 p 16, imax := u8 p 18, rth := u32 p 20, tau := u32 p 24
    coupled := BitVec.ofNat 16 (u16 p 28), ambient := u8 p 30, ambientIdx := u8 p 31 }

def applyHeatPlate (p : List Byte) : State → State :=
  State.modHeater (portNo (u8 p 0)) fun h => { h with plate := parsePlate p }

/-- A plate may be set: DISABLED or STOPPED, or RUNNING with no profile running (R114). -/
def State.plateFree (s : State) (p : PortId) : Bool :=
  let st := s.ports[p].state
  st == .disabled || st == .stopped || (st == .running && s.heat[p].run == .stopped)

/-- HEAT_PLATE (R114). -/
def execHeatPlate (n : SlotId) (s : State) : Host.Outcome State Fault Refusal :=
  .next (onSlot n 0x0301 (fun p =>
    orRefuse n ((heatPlateFault p).map (.badArg, ·)) fun s =>
      if s.plateFree (portNo (u8 p 0)) then postStatus n .ok (applyHeatPlate p s)
      else postStatus n .wrongState s) s)

/-- A HEAT.STOP of port p waits for its boundary. -/
def State.stopWaits (s : State) (p : PortId) : Bool :=
  s.mbox.pend.any fun x => x.op == 0x0304 && portNo (u8 x.payload 0) == p

/-- A profile is loaded: double-buffered while one runs (R124). -/
def applyProfile (p : PortId) (pr : Profile) (s : State) : State :=
  s.modHeater p fun h =>
    if h.run = .stopped then { h with profile := some pr }
    else { h with nextProfile := some pr, late := s.stopWaits p }

def heatProfileDone (n : SlotId) (sel : Nat) (o : List Byte) (s : State) : State :=
  let p := portNo sel
  match profileFault s.heat[p].plate o with
  | some d => badArg n d s
  | none => postStatus n .ok (applyProfile p (parseProfile o) s)

def heatProfileCmd : ChunkCmd :=
  { op := 0x0302, selOk := fun k => k < 16
    totalOk := fun _ t => decide (12 ≤ t ∧ t ≤ 516 ∧ t % 8 = 4), done := heatProfileDone }

/-- HEAT_PROFILE (R124). -/
def execHeatProfile (n : SlotId) (s : State) : Host.Outcome State Fault Refusal :=
  .next (onSlot n 0x0302 (fun p s => chunk heatProfileCmd n p s) s)

/-- A profile may be started: the port RUNNING, loaded, no trip in force (R121, R135). A loaded profile with a
TEMP step whose plate has since been left without R0 and alpha is none the plate can run (R114): the start
completes with WRONG_STATE (DESIGN CHOICE, log 61), and so does one without a profile loaded; a loaded profile that a
later HEAT.PLATE puts outside the rest of Table 5-3 still starts, and the port's mode is not asked for (DESIGN CHOICE,
log 75). -/
def State.profileStartable (s : State) (p : PortId) : Bool :=
  s.ports[p].state == .running && s.heat[p].trip.isNone &&
    match s.heat[p].nextProfile.or s.heat[p].profile with
    | some pr => pr.steps.all s.heat[p].plate.runs
    | none => false

/-- HEAT_START (R121, R135). -/
def execHeatStart (n : SlotId) (s : State) : Host.Outcome State Fault Refusal :=
  .next (onSlot n 0x0303 (fun p =>
    orRefuse n ((portFault p).map (.badArg, ·)) fun s =>
      if s.profileStartable (portNo (u8 p 0)) then pendBoundary n 0x0303 p 1 s
      else postStatus n .wrongState s) s)

/-- HEAT.START at its boundary. -/
def applyHeatStart (n : SlotId) (p : List Byte) (s : State) : State :=
  let k := portNo (u8 p 0)
  if s.profileStartable k then postStatus n .ok (startProfile k (newStart k s))
  else postStatus n .wrongState s

/-- HEAT_STOP (R123). -/
def execHeatStop (n : SlotId) (s : State) : Host.Outcome State Fault Refusal :=
  .next (onSlot n 0x0304 (fun p =>
    orRefuse n ((portFault p).map (.badArg, ·)) fun s =>
      if s.ports[portNo (u8 p 0)].state = .running then pendBoundary n 0x0304 p 1 s
      else postStatus n .wrongState s) s)

/-- The HEAT.STATUS response (Table 16-6): temperature and power of the last measurement. Where R115 has no
solution, without R0 and alpha, without current or without a real root, the spec names no temperature, and the
model reports 0 (DESIGN CHOICE, log 61). -/
def Heater.status (now : W64) (h : Heater) : List Byte :=
  let r := resistanceOf h.vhsUv h.ihtNa
  let t := r.bind fun r => h.plate.temperature r (h.setTemp now)
  [if h.trip.isSome then 2 else if h.run = .stopped then 0 else 1, BitVec.ofNat 8 h.step,
    BitVec.ofNat 8 ((h.trip.map tripCode).getD 0), boolByte h.limit.isSome] ++
  toLEInt 2 (satInt 16 (roundRat (10 * t.getD 0))) ++
  toLE 2 (satNat 65535 (roundRat ((h.vhsUv : Rat) * h.ihtNa / 1000000000)).toNat) ++
  toLE 4 (satNat 0xFFFFFFFF (roundRat (r.getD 0)).toNat) ++ toLE 4 h.skipped.toNat

/-- HEAT_STATUS (R352). -/
def execHeatStatus (n : SlotId) (s : State) : Host.Outcome State Fault Refusal :=
  .next (onSlot n 0x0305 (fun p =>
    orRefuse n ((portFault p).map (.badArg, ·)) fun s =>
      postOk n (s.heat[portNo (u8 p 0)].status s.core.lt) s) s)

end Sys2Proof.Machine
end

