-- ==== Sys2Proof/Machine/Gauze.lean ====
section
/-!
DEFINITION. Gauze (spec/06): tone plans, the run of a plan, demodulation results, humidity, and the
GAUZE family. The cell-health fit, which steers adaptation, is in Gas.lean.
-/

namespace Sys2Proof.Machine

/-! ## Plans (R137 to R139) -/

/-- The object of GAUZE.PLAN (Table 16-7). -/
def parseTonePlan (o : List Byte) : TonePlan :=
  { f0 := u32 o 0
    tones := (records (o.drop 16)).map fun r => { k := u16 r 0, amp := u16 r 2, phase := u16 r 4 }
    lead := u8 o 5, m := u16 o 6, count := u16 o 8
    vref := (u8 o 10).testBit 0, fit := (u8 o 10).testBit 1, autostart := (u8 o 10).testBit 2
    floor := Fin.ofNat 8 (u8 o 11) }

def TonePlan.ampSum (x : TonePlan) : Nat := (x.tones.map (·.amp)).sum

/-- A bias code plus and minus sqrt 2 times an rms sum in 0.01 mV stays within 1 V (R139): the bias is
b x 2 V / 32768, so 2 (sum)^2 is compared with the square of the distance to 1 V in 0.01 mV. -/
def biasFits (b : Int) (amp : Nat) : Bool :=
  let room : Rat := 100000 - absRat ((b : Rat) * 200000 / 32768)
  decide (0 ≤ room ∧ 2 * (amp : Rat) * amp ≤ room * room)

/-- The first byte of a tone record at fault. -/
def toneFault (f0 : Nat) (before : List (List Byte)) (r : List Byte) : Option Nat :=
  if u16 r 0 = 0 ∨ 20000000 < u16 r 0 * f0 ∨ before.any (fun q => u16 q 0 == u16 r 0) then some 0
  else if u16 r 2 < 50 ∨ 2500 < u16 r 2 then some 2
  else firstNonZero r 6 2

/-- The first byte of a plan object at fault for a port with this mode and bias (R138, R139). -/
def tonePlanFault (ec : Bool) (bias : Int) (o : List Byte) : Option Nat :=
  let x := parseTonePlan o
  let rs := records (o.drop 16)
  if x.f0 < 10 ∨ 20000000 < x.f0 then some 0
  else if u8 o 4 = 0 ∨ 8 < u8 o 4 ∨ o.length ≠ 16 + 8 * u8 o 4 then some 4
  else if x.m = 0 then some 6
  else if 7 < u8 o 10 then some 10
  else if x.fit && (!ec || u8 o 4 < 3) then some 10
  else if 7 < u8 o 11 then some 11
  else match firstNonZero o 12 4 with
    | some d => some d
    | none =>
      match rs.zipIdx.findSome? fun (r, k) => (toneFault x.f0 (rs.take k) r).map (· + 16 + 8 * k) with
      | some d => some d
      | none => if 2500 < x.ampSum ∨ (ec ∧ !biasFits bias x.ampSum) then some 18 else none

/-! ## The run (R142 to R147) -/

/-- Base periods gone since the start tick. -/
def Gauze.periods (now : W64) (f0 : Nat) (g : Gauze) : Nat := (now - g.start).toNat * f0 / 64000000

/-- Demodulator channels a plan takes (R145). -/
def TonePlan.channels (x : TonePlan) : Nat := x.tones.length * (if x.vref then 2 else 1)

/-- Channels in use by running plans but for that of port p. -/
def State.channelsUsed (s : State) (but : Option PortId) : Nat :=
  ((List.finRange 16).map fun p =>
    if s.gauze[p].running ∧ but ≠ some p then (s.tonePlan p).channels else 0).sum

/-- Why a start is refused: 0 the conditions of R144, 1 too few channels (R145). -/
def State.gauzeRefusal (s : State) (p : PortId) : Option Nat :=
  let pl := s.tonePlan p
  if !s.seq.tables.serves s.seq.twill (s.ports[p].mode == .cap) p pl then some 0
  else if s.seq.twill && ((s.seq.tables.twill.map (·.port)) != some p || pl.vref) then some 0
  else if 64 < s.channelsUsed (some p) + pl.channels then some 1
  else none

def Mode.hasGauze (m : Mode) : Bool := m == .ec4 || m == .ec3 || m == .cap

/-- An integration has begun k ticks from now. -/
def State.integrating (s : State) (k : Nat) (p : PortId) : Bool :=
  let g := s.gauze[p]
  g.phase == .integ && decide (g.intStart ≤ g.periods (s.core.lt + BitVec.ofNat 64 k) (s.tonePlan p).f0)

/-- The integration in progress has ended k ticks from now. -/
def State.integrationOver (s : State) (k : Nat) (p : PortId) : Bool :=
  let g := s.gauze[p]
  let pl := s.tonePlan p
  decide (g.intStart + pl.m ≤ g.periods (s.core.lt + BitVec.ofNat 64 k) pl.f0)

/-- An integration of the plan has ended, and its results are due (R148). -/
def State.integrationDone (s : State) (p : PortId) : Bool :=
  let g := s.gauze[p]
  g.phase == .integ && s.integrationOver 0 p &&
    decide ((s.tonePlan p).count = 0 ∨ g.serial < (s.tonePlan p).count)

/-- An integration is discarded; the next begins at base period n of the run (R147). -/
def Gauze.discard (n : Nat) (g : Gauze) : Gauze :=
  { g with discarded := countUp g.discarded 1, rhAge := g.rhAge + 1, intStart := n, spoilt := false
           charge := [], volts := [] }

/-- What happens k ticks from now discards the integration it falls within; the next begins at the base-period boundary
after it (R147). Where one has ended by then, it is the one that begins as that ends. -/
def gauzeDiscardFor (k : Nat) (p : PortId) (s : State) : State :=
  let pl := s.tonePlan p
  let g := s.gauze[p]
  if !s.integrating k p then s
  else if s.integrationOver k p then s.modGauzeAt p fun g => { g with spoilt := true }
  else s.modGauzeAt p (Gauze.discard (g.periods (s.core.lt + BitVec.ofNat 64 k) pl.f0 + 1))
def gauzeDiscard (p : PortId) : State → State := gauzeDiscardFor 0 p

/-- A bias ramp, withheld excitation or an electrical calibration falls within this tick (R147, R264). -/
def State.gauzeSpoils (s : State) (p : PortId) : Bool :=
  (s.ports[p].ramping && s.ports[p].driven) || s.gauze[p].withheld || s.elecCal p

/-- The run of a plan. -/
def Gauze.run (g : Gauze) : GauzeRun :=
  { start := g.start, intStart := g.intStart, serial := g.serial, charge := g.charge, volts := g.volts }

/-- The run is over in this tick: an integration that has just ended keeps its results, any other in progress is
discarded (R147, R148). -/
def closeRun (p : PortId) (s : State) : State :=
  if s.integrationDone p then s.modGauzeAt p fun g => { g with ended := some g.run } else gauzeDiscard p s

/-- The plan starts in this tick (R142). A GAUZE.STOP whose fall this cuts short has ended its run. -/
def beginGauze (p : PortId) (s : State) : State :=
  let pl := s.tonePlan p
  let now := s.core.lt
  let s := (closeRun p s).modGauzeAt p fun g =>
    { g with phase := if pl.lead = 0 then .integ else .lead, start := now
             spoilt := false, charge := [], volts := []
             intStart := pl.lead, withheld := false, serial := 0, fallFrom := 0 }
  completeWhere (·.wait == .gauzeFall p) .ok s

/-- A start is skipped: counted and reported, with its cause (R144, R145). -/
def skipGauze (p : PortId) (cause : Nat) (s : State) : State :=
  notice 0x0401 .ordinary (argB 0 p.val ||| argB 1 cause)
    (s.modGauzeAt p fun g => { g with skipped := countUp g.skipped 1 })

/-- An autostart or triggered start: skipped if refused. -/
def tryGauze (p : PortId) (s : State) : State :=
  match s.gauzeRefusal p with
  | some c => skipGauze p c s
  | none => beginGauze p s

/-- With the port, if AUTOSTART is 1 (R142). -/
def gauzePortStart (p : PortId) (s : State) : State :=
  if s.ports[p].mode.hasGauze && (s.tonePlan p).autostart then tryGauze p s else s

/-- The plan ends at once, without the fall (R147, R158). A pending GAUZE.STOP has then nothing left to
stop: excitation has reached zero (R143). -/
def endGauze (p : PortId) (s : State) : State :=
  let s := (closeRun p s).modGauzeAt p fun g => { g with phase := .idle, withheld := false }
  completeWhere (·.wait == .gauzeFall p) .ok s

/-- GAUZE_LEAD_IN_END (R142). -/
def execGauzeLeadInEnd (p : PortId) (s : State) : Host.Outcome State Fault Refusal :=
  .next (
    let g := s.gauze[p]
    if g.phase = .lead ∧ (s.tonePlan p).lead ≤ g.periods s.core.lt (s.tonePlan p).f0 then
      s.modGauzeAt p fun g => { g with phase := .integ }
    else s)

/-! ## Excitation (R140, R143) -/

/-- Frequency of a tone in Hz. -/
def toneHz (f0 k : Nat) : Rat := ((f0 * k : Nat) : Rat) / 1000

/-- v(t) of R140 in volt, t in clocks since the sampling instant of the start tick. -/
def TonePlan.wave (t : Rat) (x : TonePlan) : Rat :=
  sqrtRat 2 * (x.tones.map fun y =>
    (y.amp : Rat) / 100000 * sinTurn (toneHz x.f0 y.k * t / 61440000 + (y.phase : Rat) / 65536)).sum

/-- The part of its amplitude a tone has at a clock of the fall (R143): linear to zero over 64 ticks. -/
def fallFactor (from_ : W64) (clk : Rat) : Rat :=
  max 0 (1 - (clk - (from_.toNat * 960 : Nat)) / 61440)

/-- Base-period boundary n of a run that began at a tick, in clocks since LT 0. -/
def Gauze.periodClock (f0 n : Nat) (g : Gauze) : Rat :=
  (g.start.toNat * 960 : Nat) + (n : Rat) * 61440000000 / f0

/-- The base period with which COUNT integrations have completed, if none to come is discarded. -/
def Gauze.lastPeriod (pl : TonePlan) (g : Gauze) : Nat := g.intStart + pl.m * (pl.count - g.serial)

/-- What the plan of port p adds to the port's drive at a clock since LT 0 (R140): on an EC port to the bias
between WE and RE, on a CAP port on P<n>_D against P<n>_A. None in a frame that withholds it (R273), nor from the
base-period boundary at which the last integration has ended (R142). -/
def State.excitation (s : State) (p : PortId) (clk : Rat) : Rat :=
  let g := s.gauze[p]
  let pl := s.tonePlan p
  if !g.running || g.withheld then 0
  else if g.phase = .integ ∧ 0 < pl.count ∧ g.periodClock pl.f0 (g.lastPeriod pl) ≤ clk then 0
  else
    (if g.phase = .fall then fallFactor g.fallFrom clk else 1) *
      (s.tonePlan p).wave (clk - (g.start.toNat * 960 : Nat))

/-- The voltage the port drives in volt: WE against RE of an EC port, P<n>_D against P<n>_A of a CAP port. -/
def State.driveVolts (s : State) (p : PortId) (clk : Rat) : Rat :=
  (if s.ports[p].mode.isEc then s.ports[p].applied / 1000000 else 0) + s.excitation p clk

/-! ## Tone results (R146, R148) -/

/-- The conversions of the integration in progress, oldest first. -/
def Gauze.within (pl : TonePlan) (g : Gauze) (l : List Demod) : List Demod :=
  (l.filter fun x => decide (g.periodClock pl.f0 g.intStart ≤ x.clk ∧
    x.clk < g.periodClock pl.f0 (g.intStart + pl.m))).reverse

/-- What is left of a signal without the straight line of the DC current: the line through its first and its
last conversion, between which every tone has gone through whole periods (DESIGN CHOICE, log 14: the rule
does not say how the line is drawn). -/
def straightened (l : List Demod) : List (Rat × Rat) :=
  match l.head?, l.getLast? with
  | some a, some b =>
    let slope := if b.clk = a.clk then 0 else (b.x - a.x) / (b.clk - a.clk)
    l.map fun x => (x.clk, x.x - a.x - slope * (x.clk - a.clk))
  | _, _ => []

/-- The rms phasor of a tone in a signal (R146): the sums with its sine and cosine, t from the start of the
excitation. -/
def tonePhasor (start : W64) (f : Rat) (l : List Demod) : Cplx :=
  let r := (straightened l).map fun x => (f * (x.1 - (start.toNat * 960 : Nat)) / 61440000, x.2)
  Cplx.scale (sqrtRat 2 / ((max 1 l.length : Nat) : Rat))
    ((r.map fun x => x.2 * sinTurn x.1).sum, (r.map fun x => x.2 * cosTurn x.1).sum)

/-- The current phasor, j 2 pi f times the charge phasor. -/
def toneCurrent (f : Rat) (q : Cplx) : Cplx := (-(2 * pi * f * q.2), 2 * pi * f * q.1)

/-- The commanded tone corrected by the factory transfer of the potentiostat. -/
def commandedTone (p : PortId) (f0 : Nat) (x : Tone) : Cplx :=
  Cplx.mul (Cplx.polar ((x.amp : Rat) / 100000) ((x.phase : Rat) / 65536)) (Config.toneTransfer p (f0 * x.k))

/-- What an integration has found of a tone: its frequency, current and voltage. -/
structure Found where
  f : Rat
  i : Cplx
  v : Cplx

def State.toneFound (s : State) (p : PortId) (g : Gauze) (x : Tone) : Found :=
  let pl := s.tonePlan p
  let f := toneHz pl.f0 x.k
  { f, i := toneCurrent f (tonePhasor g.start f (g.within pl g.charge))
    v := if pl.vref then tonePhasor g.start f (g.within pl g.volts) else commandedTone p pl.f0 x }

/-- An angle in turns in 0.01 degree. -/
def centiDegrees (t : Rat) : Int := satInt 16 (roundRat (t * 36000))

/-- Z = V / I as a tone result. -/
def toneResult (p : PortId) (pl : TonePlan) (serial : Nat) (fl : W16) (x : Tone) (y : Found) : ToneResult :=
  let z := Cplx.div y.v y.i
  let r := if y.i.norm2 = 0 then Config.openTone p x.k
    else (F32.sqrtOf z.norm2, centiDegrees (angleTurn z.1 z.2))
  { zmag := r.1, zph := r.2, k := x.k, imag := F32.sqrtOf y.i.norm2
    serial := serial, flags := fl, measured := pl.vref }

/-- The flags a tone result can carry (R148). -/
def toneFlags (w : W16) : W16 :=
  w &&& (Flag.neighbourOvr ||| Flag.cellSettling ||| Flag.calHold ||| Flag.seamStale)

/-- The flags of the conversions of the integration in progress. -/
def Gauze.integrationFlags (pl : TonePlan) (g : Gauze) : W16 :=
  toneFlags (flagUnion ((g.within pl (g.charge ++ g.volts)).map (·.flags)))

def ToneResult.bytes (x : ToneResult) : List Byte :=
  toLE 4 x.zmag.toNat ++ toLEInt 2 x.zph ++ toLE 2 x.k ++ toLE 4 x.imag.toNat ++
    toLE 2 (x.serial % 65536) ++ [flagsByte x.flags, boolByte x.measured]

/-- The engine with another run. -/
def Gauze.withRun (r : GauzeRun) (g : Gauze) : Gauze :=
  { g with start := r.start, intStart := r.intStart, serial := r.serial, charge := r.charge, volts := r.volts }

/-- A conversion enters a run: whether it is the reference signal, and the charge or the voltage. -/
def GauzeRun.take (ref : Bool) (x : Demod) (r : GauzeRun) : GauzeRun :=
  if ref then { r with volts := x :: r.volts } else { r with charge := x :: r.charge }

/-- A conversion of a signal the plan of port p demodulates enters the run in progress, and one whose results are still
to come. -/
def State.demodulate (s : State) (p : PortId) (ref : Bool) (x : Demod) : State :=
  let g := s.gauze[p]
  let pl := s.tonePlan p
  let s := s.modGauzeAt p fun g => { g with ended := g.ended.map (GauzeRun.take ref x) }
  if (g.phase = .integ ∨ g.phase = .lead) ∧ g.periodClock pl.f0 g.intStart ≤ x.clk then
    s.modGauzeAt p fun g => g.withRun (g.run.take ref x)
  else s

/-! ## Humidity (R156) -/

/-- The lowest tone. -/
def TonePlan.lowest (x : TonePlan) : Option Tone :=
  x.tones.foldl (fun m y => match m with
    | some z => if y.k < z.k then some y else some z
    | none => some y) none

/-- C in farad from the admittance Y = G + j 2 pi f C. -/
def toneCapacitance (p : PortId) (y : Found) : Rat :=
  (if y.v.norm2 = 0 then Config.openAdmittance p else (Cplx.div y.i y.v).2) / (2 * pi * y.f)

/-- RH in 0.01 %RH at a capacitance and the port's temperature. -/
def humidity (cap : List F32) (temp c : Rat) : Nat :=
  let h := fun (k : Nat) => F32.toRat (cap.getD k 0)
  let dc := c - h 0
  let rh := h 1 + h 2 * dc + h 3 * dc * dc + h 4 * (temp - 25)
  (max 0 (min 10000 (roundRat (rh * 100)))).toNat

/-- The engine's temperature of a port: 25 degC while there is none, and from the source none (code 0x7), whose
difference is zero (R211). -/
def State.portTemp (s : State) (p : PortId) : Rat :=
  let e := s.gas.envT[p]
  if e.absent then 25 else (e.last.map F32.toRat).getD 25

/-- The results of the integration with which a run stands (R148, R156). -/
def takeResults (p : PortId) (r : GauzeRun) (s : State) : State :=
  let pl := s.tonePlan p
  let g := (s.gauze[p]).withRun r
  let fl := g.integrationFlags pl
  let cap := s.ports[p].mode == .cap
  let found := pl.tones.map fun x => (x, s.toneFound p g x)
  let rh := pl.lowest.map fun x => humidity g.cap (s.portTemp p) (toneCapacitance p (s.toneFound p g x))
  s.modGauzeAt p fun g => { g with
    results := found.map fun e => toneResult p pl (r.serial + 1) fl e.1 e.2, resultsF0 := pl.f0
    completed := countUp g.completed 1, fitDue := g.fitDue || pl.fit
    rh := if cap then (rh.map (·, fl)).or g.rh else g.rh
    rhAge := if cap then 0 else g.rhAge, rhNew := g.rhNew || cap }

/-- An integration completes; the next is discarded where what has happened falls within it (R147). -/
def completeIntegration (p : PortId) (s : State) : State :=
  let pl := s.tonePlan p
  let g := s.gauze[p]
  let next := g.periods s.core.lt pl.f0 + 1
  let later := fun (l : List Demod) => l.filter fun x => decide (g.periodClock pl.f0 (g.intStart + pl.m) ≤ x.clk)
  (takeResults p g.run s).modGauzeAt p fun g =>
    let again := g.spoilt
    let g := { g with spoilt := false, serial := g.serial + 1, charge := later g.charge, volts := later g.volts
                      intStart := g.intStart + pl.m }
    if again && (pl.count == 0 || decide (g.serial < pl.count)) then g.discard next else g

/-- GAUZE_INTEGRATION_END (R148): also of a run that the tick's boundary has ended. -/
def execGauzeIntegrationEnd (p : PortId) (s : State) : Host.Outcome State Fault Refusal :=
  .next (
    let s := match s.gauze[p].ended with
      | some r => (takeResults p r s).modGauzeAt p fun g => { g with ended := none }
      | none => s
    if s.integrationDone p then completeIntegration p s else s)

/-- GAUZE_PLAN_END (R142): the excitation ends at the boundary where the last integration ends. -/
def execGauzePlanEnd (p : PortId) (s : State) : Host.Outcome State Fault Refusal :=
  .next (
    let pl := s.tonePlan p
    if s.gauze[p].phase = .integ ∧ 0 < pl.count ∧ pl.count ≤ s.gauze[p].serial then
      s.modGauzeAt p fun g => { g with phase := .idle, withheld := false }
    else s)

/-- The excitation has ended with COUNT integrations, or ends in this tick (R142). -/
def Gauze.endsNow (now : W64) (pl : TonePlan) (g : Gauze) : Bool :=
  (g.phase == .integ || g.phase == .lead) && decide (0 < pl.count) &&
    (decide (pl.count ≤ g.serial) || decide (g.lastPeriod pl ≤ g.periods now pl.f0))

/-- GAUZE_FALL_END (R143). -/
def execGauzeFallEnd (p : PortId) (s : State) : Host.Outcome State Fault Refusal :=
  .next (
    if s.gauze[p].phase = .fall ∧ 64 ≤ s.since s.gauze[p].fallFrom then endGauze p s else s)

/-- The lower bound of I1's range while a plan runs, no longer in the plan of the frame in whose tick 0 it has ended
(R151). -/
def State.rangeFloor (s : State) (p : PortId) (i : Fin 2) : Fin 8 :=
  let x := s.ports[p].inputs[i]
  if i = 0 ∧ s.gauze[p].running ∧ !s.gauze[p].endsNow s.core.lt (s.tonePlan p) then
    let f := if x.lo < (s.tonePlan p).floor then (s.tonePlan p).floor else x.lo
    if x.hi < f then x.hi else f
  else x.lo

/-! ## The GAUZE family (R353) -/

def gauzePlanDone (n : SlotId) (sel : Nat) (o : List Byte) (s : State) : State :=
  let p := portNo sel
  let q := s.ports[p]
  if !q.mode.hasGauze then badArg n 0 s
  else match tonePlanFault q.mode.isEc q.bias o with
    | some d => badArg n d s
    | none => if s.gauze[p].running then postStatus n .wrongState s else postStatus n .ok (s.modGauzeAt p fun g => { g with plan := some (parseTonePlan o) })

def gauzePlanCmd : ChunkCmd :=
  { op := 0x0401, selOk := fun k => k < 16
    totalOk := fun _ t => decide (24 ≤ t ∧ t ≤ 80 ∧ t % 8 = 0), done := gauzePlanDone }

/-- GAUZE_PLAN (R137). -/
def execGauzePlan (n : SlotId) (s : State) : Host.Outcome State Fault Refusal :=
  .next (onSlot n 0x0401 (fun p s => chunk gauzePlanCmd n p s) s)

/-- A GAUZE.START is refused now: the conditions of R144 come before the port's state, and the channels after it
(R346). -/
def gauzeStartRefusal (p : PortId) (s : State) : Option (Status × Nat) :=
  let why := s.gauzeRefusal p
  if s.ports[p].mode.hasGauze && why == some 0 then some (.badArg, 0)
  else if !(s.ports[p].measures && s.ports[p].mode.hasGauze) then some (.wrongState, 0)
  else why.map fun _ => (.busy, 0)

/-- A frame boundary has passed since a doorbell was taken: 1, else 0 (R345 leaves time for no second). -/
def State.boundariesSince (s : State) (rung : W64) : Nat := boolNat (decide (s.frame.tick < s.since rung))

/-- GAUZE_START (R142): at the second boundary after the doorbell. -/
def execGauzeStart (n : SlotId) (s : State) : Host.Outcome State Fault Refusal :=
  .next (onSlot n 0x0402 (fun p =>
    orRefuse n ((portFault p).map (.badArg, ·)) fun s =>
      orRefuse n (gauzeStartRefusal (portNo (u8 p 0)) s)
        (fun s => pendBoundary n 0x0402 p (2 - s.boundariesSince s.mbox.slots[n].rung) s) s) s)

/-- GAUZE.START at its boundary. -/
def applyGauzeStart (n : SlotId) (p : List Byte) (s : State) : State :=
  let k := portNo (u8 p 0)
  orRefuse n (gauzeStartRefusal k s) (fun s => postStatus n .ok (beginGauze k s)) s

/-- GAUZE_STOP (R143): for a plan that runs. -/
def execGauzeStop (n : SlotId) (s : State) : Host.Outcome State Fault Refusal :=
  .next (onSlot n 0x0403 (fun p =>
    orRefuse n ((portFault p).map (.badArg, ·)) fun s =>
      if s.gauze[portNo (u8 p 0)].running then pendBoundary n 0x0403 p 1 s
      else postStatus n .wrongState s) s)

/-- GAUZE.STOP at its boundary: the fall begins, and the command waits for its end; a plan that has
ended or ends there needs none (R158). -/
def applyGauzeStop (n : SlotId) (p : List Byte) (s : State) : State :=
  let k := portNo (u8 p 0)
  if s.gauze[k].running && !s.gauze[k].endsNow s.core.lt (s.tonePlan k) then
    let s := closeRun k s
    (s.modGauzeAt k fun g => if g.phase = .fall then g else { g with phase := .fall, fallFrom := s.core.lt }).modMbox
      fun m => { m with pend := m.pend.map fun x => if x.slot = n then { x with wait := .gauzeFall k } else x }
  else postStatus n .ok s

def gauzeReadFault (p : List Byte) : Option Nat :=
  if 15 < u8 p 0 then some 0 else if 7 < u8 p 1 ∧ u8 p 1 ≠ 0xFF then some 1 else none

/-- GAUZE_READ (R148). -/
def execGauzeRead (n : SlotId) (s : State) : Host.Outcome State Fault Refusal :=
  .next (onSlot n 0x0404 (fun p =>
    orRefuse n ((gauzeReadFault p).map (.badArg, ·)) fun s =>
      let g := s.gauze[portNo (u8 p 0)]
      if u8 p 1 = 0xFF then
        postOk n (match g.rh with
          | some (v, fl) => toLE 2 v ++ toLE 2 fl.toNat ++ toLE 2 (satNat 65535 g.rhAge)
          | none => []) s
      else postOk n (((g.results[u8 p 1]?).map ToneResult.bytes).getD []) s) s)

def Health.bytes (x : Health) : List Byte :=
  toLE 4 x.cell.rs.toNat ++ toLE 4 x.cell.rct.toNat ++ toLE 4 x.cell.cdl.toNat ++ toLE 2 x.hi ++
    toLE 2 (satNat 65535 x.residual) ++ toLE 2 x.flags.toNat ++ [BitVec.ofNat 8 x.status.val]

/-- GAUZE.HEALTH's port, operation and reserved bytes. -/
def gauzeHealthFault (p : List Byte) : Option Nat :=
  if 15 < u8 p 0 then some 0 else if 2 < u8 p 1 then some 1 else firstNonZero p 2 2

/-- GAUZE_HEALTH (R155): operation 0, and the refusal of an operation the table does not have. A port that has had no
fit answers zeros with status 3, no reference (DESIGN CHOICE, log 75). -/
def execGauzeHealth (n : SlotId) (s : State) : Host.Outcome State Fault Refusal :=
  .next (onSlot n 0x0405 (fun p s =>
    if u8 p 1 = 1 ∨ u8 p 1 = 2 then s
    else match gauzeHealthFault p with
      | some d => badArg n d s
      | none => postOk n ((s.gauze[portNo (u8 p 0)].health.getD {}).bytes) s) s)

/-- The first of some single precision fields that breaks a test. -/
def floatFault (offs : List Nat) (ok : F32 → Bool) (p : List Byte) : Option Nat :=
  offs.find? fun o => !(F32.finite (f32At p o) && ok (f32At p o))

/-- References are positive (R154 takes their logarithm). -/
def healthRefsFault (p : List Byte) : Option Nat :=
  (gauzeHealthFault p).or (floatFault [4, 8, 12] (fun x => 0 < F32.toRat x) p)

/-- GAUZE_HEALTH_SET_REFERENCES (R154). -/
def execGauzeHealthSetReferences (n : SlotId) (s : State) : Host.Outcome State Fault Refusal :=
  .next (onSlot n 0x0405 (fun p s =>
    if u8 p 1 = 1 then
      match healthRefsFault p with
      | some d => badArg n d s
      | none => postStatus n .ok (s.modGauzeAt (portNo (u8 p 0)) fun g =>
          { g with refs := some { rs := f32At p 4, rct := f32At p 8, cdl := f32At p 12 }, refsWanted := false })
    else s) s)

/-- Spread factors lie from 1.1 to 10.0, the threshold within HI (R154). -/
def healthSpreadsFault (p : List Byte) : Option Nat :=
  (gauzeHealthFault p).or <|
    (floatFault [4, 8, 12] (fun x => F32.le 0x3F8CCCCD x && F32.le x 0x41200000) p).or
      (if 1000 < u16 p 16 then some 16 else none)

/-- GAUZE_HEALTH_SET_SPREADS (R154). -/
def execGauzeHealthSetSpreads (n : SlotId) (s : State) : Host.Outcome State Fault Refusal :=
  .next (onSlot n 0x0405 (fun p s =>
    if u8 p 1 = 2 then
      match healthSpreadsFault p with
      | some d => badArg n d s
      | none => postStatus n .ok (s.modGauzeAt (portNo (u8 p 0)) fun g =>
          { g with spread := { rs := f32At p 4, rct := f32At p 8, cdl := f32At p 12 }, threshold := u16 p 16 })
    else s) s)

def GauzePhase.code : GauzePhase → Nat
  | .idle => 0 | .lead => 1 | .integ => 2 | .fall => 3

/-- GAUZE_STATUS (R353). -/
def execGauzeStatus (n : SlotId) (s : State) : Host.Outcome State Fault Refusal :=
  .next (onSlot n 0x0406 (fun p =>
    orRefuse n ((portFault p).map (.badArg, ·)) fun s =>
      let g := s.gauze[portNo (u8 p 0)]
      postOk n ([BitVec.ofNat 8 g.phase.code, BitVec.ofNat 8 (s.channelsUsed none)] ++
        toLE 2 g.completed.toNat ++ toLE 4 g.discarded.toNat ++ toLE 4 g.skipped.toNat) s) s)

def gauzeCapFault (p : List Byte) (s : State) : Option Nat :=
  if 15 < u8 p 0 then some 0
  else if s.ports[portNo (u8 p 0)].mode ≠ .cap then some 0
  else (firstNonZero p 1 3).or (floatFault [4, 8, 12, 16, 20] (fun _ => true) p)

def applyGauzeCap (p : List Byte) : State → State :=
  State.modGauzeAt (portNo (u8 p 0)) fun g =>
    { g with cap := [f32At p 4, f32At p 8, f32At p 12, f32At p 16, f32At p 20] }

/-- GAUZE_CAP (R156): a setting of the mode CAP (R351). -/
def execGauzeCap (n : SlotId) (s : State) : Host.Outcome State Fault Refusal :=
  .next (onSlot n 0x0407 (fun p s =>
    match gauzeCapFault p s with
    | some d => badArg n d s
    | none =>
      if s.core.dev = .run then pendBoundary n 0x0407 p 1 s
      else postStatus n .ok (applyGauzeCap p s)) s)

end Sys2Proof.Machine
end

