-- ==== Sys2Proof/Machine/Hold.lean ====
section
/-!
DEFINITION. The ends of calibration holds that other events bring about: a port that leaves RUNNING, a
device that leaves RUN or enters DOZE (R254, R264).
-/

namespace Sys2Proof.Machine

/-- Port p is not in hold; its inputs are free of their pinned ranges, from which auto-ranging resumes
(R245), and the gas frame in progress still counts as held (R222). -/
def holdOver (p : PortId) (s : State) : State :=
  let s := s.modPort p fun q => { q with inputs := q.inputs.map fun x => { x with pinned := none } }
  s.modGas fun g => { g with holdEnded := g.holdEnded ||| (1 <<< p.val) }

/-- A session is over: a step still averaging completes with WRONG_STATE (R254). -/
def dropSession (p : PortId) (s : State) : State :=
  completeWhere (·.wait == .calStep p) .wrongState
    (holdOver p (s.modCal fun c => { c with sessions := c.sessions.set p none }))

/-- Notice 0x0901. -/
def calNotice (p : PortId) (cause : Nat) : State → State :=
  notice 0x0901 .ordinary (argB 0 p.val ||| argB 1 cause)

/-- A session ends without change in this tick, with its hold (Table 11-3). -/
def endSession (p : PortId) (cause : Nat) (s : State) : State :=
  match s.cal.sessions[p] with
  | some x => if x.atLimit then dropSession p s else calNotice p cause (dropSession p s)
  | none => s

/-- An electrical calibration ends without applying, with its hold (R264). -/
def endElec (t : CalTarget) (s : State) : State :=
  let was := s.cal.runs.any fun r => r.target == t
  let s := s.modCal fun c => { c with runs := c.runs.filter fun r => r.target != t }
  if was then
    let s := match t with
      | .port p => holdOver p s
      | .warp => s
      | .weft => s
      | .ref => s
    completeWhere (·.wait == .calElec t) .wrongState s
  else s

/-- Port p leaves RUNNING (R254): its session ends, and an electrical calibration in progress. -/
def portLeaves (p : PortId) (s : State) : State :=
  let s := if s.ports[p].state = .running then endSession p 2 s else s
  if s.elecCal p then endElec (.port p) s else s

/-- The device leaves RUN, or enters DOZE (R254): sessions and the port targets' calibrations end. -/
def calLeaves (s : State) : State :=
  (List.finRange 16).foldl (fun s p =>
    let s := endSession p 3 s
    if s.elecCal p then endElec (.port p) s else s) s

/-- Every electrical calibration ends. -/
def elecLeaves (s : State) : State :=
  (s.cal.runs.map (·.target)).foldl (fun s t => endElec t s) s

end Sys2Proof.Machine
end

