-- ==== Sys2Proof/Machine/Ports.lean ====
section
/-!
DEFINITION. Ports (spec/03, spec/04): bias ramps, starts and stops, clamps, protection and
supervision, cell settling, and the PORT family but for PORT.MODE's effect, which needs the bolt.
-/

namespace Sys2Proof.Machine

/-! ## Bias (R87 to R89) -/

/-- The bias of a code in microvolts. -/
def biasUv (b : Int) : Rat := (b : Rat) * 2000000 / 32768

/-- One tick of a ramp: r in 0.01 mV/ms is r x 5/32 uV in a tick. -/
def Port.rampStep (q : Port) : Port :=
  if q.ramping then
    let d := (q.rampRate : Rat) * 5 / 32
    let v := if q.applied < q.target then (if q.target < q.applied + d then q.target else q.applied + d)
      else (if q.applied - d < q.target then q.target else q.applied - d)
    { q with applied := v }
  else q

/-- The target counts as reached (R89): STARTING becomes RUNNING, and the settling count starts
(R106, R107). -/
def Port.reach (now : W64) (q : Port) : Port :=
  { q with
    ramping := false, reachedAt := now
    state := if q.state = .starting then .running else q.state
    settleFrom := if q.settling ∧ q.state ≠ .stopping then some now else q.settleFrom }

/-- A ramp to a target begins at the port's rate; one that is there already has reached it in this tick. -/
def Port.rampTo (now : W64) (target : Rat) (q : Port) : Port :=
  let q := { q with target := target, rampRate := q.rate, ramping := true }
  if q.applied = target then q.reach now else q

/-- BIAS_TARGET_REACHED (R89). -/
def execBiasTargetReached (p : PortId) (s : State) : Host.Outcome State Fault Refusal :=
  .next (
    let q := s.ports[p]
    if q.ramping && q.driven && decide (q.applied = q.target) then s.modPort p (Port.reach s.core.lt) else s)

/-! ## Cell settling (R106 to R108) -/

/-- A settling time that ended in tick `now`: a window begun in that tick is not marked (R108). -/
def Port.settled (now : W64) (q : Port) : Port :=
  { q with
    settling := false, settleFrom := none, settledAt := some now
    inputs := q.inputs.map fun x =>
      { x with openWin := x.openWin.map fun o =>
          { o with cellSettling := o.cellSettling && decide (o.first.toNat < now.toNat) } } }

/-- CELL_SETTLING_END (R106). -/
def execCellSettlingEnd (p : PortId) (s : State) : Host.Outcome State Fault Refusal :=
  .next (if s.settleDue p then s.modPort p (Port.settled s.core.lt) else s)

/-! ## Clamps (R76) -/

/-- The clamps of port p are open. -/
def State.clampsOpen (s : State) (p : PortId) : Bool :=
  s.core.dev == .run && (!s.core.doze || s.ports[p].mode.isEc) && s.ports[p].driven &&
    !s.core.railHeld.getLsbD 0 && !s.core.railHeld.getLsbD 1 && !s.core.rstLow

/-! ## Starts (R79) -/

/-- An input at a port start runs on its start range with its counts cleared (R102). -/
def Input.atStart (x : Input) : Input :=
  { x with range := x.pinned.getD x.start, nextRange := none, planned := none, stepUp := false, changed := none
           nearRun := 0, lowRun := 0, lowOk := false, results := 0, ovrSeen := false
           openWin := none, doneWin := none, lastSample := none, resetNext := false }

/-- A port as it starts in tick 0: an EC port ramps from zero, every other is RUNNING (R79); the
settling time of other modes but AUX counts from now (R129). -/
def Port.atStart (now : W64) (q : Port) : Port :=
  let q := { q with inputs := q.inputs.map Input.atStart, engaged := false, settleShort := false, settledAt := none
                    applied := 0, vreBad := 0, vreAge := none, vreFrame := none }
  if q.mode.isEc then
    Port.rampTo now (biasUv q.bias) { q with state := .starting, settling := true, settleFrom := none }
  else
    { q with state := .running, ramping := false, target := 0
             settling := q.mode != .aux, settleFrom := if q.mode = .aux then none else some now }

/-- The entries that name a signal the port's mode does not provide: entry and converter (R69). While twill
is in force its entry is the only one converted; the notice names it as entry 0 of converter 0, which
Table 16-15 has no code for (DESIGN CHOICE, log 59). -/
def State.badEntries (s : State) (p : PortId) : List (Nat × Nat) :=
  let pick := fun (l : List Entry) (c : Nat) => l.zipIdx.filterMap fun (e, k) =>
    if e.cls = .port ∧ e.port = p ∧ !s.ports[p].provides e.sig then some (k, c) else none
  if s.seq.twill then pick s.seq.tables.twill.toList 0
  else pick s.warpTable 0 ++ pick s.weftTable 1

/-- Port p starts in this tick (R79). -/
def startPort (p : PortId) (s : State) : State :=
  let s := s.modPort p (Port.atStart s.core.lt)
  let s := resetLanes .plain (s.lanesOfPort p) s
  let s := (s.badEntries p).foldl
    (fun s e => notice 0x0201 .ordinary (argB 0 p.val ||| argB 1 e.1 ||| argB 2 e.2) s) s
  gauzePortStart p (heatPortStart p s)

/-! ## Stops (R77, R80) -/

/-- Every driver of the port off, its windows dropped, its state st. -/
def Port.down (st : PortState) (q : Port) : Port :=
  { q with
    state := st, applied := 0, target := 0, ramping := false, engaged := false
    settling := false, settleFrom := none, settledAt := none
    inputs := q.inputs.map fun x =>
      { x with openWin := none, doneWin := none, stepUp := false, nextRange := none, planned := none } }

/-- The port's drivers are released and its clamps closed in this tick (R77, R147, R123, R254). -/
def dropPort (p : PortId) (st : PortState) (s : State) : State :=
  (endGauze p (stopProfile p (portLeaves p s))).modPort p (Port.down st)

/-- A forced stop (R77): a PORT.STOP pending or in progress completes with WRONG_STATE (R86). -/
def forcePort (p : PortId) (st : PortState) (s : State) : State :=
  let s := dropPort p st s
  completeWhere (fun x => x.op == 0x020A && portNo (u8 x.payload 0) == p) .wrongState s

/-- A stop at a boundary (R80): an EC port ramps to zero, every other turns off. -/
def stopPort (p : PortId) (s : State) : State :=
  if s.ports[p].mode.isEc then
    (endGauze p (portLeaves p s)).modPort p fun q =>
      let ins := q.inputs.map fun x => { x with openWin := none, nextRange := none, planned := none }
      Port.rampTo s.core.lt 0 { q with state := .stopping, inputs := ins }
  else dropPort p .stopped s

/-- The clamps close in the tick after zero bias is reached (R80). -/
def State.stopDue (s : State) (p : PortId) : Bool :=
  let q := s.ports[p]
  q.state == .stopping && !q.ramping && q.reachedAt != s.core.lt

/-! ## Protection and supervision (Tables 3-8 and 4-2) -/

/-- RING_DRIVER_LIMIT (R82): the port keeps running. -/
def execRingDriverLimit (p : PortId) (s : State) : Host.Outcome State Fault Refusal :=
  .next (
    if s.ports[p].driven ∧ 8 ≤ s.ports[p].ringBad then
      let s' := raise (Fin.ofNat 64 (16 + p.val)) s
      if s.ports[p].ringNoticed then s'
      else notice 0x0202 .ordinary (argB 0 p.val) (s'.modPort p fun q => { q with ringNoticed := true })
    else s)

/-- CE_COMPLIANCE (R91). -/
def execCeCompliance (p : PortId) (s : State) : Host.Outcome State Fault Refusal :=
  .next (
    let q := s.ports[p]
    if q.measures && q.mode.isEc && decide (8 ≤ q.ceBad) then
      let s' := raise (groupSource 32 p) s
      if q.ceNoticed then s'
      else notice 0x0205 .ordinary (argB 0 p.val) (s'.modPort p fun q => { q with ceNoticed := true })
    else s)

/-- The reeve compares VRE with the bias, once in a frame (R91). -/
def State.vreDue (s : State) (p : PortId) : Bool :=
  let q := s.ports[p]
  s.reeveActive && s.measuring && q.measures && q.mode.isEc && q.vreFrame != some s.frame.number

/-- One frame's comparison: frames in a row beyond 5 mV, and whether the notice is due. -/
def Port.compareVre (frame : W32) (uv : Int) (q : Port) : Port × Bool :=
  if uv.natAbs ≤ 5000 then ({ q with vreBad := 0, vreAge := none, vreFrame := some frame }, false)
  else
    let follows := q.vreFrame == some (frame - 1)
    let n := if follows then q.vreBad + 1 else 1
    let age := if follows then q.vreAge else none
    let due := decide (2 ≤ n) && (age.map fun a => decide (6000 ≤ a)).getD true
    ({ q with vreBad := n, vreAge := if due then some 0 else age, vreFrame := some frame }, due)

/-- VRE_ERROR (R91): one frame's comparison; the notice comes in the second frame in a row beyond
5 mV, and every 6000 frames while it lasts. -/
def execVreError (p : PortId) (uv : Int) (s : State) : Host.Outcome State Fault Refusal :=
  .next (
    if s.vreDue p then
      let r := s.ports[p].compareVre s.frame.number uv
      let s := s.modPort p fun _ => r.1
      if r.2 then notice 0x0204 .ordinary (argB 0 p.val ||| argWi 4 uv) s else s
    else s)

/-! ## The PORT family (R351) -/

def modeOf (k : Nat) : Mode :=
  if k = 1 then .ec4 else if k = 2 then .ec3 else if k = 3 then .mox else if k = 4 then .irt
  else if k = 5 then .cap else if k = 6 then .aux else .none
def Mode.code : Mode → Nat
  | .none => 0 | .ec4 => 1 | .ec3 => 2 | .mox => 3 | .irt => 4 | .cap => 5 | .aux => 6

def PortState.code : PortState → Nat
  | .disabled => 0 | .stopped => 1 | .starting => 2 | .running => 3 | .stopping => 4 | .paused => 5 | .shut => 6

def portModeFault (p : List Byte) : Option Nat :=
  (portFault p).or <| (if 6 < u8 p 1 then some 1 else none).or <|
    (if 1 < u8 p 2 ∨ (u8 p 1 ≠ 6 ∧ u8 p 2 ≠ 0) then some 2 else none).or (firstNonZero p 3 1)

/-- PORT_MODE (R84). -/
def execPortMode (n : SlotId) (s : State) : Host.Outcome State Fault Refusal :=
  .next (onSlot n 0x0201 (fun p =>
    orRefuse n ((portModeFault p).map (.badArg, ·)) fun s =>
      let st := s.ports[portNo (u8 p 0)].state
      if st = .disabled ∨ st = .stopped then pendBoundary n 0x0201 p 1 s
      else postStatus n .wrongState s) s)

/-- PORT.BIAS's fields, its mode, and the excitation it must leave room for (R87, R139, R351). A DISABLED
port takes a bias, as R90 says (DEDUCED, log 59). -/
def portBiasFault (p : List Byte) (s : State) : Option Nat :=
  (portFault p).or <|
    let k := portNo (u8 p 0)
    (if s.ports[k].mode.isEc ∨ s.ports[k].state = .disabled then none else some 0).or <|
    (firstNonZero p 1 1).or <|
    (if 16384 < (s16 p 2).natAbs ∨ s.gauze[k].plan.any (fun x => !biasFits (s16 p 2) x.ampSum) then some 2 else none).or <|
    (if u16 p 4 = 0 ∨ 1000 < u16 p 4 then some 4 else none).or <|
    (if u8 p 6 < 40 ∨ 100 < u8 p 6 then some 6 else none).or (firstNonZero p 7 1)

/-- The settings of PORT.BIAS. -/
def setBias (p : List Byte) (q : Port) : Port :=
  { q with bias := s16 p 2, rate := u16 p 4, vcm := u8 p 6 }

/-- The ramp of PORT.BIAS begins (R90); in RUNNING it sets CELL_SETTLING again (R107). The spec does not say
what a bias already in force changes, nor from which bias a change that meets a ramp is measured: the model
takes every PORT.BIAS as a change, measured from the target before it (DESIGN CHOICE, log 59). In STOPPING the
ramp to zero goes on as it is. -/
def Port.rebias (now : W64) (p : List Byte) (q : Port) : Port :=
  let new := biasUv (s16 p 2)
  let q' := setBias p q
  if q.state = .running then
    Port.rampTo now new
      { q' with settling := true, settleFrom := none, settleShort := absRat (new - q.target) ≤ 20000 }
  else if q.state = .starting then Port.rampTo now new q'
  else q'

/-- PORT.BIAS takes effect: in STARTING or RUNNING the ramp begins, and the integrations it meets
are discarded (R147). -/
def applyPortBias (p : List Byte) (s : State) : State :=
  let k := portNo (u8 p 0)
  s.modPort k (Port.rebias s.core.lt p)

/-- PORT_BIAS (R90). -/
def execPortBias (n : SlotId) (s : State) : Host.Outcome State Fault Refusal :=
  .next (onSlot n 0x0202 (fun p s =>
    match portBiasFault p s with
    | some d => badArg n d s
    | none =>
      if s.ports[portNo (u8 p 0)].measures then pendBoundary n 0x0202 p 1 s
      else postStatus n .ok (applyPortBias p s)) s)

/-- PORT.RANGE (R101): DETAIL names the start range for bounds in the wrong order. -/
def portRangeFault (p : List Byte) : Option Nat :=
  (portFault p).or <| (if 1 < u8 p 1 then some 1 else none).or <|
    (if 7 < u8 p 2 then some 2 else none).or <| (if 7 < u8 p 3 then some 3 else none).or <|
    (if 7 < u8 p 4 ∨ u8 p 4 < u8 p 2 ∨ u8 p 3 < u8 p 4 then some 4 else none).or
      (if u8 p 5 = 0 then some 5 else none)

def setRange (p : List Byte) (x : Input) : Input :=
  { x with lo := Fin.ofNat 8 (u8 p 2), hi := Fin.ofNat 8 (u8 p 3), start := Fin.ofNat 8 (u8 p 4), s := u8 p 5 }
def applyPortRange (p : List Byte) : State → State :=
  State.modInput (portNo (u8 p 0)) (Fin.ofNat 2 (u8 p 1)) (setRange p)

/-- A command of the plan: at once outside RUN, else at the boundary R347 gives. -/
def planCommand (n : SlotId) (op : Nat) (apply : List Byte → State → State) (p : List Byte) (s : State) : State :=
  if s.core.dev = .run then pendBoundary n op p (s.planBoundaries n) s else postStatus n .ok (apply p s)

/-- PORT_RANGE (R101). -/
def execPortRange (n : SlotId) (s : State) : Host.Outcome State Fault Refusal :=
  .next (onSlot n 0x0203 (fun p =>
    orRefuse n ((portRangeFault p).map (.badArg, ·)) (planCommand n 0x0203 applyPortRange p)) s)

def portWindowFault (p : List Byte) : Option Nat :=
  (portFault p).or <| (if u8 p 1 = 0 ∨ 64 < u8 p 1 then some 1 else none).or <|
    (if u8 p 2 = 0 ∨ u8 p 1 < u8 p 2 then some 2 else none).or (firstNonZero p 3 1)

def applyPortWindow (p : List Byte) : State → State :=
  State.modPort (portNo (u8 p 0)) fun q => { q with len := u8 p 1, lmin := u8 p 2 }

/-- PORT_WINDOW (R51). -/
def execPortWindow (n : SlotId) (s : State) : Host.Outcome State Fault Refusal :=
  .next (onSlot n 0x0204 (fun p =>
    orRefuse n ((portWindowFault p).map (.badArg, ·)) (planCommand n 0x0204 applyPortWindow p)) s)

def portSettleFault (p : List Byte) : Option Nat :=
  (portFault p).or <| (if 60 < u8 p 1 then some 1 else none).or (if 1440 < u16 p 2 then some 2 else none)

def applyPortSettle (p : List Byte) : State → State :=
  State.modPort (portNo (u8 p 0)) fun q => { q with shortSettle := u8 p 1, settle := u16 p 2 }

/-- PORT_SETTLE (R351): a count in progress runs to the new time. -/
def execPortSettle (n : SlotId) (s : State) : Host.Outcome State Fault Refusal :=
  .next (onSlot n 0x0205 (fun p =>
    orRefuse n ((portSettleFault p).map (.badArg, ·)) fun s => postStatus n .ok (applyPortSettle p s)) s)

/-- At once for a port not RUNNING, otherwise at the next boundary (Table 16-5). -/
def unlessRunning (n : SlotId) (op : Nat) (apply : List Byte → State → State) (p : List Byte) (s : State) : State :=
  if s.ports[portNo (u8 p 0)].state = .running then pendBoundary n op p 1 s else postStatus n .ok (apply p s)

def portAuxFault (p : List Byte) (s : State) : Option Nat :=
  (portFault p).or <|
    (if s.ports[portNo (u8 p 0)].mode = .aux ∧ s.ports[portNo (u8 p 0)].rtd then none else some 0).or
      (if 2 < u8 p 1 then some 1 else none)
def applyPortAux (p : List Byte) : State → State :=
  State.modPort (portNo (u8 p 0)) fun q => { q with aux := Fin.ofNat 3 (u8 p 1) }

/-- PORT_AUX (R488). -/
def execPortAux (n : SlotId) (s : State) : Host.Outcome State Fault Refusal :=
  .next (onSlot n 0x0206 (fun p s =>
    match portAuxFault p s with
    | some d => badArg n d s
    | none => unlessRunning n 0x0206 applyPortAux p s) s)

/-- The modes with an external ring pin (R72, R351). NONE has no ring setting of its own. -/
def Mode.hasRing (m : Mode) : Bool := m != .mox && m != .irt
def portRingFault (p : List Byte) (s : State) : Option Nat :=
  (portFault p).or <| (if s.ports[portNo (u8 p 0)].mode.hasRing then none else some 0).or
    (if 3 < u8 p 1 then some 1 else none)
def applyPortRing (p : List Byte) : State → State :=
  State.modPort (portNo (u8 p 0)) fun q => { q with ring := BitVec.ofNat 8 (u8 p 1) }

/-- PORT_RING (R72). -/
def execPortRing (n : SlotId) (s : State) : Host.Outcome State Fault Refusal :=
  .next (onSlot n 0x0207 (fun p s =>
    match portRingFault p s with
    | some d => badArg n d s
    | none => unlessRunning n 0x0207 applyPortRing p s) s)

def portLayerFault (p : List Byte) (s : State) : Option Nat :=
  (portFault p).or <| (if s.ports[portNo (u8 p 0)].mode = .mox then none else some 0).or <|
    (firstNonZero p 1 1).or (if 1000 < (s16 p 2).natAbs then some 2 else none)
def applyPortLayer (p : List Byte) : State → State :=
  State.modPort (portNo (u8 p 0)) fun q => { q with vlayer := s16 p 2 }

/-- PORT_LAYER (R128). -/
def execPortLayer (n : SlotId) (s : State) : Host.Outcome State Fault Refusal :=
  .next (onSlot n 0x0208 (fun p s =>
    match portLayerFault p s with
    | some d => badArg n d s
    | none => unlessRunning n 0x0208 applyPortLayer p s) s)

/-- STOPPED, or SHUT with the protection source cleared (R78). -/
def State.startable (s : State) (p : PortId) : Bool :=
  let q := s.ports[p]
  q.mode != .none && (q.state == .stopped ||
    (q.state == .shut && !(s.faults.src[(Fin.ofNat 64 (16 + p.val) : Source)]).uncleared))

/-- A mode change of port p waits for the boundary (R86). -/
def State.modePending (s : State) (p : PortId) : Bool :=
  s.mbox.pend.any fun x => x.op == 0x0201 && portNo (u8 x.payload 0) == p

/-- PORT_START_COMMAND (R79): the boundary after a pending mode change (R86); a stop in progress
refuses it at its boundary (R80). -/
def execPortStartCommand (n : SlotId) (s : State) : Host.Outcome State Fault Refusal :=
  .next (onSlot n 0x0209 (fun p =>
    orRefuse n ((portFault p).map (.badArg, ·)) fun s =>
      let k := portNo (u8 p 0)
      if s.modePending k then pendBoundary n 0x0209 p 2 s
      else if s.startable k then pendBoundary n 0x0209 p 1 s
      else postStatus n .wrongState s) s)

/-- A SYS.STOP or SYS.HOLD falls due at this boundary. -/
def State.stopsNow (s : State) : Bool :=
  s.mbox.pend.any fun x => (x.op == 0x0102 || x.op == 0x0103) && (match x.wait with
    | .boundary k => decide (k ≤ 1)
    | _ => false)

/-- PORT.START at its boundary: a stop of the device due there, or in progress, refuses it whatever the order
of the doorbells (R80). -/
def applyPortStart (n : SlotId) (p : List Byte) (s : State) : State :=
  let k := portNo (u8 p 0)
  if s.startable k && !s.core.stopping && !s.stopsNow then postStatus n .ok (startPort k s)
  else postStatus n .wrongState s

/-- PORT_STOP (R80). -/
def execPortStop (n : SlotId) (s : State) : Host.Outcome State Fault Refusal :=
  .next (onSlot n 0x020A (fun p =>
    orRefuse n ((portFault p).map (.badArg, ·)) fun s =>
      if s.ports[portNo (u8 p 0)].measures then pendBoundary n 0x020A p 1 s
      else postStatus n .wrongState s) s)

/-- PORT.STOP at its boundary: it waits for an EC port to be STOPPED. -/
def applyPortStop (n : SlotId) (p : List Byte) (s : State) : State :=
  let k := portNo (u8 p 0)
  if s.ports[k].measures || s.ports[k].state == .stopping then
    let s := if s.ports[k].state = .stopping then s else stopPort k s
    if s.ports[k].state = .stopped then postStatus n .ok s
    else s.modMbox fun m =>
      { m with pend := m.pend.map fun x => if x.slot = n then { x with wait := .portStop k } else x }
  else postStatus n .wrongState s

/-- A matrix row that is not all zero uses port p. -/
def Gas.rowUses (g : Gas) (j : Nat) (p : PortId) : Bool :=
  F32.toRat (g.matrix.getD (16 * j + p.val) 0) != 0

/-- Alarm-bearing (R271). -/
def State.alarmBearing (s : State) (p : PortId) : Bool :=
  s.levees.toList.any fun x => decide (3 ≤ x.action) &&
    ((x.kind == 1 && (s.lanesOfPort p).any fun l => l.val == x.index) ||
     (x.kind == 2 && s.gas.rowUses x.index p))

/-- Remaining settling time in seconds; a count not yet started shows the whole. -/
def State.settleLeft (s : State) (p : PortId) : Nat :=
  let q := s.ports[p]
  if q.settling then
    let gone := match q.settleFrom with
      | some t => s.since t
      | none => 0
    ceilDiv (q.settleTicks - gone) 64000
  else 0

/-- R_IHT of R68 in milliohm: the factory value corrected for the nearest sensor's mean; before a first mean
the value at 25 degC stands, which the spec does not say (DESIGN CHOICE, log 59). -/
def State.rIht (s : State) (p : PortId) : Rat :=
  let t := (s.therm.sensors[s.nearest (portRow p)].mean).getD 2500
  Config.rIht25 p * (1 + Config.rIhtTc p * ((t : Rat) / 100 - 25))

def inputRange (q : Port) (i : Fin 2) : Byte :=
  if i.val < q.mode.inputs then BitVec.ofNat 8 q.inputs[i].range.val else 0xFF

/-- The bias code nearest an applied bias. -/
def biasCode (uv : Rat) : Int := roundRat (uv * 32768 / 2000000)

/-- The code the potentiostat is given for the bias applied, less the error its calibration has found of it
(R257). -/
def Port.potCode (q : Port) : Int := biasCode (q.applied - q.biasErr)

/-- The PORT.STATUS response (Table 16-5). -/
def State.portStatus (s : State) (p : PortId) : List Byte :=
  let q := s.ports[p]
  [BitVec.ofNat 8 q.state.code, BitVec.ofNat 8 (q.mode.code + 16 * boolNat (q.mode == .aux && q.rtd)),
    inputRange q 0, inputRange q 1] ++
  toLEInt 2 (biasCode q.applied) ++ toLEInt 2 q.bias ++
  [BitVec.ofNat 8 (bits [q.settling, s.calHold p, s.frame.unguarded.getLsbD p.val, s.alarmBearing p, q.departs]), 0] ++
  toLE 4 (s.settleLeft p) ++
  toLE 2 (if q.provides 6 then (roundRat (s.rIht p)).toNat else 0)

/-- PORT_STATUS (R351). -/
def execPortStatus (n : SlotId) (s : State) : Host.Outcome State Fault Refusal :=
  .next (onSlot n 0x020B (fun p =>
    orRefuse n ((portFault p).map (.badArg, ·)) fun s => postOk n (s.portStatus (portNo (u8 p 0))) s) s)

end Sys2Proof.Machine
end

