-- ==== Sys2Proof/Machine/Windows.lean ====
section
/-!
DEFINITION. Conversions and integration windows (R33, R47, R48, R57 to R59, R93 to R110): opening and
closing windows, the samples at their ends, results and their flags, clips, overload steps, the rules
of auto-ranging, and the witness template.
-/

namespace Sys2Proof.Machine

/-! ## Ranges (Table 4-3) -/

/-- Full scale in ampere. -/
def fullScale (r : Fin 8) : Rat :=
  (#v[1 / 4000000000, 1 / 500000000, 1 / 62500000, 16 / 125000000, 128 / 125000000, 1024 / 125000000,
    8192 / 125000000, 1 / 4000] : Vector Rat 8)[r]

/-- The 24-bit code of a current on a range (R94). -/
def currentCode (r : Fin 8) (i : Rat) : Int := satInt 24 (roundRat (i / fullScale r * 8388608))

/-- Seconds in n clocks (Table 0-1). -/
def clockSeconds (n : Rat) : Rat := n / 61440000

/-- The current between two samples (R94). -/
def windowCurrent (qp cf : Rat) (a b : Sample) : Rat :=
  (((b.np - a.np : Int) : Rat) * qp + cf * (b.v - a.v)) / clockSeconds (b.clk - a.clk)

/-- The port's inputs of its mode. -/
def Port.inputList (q : Port) : List (Fin 2) := (List.finRange 2).filter fun i => decide (i.val < q.mode.inputs)

/-- Every current input in use. -/
def State.allInputs (s : State) : List (PortId × Fin 2) :=
  (List.finRange 16).flatMap fun p => s.ports[p].inputList.map fun i => (p, i)

/-- Does f to every current input in use. -/
def overInputs (f : PortId → Fin 2 → State → State) (s : State) : State :=
  s.allInputs.foldl (fun s e => f e.1 e.2 s) s

/-! ## Range changes (R100, R104) -/

/-- The input moves to a range; counts of the auto-ranging rules restart, decisions not yet taken fall
(R103, R110). -/
def Input.toRange (r : Fin 8) (x : Input) : Input :=
  { x with
    range := r, changed := some (x.changed.getD x.range)
    nextRange := none, planned := none, stepUp := false, nearRun := 0, lowRun := 0, lowOk := false
    resetNext := false, lastSample := none }

/-- A range change of input i of port p, which resets its integrator (R147). -/
def changeRange (p : PortId) (i : Fin 2) (r : Fin 8) (s : State) : State :=
  let s := if i = 0 then gauzeDiscard p s else s
  s.modInput p i (Input.toRange r)

/-- One range up. -/
def rangeUp (r : Fin 8) : Fin 8 := if r = 7 then 7 else r + 1

/-! ## The witness template (R58, R59) -/

/-- The template at a tick position: the mean of the last 16 results there. -/
def Witness.at_ (w : Witness) (t : Nat) : Rat :=
  let vs := (w.filterMap fun f => (f.find? (·.1 == t)).map (·.2)).take 16
  if vs.isEmpty then Config.noTemplate t else ((vs.sum : Int) : Rat) / vs.length

/-- The template's mean over the ticks of a window. -/
def Witness.mean (w : Witness) (start len : Nat) : Rat :=
  ((List.range len).map fun k => w.at_ (start + k)).sum / len

/-- A result of the witness for a tick, in the present frame or the one before it. -/
def Witness.put (prev : Bool) (t : Nat) (v : Int) (w : Witness) : Witness :=
  match prev, w with
  | false, f :: r => ((t, v) :: f) :: r
  | true, f :: g :: r => f :: ((t, v) :: g) :: r
  | _, w => w

/-- A frame begins while the witness runs. -/
def Witness.roll (w : Witness) : Witness := [] :: w.take 16

/-- The template takes the witness result of the tick now over; at a boundary, of the frame before, whose
record stands second while the witness runs on. -/
def putWitness (v : Int) (s : State) : State :=
  if s.frame.tick = 0 then
    if s.frame.lastLen ≤ 640 then
      s.modFrame fun f => { f with witness := f.witness.put (f.unguarded != 0) (f.lastLen - 1) v }
    else s
  else s.modFrame fun f => { f with witness := f.witness.put false (f.tick - 1) v }

/-- The reserved slot converts the witness: the first conversion of a tick in which a port is unguarded, and of
the tick after, whose sample ends the last result (R58, R171; DEDUCED, log 65). -/
def State.witnessDue (s : State) : Bool :=
  !(s.seq.witness.any fun w => w.1 == s.core.lt) &&
    (s.frame.unguarded != 0 || s.seq.witness.any fun w => w.1 + 1 == s.core.lt && w.2.2)

/-- The flags of the witness result of the tick with LT t (R97, R98). -/
def State.witnessFlags (s : State) (t : W64) (code : Int) : W16 :=
  flagIf (s.seq.neighbourTo.any fun x => decide (t.toNat ≤ x.toNat)) Flag.neighbourOvr |||
    flagIf (code == 8388607 || code == -8388608) Flag.ovr

/-- A sample of the witness: two of them in consecutive ticks form the result of the first tick, if the witness
ran in it, which enters the lane the reserved slot names (R171). -/
def witnessSample (lane : Option LaneId) (x : Sample) (s : State) : State :=
  let old := s.seq.witness
  let s := s.modSeq fun q => { q with witness := some (s.core.lt, x, s.frame.unguarded != 0) }
  match old with
  | some (t, a, ran) =>
    if ran ∧ t + 1 = s.core.lt then
      let v := currentCode 0 (windowCurrent Config.witnessCharge Config.witnessCap a x)
      let s := putWitness v s
      match lane with
      | some l => laneInput l v (s.witnessFlags t v) s
      | none => s
    else s
  | none => s

/-! ## Opening and closing (R33, R47, R51) -/

/-- The input is converted: in twill the twill input alone, and the integrator of every other is held in reset
(Table 7-7). -/
def State.converts (s : State) (p : PortId) (i : Fin 2) : Bool :=
  !s.seq.twill || s.seq.tables.twill.any fun e => e.cls == .port && e.port == p && e.sig == i.val

/-- The window the plan in force starts for port p in this tick. -/
def State.winAt (s : State) (p : PortId) : Option Win :=
  s.plan.cur.bind fun x => x.placed[p].find? (·.start == s.frame.tick)

/-- An input's clip mark from another input lasts into this tick (R98). -/
def Input.marked (now : W64) (x : Input) : Bool := x.neighbourTo.any fun t => decide (now.toNat ≤ t.toNat)

/-- The notice of an overrange at the upper bound (R100). -/
def ceilingNotice (p : PortId) (i : Fin 2) (s : State) : State :=
  let x := s.ports[p].inputs[i]
  if (x.ceilAge.map fun a => decide (6000 ≤ a)).getD true then
    notice 0x0206 .ordinary (argB 0 p.val ||| argB 1 i.val)
      (s.modInput p i fun x => { x with ceilAge := some 0 })
  else s

/-- Auto-ranging and overload steps are suspended: hold or a pinned range (R110, R245). -/
def State.rangeHeld (s : State) (p : PortId) (i : Fin 2) : Bool :=
  s.calHold p || s.ports[p].inputs[i].pinned.isSome

/-- An overload step waits for this window: it is made within the bounds in force (R110), and none is made
under hold. -/
def takeStep (p : PortId) (i : Fin 2) (s : State) : State :=
  let x := s.ports[p].inputs[i]
  if !x.stepUp || s.rangeHeld p i then s
  else if x.range < x.hi then changeRange p i (rangeUp x.range) s
  else ceilingNotice p i (s.modInput p i fun x => { x with stepUp := false })

/-- A window of input i of port p opens in this tick. -/
def openInput (p : PortId) (i : Fin 2) (w : Win) (s : State) : State :=
  let s := takeStep p i s
  let x := s.ports[p].inputs[i]
  let inP := s.plan.cur.any fun y => y.inPolders.getLsbD p.val
  let o : OpenWin :=
    { frame := s.frame.number, start := w.start, len := w.len, first := s.core.lt, named := (s.entryOf p i.val).isSome
      inPolder := inP, isUnguarded := !inP && s.frame.unguarded.getLsbD p.val, range := x.range
      neighbour := x.marked s.core.lt, cellSettling := s.settlingNow p }
  s.modInput p i fun x => { x with openWin := some o }

/-- The windows that start in this tick open. -/
def openWindows (s : State) : State :=
  if s.measuring then
    overInputs (fun p i s =>
      match s.winAt p with
      | some w => if s.ports[p].measures && !s.elecCal p && s.converts p i then openInput p i w s else s
      | none => s) s
  else s

/-- What the tick now begun adds to an open window. -/
def coverInput (p : PortId) (i : Fin 2) (s : State) : State :=
  s.modInput p i fun x =>
    { x with openWin := x.openWin.map fun o => { o with neighbour := o.neighbour || x.marked s.core.lt } }

/-- Ticks of the frame gone at the start of this tick: the whole frame at a boundary. -/
def State.elapsed (s : State) : Nat := if s.frame.boundary then s.frame.lastLen else s.frame.tick

/-- An open window ends in this tick, or is cut by a boundary before its end (R33); one whose result
was not formed in its completion tick is lost. -/
def closeInput (p : PortId) (i : Fin 2) (s : State) : State :=
  let x := s.ports[p].inputs[i]
  let lost := s.ports[p].measures && x.doneWin.any fun o => o.named || o.startSample.isSome
  let s := if lost then s.modSeq fun q => { q with lost := countUp q.lost 1 } else s
  let s := s.modInput p i fun x =>
    { x with doneWin := none, resetNext := false, lastSample := if x.resetNext then none else x.lastSample }
  match s.ports[p].inputs[i].openWin with
  | none => s
  | some o =>
    if o.start + o.len ≤ s.elapsed then
      let c := s.frame.witness.mean o.start o.len
      s.modInput p i fun x => { x with openWin := none, doneWin := some { o with corr := c } }
    else if s.frame.boundary then
      -- one window, though two inputs run it
      let s := if i = 0 ∨ !s.converts p 0 then s.modFrame fun f => { f with cuts := countUp f.cuts 1 } else s
      s.modInput p i fun x => { x with openWin := none, lastSample := none }
    else s

/-- The QUIET reading of the tick now over is not quiet: the windows in polders that cover it (R48),
and its count if it is a tick of a polder (R49), planned or not; the count of a counted frame joins that of
FRAME.STATUS as the frame ends. -/
def breachTick (s : State) : State :=
  let t := if s.frame.boundary then s.frame.lastLen - 1 else s.frame.tick - 1
  let inP := s.polders.any fun r => decide (r.1 ≤ t ∧ t ≤ r.2)
  let s := if inP && s.measuring then
      s.modFrame fun f => { f with badPolder := f.badPolder + 1 }
    else s
  overInputs (fun p i => State.modInput p i fun x =>
    { x with openWin := x.openWin.map fun o => { o with breach := o.breach || o.inPolder } }) s

/-- Windows in one tick; `quiet` is the QUIET reading of the tick now over. At a boundary they open
once the plan of the new frame is in force. -/
def windowsTick (quiet : Bool) (s : State) : State :=
  let s := if quiet then s else breachTick s
  let s := overInputs (fun p i s => coverInput p i (closeInput p i s)) s
  if s.frame.boundary then s else openWindows s

/-- The first window can complete in tick 1: the frame's record of an input closes in the tick before
(R100, R103). A frame counts as complete for the low-signal rule if the port was RUNNING as it began, however
many ticks a realignment leaves it; the spec does not say (DESIGN CHOICE, log 60). -/
def Input.frameRecord (running : Bool) (x : Input) : Input :=
  { x with
    lowRun := if x.lowOk && decide (0 < x.results) then x.lowRun + 1 else 0
    lowOk := running
    ceilAge := if 0 < x.results ∧ !x.ovrSeen then none else x.ceilAge.map (· + 1)
    results := 0, ovrSeen := false }

def rollRecords (s : State) : State :=
  overInputs (fun p i => State.modInput p i (Input.frameRecord (s.ports[p].state == .running))) s

/-! ## Conversions (R160, R168) -/

/-- The voltage a code stands for. -/
def codeVolts (g : Fin 5) (c : Int) : Rat := (c : Rat) / 131072 * (5 / 4) / ((2 ^ g.val : Nat) : Rat)

/-- Twice the clock, since LT 0, at which a conversion of entry e begins, from its last clock. In twill with an
odd conversion length Weft begins and ends on half clocks (R175). -/
def State.convBegin (s : State) (e : Entry) (c : ConvIn) : Int :=
  2 * ((s.core.lt.toNat * 960 + c.clock.val + 1 : Nat) - (e.acq + 22 : Nat) : Int) -
    (if s.seq.twill && c.conv == .weft && decide (e.acq % 2 = 1) then 1 else 0)

/-- The tables have a conversion of this entry there since their converter's start: entry k at clock b_k of a
wrap (R168, R169); in twill Warp at every conversion length, Weft half of it later (R175). -/
def State.onSchedule (s : State) (e : Entry) (c : ConvIn) : Bool :=
  let start := match c.conv with
    | .warp => s.seq.warpLt
    | .weft => s.seq.weftLt
  let t := s.convBegin e c - 2 * (start.toNat * 960 : Nat)
  if s.seq.twill then
    let t := t - (if c.conv = .weft then (e.acq + 22 : Nat) else 0)
    decide (0 ≤ t ∧ t % (2 * (e.acq + 22) : Nat) = 0)
  else
    let l := s.tableOf c.conv
    decide (0 ≤ t ∧ t % (2 * wrapClocks l : Nat) = (2 * wrapClocks (l.take c.entry.val) : Nat))

/-- The sampling instant of a conversion. -/
def State.convClock (s : State) (e : Entry) (c : ConvIn) : Rat := (s.convBegin e c : Rat) / 2 + e.acq

/-- The LT of the tick in which a conversion began. -/
def State.convBegan (s : State) (e : Entry) (c : ConvIn) : W64 := BitVec.ofInt 64 (s.convBegin e c / 1920)

/-- The sample a conversion gives. -/
def State.sampleOf (s : State) (e : Entry) (c : ConvIn) : Sample :=
  { np := c.np, v := codeVolts e.gain (s.codeOf c.conv e c.v c.err), clk := s.convClock e c, stale := s.seamStale }

/-- A conversion goes to the gauze engine if its running plan demodulates the signal: a current as the charge
gone through the integrator, a reference signal as a voltage (R144, R146). -/
def gauzeConversion (e : Entry) (y : Sample) (fl : W16) (s : State) : State :=
  let p := e.port
  if (s.gauze[p].running || s.gauze[p].ended.isSome) && (demodSignals (s.ports[p].mode == .cap) (s.tonePlan p).vref).contains e.sig then
    let x := s.ports[p].inputs[(0 : Fin 2)]
    s.demodulate p (e.sig != 0)
      { clk := y.clk, x := if e.sig = 0 then (y.np : Rat) * x.qp[x.range] + x.cf[x.range] * y.v else y.v, flags := fl }
  else s

/-- An input takes the first sample of a tick (R94). -/
def Input.sample (now : W64) (y : Sample) (x : Input) : Input :=
  if x.lastSample.any (·.1 == now) then x
  else
    { x with lastSample := some (now, y)
             openWin := x.openWin.map fun o => if o.first = now then { o with startSample := some y } else o }

/-- A conversion of a current signal (R95): it enters no lane. -/
def currentConversion (e : Entry) (c : ConvIn) (s : State) : State :=
  let i : Fin 2 := Fin.ofNat 2 e.sig
  let x := s.ports[e.port].inputs[i]
  let fl := s.portFlags e.port e.sig (s.convBegan e c) ||| flagIf (x.marked s.core.lt) Flag.neighbourOvr |||
    flagIf s.seamStale Flag.seamStale
  let y := s.sampleOf e c
  gauzeConversion e y fl (s.modInput e.port i (Input.sample s.core.lt y))

/-- A conversion of any other signal enters its lane as 64 c (R160, R161). -/
def otherConversion (e : Entry) (c : ConvIn) (s : State) : State :=
  let code := s.codeOf c.conv e c.v c.err
  let fl := codeOvr code ||| s.convFlags e (s.convBegan e c)
  let s := drawTone e (if e.cls = .port then gauzeConversion e (s.sampleOf e c) fl s else s)
  match e.lane with
  | some l => laneInput l (code * 64) fl s
  | none => s

/-- The entry's conversion gives something: a port's only in STARTING and RUNNING, of a signal its mode
provides (R69, Table 3-7), and none under electrical calibration (R258). -/
def State.entryLive (s : State) (e : Entry) : Bool :=
  e.cls != .port || (s.ports[e.port].measures && s.ports[e.port].provides e.sig && !s.elecCal e.port)

/-- The lane of the twill input is reset at the first conversion after a training run (R181). -/
def afterTraining (e : Entry) (s : State) : State :=
  if s.seq.twill && s.seq.seam.resetLane then
    let s := s.modSeq fun q => { q with seam := { q.seam with resetLane := false } }
    match e.lane with
    | some l => resetLane .plain l s
    | none => s
  else s

/-! ## Conversions of an electrical calibration (R257, R258) -/

/-- What the charge standard injects into each input of a port in the frame with k frames of the calibration
left, in ampere: 80 % of the full scale of the range under test, four frames each way; nothing in the last
eight, which are the voltage path's and the potentiostat's. The order is the model's (DESIGN CHOICE, log 67). -/
def testCurrent (k : Nat) : Option (Fin 8 × Rat) :=
  let j := targetFrames (.port 0) - k
  if 64 ≤ j then none
  else
    let r := Fin.ofNat 8 (j / 8)
    some (r, (if j % 8 < 4 then 4 / 5 else -4 / 5) * fullScale r)

/-- Two conversions in a row of one frame: the charge injected between them is n qp + v cf. -/
def Solve.take (amp : Rat) (y : Sample) (x : Solve) : Solve :=
  match x.last with
  | none => { x with last := some y }
  | some a =>
    let n : Rat := ((y.np - a.np : Int) : Rat)
    let v := y.v - a.v
    let q := amp * clockSeconds (y.clk - a.clk)
    { nn := x.nn + n * n, nv := x.nv + n * v, vv := x.vv + v * v, nq := x.nq + n * q, vq := x.vq + v * q
      last := some y }

def ElecRun.solve (e : Entry) (y : Sample) (r : ElecRun) : ElecRun :=
  let i : Fin 2 := Fin.ofNat 2 e.sig
  match r.left.bind testCurrent with
  | some t => if r.target == .port e.port then { r with sums := r.sums.set i (r.sums[i].take t.2 y) } else r
  | none => r

/-- A conversion of a current signal of a port under calibration. -/
def solveConversion (e : Entry) (y : Sample) (s : State) : State :=
  s.modCal fun c => { c with runs := c.runs.map (ElecRun.solve e y) }

/-- A conversion of an entry completes. -/
def takeConversion (e : Entry) (c : ConvIn) (s : State) : State :=
  if s.seq.twill && s.seq.seam.training.isSome then s
  else
    let s := afterTraining e s
    let s := if s.seq.twill then
        let code := s.codeOf c.conv e c.v c.err
        s.modSeq fun q => { q with seam := { q.seam with codes := code :: q.seam.codes } }
      else s
    match e.cls with
    | .open_ => serveOpen (s.convBegan e c) (s.convBegin e c / 2 + e.acq).toNat c.err s
    | .reserved =>
      if s.witnessDue then witnessSample e.lane (s.sampleOf e c) s
      else serveWarp c.err s
    | .internal => otherConversion e c s
    | .swatch => otherConversion e c s
    | .port =>
      if e.sig < 2 && s.elecCal e.port then solveConversion e (s.sampleOf e c) s
      else if !s.entryLive e then s
      else if e.sig < 2 then currentConversion e c s
      else otherConversion e c s

/-- A conversion in READY, where the converters run for a calibration alone (R260): by what schedule, the spec
does not say, and the model takes any (DESIGN CHOICE, log 67). -/
def readyConversion (e : Entry) (c : ConvIn) (s : State) : State :=
  match e.cls with
  | .open_ => if (s.gainsUnderCal .weft).isEmpty then s
    else serveSwatch .weft c.err (if s.seq.tests[1].queue.isEmpty then queueSwatches .weft s else s)
  | .reserved => if (s.gainsUnderCal .warp).isEmpty then s else serveWarp c.err s
  | .internal => s
  | .swatch => s
  | .port => if e.sig < 2 && s.elecCal e.port then solveConversion e (s.sampleOf e c) s else s

/-- The entry a completing conversion belongs to. -/
def State.convEntry (s : State) (c : ConvIn) : Option Entry :=
  if s.seq.twill then s.seq.tables.twill else (s.tableOf c.conv)[c.entry.val]?

/-- CONVERSION_COMPLETE (R168): a conversion that the tables have there; one begun before a start of its
converter is discarded (R170). -/
def execConversionComplete (c : ConvIn) (s : State) : Host.Outcome State Fault Refusal :=
  .next (
    match s.convEntry c with
    | some e =>
      if s.measuring && s.seq.running then (if s.onSchedule e c then takeConversion e c s else s)
      else if s.core.dev == .ready && s.refWarm && !s.convHeld then readyConversion e c s
      else s
    | none => s)

/-! ## Window results (R94 to R97, R109) -/

/-- The limit code of a sign. -/
def limitCodeOf (positive : Bool) : Int := if positive then 8388607 else -8388608

/-- The result's code: the limit a clip has fixed, or the current between the two samples, corrected if
the window is unguarded (R59, R94, R98); none where a sample is missing. -/
def State.windowCode (s : State) (p : PortId) (i : Fin 2) (o : OpenWin) : Option Int :=
  let x := s.ports[p].inputs[i]
  match o.clip with
  | some b => some (limitCodeOf b)
  | none =>
    match o.startSample, x.lastSample with
    | some a, some (t, b) =>
      if t = s.core.lt then
        let cur := windowCurrent x.qp[o.range] x.cf[o.range] a b
        let cur := if o.isUnguarded then cur - o.corr / 8388608 * fullScale 0 * Config.coupling p i else cur
        some (currentCode o.range cur)
      else none
    | _, _ => none

/-- The flags of a result (Table 4-6). -/
def State.windowFlags (s : State) (p : PortId) (i : Fin 2) (o : OpenWin) (code : Int) : W16 :=
  flagIf (code == 8388607 || code == -8388608) Flag.ovr |||
  flagIf (o.neighbour || s.ports[p].inputs[i].marked s.core.lt) Flag.neighbourOvr |||
  flagIf o.cellSettling Flag.cellSettling |||
  flagIf (s.ports[p].heldAt.any fun t => decide (o.first.toNat ≤ t.toNat)) Flag.calHold |||
  flagIf (o.startSample.any (·.stale) || s.ports[p].inputs[i].lastSample.any (·.2.stale)) Flag.seamStale |||
  flagIf o.breach Flag.breach |||
  flagIf o.isUnguarded Flag.unguarded |||
  flagIf (s.ports[p].mode == .mox && s.heat[p].offSince o.first) Flag.heatDev |||
  flagIf (s.gauze[p].slowAt.any fun t => decide (o.first.toNat ≤ t.toNat)) Flag.gauzeLf

/-- A result in a MOX port may serve a feature (R131). -/
def moxResult (p : PortId) (o : OpenWin) (code : Int) (fl : W16) (s : State) : State :=
  if s.ports[p].mode = .mox then
    let r : FeatureIn :=
      { first := o.first, last := s.core.lt - 1
        value := (code : Rat) / 8388608 * fullScale o.range, flags := fl }
    s.modHeater p fun h => { h with results := FeatureIn.keep s.core.lt r h.results }
  else s

/-- The counts of FRAME.STATUS a result moves (R49, R56). -/
def countFlags (fl : W16) (q : Port) : Port :=
  { q with breach := countUp q.breach (boolNat (hasFlag fl Flag.breach))
           unguardedCount := countUp q.unguardedCount (boolNat (hasFlag fl Flag.unguarded)) }

/-- The first window to complete on a new range: the lane's reset and the notice (R104). A window on it that
was cut or lost has given no result, and the next one takes its place. R104 does not say what a change does whose range
completes no window: the model tells changes with no completed window between them by one notice, from the first old
range to the last new one, and by none, without a reset, where the input is back on the old one (DESIGN CHOICE,
log 75). -/
def rangedResult (p : PortId) (i : Fin 2) (o : OpenWin) (s : State) : State :=
  let x := s.ports[p].inputs[i]
  match x.changed with
  | some old =>
    if o.range = x.range then
      let s := s.modInput p i fun x => { x with changed := none }
      if old = o.range then s
      else
        let s := match s.laneOfInput p i with
          | some l => resetLane .range l s
          | none => s
        notice 0x0207 .ordinary (argB 0 p.val ||| argB 1 i.val ||| argB 2 old.val |||
          argB 3 o.range.val ||| argH 4 o.start ||| argH 6 o.frame.toNat) s
    else s
  | none => s

/-- The result enters its lane. -/
def enterResult (p : PortId) (i : Fin 2) (o : OpenWin) (code : Int) (fl : W16) (s : State) : State :=
  match s.laneOfInput p i with
  | some l => laneInput l code fl (s.modLane l fun x => { x with range := o.range })
  | none => s

/-! ## Auto-ranging (R100, R103) -/

/-- The result joins the record of its frame. -/
def Input.record (code : Int) (ovr : Bool) (r : Fin 8) (x : Input) : Input :=
  let low := decide (0 < r.val) && !ovr &&
    decide (4 * absRat ((code : Rat) * fullScale r) < 3 * 8388608 * fullScale (r - 1))
  { x with results := x.results + 1, ovrSeen := x.ovrSeen || ovr, lowOk := x.lowOk && low && x.range == r }

/-- The overload step (R100): at the window that has opened in this tick, or at the next. Back to back, the
conversion both windows share stays the start sample of the first window on the new range, though R100 resets
the integrator at that start and names no other sample (DESIGN CHOICE, log 60). -/
def overloadStep (p : PortId) (i : Fin 2) (s : State) : State :=
  let x := s.ports[p].inputs[i]
  if x.openWin.any (·.first == s.core.lt) then
    let sample := x.lastSample
    let s := changeRange p i (rangeUp x.range) s
    s.modInput p i fun x =>
      { x with
        lastSample := sample
        openWin := x.openWin.map fun o => { o with range := x.range } }
  else s.modInput p i fun x => { x with stepUp := true, nextRange := none, planned := none }

/-- Near full scale (Table 4-5): two windows in a row at 90 % or more, each seen by the reeve (R13). -/
def Input.nearFull (running : Bool) (code : Int) (x : Input) : Input :=
  if running && decide (9 * 8388608 ≤ 10 * code.natAbs) then
    if 2 ≤ x.nearRun + 1 ∧ x.range < x.hi then { x with nearRun := x.nearRun + 1, nextRange := some (rangeUp x.range) }
    else { x with nearRun := x.nearRun + 1 }
  else { x with nearRun := 0 }

/-- What a result does to the range (R100, R103). R110 suspends ranging under hold; the model raises no
ceiling notice there either (DESIGN CHOICE, log 60). -/
def autoRange (p : PortId) (i : Fin 2) (o : OpenWin) (code : Int) (s : State) : State :=
  let ovr := code == 8388607 || code == -8388608
  let s := s.modInput p i (Input.record code ovr o.range)
  let x := s.ports[p].inputs[i]
  if s.rangeHeld p i then s
  else
    let s := s.modInput p i
      (Input.nearFull (s.reeveActive && s.ports[p].state == .running && o.range == x.range) code)
    if !ovr then s
    else if x.range < x.hi then overloadStep p i s
    else ceilingNotice p i s

/-- The window completes with a code (R94 to R104). -/
def completeWindow (p : PortId) (i : Fin 2) (o : OpenWin) (code : Int) (s : State) : State :=
  let fl := s.windowFlags p i o code
  let s := s.modInput p i fun x => { x with doneWin := none }
  let s := s.modPort p (countFlags fl)
  let s := enterResult p i o code fl (rangedResult p i o s)
  autoRange p i o code (moxResult p o code fl s)

/-- WINDOW_COMPLETE (R94): a window that has ended in this tick, with both its samples; results come
only from a port in STARTING or RUNNING. -/
def execWindowComplete (p : PortId) (i : Fin 2) (s : State) : Host.Outcome State Fault Refusal :=
  .next (
    match s.ports[p].inputs[i].doneWin with
    | some o =>
      if s.measuring && s.ports[p].measures && decide (i.val < s.ports[p].mode.inputs) then
        match s.windowCode p i o with
        | some code => completeWindow p i o code s
        | none => s
      else s
    | none => s)

/-- The low-signal rule is met in tick 0 after the S-th frame (R103). -/
def State.lowSignalDue (s : State) (p : PortId) (i : Fin 2) : Bool :=
  let q := s.ports[p]
  let x := q.inputs[i]
  s.reeveActive && s.measuring && s.frame.tick == 0 && q.state == .running &&
    decide (i.val < q.mode.inputs) && !s.rangeHeld p i && x.lowOk && decide (0 < x.results) &&
    decide (x.s ≤ x.lowRun + 1) && decide (s.rangeFloor p i < x.range)

/-- LOW_SIGNAL_STEP_DOWN (R103): for the next plan. -/
def execLowSignalStepDown (p : PortId) (i : Fin 2) (s : State) : Host.Outcome State Fault Refusal :=
  .next (
    if s.lowSignalDue p i then
      s.modInput p i fun x => { x with nextRange := some (x.range - 1), lowOk := false, lowRun := 0 }
    else s)

/-! ## Clips (R98, R99) -/

/-- The last tick in which a clip sampled now marks others. -/
def State.markEnd (s : State) : W64 := s.core.lt + 4

/-- An input is marked by a clip of another (R98 step 3). -/
def Input.mark (till : W64) (x : Input) : Input :=
  { x with neighbourTo := some till, openWin := x.openWin.map fun o => { o with neighbour := true } }

/-- The four steps of R98 for a clip of input i of port p sampled in this tick. -/
def clip (p : PortId) (i : Fin 2) (positive : Bool) (s : State) : State :=
  let till := s.markEnd
  let s := s.modInput p i fun x =>
    { x with resetNext := true
             openWin := x.openWin.map fun o => { o with clip := o.clip.or (some positive) } }
  let s := if i = 0 then gauzeDiscardFor 1 p s else s
  let s := overInputs (fun p' i' s =>
    if p' = p ∧ i' = i then s else s.modInput p' i' (Input.mark till)) s
  s.modSeq fun q => { q with neighbourTo := some till }

/-- CLIP_DETECTED (R98): a STOPPING port's clip marks the others too (R110). -/
def execClipDetected (p : PortId) (i : Fin 2) (positive : Bool) (s : State) : Host.Outcome State Fault Refusal :=
  .next (
    if s.measuring && s.ports[p].driven && decide (i.val < s.ports[p].mode.inputs) && s.converts p i then
      clip p i positive s
    else s)

end Sys2Proof.Machine
end

