-- ==== Sys2Proof/Machine/Gas.lean ====
section
/-!
DEFINITION. The gas engine (spec/09): inputs of a gas frame, environment, the port chain, unmixing,
averages, drift adaptation with the cell-health fit that steers it (R152 to R154), and the GAS family.
-/

namespace Sys2Proof.Machine

/-! ## The model record (Table 16-11, Table 9-2) -/

/-- The record of a port the host has not given one: MODEL 0x0 and the defaults of Table 9-2. -/
def defaultModel : List Byte :=
  [0, 0, 0, 1, 1, 0, 0, 0, 7, 0, 7, 0, 7, 0] ++ toLE 2 100 ++ [0, 0, 0, 0] ++ List.replicate 64 0 ++
  ([F32.one, 0, F32.ofRat (1 / 4), F32.ofInt 100, F32.ofRat (39083 / 10000000),
    F32.ofRat (-5775 / 10000000000), F32.ofRat (-4183 / 1000000000000000), 0, F32.one] : List F32).flatMap
    fun (x : F32) => toLE 4 x.toNat

def Gas.model (g : Gas) (p : PortId) : List Byte :=
  match g.models[p] with
  | [] => defaultModel
  | m => m

/-- The k-th single precision field from byte 20 on. -/
def mcoef (m : List Byte) (k : Nat) : F32 := f32At m (20 + 4 * k)
def mAge (m : List Byte) : Nat := u16 m 14
def mExclude (m : List Byte) : W16 := BitVec.ofNat 16 (u16 m 16)
/-- F0,k and w_k of the linear map. -/
def mRef (m : List Byte) (k : Nat) : F32 := f32At m (120 + 4 * k)
def mWeight (m : List Byte) (k : Nat) : F32 := f32At m (376 + 4 * k)

/-- The model runs in this mode (Table 9-1). -/
def modelMode (code : Nat) (m : Mode) : Bool :=
  if code = 1 then m.isEc else if code = 2 ∨ code = 3 then m == .mox else if code = 4 then m == .irt else false

/-! ## Inputs (R208, R209) -/

/-- Flags that let an output or a feature serve a port with this EXCLUDE mask. -/
def servesWith (exclude fl : W16) : Bool := fl &&& (Flag.settling ||| Flag.ranged ||| exclude) == 0

/-- An output may serve a port with this EXCLUDE mask. -/
def eligible (exclude : W16) (o : Out) : Bool := servesWith exclude o.flags

/-- The outputs of a port's signal among some of every lane's: a signal that has moved to another lane keeps what it
gave before. -/
def State.outputsOf (s : State) (f : Lane → List Emitted) (p : PortId) (sig : Nat) : List Emitted :=
  s.lanes.toList.flatMap fun x => (f x).filter fun e => e.src == some (p, sig)

/-- The physical quantity an output of a port's signal stands for, by the range, GAIN and setting it was taken with
(R208). -/
def State.outputQuantity (s : State) (p : PortId) (sig : Nat) (e : Emitted) : Rat :=
  let v := e.out.value.toInt
  if sig < 2 then (v : Rat) / 8388608 * fullScale e.range / e.setting.dcGain
  else
    let x := voltsOf e.setting e.gain v
    if sig = 6 then x / (s.rIht p / 1000) else x

/-- The newest of some outputs. -/
def newest (l : List Emitted) : Option Emitted :=
  l.foldl (fun (m : Option Emitted) e => match m with
    | some x => if e.age < x.age then some e else some x
    | none => some e) none

/-- The mean of a signal's outputs in the gas frame just closed that serve with a mask, and the union of their
flags. -/
def State.frameInput (s : State) (exclude : W16) (p : PortId) (sig : Nat) : Option (Rat × W16) :=
  let here := (s.outputsOf (·.closed) p sig).filter fun e => eligible exclude e.out
  if here.isEmpty then none
  else some ((here.map (s.outputQuantity p sig)).sum / here.length, flagUnion (here.map (·.out.flags)))

/-- The input of a signal for the gas frame just closed: the mean of its eligible outputs, else the
most recent eligible one within AGE; with the union of the flags. -/
def State.signalInput (s : State) (p : PortId) (sig : Nat) : Option (F32 × W16) :=
  let m := s.gas.model p
  match s.frameInput (mExclude m) p sig with
  | some x => some (F32.ofRat x.1, x.2)
  | none =>
    (newest ((s.outputsOf (·.held) p sig).filter fun e => eligible (mExclude m) e.out && decide (e.age ≤ mAge m))).map
      fun e => (F32.ofRat (s.outputQuantity p sig e), e.out.flags)

/-- The most recent eligible feature passed within AGE; what Table 9-5 keeps from a gas channel for an output it keeps
for a feature too. -/
def State.featureInput (s : State) (p : PortId) (k : Nat) : Option (F32 × W16) :=
  let m := s.gas.model p
  (s.gas.features[p].find? fun f =>
    f.1.val == k && servesWith (mExclude m) f.2.flags && decide (f.2.age ≤ mAge m)).map fun f =>
      (F32.ofRat f.2.value, f.2.flags)

/-! ## Temperature and humidity (R211, R212) -/

/-- The point at which a rising function passes zero between two bounds, by n halvings. -/
def bisect (f : Rat → Rat) : Nat → Rat → Rat → Rat
  | 0, lo, hi => (lo + hi) / 2
  | n + 1, lo, hi => let mid := (lo + hi) / 2; if f mid < 0 then bisect f n mid hi else bisect f n lo mid

/-- The Callendar-Van Dusen equation solved for the temperature of a resistance (R211): below R0 with its
third-order term, down to -200 degC. -/
def rtdTemp (m : List Byte) (r : F32) : F32 :=
  let r0 := F32.toRat (mcoef m 19)
  let a := F32.toRat (mcoef m 20)
  let b := F32.toRat (mcoef m 21)
  let c := F32.toRat (mcoef m 22)
  let ohm := F32.toRat r
  let excess := fun t : Rat => r0 * (1 + a * t + b * t * t + c * (t - 100) * t * t * t) - ohm
  let d := a * a - 4 * b * (1 - ohm / r0)
  let unsolved := Config.rtdUnsolved r (mcoef m 19) (mcoef m 20) (mcoef m 21) (mcoef m 22)
  if r0 ≤ 0 ∨ a ≤ 0 then unsolved
  else if ohm < r0 then if excess (-200) ≤ 0 then F32.ofRat (bisect excess 48 (-200) 0) else unsolved
  else if b = 0 then F32.ofRat ((ohm / r0 - 1) / a)
  else if d < 0 then unsolved
  else F32.ofRat ((-a + sqrtRat d) / (2 * b))

/-- The hold of port p reached into the gas frame just closed (R222). -/
def State.frozen (s : State) (p : PortId) : Bool := s.calHold p || s.gas.holdEnded.getLsbD p.val

/-- What port p gives as an environment source, from its signals and with a mask; its hold freezes it (R212). -/
def State.giveEnvBy (s : State) (signal : Nat → Option (F32 × W16)) (exclude : W16) (p : PortId) : Option EnvGiven :=
  let q := s.ports[p]
  let m := s.gas.model p
  if s.frozen p then s.gas.given[p]
  else if q.mode = .aux then
    if q.rtd then
      match signal 5, signal 6 with
      | some v, some i => some { value := rtdTemp m (F32.div v.1 i.1), flags := v.2 ||| i.2, age := 0 }
      | _, _ => none
    else (signal 2).map fun v => { value := F32.add (mcoef m 23) (F32.mul (mcoef m 24) v.1), flags := v.2, age := 0 }
  else if q.mode = .cap then
    s.gauze[p].rhClosed.bind fun x =>
      if x.2 &&& exclude == 0 then some { value := F32.ofRat ((x.1 : Rat) / 100), flags := x.2, age := 1 } else none
  else none

/-- What port p gives in this computation; a humidity stands until the next is formed. -/
def State.giveEnv (s : State) (p : PortId) : Option EnvGiven :=
  let g := s.giveEnvBy (s.signalInput p) (mExclude (s.gas.model p)) p
  if s.ports[p].mode = .cap then g.or s.gas.given[p] else g

/-- A sensor's mean as a temperature. -/
def State.sensorTemp (s : State) (t : Fin 9) : Option (F32 × W16) :=
  s.therm.sensors[t].mean.map fun v => (F32.ofRat ((v : Rat) / 100), 0)

/-- The source port's value, if it is valid: its mode is right, and it is younger than its AGE. -/
def State.portSource (s : State) (p : PortId) (modeOk : Bool) : Option (F32 × W16) :=
  if !modeOk then none
  else match s.gas.given[p] with
    | some g =>
      if F32.finite g.value && decide (g.age ≤ mAge (s.gas.model p)) then
        some (g.value, g.flags &&& ~~~Flag.calHold)
      else none
    | none => none

/-- A source of Table 9-3 for port p: none if it is not valid, `some none` for code 0x7. -/
def State.envSource (s : State) (p : PortId) (temp : Bool) (code idx : Nat) : Option (Option (F32 × W16)) :=
  let src := portNo idx
  let q := s.ports[src]
  if code = 0 then (s.sensorTemp (s.nearest (portRow p))).map some
  else if code = 1 then
    if s.therm.sensors[Fin.ofNat 9 idx].failed then none else (s.sensorTemp (Fin.ofNat 9 idx)).map some
  else if code = 2 then (s.portSource src (q.mode == .aux && q.rtd)).map some
  else if code = 3 then
    (s.portSource src (q.mode == .aux && !q.rtd && u8 (s.gas.model src) 5 == boolNat !temp)).map some
  else if code = 4 then (s.portSource src (!temp && q.mode == .cap)).map some
  else if code = 5 then
    match (if temp then s.gas.hostT else s.gas.hostH) with
    | some (v, age) => if age ≤ 6000 then some (some (F32.ofRat ((v : Rat) / 100), 0)) else none
    | none => none
  else if code = 7 then some none
  else none

/-- The quantity in use: the value (none for a difference of zero), its flags, what is kept, and
whether a notice tells of a change of source. -/
structure EnvResult where
  value : Option F32
  flags : W16
  use : EnvUse
  change : Option Bool

def EnvUse.take (u : EnvUse) (fallback : Bool) (r : Option (F32 × W16)) : EnvResult :=
  { value := r.map (·.1), flags := (r.map (·.2)).getD 0
    use := { last := (r.map (·.1)).or u.last, fallback := fallback, absent := r.isNone }
    change := if u.fallback = fallback then none else some (!fallback) }

/-- The primary or the fallback source, whichever is valid, and whether it is the fallback (R211). -/
def State.envValid (s : State) (p : PortId) (temp : Bool) : Option (Bool × Option (F32 × W16)) :=
  let m := s.gas.model p
  let o := if temp then 6 else 10
  ((s.envSource p temp (u8 m o) (u8 m (o + 1))).map (false, ·)).or
    ((s.envSource p temp (u8 m (o + 2)) (u8 m (o + 3))).map (true, ·))

/-- Primary, fallback, or the last valid value (R211). -/
def State.envResolve (s : State) (p : PortId) (temp : Bool) : EnvResult :=
  let u := if temp then s.gas.envT[p] else s.gas.envH[p]
  match s.envValid p temp with
  | some r => u.take r.1 r.2
  | none => { value := u.last, flags := Flag.carried, use := u, change := none }

/-- A valid value is kept as the last one in every frame, computed or not (R211). -/
def State.keepEnv (s : State) (p : PortId) (temp : Bool) (u : EnvUse) : EnvUse :=
  match s.envValid p temp with
  | some (_, some x) => { u with last := some x.1 }
  | _ => u

/-! ## The port chain (R213, R214) -/

/-- c1 d + c2 d^2 + c3 d^3. -/
def cubic (m : List Byte) (k : Nat) (d : F32) : F32 :=
  F32.add (F32.add (F32.mul (mcoef m k) d) (F32.mul (mcoef m (k + 1)) (F32.mul d d)))
    (F32.mul (mcoef m (k + 2)) (F32.mul (F32.mul d d) d))

/-- x_c; none for a denominator of zero or less. -/
def compensated (m : List Byte) (dT dH x : F32) : Option F32 :=
  let num := F32.sub (F32.sub x (cubic m 3 dT)) (F32.mul (mcoef m 9) dH)
  let den := F32.mul (F32.add F32.one (cubic m 6 dT)) (F32.add F32.one (F32.mul (mcoef m 10) dH))
  if F32.lt 0 den then some (F32.div num den) else none

/-- ln of a positive number. -/
def lnPos (x : F32) : Option F32 :=
  if F32.lt 0 x then some (F32.ln x) else none

/-- The features of the linear map, with their weights. -/
def mapFeatures (m : List Byte) : List Nat :=
  (List.range 64).filter fun k => F32.toRat (mWeight m k) != 0

/-- The raw signal x and the flags of its inputs (Table 9-1). -/
def State.rawSignal (s : State) (p : PortId) : Option (F32 × W16) :=
  let m := s.gas.model p
  let code := u8 m 0
  if code = 1 then
    (s.signalInput p 0).bind fun i1 =>
      let x := F32.sub i1.1 (mcoef m 0)
      if s.ports[p].mode = .ec3 ∨ F32.toRat (mcoef m 2) = 0 then some (x, i1.2)
      else (s.signalInput p 1).map fun i2 =>
        (F32.sub x (F32.mul (mcoef m 2) (F32.sub i2.1 (mcoef m 1))), i1.2 ||| i2.2)
  else if code = 2 then
    (s.featureInput p (u8 m 1)).bind fun f => (lnPos (F32.div (mcoef m 14) f.1)).map fun x => (x, f.2)
  else if code = 3 then
    (mapFeatures m).foldl (fun (acc : Option (F32 × W16)) k =>
      acc.bind fun a => (s.featureInput p k).bind fun f =>
        (lnPos (F32.div f.1 (mRef m k))).map fun x =>
          (F32.add a.1 (F32.mul (mWeight m k) x), a.2 ||| f.2)) (some (0, 0))
  else if code = 4 then
    (s.featureInput p (u8 m 2)).bind fun on => (s.featureInput p (u8 m 3)).bind fun off =>
      (lnPos (F32.div (F32.sub on.1 off.1) (mcoef m 15))).map fun x => (F32.neg x, on.2 ||| off.2)
  else none

/-- The port value of a compensated signal. -/
def portOutput (m : List Byte) (a xc : F32) : F32 :=
  let code := u8 m 0
  if code = 1 then F32.div xc (F32.mul (mcoef m 11) a)
  else if code = 2 then
    F32.mul (mcoef m 12) (F32.sub (F32.exp (F32.mul (mcoef m 13) xc)) F32.one)
  else if code = 3 then F32.add (f32At m 632) xc
  else F32.div xc (mcoef m 11)

/-- The value of port p for the gas frame just closed, with its flags; none if it is missing (R210). -/
def State.portGas (s : State) (p : PortId) (t h : EnvResult) : Option (F32 × W16) :=
  let m := s.gas.model p
  if !s.ports[p].measures || !modelMode (u8 m 0) s.ports[p].mode then none
  else
    let dT := match t.value with
      | some v => F32.sub v (F32.ofInt 25)
      | none => 0
    let dH := match h.value with
      | some v => F32.sub v (F32.ofInt 50)
      | none => 0
    (s.rawSignal p).bind fun x => (compensated m dT dH x.1).bind fun xc =>
      let v := portOutput m s.gas.adapt[p].a xc
      if F32.finite v then some (v, x.2 ||| t.flags ||| h.flags) else none

/-! ## One computation (R206, R210, R222) -/

def Gas.setValue (p : PortId) (v : PortValue) (g : Gas) : Gas := { g with values := g.values.set p v }

/-- The flags a held value contributes. -/
def PortValue.heldFlags (age : Nat) (v : PortValue) : W16 :=
  match v.value with
  | some _ => v.flags ||| flagIf (age < v.age) Flag.carried
  | none => Flag.carried

/-- A source changed from primary to fallback or back. -/
def envNotice (p : PortId) (q : Nat) (c : Option Bool) (s : State) : State :=
  match c with
  | some b =>
    if u8 (s.gas.model p) 0 ≠ 0 ∨ s.ports[p].mode = .cap then
      notice 0x0703 .ordinary (argB 0 p.val ||| argB 1 q ||| argB 2 (boolNat b)) s
    else s
  | none => s

/-- The environment and the value of port p. -/
def computePort (p : PortId) (s : State) : State :=
  let t := s.envResolve p true
  let h := s.envResolve p false
  let m := s.gas.model p
  let v := s.gas.values[p]
  let s := s.modGas fun g => { g with envT := g.envT.set p t.use, envH := g.envH.set p h.use }
  let s := envNotice p 1 h.change (envNotice p 0 t.change s)
  if u8 m 0 = 0 then s.modGas (Gas.setValue p { out := Flag.carried })
  else if s.frozen p then
    s.modGas (Gas.setValue p { v with out := v.heldFlags (mAge m) ||| Flag.calHold })
  else
    match s.portGas p t h with
    | some (x, fl) =>
      let s := s.modGas (Gas.setValue p { value := some x, flags := fl, out := fl, age := 0, missing := false })
      if v.missing then notice 0x0702 .ordinary (argB 0 p.val ||| argB 1 1) s else s
    | none =>
      let s := s.modGas (Gas.setValue p { v with out := v.heldFlags (mAge m), missing := true })
      if v.missing then s else notice 0x0702 .ordinary (argB 0 p.val) s

/-! ## Channels (R217 to R220) -/

/-- RSCALE in 0.01 ppb. -/
def rscaleOf (k : Fin 4) : Nat := 10 ^ k.val

/-- M[j][n]. -/
def Gas.m (g : Gas) (j : Fin 16) (p : PortId) : F32 := g.matrix.getD (16 * j.val + p.val) 0
def Gas.rowPorts (g : Gas) (j : Fin 16) : List PortId := (List.finRange 16).filter fun p => F32.toRat (g.m j p) != 0
/-- A row of zeros disables its channel (R216). -/
def Gas.enabled (g : Gas) (j : Fin 16) : Bool := !(g.rowPorts j).isEmpty

/-- g_j in ppb. -/
def Gas.sum (g : Gas) (j : Fin 16) : F32 :=
  (g.rowPorts j).foldl (fun a p => F32.add a (F32.mul (g.m j p) ((g.values[p].value).getD 0)))
    g.channels[j].offset

/-- An output of series k of channel j: kept for GAS.READ, given to the comparators, and with SERIES k
to the live value and the ring (R219). -/
def emitGas (j : Fin 16) (k : Fin 5) (v : Int) (exact24 : Int) (fl : W16) (cov chg : Nat) (s : State) : State :=
  let v24 := satInt 24 exact24
  let fl := fl ||| flagIf (v24 != exact24) Flag.sat
  let o : SeriesOut := { value := v, flags := fl, coverage := cov, changes := chg }
  let s := s.modGas fun g => { g with outs := g.outs.set j (g.outs[j].set k o) }
  let s := leveeFeed 2 j.val k.val v fl s
  let c := s.gas.channels[j]
  let out : Out := { value := BitVec.ofInt 24 v24, flags := fl }
  let tag : Byte := BitVec.ofNat 8 (64 + j.val)
  let s := if c.series = k then s.modGas fun g => { g with live := g.live.set j (g.live[j].update out) } else s
  if c.series = k && c.ring then emitSample tag out s
  else if s.gas.oneShot && k == 0 then emitSample tag out s
  else s

/-- Frames in a block of series k. -/
def blockLength (k : Fin 4) : Nat := #v[100, 6000, 90000, 360000][k]

/-- The average of a block is emitted. -/
def emitBlock (j : Fin 16) (k : Fin 4) (b : Block) (s : State) : State :=
  let avg := roundAway ((b.sum : Rat) / b.count)
  emitGas j k.succ avg (roundAway ((avg : Rat) / rscaleOf s.gas.channels[j].rscale)) b.flags b.count
    (satNat 255 b.changes) s

/-- Block i, with the changes already made in it. -/
def Block.begin_ (i : Nat) (b : Block) : Block :=
  { index := i, changes := b.later.count i, later := b.later.filter (i < ·) }

def Gas.setBlock (j : Fin 16) (k : Fin 4) (b : Block) (g : Gas) : Gas :=
  { g with blocks := g.blocks.set j (g.blocks[j].set k b) }

/-- The frame value of frame f enters the block of series k; a block that has ended is emitted, one
left over from before with the next value computed (R220). -/
def addBlock (j : Fin 16) (f : Nat) (v : Int) (fl : W16) (k : Fin 4) (s : State) : State :=
  let n := blockLength k
  let b := s.gas.blocks[j][k]
  let late := b.index ≠ f / n
  let s := if late ∧ 0 < b.count then emitBlock j k b s else s
  let b := if late then b.begin_ (f / n) else b
  let b := { b with sum := b.sum + v, flags := b.flags ||| fl, count := b.count + 1 }
  if (f + 1) % n = 0 then emitBlock j k b (s.modGas (Gas.setBlock j k (b.begin_ (f / n + 1))))
  else s.modGas (Gas.setBlock j k b)

/-- Channel j of the computation for frame f. -/
def computeChannel (f : Nat) (j : Fin 16) (s : State) : State :=
  if !s.gas.enabled j then s
  else
    let g := s.gas.sum j
    let ppb : Rat := if F32.isNan g then (Config.gasNotFinite j : Rat) / 100 else F32.toRat g
    let exact := roundAway (ppb * 100)
    let exact24 := roundAway (ppb * 100 / rscaleOf s.gas.channels[j].rscale)
    let v := satInt 32 exact
    let fl := flagUnion ((s.gas.rowPorts j).map fun p => s.gas.values[p].out) |||
      flagIf (v != exact || satInt 24 exact24 != exact24) Flag.sat
    let s := emitGas j 0 v exact24 fl 1 0 s
    (List.finRange 4).foldl (fun s k => addBlock j f v fl k s) s

/-! ## Drift adaptation (R223 to R225) -/

/-- Adaptation is frozen, and keeps its a, or released (R225). -/
def Adapt.freeze (b : Bool) (x : Adapt) : Adapt := { x with frozen := b, next := if b then none else x.next }

/-- A number times 10 000 in 16 bits. -/
def tenK (x : F32) : Nat := satNat 65535 (roundRat (F32.toRat x * 10000)).toNat

/-- Extremes with a in the current period. -/
def extend (a : F32) : List (F32 × F32) → List (F32 × F32)
  | [] => [(a, a)]
  | (lo, hi) :: r => (if F32.lt a lo then a else lo, if F32.lt hi a then a else hi) :: r

/-- A waiting a takes over in tick 1 of the frame after its fit, with the notice of a change; a limit's first action that
leaves a as it is has its record alone (R223, R224). -/
def applyAdapt (p : PortId) (s : State) : State :=
  let x := s.gas.adapt[p]
  match x.next with
  | none => s
  | some (a, q, lim) =>
    if x.nextFrom = s.frame.number then s else
    let args := argB 0 p.val ||| argB 1 lim ||| argH 2 (tenK x.a) ||| argH 4 (tenK a) ||| argH 6 (tenK q)
    let first := decide ((lim.testBit 0 && !x.acted40) || (lim.testBit 1 && !x.acted30))
    let moved := decide (F32.toRat x.recorded ≤ 100 * absRat (F32.toRat a - F32.toRat x.recorded))
    let rec_ := first || moved
    let s := if a = x.a then s else notice 0x0704 .ordinary args s
    let s := if rec_ then boxRecord 0x0C args s else s
    let y := { x with a := a, next := none, periods := extend a (extend x.a x.periods)
                      acted40 := x.acted40 || lim.testBit 0, acted30 := x.acted30 || lim.testBit 1
                      recorded := if rec_ then a else x.recorded }
    s.modGas fun g => { g with adapt := g.adapt.set p y }

/-- The misses of a run that are not yet counted: its first frame, their number, and whether its notice is raised. -/
def countRun (s : State) (r : W32 × Nat × Bool) : State :=
  let s := s.modGas fun g => { g with missed := countUp g.missed r.2.1 }
  if r.2.2 then s else notice 0x0701 .ordinary (argW 4 r.1.toNat) s

/-- The misses of the runs that are over and of the one in progress are counted, with one notice for each run
(R207). -/
def countMisses (s : State) : State :=
  let s := (s.gas.missOld.foldl countRun s).modGas fun g => { g with missOld := [] }
  match s.gas.missRun with
  | some (f, n, told) =>
    if n = 0 then s
    else
      let s := s.modGas fun g => { g with missed := countUp g.missed n, missRun := some (f, 0, true) }
      if told then s else notice 0x0701 .ordinary (argW 4 f.toNat) s
  | none => s

/-- GAS_COMPUTATION (R206): in tick 1, for the gas frame of a frame of RUN. -/
def execGasComputation (s : State) : Host.Outcome State Fault Refusal :=
  .next (
    let s := if s.tickOne && s.measuring && s.therm.leveeDue then
        leveeTemps (s.modTherm fun t => { t with leveeDue := false }) else s
    if s.reeveActive && s.measuring && s.frame.tick == 1 && s.gas.due then
      let f := (s.frame.number - 1).toNat
      let s := (countMisses s).modGas fun g => { g with due := false, missRun := none }
      let s := (List.finRange 16).foldl (fun s p => applyAdapt p s) s
      let s := s.modGas fun g => { g with given := Vector.ofFn fun p => s.giveEnv p }
      let s := (List.finRange 16).foldl (fun s p => computePort p s) s
      let s := (List.finRange 16).foldl (fun s j => computeChannel f j s) s
      s.modGas fun g => { g with oneShot := false }
    else s)

/-- GAS_COMPUTATION_MISS (R207): the reeve counts the computations it missed. -/
def execGasComputationMiss (s : State) : Host.Outcome State Fault Refusal :=
  .next (if s.reeveActive then countMisses s else s)

/-- Tick 2 has come without the computation due in tick 1: a miss of frame f, in the run of the frame before it or in
one of its own. -/
def Gas.miss (f : W32) (g : Gas) : Gas :=
  let own := { g with due := false, missLast := f, missRun := some (f, 1, false) }
  match g.missRun with
  | some (a, n, told) =>
    if f = g.missLast + 1 then { own with missRun := some (a, n + 1, told) }
    else if n = 0 then own
    else { own with missOld := g.missOld ++ [(a, n, told)] }
  | none => own

/-- The eligible outputs kept for R209, one for each signal and flag word, newest first. -/
def keepOutputs (l : Lane) : List Emitted :=
  let old := (l.held.map fun e => { e with age := e.age + 1 }).filter fun e => decide (e.age ≤ 65536)
  l.outs.foldl (fun h e =>
    if eligible 0 e.out then
      { e with age := 1 } :: h.filter fun x => x.out.flags != e.out.flags || x.src != e.src
    else h) old

/-- A gas frame closes as tick 1 begins (R206). -/
def Lane.roll (l : Lane) : Lane := { l with closed := l.outs, outs := [], held := keepOutputs l }

/-- The features of the gas frame now closed come first, and replace those of their number and flags; every other is a
gas frame older (R209). -/
def rollFeatures (new old : List (Fin 64 × Feature)) : List (Fin 64 × Feature) :=
  (new ++ old.filter fun f => decide (f.2.age < 65535) && !(new.any fun x => x.1 == f.1 && x.2.flags == f.2.flags)).map
    fun f => (f.1, { f.2 with age := f.2.age + 1 })

/-- One more frame of adaptation's periods and of the interval between its stores (R223, R224). -/
def Adapt.frame (x : Adapt) : Adapt :=
  if x.periodFrames + 1 < 8640000 then
    { x with periodFrames := x.periodFrames + 1, sinceStore := min 360000 (x.sinceStore + 1) }
  else
    { x with periodFrames := 0, sinceStore := min 360000 (x.sinceStore + 1)
             periods := (x.a, x.a) :: (extend x.a x.periods).take 30 }

/-- Ages of the engine's inputs, in every frame whatever the device state; what a hold freezes does not age
(R212, R222). -/
def Gas.roll (held : PortId → Bool) (g : Gas) : Gas :=
  { g with
    features := Vector.ofFn fun p => rollFeatures g.passed[p] g.features[p], passed := Vector.replicate 16 []
    given := Vector.ofFn fun p => g.given[p].map fun x => if held p then x else { x with age := x.age + 1 }
    values := Vector.ofFn fun p =>
      if held p then g.values[p] else { g.values[p] with age := g.values[p].age + 1 }
    hostT := g.hostT.map fun x => (x.1, x.2 + 1), hostH := g.hostH.map fun x => (x.1, x.2 + 1)
    adapt := g.adapt.map Adapt.frame }

/-- The humidity formed in the gas frame now closed. -/
def Gauze.roll (g : Gauze) : Gauze := { g with rhClosed := if g.rhNew then g.rh else none, rhNew := false }

/-- A humidity formed in the gas frame now closed is what its port gives, whether or not a computation is made. -/
def Gas.keepHumidity (s : State) (g : Gas) : Gas :=
  { g with given := Vector.ofFn fun p => if s.ports[p].mode = .cap then s.giveEnv p else g.given[p] }

/-- A gas frame closes: its inputs age, and what it gives the environment is kept (R206, R211). -/
def gasRoll (s : State) : State :=
  let s := ((s.modLanes fun v => v.map Lane.roll).modGauze fun v => v.map Gauze.roll).modGas (Gas.roll s.frozen)
  let s := s.modGas (Gas.keepHumidity s)
  s.modGas fun g =>
    { g with envT := Vector.ofFn fun p => s.keepEnv p true g.envT[p]
             envH := Vector.ofFn fun p => s.keepEnv p false g.envH[p] }

/-! ## The cell-health fit (R152 to R154) -/

/-- h(x) of R154. -/
def health1 (x ref k : F32) : F32 :=
  let l := F32.ln (F32.div x ref)
  let d := F32.sub F32.one (F32.div (if F32.lt l 0 then F32.neg l else l) (F32.ln k))
  if F32.lt d 0 then 0 else d

def healthIndex (c r k : CellFit) : Nat :=
  let h := F32.mul (F32.mul (F32.mul (F32.ofInt 1000) (health1 c.rs r.rs k.rs)) (health1 c.rct r.rct k.rct))
    (health1 c.cdl r.cdl k.cdl)
  satNat 1000 (roundRat (F32.toRat h)).toNat

/-- The bounds of R153. -/
def cellOk (c : CellFit) : Bool :=
  F32.finite c.rs && F32.finite c.rct && F32.finite c.cdl &&
  decide ((1 : Rat) / 10 ≤ F32.toRat c.rs ∧ F32.toRat c.rs ≤ 1000000 ∧
    1 ≤ F32.toRat c.rct ∧ F32.toRat c.rct ≤ 100000000 ∧
    (1 : Rat) / 1000000000 ≤ F32.toRat c.cdl ∧ F32.toRat c.cdl ≤ 1)

/-- The highest and lowest a of the current and the 30 preceding periods. -/
def Adapt.extremes (x : Adapt) : F32 × F32 :=
  (x.periods.take 31).foldl (fun e y => (if F32.lt y.1 e.1 then y.1 else e.1, if F32.lt e.2 y.2 then y.2 else e.2))
    (x.a, x.a)

/-- a' and q of a fit, with the limits that acted (R223). -/
def adaptStep (m : List Byte) (c r : CellFit) (x : Adapt) : F32 × F32 × Nat :=
  let q := F32.mul (F32.pow (F32.div c.cdl r.cdl) (mcoef m 16)) (F32.pow (F32.div r.rct c.rct) (mcoef m 17))
  let a := F32.add x.a (F32.mul (mcoef m 18) (F32.sub q x.a))
  let e := x.extremes
  let lo1 := F32.ofRat (3 / 5)
  let hi1 := F32.ofRat (7 / 5)
  let lo2 := F32.mul (F32.ofRat (4 / 5)) e.2
  let hi2 := F32.mul (F32.ofRat (6 / 5)) e.1
  let lo := if F32.lt lo1 lo2 then lo2 else lo1
  let hi := if F32.lt hi2 hi1 then hi2 else hi1
  let y := if F32.lt a lo then lo else if F32.lt hi a then hi else a
  (y, q, bits [F32.lt a lo1 || F32.lt hi1 a, F32.lt a lo2 || F32.lt hi2 a])

/-- A fit steers adaptation (R223); one that changes a by less than 0.1 % leaves it, and counts only for a limit that acts for
the first time (R224). -/
def adaptFrom (p : PortId) (c r : CellFit) (fl : W16) (s : State) : State :=
  let x := s.gas.adapt[p]
  if !s.ports[p].mode.isEc || x.frozen || x.committed == some s.frame.number ||
      fl &&& (Flag.calHold ||| Flag.cellSettling ||| Flag.seamStale) != 0 then s
  else
    let y := adaptStep (s.gas.model p) c r x
    let far := decide (F32.toRat x.a ≤ 1000 * absRat (F32.toRat y.1 - F32.toRat x.a))
    let first := (y.2.2.testBit 0 && !x.acted40) || (y.2.2.testBit 1 && !x.acted30)
    if F32.finite y.1 && F32.finite y.2.1 && (far || first) then
      let y := if far then y else (x.a, y.2)
      s.modGas fun g => { g with adapt := g.adapt.set p { x with next := some y, nextFrom := s.frame.number } }
    else s

/-- A rejected fit keeps the previous parameters and HI (R153). -/
def rejectFit (p : PortId) (cause : Fin 4) (residual : Nat) (fl : W16) (s : State) : State :=
  notice 0x0402 .ordinary (argB 0 p.val ||| argB 1 cause.val)
    (s.modGauzeAt p fun g =>
      { g with health := some { (g.health.getD {}) with residual := residual, flags := fl, status := cause } })

/-- The notice of a low HI, once until it has risen by 50 (R154). -/
def healthNotice (p : PortId) (hi : Nat) (s : State) : State :=
  let g := s.gauze[p]
  if hi < g.threshold then
    if g.hiLow then s
    else notice 0x0403 .ordinary (argB 0 p.val ||| argH 2 hi) (s.modGauzeAt p fun g => { g with hiLow := true })
  else if g.threshold + 50 < hi then s.modGauzeAt p fun g => { g with hiLow := false }
  else s

/-- A fit that may supply the references of R253. -/
def fitClean (fl : W16) : Bool := fl &&& (Flag.calHold ||| Flag.cellSettling ||| Flag.seamStale) == 0

/-- It is remembered for a commit: the newest, and the newest before the hold in force (R253). -/
def keepFit (p : PortId) (c : CellFit) (s : State) : State :=
  let begun := s.cal.sessions[p].map (·.begun)
  s.modGauzeAt p fun g =>
    let old := match g.goodFits, begun with
      | h :: r, some b => if b.toNat ≤ h.2.1.toNat then r else h :: r
      | l, _ => l
    { g with goodFits := (c, s.core.lt, s.frame.number) :: old.take 1
             refs := if g.refsWanted then some c else g.refs, refsWanted := false }

/-- A fit that stands. Without references there is no HI: its bytes then read zero (DESIGN CHOICE, log 75). -/
def takeFit (p : PortId) (c : CellFit) (residual : Nat) (fl : W16) (s : State) : State :=
  let s := if fitClean fl then keepFit p c s else s
  match s.gauze[p].refs with
  | none =>
    s.modGauzeAt p fun g => { g with health := some { cell := c, hi := 0, residual := residual, flags := fl, status := 3 } }
  | some r =>
    let hi := healthIndex c r s.gauze[p].spread
    let s := s.modGauzeAt p fun g =>
      { g with health := some { cell := c, hi := hi, residual := residual, flags := fl, status := 0 } }
    adaptFrom p c r fl (healthNotice p hi s)

/-- CELL_HEALTH_FIT (R152). -/
def execCellHealthFit (p : PortId) (s : State) : Host.Outcome State Fault Refusal :=
  .next (
    let g := s.gauze[p]
    if g.fitDue && s.reeveActive then
      let fl := flagUnion (g.results.map (·.flags))
      let r := cellFit (g.results.map fun t =>
        { f := toneHz g.resultsF0 t.k, z := Cplx.polar (F32.toRat t.zmag) ((t.zph : Rat) / 36000) })
      let c : CellFit := { rs := F32.ofRat r.1.1, rct := F32.ofRat r.1.2.1, cdl := F32.ofRat r.1.2.2 }
      let residual := (roundRat (10000 * r.2)).toNat
      let s := s.modGauzeAt p fun g => { g with fitDue := false }
      if 5 < 100 * r.2 then rejectFit p 1 residual fl s
      else if !cellOk c then rejectFit p 2 residual fl s
      else takeFit p c residual fl s
    else s)

/-- ADAPT_STORE (R224). -/
def execAdaptStore (p : PortId) (s : State) : Host.Outcome State Fault Refusal :=
  .next (
    let x := s.gas.adapt[p]
    if s.reeveActive && s.nvmAllowed && decide (360000 ≤ x.sinceStore) && x.stored != some (x.a, x.periods) then
      s.modGas fun g => { g with adapt := g.adapt.set p { x with stored := some (x.a, x.periods), sinceStore := 0 } }
    else s)

/-! ## The GAS family (R226, R356) -/

/-- A model, matrix or channel change takes effect: it counts in the blocks in progress (R220). -/
def Block.change (f n : Nat) (b : Block) : Block :=
  if b.index = f / n then { b with changes := b.changes + 1 } else { b with later := f / n :: b.later }

def Gas.changed (f : Nat) (j : Fin 16 → Bool) (g : Gas) : Gas :=
  let row (k : Fin 16) := Vector.ofFn fun (i : Fin 4) => (g.blocks[k][i]).change f (blockLength i)
  { g with blocks := Vector.ofFn fun k => if j k then row k else g.blocks[k] }

/-- The flags EXCLUDE may name (R215). -/
def excludeOk : W16 :=
  Flag.ovr ||| Flag.neighbourOvr ||| Flag.breach ||| Flag.unguarded ||| Flag.heatDev ||| Flag.gauzeLf

/-- A source code with its index for a quantity (R489). -/
def sourceFault (temp : Bool) (o : Nat) (m : List Byte) : Option Nat :=
  let c := u8 m o
  let i := u8 m (o + 1)
  let codeOk := if temp then c ≤ 3 || c == 5 || c == 7 else c == 3 || c == 4 || c == 5 || c == 7
  if !codeOk then some o
  else if (if c = 1 then 8 < i else if c = 2 ∨ c = 3 ∨ c = 4 then 15 < i else i ≠ 0) then some (o + 1)
  else none

/-- The first of some fields that breaks a test. -/
def fieldFault (m : List Byte) (ks : List Nat) (ok : F32 → Bool) : Option Nat :=
  (ks.find? fun k => !ok (mcoef m k)).map fun k => 20 + 4 * k

def within (lo hi : Rat) (x : F32) : Bool := decide (lo ≤ F32.toRat x ∧ F32.toRat x ≤ hi)
def nonZero (x : F32) : Bool := F32.toRat x != 0
def positive (x : F32) : Bool := decide (0 < F32.toRat x)

/-- The parameters a model uses are in range (Table 9-2). -/
def modelRanges (m : List Byte) : Option Nat :=
  let code := u8 m 0
  if code = 1 then
    (fieldFault m [2] (within (-4) 4)).or <| (fieldFault m [11] nonZero).or <|
      (fieldFault m [16, 17] (within (-2) 2)).or
        (fieldFault m [18] fun x => F32.le (F32.ofRat (1 / 100)) x && decide (F32.toRat x ≤ 1))
  else if code = 2 then fieldFault m [14] positive
  else if code = 3 then
    ((mapFeatures m).find? fun k => !positive (mRef m k)).map fun k => 120 + 4 * k
  else if code = 4 then
    (if u8 m 2 = u8 m 3 then some 3 else none).or <| (fieldFault m [11] nonZero).or (fieldFault m [15] positive)
  else none

/-- The first byte at fault in a GAS.MODEL object (R215, R489). -/
def gasModelFault (m : List Byte) : Option Nat :=
  let want := if u8 m 0 = 3 then 636 else 120
  if 4 < u8 m 0 || m.length != want then some 0
  else if u8 m 0 = 2 ∧ 63 < u8 m 1 then some 1
  else if u8 m 0 = 4 ∧ 63 < u8 m 2 then some 2
  else if u8 m 0 = 4 ∧ 63 < u8 m 3 then some 3
  else if u8 m 0 = 1 ∧ 1 < u8 m 4 then some 4
  else if 1 < u8 m 5 then some 5
  else (sourceFault true 6 m).or <| (sourceFault true 8 m).or <| (sourceFault false 10 m).or <|
    (sourceFault false 12 m).or <|
    (if u16 m 14 = 0 then some 14 else none).or <|
    (if mExclude m &&& ~~~excludeOk != 0 then some 16 else none).or <|
    (firstNonZero m 18 2).or <|
    (((List.range ((m.length - 20) / 4)).find? fun k => !F32.finite (mcoef m k)).map fun k => 20 + 4 * k).or
      (modelRanges m)

/-- An AUX voltage source is checked against the quantity its own record gives (R489); a port that
names itself is checked against the record it brings. -/
def State.quantityFault (s : State) (p : PortId) (m : List Byte) : Option Nat :=
  [6, 8, 10, 12].find? fun o =>
    u8 m o == 3 &&
      let src := portNo (u8 m (o + 1))
      u8 (if src = p then m else s.gas.model src) 5 != (if o < 10 then 0 else 1)

/-- The model takes effect: ADAPT with it (R225). -/
def setModel (p : PortId) (m : List Byte) (s : State) : State :=
  s.modGas fun g =>
    let x := g.adapt[p]
    let x := x.freeze (u8 m 4 == 0)
    ({ g with models := g.models.set p m, adapt := g.adapt.set p x }).changed s.frame.number.toNat fun _ => true

/-- GAS.MODEL's effect on a payload of port and object; the DETAIL of a refusal at its boundary. -/
def applyGasModel (p : List Byte) (s : State) : Except Nat State :=
  match s.quantityFault (portNo (u8 p 0)) (p.drop 1) with
  | some d => .error d
  | none => .ok (setModel (portNo (u8 p 0)) (p.drop 1) s)

/-- In RUN a change waits for the boundary. -/
def gasModelDone (n : SlotId) (sel : Nat) (o : List Byte) (s : State) : State :=
  match gasModelFault o with
  | some d => badArg n d s
  | none =>
    let p := BitVec.ofNat 8 sel :: o
    if s.core.dev = .run then pendBoundary n 0x0701 p 1 s
    else match applyGasModel p s with
      | .ok t => postStatus n .ok t
      | .error d => badArg n d s

def gasModelCmd : ChunkCmd :=
  { op := 0x0701, selOk := fun k => k < 16, totalOk := fun _ t => decide (t = 120 ∨ t = 636), done := gasModelDone }

/-- GAS_MODEL (R226). -/
def execGasModel (n : SlotId) (s : State) : Host.Outcome State Fault Refusal :=
  .next (onSlot n 0x0701 (fun p s => chunk gasModelCmd n p s) s)

/-- The first coefficient at fault: not finite, or not zero for a port without a model (R216). -/
def State.matrixFault (s : State) (o : List Byte) : Option Nat :=
  ((List.range 256).find? fun k =>
    let x := f32At o (4 * k)
    !F32.finite x || (F32.toRat x != 0 && u8 (s.gas.model (portNo k)) 0 == 0)).map (4 * ·)

def applyGasMatrix (o : List Byte) (s : State) : State :=
  s.modGas fun g =>
    ({ g with matrix := (List.range 256).map fun k => f32At o (4 * k) }).changed s.frame.number.toNat fun _ => true

def gasMatrixDone (n : SlotId) (_ : Nat) (o : List Byte) (s : State) : State :=
  match s.matrixFault o with
  | some d => badArg n d s
  | none =>
    if s.core.dev = .run then pendBoundary n 0x0702 o 1 s else postStatus n .ok (applyGasMatrix o s)

def gasMatrixCmd : ChunkCmd :=
  { op := 0x0702, selOk := fun k => k == 0, totalOk := fun _ t => t == 1024, done := gasMatrixDone }

/-- GAS_MATRIX (R216). -/
def execGasMatrix (n : SlotId) (s : State) : Host.Outcome State Fault Refusal :=
  .next (onSlot n 0x0702 (fun p s => chunk gasMatrixCmd n p s) s)

def gasChannelFault (p : List Byte) : Option Nat :=
  if 15 < u8 p 0 then some 0
  else if 3 < u8 p 1 then some 1
  else if 4 < u8 p 2 then some 2
  else if 1 < u8 p 3 then some 3
  else (((slice p 4 8).findIdx? fun b => b.getLsbD 7).map (· + 4)).or
    (if F32.finite (f32At p 12) then none else some 12)

def applyGasChannel (p : List Byte) (s : State) : State :=
  let j : Fin 16 := Fin.ofNat 16 (u8 p 0)
  let c : Channel :=
    { name := slice p 4 8, offset := f32At p 12, rscale := Fin.ofNat 4 (u8 p 1)
      series := Fin.ofNat 5 (u8 p 2), ring := u8 p 3 == 1 }
  s.modGas fun g => ({ g with channels := g.channels.set j c }).changed s.frame.number.toNat fun k => k == j

/-- GAS_CHANNEL (R218). -/
def execGasChannel (n : SlotId) (s : State) : Host.Outcome State Fault Refusal :=
  .next (onSlot n 0x0703 (fun p =>
    orRefuse n ((gasChannelFault p).map (.badArg, ·)) fun s =>
      if s.core.dev = .run then pendBoundary n 0x0703 p 1 s else postStatus n .ok (applyGasChannel p s)) s)

def gasEnvFault (p : List Byte) : Option Nat := if 1 < u8 p 0 then some 0 else firstNonZero p 1 1

def applyGasEnv (p : List Byte) : State → State := State.modGas fun g =>
  if u8 p 0 = 0 then { g with hostT := some (s16 p 2, 0) } else { g with hostH := some (s16 p 2, 0) }

/-- GAS_ENV (R226). -/
def execGasEnv (n : SlotId) (s : State) : Host.Outcome State Fault Refusal :=
  .next (onSlot n 0x0704 (fun p =>
    orRefuse n ((gasEnvFault p).map (.badArg, ·)) fun s => postStatus n .ok (applyGasEnv p s)) s)

def SeriesOut.bytes (x : SeriesOut) : List Byte :=
  toLEInt 4 x.value ++ toLE 2 x.flags.toNat ++ toLE 4 x.coverage ++ [BitVec.ofNat 8 x.changes]

/-- GAS_READ (R219). -/
def execGasRead (n : SlotId) (s : State) : Host.Outcome State Fault Refusal :=
  .next (onSlot n 0x0705 (fun p s =>
    if 15 < u8 p 0 then badArg n 0 s
    else postOk n ((s.gas.outs[Fin.ofNat 16 (u8 p 0)]).toList.flatMap SeriesOut.bytes) s) s)

/-- A mask of ports. -/
def portMask (f : PortId → Bool) : Nat := bits ((List.finRange 16).map f)

/-- The GAS.STATUS response (Table 16-10). -/
def State.gasStatus (s : State) : List Byte :=
  let g := s.gas
  toLE 4 g.missed.toNat ++ toLE 2 (portMask fun p => g.values[p].missing) ++
    toLE 2 (portMask fun p => u8 (g.model p) 0 != 0 && hasFlag g.values[p].out Flag.carried) ++
    toLE 2 (portMask fun p => g.envT[p].fallback || g.envH[p].fallback) ++
    toLE 2 (portMask fun p => s.ports[p].mode.isEc && g.adapt[p].frozen)

/-- GAS_STATUS (R356). -/
def execGasStatus (n : SlotId) (s : State) : Host.Outcome State Fault Refusal :=
  .next (onSlot n 0x0706 (fun _ s => postOk n s.gasStatus s) s)

/-- GAS.ADAPT's port, and the operations of the table. -/
def gasAdaptFault (p : List Byte) : Option Nat :=
  if 15 < u8 p 0 then some 0 else if 2 < u8 p 1 then some 1 else none

/-- The GAS.ADAPT response. -/
def Adapt.bytes (x : Adapt) : List Byte :=
  toLE 4 x.a.toNat ++ toLE 4 x.extremes.1.toNat ++ toLE 4 x.extremes.2.toNat ++
    [boolByte !x.frozen, BitVec.ofNat 8 (bits [x.acted40, x.acted30])]

def State.adaptBytes (s : State) (p : List Byte) : List Byte := (s.gas.adapt[portNo (u8 p 0)]).bytes

/-- Adaptation is frozen or released (R225). -/
def setFrozen (p : List Byte) (b : Bool) : State → State := State.modGas fun g =>
  let k := portNo (u8 p 0)
  let x := g.adapt[k]
  { g with adapt := g.adapt.set k (x.freeze b) }

/-- GAS_ADAPT_READ (R225): operation 0, and the refusal of one the table does not have. -/
def execGasAdaptRead (n : SlotId) (s : State) : Host.Outcome State Fault Refusal :=
  .next (onSlot n 0x0707 (fun p s =>
    if u8 p 1 = 1 ∨ u8 p 1 = 2 then s
    else match gasAdaptFault p with
      | some d => badArg n d s
      | none => postOk n (s.adaptBytes p) s) s)

/-- GAS_ADAPT_FREEZE (R225). -/
def execGasAdaptFreeze (n : SlotId) (s : State) : Host.Outcome State Fault Refusal :=
  .next (onSlot n 0x0707 (fun p s =>
    if u8 p 1 ≠ 1 then s
    else match gasAdaptFault p with
      | some d => badArg n d s
      | none =>
        let s := setFrozen p true s
        postOk n (s.adaptBytes p) s) s)

/-- GAS_ADAPT_RELEASE (R225). -/
def execGasAdaptRelease (n : SlotId) (s : State) : Host.Outcome State Fault Refusal :=
  .next (onSlot n 0x0707 (fun p s =>
    if u8 p 1 ≠ 2 then s
    else match gasAdaptFault p with
      | some d => badArg n d s
      | none =>
        let s := setFrozen p false s
        postOk n (s.adaptBytes p) s) s)

end Sys2Proof.Machine
end

