-- ==== Sys2Proof/Machine/Cal.lean ====
section
/-!
DEFINITION. Calibration and self-test (spec/11): system calibration sessions with their steps and
commits, electrical self-calibration, the periodic self-tests, and the CAL family.
-/

namespace Sys2Proof.Machine

/-! ## Sessions (R244 to R248) -/

def Cal.setSession (p : PortId) (x : Option CalSession) (c : Cal) : Cal :=
  { c with sessions := c.sessions.set p x }

/-- The session of port p, unless its hold limit is reached. -/
def State.session (s : State) (p : PortId) : Option CalSession := s.cal.sessions[p].filter fun x => !x.atLimit

/-- A session is changed. -/
def modSession (p : PortId) (f : CalSession → CalSession) (s : State) : State :=
  s.modCal fun c => c.setSession p (c.sessions[p].map f)

/-- The range CAL.BEGIN pins input i on. -/
def beginRange (p : List Byte) (i : Fin 2) (x : Input) : Fin 8 :=
  if (u8 p 1).testBit i.val then Fin.ofNat 8 (u8 p (2 + i.val)) else x.range

/-- The hold begins: in the tick of the doorbell (R246). A range decided for a later plan, or a waiting overload
step, falls: the input runs on its pinned range (R245). -/
def beginHold (k : PortId) (p : List Byte) (begun : W64) (s : State) : State :=
  let s := s.modPort k fun q =>
    let ins := Vector.ofFn fun (i : Fin 2) =>
      let x := q.inputs[i]
      { x with pinned := some (beginRange p i x), stepUp := false, nextRange := none }
    { q with inputs := ins, heldAt := some begun }
  s.modCal fun c => { c.setSession k (some { begun := begun }) with steps := c.steps.set k ({}, {}) }

/-- CAL.BEGIN's fields: ranges only for inputs the port has. -/
def calBeginFault (p : List Byte) (s : State) : Option Nat :=
  (portFault p).or <|
    let q := s.ports[portNo (u8 p 0)]
    (if 3 < u8 p 1 then some 1 else none).or <|
      ((List.finRange 2).find? fun i => (u8 p 1).testBit i.val && decide (q.mode.inputs ≤ i.val)).map (fun _ => 1) |>.or <|
      (if 7 < u8 p 2 then some 2 else none).or (if 7 < u8 p 3 then some 3 else none)

/-- Why CAL.BEGIN begins no hold (R246), in the order of R346. -/
def State.beginRefusal (s : State) (p : List Byte) : Option (Status × Nat) :=
  match calBeginFault p s with
  | some d => some (.badArg, d)
  | none =>
    let k := portNo (u8 p 0)
    if u8 (s.gas.model k) 0 = 0 then some (.badArg, 0)
    else if s.ports[k].state ≠ .running then some (.wrongState, 0)
    else if s.calHold k then some (.busy, 0)
    else none

/-- CAL_BEGIN (R246): the hold began in the tick of the doorbell, or begins now where the reeve was stalled or the
conditions did not hold then (log 68). -/
def execCalBegin (n : SlotId) (s : State) : Host.Outcome State Fault Refusal :=
  .next (onSlot n 0x0901 (fun p s =>
    if s.mbox.slots[n].early ∧ s.calHold (portNo (u8 p 0)) then postStatus n .ok s
    else orRefuse n (s.beginRefusal p) (fun s => postStatus n .ok (beginHold (portNo (u8 p 0)) p s.core.lt s)) s) s)

/-- Why a step does not start (Table 11-1), in the order of R346. -/
def State.stepRefusal (s : State) (k : PortId) (span : Bool) (p : List Byte) : Option (Status × Nat) :=
  let code := u8 (s.gas.model k) 0
  if span && u32 p 4 == 0 then some (.badArg, 4)
  else if span && (code == 3 || (code == 2 && F32.toRat (mcoef (s.gas.model k) 13) == 0)) then some (.badArg, 0)
  else match s.session k with
  | none => some (.wrongState, 0)
  | some x =>
    if s.ports[k].settling then some (.wrongState, 0) else if x.avg.isSome then some (.busy, 0) else none

/-- LT of the tick in which the gas frame in progress began: tick 1 (R208). -/
def State.gasFrameStart (s : State) : W64 :=
  if s.frame.tick = 0 then s.core.lt + 1 else s.core.lt + 1 - BitVec.ofNat 64 s.frame.tick

/-- The first gas frame that begins after a doorbell. -/
def State.firstGasFrame (s : State) (rung : W64) : W32 :=
  if rung.toNat < s.gasFrameStart.toNat then s.frame.number else s.frame.number + 1

/-- A step starts to average (R247). -/
def startStep (n : SlotId) (k : PortId) (span : Bool) (p : List Byte) (s : State) : State :=
  let rung := s.mbox.slots[n].rung
  let a : Average := { span, n := u16 p 2, c := if span then s32 p 4 else 0, after := rung }
  pendOn n (if span then 0x0903 else 0x0902) p (.calStep k) (s.firstGasFrame rung)
    (modSession k (fun x => { x with avg := some a }) s)

def calStepCmd (n : SlotId) (span : Bool) (p : List Byte) (s : State) : State :=
  match (portFault p).or <| (firstNonZero p 1 1).or (if u16 p 2 = 0 then some 2 else none) with
  | some d => badArg n d s
  | none =>
    let k := portNo (u8 p 0)
    orRefuse n (s.stepRefusal k span p) (startStep n k span p) s

/-- CAL_ZERO (R247, R248). -/
def execCalZero (n : SlotId) (s : State) : Host.Outcome State Fault Refusal :=
  .next (onSlot n 0x0902 (calStepCmd n false) s)

/-- CAL_SPAN (R247, R248). -/
def execCalSpan (n : SlotId) (s : State) : Host.Outcome State Fault Refusal :=
  .next (onSlot n 0x0903 (calStepCmd n true) s)

/-! ## Averaging (R249) -/

/-- The flags a step excludes. -/
def stepExclude (m : List Byte) : W16 :=
  mExclude m ||| Flag.ovr ||| Flag.neighbourOvr ||| Flag.breach ||| Flag.heatDev ||| Flag.gauzeLf

/-- The mean of a signal's outputs of the gas frame just closed: no output of another serves. -/
def State.stepSignal (s : State) (p : PortId) (sig : Nat) : Option (Rat × W16) :=
  s.frameInput (stepExclude (s.gas.model p)) p sig

/-- What port p gives a step as an environment source: from outputs of this gas frame alone, and with the flags
a step excludes. -/
def State.stepGive (s : State) (p : PortId) : Option EnvGiven :=
  let m := s.gas.model p
  (s.giveEnvBy (fun sig => (s.stepSignal p sig).map fun x => (F32.ofRat x.1, x.2)) (stepExclude m) p).filter
    fun g => s.frozen p || g.flags &&& stepExclude m == 0

/-- The most recent feature passed within AGE. -/
def State.stepFeature (s : State) (p : PortId) (k : Nat) : Option (Rat × W16) :=
  let m := s.gas.model p
  (s.gas.features[p].find? fun f => f.1.val == k).bind fun f =>
    if f.2.age ≤ mAge m ∧ f.2.flags &&& stepExclude m = 0 then some (f.2.value, f.2.flags) else none

/-- I2 enters a step: in EC4, but where n is 0 and no lane carries it (R251, log 41). -/
def State.usesI2 (s : State) (p : PortId) : Bool :=
  s.ports[p].mode == .ec4 &&
    (F32.toRat (mcoef (s.gas.model p) 2) != 0 || ((s.entryOf p 1).bind (·.lane)).isSome)

/-- The inputs of the port's model for the gas frame just closed, in the order of Table 11-2. -/
def State.stepInputs (s : State) (p : PortId) : Option (List (Rat × W16)) :=
  let m := s.gas.model p
  let code := u8 m 0
  if !modelMode code s.ports[p].mode then none
  else if code = 1 then
    if s.usesI2 p then (s.stepSignal p 0).bind fun a => (s.stepSignal p 1).map fun b => [a, b]
    else (s.stepSignal p 0).map fun a => [a]
  else if code = 2 then (s.stepFeature p (u8 m 1)).map fun a => [a]
  else if code = 3 then (mapFeatures m).mapM (s.stepFeature p)
  else (s.stepFeature p (u8 m 2)).bind fun on => (s.stepFeature p (u8 m 3)).map fun off =>
    [(on.1 - off.1, on.2 ||| off.2)]

/-- dT or dH of the gas frame, with its flags; none where no source is valid. -/
def State.stepEnv (s : State) (p : PortId) (temp : Bool) : Option (Rat × W16) :=
  let m := s.gas.model p
  let o := if temp then 6 else 10
  ((s.envSource p temp (u8 m o) (u8 m (o + 1))).or (s.envSource p temp (u8 m (o + 2)) (u8 m (o + 3)))).map
    fun r => match r with
      | some (v, fl) => (F32.toRat v - (if temp then 25 else 50), fl)
      | none => (0, 0)

/-- Sums by position. -/
def addLists : List Rat → List Rat → List Rat
  | [], l => l
  | l, [] => l
  | a :: l, b :: m => (a + b) :: addLists l m

/-- One more gas frame, which is covered if all that the model uses has a value. -/
def Average.add (x : Option (List (Rat × W16))) (t h : Option (Rat × W16)) (a : Average) : Average :=
  let a := { a with gone := a.gone + 1 }
  match x, t, h with
  | some v, some t, some h =>
    { a with
      covered := a.covered + 1, sums := addLists a.sums (v.map (·.1)), sumT := a.sumT + t.1
      sumH := a.sumH + h.1, flags := a.flags ||| flagUnion (v.map (·.2)) ||| t.2 ||| h.2 }
  | _, _, _ => a

/-- The gas frame that closed in this frame's tick 0 enters the steps that average over it (R247): tick 1, with
what the ports give as environment sources. One that the reeve is stalled for goes by uncovered. -/
def calFrame (s : State) : State :=
  let t := s.modGas fun g => { g with given := Vector.ofFn fun p => s.stepGive p }
  s.modCal fun c =>
    let f := fun (p : PortId) (x : CalSession) =>
      match x.avg with
      | some a =>
        if a.gone < a.n ∧ a.after.toNat + s.frame.lastLen < s.core.lt.toNat then
          { x with avg := some (if s.reeveActive then
              a.add (t.stepInputs p) (t.stepEnv p true) (t.stepEnv p false) else a.add none none none) }
        else x
      | none => x
    { c with sessions := Vector.ofFn fun p => c.sessions[p].map (f p) }

/-! ## The result of a step (R250, R251) -/

/-- Bytes of the k-th coefficient, of F0,k. -/
def coefAt (k : Nat) : Nat := 20 + 4 * k
def refAt (k : Nat) : Nat := 120 + 4 * k

/-- A model's record with coefficients replaced. -/
def withCoefs (l : List (Nat × F32)) (m : List Byte) : List Byte :=
  l.foldl (fun m e => overwrite m e.1 (toLE 4 e.2.toNat)) m

/-- E of R251. -/
def zeroTerm (m : List Byte) (dT dH : F32) : F32 := F32.add (cubic m 3 dT) (F32.mul (mcoef m 9) dH)

/-- The coefficients of a zero step from its mean inputs. -/
def zeroCoefs (m : List Byte) (means : List F32) (dT dH : F32) : List (Nat × F32) :=
  let e := zeroTerm m dT dH
  let a := means.getD 0 0
  let code := u8 m 0
  if code = 1 then
    (coefAt 0, F32.sub a e) :: (match means[1]? with
      | some b => [(coefAt 1, b)]
      | none => [])
  else if code = 2 then [(coefAt 14, F32.mul a (F32.exp e))]
  else if code = 3 then
    let w := (mapFeatures m).foldl (fun x k => F32.add x (mWeight m k)) 0
    ((mapFeatures m).zip means).map fun x => (refAt x.1, F32.mul x.2 (F32.exp (F32.neg (F32.div e w))))
  else [(coefAt 15, F32.mul a (F32.exp e))]

/-- x of a span step, with the zero references already in the record. -/
def spanSignal (m : List Byte) (means : List F32) : F32 :=
  let a := means.getD 0 0
  let code := u8 m 0
  if code = 1 then
    let x := F32.sub a (mcoef m 0)
    match means[1]? with
    | some b => F32.sub x (F32.mul (mcoef m 2) (F32.sub b (mcoef m 1)))
    | none => x
  else if code = 2 then F32.ln (F32.div (mcoef m 14) a)
  else F32.neg (F32.ln (F32.div a (mcoef m 15)))

/-- The coefficient of a span step at a concentration of c x 0.01 ppb. -/
def spanCoefs (m : List Byte) (means : List F32) (dT dH : F32) (c : Int) : Option (List (Nat × F32)) :=
  let ppb := F32.ofRat ((c : Rat) / 100)
  (compensated m dT dH (spanSignal m means)).map fun xc =>
    if u8 m 0 = 2 then
      [(coefAt 12, F32.div ppb (F32.sub (F32.exp (F32.mul (mcoef m 13) xc)) F32.one))]
    else [(coefAt 11, F32.div xc ppb)]

/-- A span result's sign or size departs from what is in force (R250). -/
def implausible (m : List Byte) (a : F32) (v : F32) : Bool :=
  let old := if u8 m 0 = 2 then F32.toRat (mcoef m 12)
    else F32.toRat (mcoef m 11) * (if u8 m 0 = 1 then F32.toRat a else 1)
  let new := F32.toRat v
  decide (new * old ≤ 0 ∨ 2 * absRat new < absRat old ∨ 2 * absRat old < absRat new)

/-- The report of a step that has averaged. -/
def State.stepReport (s : State) (p : PortId) (x : CalSession) (a : Average) : StepReport :=
  let m := s.gas.model p
  let n : Rat := a.covered
  let dT := if a.covered = 0 then 0 else a.sumT / n
  let dH := if a.covered = 0 then 0 else a.sumH / n
  let means := if a.covered = 0 then [] else a.sums.map fun v => F32.ofRat (v / n)
  let coefs :=
    if a.span then
      spanCoefs (withCoefs ((x.zero.map (·.coefs)).getD []) m) means (F32.ofRat dT) (F32.ofRat dH) a.c
    else some (zeroCoefs m means (F32.ofRat dT) (F32.ofRat dH))
  let l := coefs.getD []
  let finite := coefs.isSome && l.all (fun e => F32.finite e.2) && !l.isEmpty &&
    (modelRanges (withCoefs l m)).isNone
  let result : Fin 5 :=
    if 5 * a.covered < 4 * a.n then 2
    else if !finite then 3
    else if a.span && l.any (fun e => implausible m s.gas.adapt[p].a e.2) then 4
    else 1
  { result, covered := a.covered, flags := a.flags, dT, dH, means, coefs := l, code := u8 m 0 }

/-- CAL_STEP_END (R247): the N gas frames are closed. -/
def execCalStepEnd (p : PortId) (s : State) : Host.Outcome State Fault Refusal :=
  .next (
    match s.session p with
    | some x =>
      match x.avg with
      | some a =>
        if s.reeveActive && s.frame.tick == 1 && a.gone == a.n then
          let r := s.stepReport p x a
          let keep := if r.result = 1 ∨ r.result = 4 then some r else none
          let y := if a.span then { x with avg := none, span := keep.or x.span }
            else { x with avg := none, zero := keep.or x.zero }
          let old := s.cal.steps[p]
          let s := s.modCal fun c =>
            { c.setSession p (some y) with steps := c.steps.set p (if a.span then (old.1, r) else (r, old.2)) }
          completeWhere (·.wait == .calStep p) .ok s
        else s
      | none => s
    | none => s)

/-! ## Commit and abort (R252 to R255) -/

/-- The steps of a session that a commit takes. -/
def CalSession.steps (x : CalSession) : List StepReport := x.zero.toList ++ x.span.toList

/-- The coefficients that take effect in a model with this code: under another code than that of its step, S, which two
codes share, means nothing, and the others have no use (R264). -/
def StepReport.inForce (code : Nat) (r : StepReport) : List (Nat × F32) :=
  if r.code = code then r.coefs else r.coefs.filter (·.1 != coefAt 11)

/-- Why a commit is refused. -/
def State.commitRefusal (s : State) (k : PortId) (accept : Bool) : Option (Status × Nat) :=
  match s.session k with
  | none => some (.wrongState, 0)
  | some x =>
    if x.steps.isEmpty then some (.wrongState, 0)
    else if !accept && x.steps.any (·.result == 4) then some (.badArg, 1)
    else none

/-- CAL_COMMIT (R252). -/
def execCalCommit (n : SlotId) (s : State) : Host.Outcome State Fault Refusal :=
  .next (onSlot n 0x0904 (fun p s =>
    match (portFault p).or (if 1 < u8 p 1 then some 1 else none) with
    | some d => badArg n d s
    | none =>
      orRefuse n (s.commitRefusal (portNo (u8 p 0)) (u8 p 1 == 1)) (pendBoundary n 0x0904 p 1) s) s)

/-- The record of the coefficients a commit brings, with those of an earlier record of the model. -/
def calRecord (code : Nat) (gen : W32) (l : List (Nat × F32)) (old : Option CalRec) : CalRec :=
  let kept := match old with
    | some r => if r.code = code then r.coefs.filter fun e => !(l.any (·.1 == e.1)) else []
    | none => []
  { code, gen, coefs := kept ++ l }

/-- The record is written, or staged while writes are held (R255); whether it failed for wear. -/
def storeRecord (k : PortId) (code : Nat) (l : List (Nat × F32)) (s : State) : State × Bool :=
  let r := calRecord code s.bolt.gen l (s.cal.staged[k].or s.cal.recs[k])
  if !s.nvmAllowed then (s.modCal fun c => { c with staged := c.staged.set k (some r) }, false)
  else if Config.nvmWorn s.free then (raise 13 s.drawFree, true)
  else (s.drawFree.modCal fun c => { c with recs := c.recs.set k (some r), staged := c.staged.set k none }, false)

/-- The health references a commit takes (R253). -/
def commitRefs (k : PortId) (begun : W64) (s : State) : State :=
  let fit := s.gauze[k].goodFits.find? fun f =>
    decide (f.2.1.toNat < begun.toNat) && decide ((s.frame.number - f.2.2).toNat ≤ 8640000)
  s.modGauzeAt k fun g =>
    match fit with
    | some f => { g with refs := some f.1, refsWanted := false }
    | none => { g with refs := none, refsWanted := true, health := g.health.map fun h => { h with status := 3 } }

/-- A reset of adaptation (R225, R252); the factor stored before the calibration is void with it, so that no reset
brings it back. -/
def Adapt.cleared (f : W32) (x : Adapt) : Adapt :=
  { x with a := F32.one, periods := [], periodFrames := 0, acted40 := false, acted30 := false
           recorded := F32.one, next := none, committed := some f, stored := none }

/-- A commit takes effect at its boundary (R252): coefficients, S x a, adaptation, the hold's end, the
references, the record and its black-box record; then the status. Where GAS.MODEL has brought another MODEL code, the
record keeps the code that its coefficients belong to (R264; log 77). -/
def applyCalCommit (n : SlotId) (p : List Byte) (s : State) : State :=
  let k := portNo (u8 p 0)
  let accept := u8 p 1 == 1
  match s.cal.sessions[k], s.commitRefusal k accept with
  | some x, none =>
    let l := x.steps.flatMap (·.coefs)
    let m := s.gas.model k
    let m' := withCoefs (x.steps.flatMap (StepReport.inForce (u8 m 0))) m
    let code := ((x.steps.find? (·.code != u8 m 0)).map (·.code)).getD (u8 m 0)
    let keepS := u8 m 0 = 1 ∧ code = 1 ∧ s.ports[k].mode.isEc ∧ x.span.isNone
    let l := if keepS then l ++ [(coefAt 11, F32.mul (mcoef m 11) s.gas.adapt[k].a)] else l
    let m' := if keepS then withCoefs l m' else m'
    let s := s.modGas fun g =>
      { g with models := g.models.set k m', adapt := g.adapt.set k (g.adapt[k].cleared s.frame.number) }
    let old := s.cal.steps[k]
    let done := fun (r : StepReport) (y : Option StepReport) => { r with committed := r.committed || y.isSome }
    let s := s.modCal fun c => { c with steps := c.steps.set k (done old.1 x.zero, done old.2 x.span) }
    let s := commitRefs k x.begun (dropSession k s)
    let st := storeRecord k code l s
    let bad := x.steps.any (·.result == 4)
    let s := boxRecord 0x0B (argB 0 k.val ||| argB 1 (bits [x.zero.isSome, x.span.isSome, bad, st.2]) |||
      argW 2 s.bolt.gen.toNat) st.1
    postStatus n (if st.2 then .nvmWorn else .ok) s
  | _, some (e, d) => post n e d [] s
  | none, none => postStatus n .wrongState s

/-- CAL_ABORT (R254). -/
def execCalAbort (n : SlotId) (s : State) : Host.Outcome State Fault Refusal :=
  .next (onSlot n 0x0905 (fun p s =>
    match portFault p with
    | some d => badArg n d s
    | none =>
      if (s.session (portNo (u8 p 0))).isNone then postStatus n .wrongState s
      else pendBoundary n 0x0905 p 1 s) s)

/-- An abort at its boundary. -/
def applyCalAbort (n : SlotId) (p : List Byte) (s : State) : State :=
  let k := portNo (u8 p 0)
  if (s.session k).isNone then postStatus n .wrongState s else postStatus n .ok (endSession k 0 s)

/-- CAL_HOLD_LIMIT (R254): the session is over; its hold ends at the next boundary. -/
def execCalHoldLimit (p : PortId) (s : State) : Host.Outcome State Fault Refusal :=
  .next (
    match s.session p with
    | some x =>
      if s.core.sys.holdMin * 3840000 ≤ s.since x.begun then
        completeWhere (·.wait == .calStep p) .wrongState
          (calNotice p 1 (modSession p (fun x => { x with atLimit := true, avg := none }) s))
      else s
    | none => s)

/-- The holds of sessions that reached their limit end at a boundary. -/
def endHolds (s : State) : State :=
  (List.finRange 16).foldl (fun s p =>
    if s.cal.sessions[p].any (·.atLimit) then dropSession p s else s) s

/-- CAL_RANGE (R245). -/
def execCalRange (n : SlotId) (s : State) : Host.Outcome State Fault Refusal :=
  .next (onSlot n 0x0906 (fun p s =>
    let k := portNo (u8 p 0)
    match (portFault p).or <| (if s.ports[k].mode.inputs ≤ u8 p 1 then some 1 else none).or
        (if 7 < u8 p 2 then some 2 else none) with
    | some d => badArg n d s
    | none =>
      if !s.calHold k then postStatus n .wrongState s
      else pendBoundary n 0x0906 p (s.planBoundaries n) s) s)

/-- The pinned range changes. -/
def applyCalRange (n : SlotId) (p : List Byte) (s : State) : State :=
  let k := portNo (u8 p 0)
  if !s.calHold k then postStatus n .wrongState s
  else
    postStatus n .ok (s.modInput k (Fin.ofNat 2 (u8 p 1)) fun x => { x with pinned := some (Fin.ofNat 8 (u8 p 2)) })

/-- A calibration record is voided; CAL_CLEAR (R256). -/
def execCalClear (n : SlotId) (s : State) : Host.Outcome State Fault Refusal :=
  .next (onSlot n 0x0909 (fun p s =>
    match portFault p with
    | some d => badArg n d s
    | none =>
      if !s.nvmAllowed then postStatus n .nvmHot s
      else
        let k := portNo (u8 p 0)
        postStatus n .ok (s.modCal fun c => { c with recs := c.recs.set k none, staged := c.staged.set k none })) s)

/-- Staged calibration records are written once writes are allowed (R255), or in LATCHED below 121 degC (R293, R294). -/
def calStagedWrite (s : State) : State :=
  if (s.nvmAllowed || (s.core.dev == .latched && s.coolForLatched)) && s.cal.staged.toList.any Option.isSome then
    s.modCal fun c => { c with recs := Vector.ofFn fun p => c.staged[p].or c.recs[p], staged := Vector.replicate 16 none }
  else s

/-- At BOOT a record of the bolt's MODEL replaces its coefficients; another is ignored with a notice
(R256). -/
def calBoot (s : State) : State :=
  (List.finRange 16).foldl (fun s p =>
    match s.cal.recs[p] with
    | some r =>
      let m := s.gas.model p
      if r.code = u8 m 0 then s.modGas fun g => { g with models := g.models.set p (withCoefs r.coefs m) }
      else notice 0x0903 .ordinary (argB 0 p.val) s
    | none => s) s

/-! ## Electrical self-calibration (R257 to R262) -/

/-- The number of a target. -/
def targetNo : CalTarget → Fin 19
  | .port p => ⟨p.val, by omega⟩
  | .warp => 16
  | .weft => 17
  | .ref => 18

def targetOf (k : Nat) : CalTarget :=
  if k = 16 then .warp else if k = 17 then .weft else if k = 18 then .ref else .port (portNo k)

def targetIsPort : CalTarget → Bool
  | .port _ => true
  | .warp => false
  | .weft => false
  | .ref => false

/-- Why a calibration does not start (Table 11-6). -/
def State.elecRefusal (s : State) (t : CalTarget) : Option Status :=
  let mine := s.cal.runs.any fun r => r.target == t
  let later (busy : Bool) : Option Status := if !s.refWarm then some .refCold else if busy then some .busy else none
  match t with
  | .port p =>
    if s.core.dev = .run ∧ s.ports[p].state ≠ .running then some .wrongState
    else later (s.calHold p || mine || s.cal.runs.any fun r => targetIsPort r.target)
  | .warp => if s.seq.twill then some .wrongState else later (s.frame.unguarded != 0 || mine)
  | .weft => if s.seq.twill then some .wrongState else later mine
  | .ref => if s.seq.twill then some .wrongState else later (s.frame.unguarded != 0 || mine)

def addRun (r : ElecRun) : State → State := State.modCal fun c => { c with runs := c.runs ++ [r] }

def calElecFault (p : List Byte) : Option Nat :=
  if 18 < u8 p 0 then some 0
  else if u8 p 0 = 16 ∨ u8 p 0 = 17 then (if 4 < u8 p 1 ∧ u8 p 1 ≠ 0xFF then some 1 else none)
  else if u8 p 1 ≠ 0 then some 1 else none

/-- CAL_ELEC (R257, R260). -/
def execCalElec (n : SlotId) (s : State) : Host.Outcome State Fault Refusal :=
  .next (onSlot n 0x0907 (fun p =>
    orRefuse n ((calElecFault p).map (.badArg, ·)) fun s =>
      let t := targetOf (u8 p 0)
      match s.elecRefusal t with
      | some e => postStatus n e s
      | none =>
        pendOn n 0x0907 p (.calElec t) (s.frameIn 1)
          (addRun { target := t, gain := u8 p 1, left := none } s)) s)

/-- A calibration may begin or go on at this boundary: a port target's port must be as R260 requires, and one
that is to begin must meet the conditions of Table 11-6 still. -/
def State.elecStays (s : State) (r : ElecRun) : Bool :=
  let on := s.core.dev == .ready || s.core.dev == .run
  match r.target with
  | .port p =>
    s.core.dev == .ready || (s.core.dev == .run && s.ports[p].state == .running && s.cal.sessions[p].isNone)
  | .warp => on && (r.left.isSome || (!s.seq.twill && s.frame.unguarded == 0))
  | .weft => on && (r.left.isSome || !s.seq.twill)
  | .ref => on && (r.left.isSome || (!s.seq.twill && s.frame.unguarded == 0))

/-- qp and cf of least squares over the conversions of a range (R258). -/
def Solve.pair (x : Solve) : Option (Rat × Rat) :=
  let d := x.nn * x.vv - x.nv * x.nv
  if d = 0 then none else some ((x.nq * x.vv - x.vq * x.nv) / d, (x.vq * x.nn - x.nq * x.nv) / d)

/-- The range under test changes: its pairs are solved, and the next begins afresh. At every frame boundary the
conversions on either side of it are no pair, since the current may turn there. -/
def ElecRun.nextRange (j : Nat) (r : ElecRun) : ElecRun :=
  if j % 8 = 0 ∧ 0 < j ∧ j ≤ 64 then
    let k : Fin 8 := Fin.ofNat 8 (j / 8 - 1)
    { r with pairs := Vector.ofFn fun i => (r.pairs[i]).set k (r.sums[i]).pair, sums := Vector.replicate 2 {} }
  else { r with sums := r.sums.map fun x => { x with last := none } }

/-- A run at a boundary: it begins, or one more frame is over. -/
def ElecRun.boundary (r : ElecRun) : ElecRun :=
  match r.left with
  | none => { r with left := some (targetFrames r.target) }
  | some k => ElecRun.nextRange (targetFrames r.target + 1 - k) { r with left := some (k - 1) }

/-- What begins with a port target's calibration: its inputs are switched over, so that windows end
(R258), and a hold in RUN keeps the range in force (R245). -/
def elecBegin (t : CalTarget) (s : State) : State :=
  match t with
  | .port p =>
    let hold := s.core.dev == .run
    s.modPort p fun q => { q with inputs := q.inputs.map fun x =>
      { x with openWin := none, lastSample := none, stepUp := false, nextRange := none
               pinned := if hold then some (x.planned.getD x.range) else x.pinned } }
  | .warp => s
  | .weft => s
  | .ref => s

/-- Electrical calibrations at a boundary (R257). -/
def elecBoundary (s : State) : State :=
  let s := ((s.cal.runs.filter fun r => !s.elecStays r).map (·.target)).foldl (fun s t => endElec t s) s
  let fresh := (s.cal.runs.filter (·.left.isNone)).map (·.target)
  let s := s.modCal fun c => { c with runs := c.runs.map ElecRun.boundary }
  fresh.foldl (fun s t => elecBegin t s) s

/-- A value departs from the factory's by no more than a part of it. -/
def near (part : Rat) (v ref : Rat) : Bool := decide (absRat (v - ref) ≤ part * absRat ref)

/-- A trim moves by no more than its tolerance at one boundary (R259). -/
def stepTrim (tol cur new : Rat) : Rat :=
  if new < cur - tol then cur - tol else if cur + tol < new then cur + tol else new

/-- The ranges of the inputs a port has. -/
def State.elecRanges (s : State) (p : PortId) : List (Fin 2 × Fin 8) :=
  s.ports[p].inputList.flatMap fun i => (List.finRange 8).map fun r => (i, r)

/-- qp and cf a port's calibration has found; a range whose conversions gave no solution keeps its pair. -/
def State.solved (s : State) (r : ElecRun) (p : PortId) (i : Fin 2) (k : Fin 8) : Rat × Rat :=
  (r.pairs[i][k]).getD (s.ports[p].inputs[i].qp[k], s.ports[p].inputs[i].cf[k])

/-- The result lies within Table 11-5. A converter's trims move by no more than its tolerance whatever the error,
and need no refusal (R259). -/
def State.elecWithin (s : State) (r : ElecRun) (m : ElecMeas) : Bool :=
  match r.target with
  | .port p =>
    (s.elecRanges p).all (fun e =>
      near (2 / 100) (s.solved r p e.1 e.2).1 (Config.packetCharge p e.1 e.2) &&
      near (2 / 100) (s.solved r p e.1 e.2).2 (Config.feedbackCap p e.1 e.2)) &&
    decide (absRat (m.offset - Config.portOffset p) ≤ 200)
  | .warp => true
  | .weft => true
  | .ref => decide (absRat (m.ref - Config.refTrim) ≤ 1000)

/-- The mean code a calibration has of a swatch at a gain. -/
def ElecRun.mean (r : ElecRun) (g : Fin 5) (w : Fin 3) : Option Rat :=
  let e := r.codes[g][w]
  if e.2 = 0 then none else some ((e.1 : Rat) / e.2)

/-- The trims that bring the swatches of a gain to ZERO, POS and NEG (R257): what is left of the offset in LSB and
of the gain in ppm joins the trims in force, by no more than the tolerance (R259). -/
def ElecRun.trims (c : Conv) (g : Fin 5) (old : Rat × Rat) (r : ElecRun) : Rat × Rat :=
  let off := ((r.mean g 0).map fun z => stepTrim 8 old.1 (old.1 + z)).getD old.1
  let span : Rat := (Config.swatchPos c g - Config.swatchNeg c g : Int)
  let gain := match r.mean g 1, r.mean g 2 with
    | some a, some b => if span = 0 then old.2 else stepTrim 500 old.2 (old.2 + 1000000 * ((a - b) / span - 1))
    | _, _ => old.2
  (off, gain)

/-- A converter's new trims: of the gains its calibration has measured. -/
def applyTrims (c : Conv) (r : ElecRun) : State → State := State.modCal fun x =>
  let row := Vector.ofFn fun (g : Fin 5) => r.trims c g x.conv[convIdx c][g]
  { x with conv := x.conv.set (convIdx c) row }

/-- The new coefficients take effect. -/
def elecApply (r : ElecRun) (m : ElecMeas) (s : State) : State :=
  match r.target with
  | .port p =>
    s.modPort p fun q =>
      let ins := Vector.ofFn fun (i : Fin 2) =>
        let x := q.inputs[i]
        if i.val < q.mode.inputs then
          { x with qp := Vector.ofFn fun k => (s.solved r p i k).1, cf := Vector.ofFn fun k => (s.solved r p i k).2 }
        else x
      { q with inputs := ins, offset := m.offset, gainPpm := m.gainPpm, biasErr := m.biasErr }
  | .warp => applyTrims .warp r s
  | .weft => applyTrims .weft r s
  | .ref => s.modCal fun c => { c with refTrim := m.ref }

/-- The source of a target's failures. -/
def targetSource : CalTarget → Source
  | .port _ => 43
  | .warp => 44
  | .weft => 44
  | .ref => 45

/-- The die sensor nearest a target (Table 13-1). -/
def targetRow : CalTarget → Fin 9
  | .port p => portRow p
  | .warp => 5
  | .weft => 5
  | .ref => 0

/-- The mean of the nearest sensor. -/
def State.targetTemp (s : State) (t : CalTarget) : Option Int := s.therm.sensors[s.nearest (targetRow t)].mean

/-- The record of a calibration that has ended. -/
def elecRecord (t : CalTarget) (ok : Bool) (s : State) : State :=
  let temp := s.targetTemp t
  s.modCal fun c =>
    let x := c.stats[targetNo t]
    let y : ElecStat :=
      { result := if ok then 1 else 2, run := if ok then 0 else min 255 (x.run + 1)
        total := if ok then x.total else countUp x.total 1, frame := s.frame.number - 1
        age := 0, temp := temp, entry := false }
    { c with stats := c.stats.set (targetNo t) y }

/-- A port target's hold and lanes at the end (R258, Table 8-3). -/
def elecRelease (t : CalTarget) (s : State) : State :=
  match t with
  | .port p =>
    let s := if s.core.dev = .run then holdOver p s else s
    resetLanes .applied (s.lanesOfPort p) s
  | .warp => s
  | .weft => s
  | .ref => s

/-- A run that has lasted its frames ends with what it measured (R257, R259). -/
def endRun (r : ElecRun) (m : ElecMeas) (s : State) : State :=
  let ok := s.elecWithin r m
  let again := decide (1 ≤ s.cal.stats[targetNo r.target].run)
  let s := if ok then elecApply r m s else notice 0x0902 .ordinary (argB 0 (targetNo r.target).val) s
  let s := elecRecord r.target ok s
  let s := if !ok && again then raise (targetSource r.target) s else s
  let s := elecRelease r.target s
  let s := s.modCal fun c => { c with runs := c.runs.filter fun x => x.target != r.target }
  (s.mbox.pend.filter fun x => x.wait == .calElec r.target).foldl
    (fun s x => postOk x.slot [if ok then 1 else 2] s) s

/-- ELEC_CAL_END (R257). -/
def execElecCalEnd (t : CalTarget) (m : ElecMeas) (s : State) : Host.Outcome State Fault Refusal :=
  .next (
    match s.cal.runs.find? (·.target == t) with
    | some r => if r.left == some 0 && s.frame.tick == 0 && s.reeveActive then endRun r m s else s
    | none => s)

/-- The bolt calls for an automatic calibration of the target (R261). -/
def State.autoDue (s : State) (t : CalTarget) : Bool :=
  let x := s.cal.stats[targetNo t]
  let wanted := match t with
    | .port p => s.core.sys.autoPorts.getLsbD p.val
    | .warp => true
    | .weft => true
    | .ref => true
  let moved := match x.temp, s.targetTemp t with
    | some a, some b => decide (100 * s.core.sys.autoK ≤ (b - a).natAbs)
    | _, _ => false
  wanted && (decide (s.core.sys.autoFrames ≤ x.age) || moved || (!targetIsPort t && x.entry))

/-- AUTO_ELEC_CAL (R261): refused under Table 11-6, it waits. -/
def execAutoElecCal (t : CalTarget) (s : State) : Host.Outcome State Fault Refusal :=
  .next (
    if s.reeveActive && (s.core.dev == .run || s.core.dev == .ready) && s.autoDue t && (s.elecRefusal t).isNone then
      addRun { target := t, gain := if targetIsPort t || t == .ref then 0 else 0xFF, left := none } s
    else s)

/-- An entry to RUN from READY calls for the converters and the reference (R261). -/
def autoEntry (s : State) : State :=
  s.modCal fun c => { c with stats := Vector.ofFn fun k =>
    let x := c.stats[k]
    if 16 ≤ k.val then { x with entry := true } else x }

/-- The coefficients in force. -/
def State.elecSet (s : State) : ElecSet :=
  { ports := Vector.ofFn fun p =>
      let q := s.ports[p]
      { qp := q.inputs.map (·.qp), cf := q.inputs.map (·.cf), offset := q.offset, gainPpm := q.gainPpm
        biasErr := q.biasErr }
    conv := s.cal.conv, ref := s.cal.refTrim }

/-- The factory record's. -/
def ElecSet.factory : ElecSet :=
  { ports := Vector.ofFn fun p =>
      let q := Port.factory p
      { qp := q.inputs.map (·.qp), cf := q.inputs.map (·.cf), offset := q.offset, gainPpm := q.gainPpm
        biasErr := q.biasErr }
    conv := Cal.factory.conv, ref := Cal.factory.refTrim }

/-- A set is put in force: at BOOT the stored one, or the factory record's (R262). -/
def loadElec (x : ElecSet) (s : State) : State :=
  let s := s.modPorts fun v => Vector.ofFn fun p =>
    let e := x.ports[p]
    let q := v[p]
    let ins := Vector.ofFn fun (i : Fin 2) =>
      let y := q.inputs[i]
      { y with qp := e.qp[i], cf := e.cf[i] }
    { q with inputs := ins, offset := e.offset, gainPpm := e.gainPpm, biasErr := e.biasErr }
  s.modCal fun c => { c with conv := x.conv, refTrim := x.ref }

/-- ELECTRICAL_COEFFICIENT_STORE (R262). -/
def execElectricalCoefficientStore (s : State) : Host.Outcome State Fault Refusal :=
  .next (
    if s.reeveActive && s.nvmAllowed && decide (8640000 ≤ s.cal.sinceStore) &&
        s.elecSet != s.cal.stored.getD ElecSet.factory then
      s.modCal fun c => { c with stored := some s.elecSet, sinceStore := 0 }
    else s)

/-! ## Periodic self-tests (R263) -/

def selfNo : SelfTest → Fin 2
  | .reference => 0
  | .chargeStandard => 1

/-- A run is due and can take place. -/
def State.selfDue (s : State) (k : SelfTest) : Bool :=
  s.reeveActive && s.measuring && s.refWarm && !s.seq.twill && decide (6000 ≤ s.cal.selfAge[selfNo k]) &&
    match k with
    -- a slot that recurs once per tick is the witness's while a port is unguarded (R171)
    | .reference => s.frame.unguarded == 0 || decide (wrapClocks s.warpTable < 960)
    | .chargeStandard => s.frame.unguarded == 0

/-- PERIODIC_SELF_TEST (R263): the departure in ppm, of the charge standard on the 2 nA and on the 1.024 uA range, of
the reference the first alone; two failures in a row raise the check's source. -/
def execPeriodicSelfTest (k : SelfTest) (ppm : Int × Int) (s : State) : Host.Outcome State Fault Refusal :=
  .next (
    if s.selfDue k then
      let bad := match k with
        | .reference => decide (2000 < ppm.1.natAbs)
        | .chargeStandard => decide (5000 < ppm.1.natAbs ∨ 5000 < ppm.2.natAbs)
      let again := bad && s.cal.selfFail[selfNo k]
      let s := s.modCal fun c =>
        { c with selfAge := c.selfAge.set (selfNo k) 0, selfFail := c.selfFail.set (selfNo k) bad }
      if again then
        match k with
        | .reference => raise 46 s
        | .chargeStandard => raise 47 s
      else s
    else s)

/-- The counts of frames at a boundary. -/
def Cal.frame (c : Cal) : Cal :=
  { c with
    stats := c.stats.map fun x => { x with age := x.age + 1 }
    sinceStore := c.sinceStore + 1, selfAge := c.selfAge.map (· + 1) }

/-! ## CAL.STATUS (R358) -/

/-- A number in hundredths, in 16 bits. -/
def hundredths (x : Rat) : Int := satInt 16 (roundRat (x * 100))

/-- The step response; the first two means and coefficients in the order of Table 11-2, where i2 and B2 stand before
i1 and B1 in a zero step. -/
def stepStatus (staged : Bool) (r : StepReport) : List Byte :=
  let turned := (r.coefs.map (·.1)) == [coefAt 0, coefAt 1]
  let cs := (if turned then r.coefs.reverse else r.coefs).map (·.2)
  let means := if turned then r.means.reverse else r.means
  [BitVec.ofNat 8 r.result.val, BitVec.ofNat 8 (bits [staged, r.committed])] ++ toLE 2 (satNat 65535 r.covered) ++
    toLE 2 r.flags.toNat ++ toLEInt 2 (hundredths r.dT) ++ toLEInt 2 (hundredths r.dH) ++
    toLE 4 (means.getD 0 0).toNat ++ toLE 4 (means.getD 1 0).toNat ++
    toLE 4 (cs.getD 0 0).toNat ++ toLE 4 (cs.getD 1 0).toNat

def elecStatus (x : ElecStat) : List Byte :=
  [BitVec.ofNat 8 x.result.val, BitVec.ofNat 8 x.run] ++ toLE 4 x.total.toNat ++ toLE 4 x.frame.toNat

/-- A step is named for a port only. -/
def calStatusFault (p : List Byte) : Option Nat :=
  if 18 < u8 p 0 then some 0 else if 2 < u8 p 1 then some 1
  else if 15 < u8 p 0 ∧ u8 p 1 ≠ 2 then some 1 else none

/-- CAL_STATUS (R358). -/
def execCalStatus (n : SlotId) (s : State) : Host.Outcome State Fault Refusal :=
  .next (onSlot n 0x0908 (fun p =>
    orRefuse n ((calStatusFault p).map (.badArg, ·)) fun s =>
      let t := targetOf (u8 p 0)
      if u8 p 1 = 2 then postOk n (elecStatus s.cal.stats[targetNo t]) s
      else
        let k := portNo (u8 p 0)
        let r := s.cal.steps[k]
        postOk n (stepStatus s.cal.staged[k].isSome (if u8 p 1 = 0 then r.1 else r.2)) s) s)

end Sys2Proof.Machine
end

