-- ==== Sys2Proof/Machine/Doorbell.lean ====
section
/-!
DEFINITION. Doorbells (R343): what a doorbell does in its own tick, and the command DBELL_WRITE.
-/

namespace Sys2Proof.Machine

/-- The effect that a request has in the tick of its doorbell, while the reeve runs, ahead of its execution:
WEAVE.SYNC takes SYNC_N low in the ticks after it (R202), CAL.BEGIN begins the hold (R246). -/
def atDoorbell (n : SlotId) (s : State) : State :=
  let x := s.mbox.slots[n]
  if !s.reeveActive || s.core.dev == .boot || (s.badWord n).isSome || (requestFault x s.core.dev).isSome then s
  else
    let s' := s.modSlot n fun x => { x with early := true }
    if x.op = 0x0604 ∧ u8 x.payload 0 = 0 then pullSync s'
    else if x.op = 0x0901 ∧ s.beginRefusal x.payload = none then
      beginHold (portNo (u8 x.payload 0)) x.payload s.core.lt s'
    else s

/-- The doorbell of slot n is taken (R343). -/
def doorbell (n : SlotId) (s : State) : State :=
  let x := s.mbox.slots[n]
  if x.st.hostOwned then
    let s := mboxDetect n
      (s.modSlot n fun x => { x with st := .queued, ign := false, rung := s.core.lt, early := false })
    if s.immediate x.op then dispatchSlot n s
    else atDoorbell n (s.modMbox fun m => { m with queue := m.queue ++ [n] })
  else s.modSlot n fun x => { x with ign := true }

/-- The doorbells a DBELL write rings, in ascending slot order (R361). -/
def dbell (v : Byte) (s : State) : State :=
  (List.finRange 4).foldl (fun s n => if v.getLsbD n.val then doorbell n s else s) s

/-- Doorbells of class 7, with those a burst has left for this tick; in BOOT they wait for its end (R343, R346). Two
rings of one slot that wait together are one (DESIGN CHOICE, log 73). -/
def ring (v : Byte) (s : State) : State :=
  let all := s.mbox.rung ||| v
  if s.core.dev = .boot then s.modMbox fun m => { m with rung := all }
  else dbell all (s.modMbox fun m => { m with rung := 0 })

/-- Doorbells still waiting as their tick ends: no DBELL_WRITE came in it. The burst's of the tick take their place. -/
def ringLate (s : State) : State :=
  (if s.mbox.rung = 0 ∨ s.core.dev = .boot then s else ring 0 s).modMbox fun m =>
    { m with rung := m.rung ||| m.rungNext, rungNext := 0 }

/-- DBELL_WRITE (R343): taken in class 7 of the tick after the write, by a Rexia that acknowledges. -/
def execDbellWrite (v : Byte) (s : State) : Host.Outcome State Fault Refusal :=
  .next (if s.acks then ring v (s.modBus fun b => { b.join with pointer := 0x0021 }) else refuse s)

end Sys2Proof.Machine
end

