-- ==== Sys2Proof/Machine/Bus.lean ====
section
/-!
DEFINITION. The bus port (spec/15): register reads and writes, START and STOP with the strap
classing, timeouts, the digest check and the attention machine.
-/

namespace Sys2Proof.Machine

/-! ## Register reads -/

/-- STATE_READ (R22). -/
def execStateRead (r : RegRead 2) (s : State) : Host.Outcome State Fault Refusal :=
  .next (readAt (byteAt 0x08 r.first) r.n s)
/-- ATTN_READ (R337). -/
def execAttnRead (r : RegRead 2) (s : State) : Host.Outcome State Fault Refusal :=
  .next (readAt (byteAt 0x0A r.first) r.n s)
/-- BUS_READ (R327). -/
def execBusRead (r : RegRead 4) (s : State) : Host.Outcome State Fault Refusal :=
  .next (readAt (byteAt 0x14 r.first) r.n s)

/-! ## Register writes (R325) -/

/-- A write to BUS: ones clear TOUT_SCL and TOUT_SDA (Table 15-4). -/
def writeBus (v : W32) : State → State := State.modBus fun b =>
  { b with toutScl := b.toutScl && !v.getLsbD 0, toutSda := b.toutSda && !v.getLsbD 1 }

/-- A write to ATTNMASK: reserved bits are ignored (R10); a cause set in ATTN whose mask bit becomes
1 is a masked cause going from 0 to 1 (R337). -/
def writeAttnMask (v : W16) : State → State := State.modBus fun b =>
  let m := v &&& 0x03FF
  let b' := { b with attnMask := m }
  if b.attn &&& m &&& ~~~b.attnMask != 0 then b'.maskedRise else b'

/-- HNADDR is an address Table 15-8 allows. -/
def hnaddrOk (a : Nat) : Bool := (0x01 ≤ a && a ≤ 0x0F) || (0x50 ≤ a && a ≤ 0x77)

/-- The value holds no reserved code and no invalid address (R336). -/
def attnCfgOk (v : W32) : Bool := v.toNat / 2 % 4 != 3 && hnaddrOk (v.toNat / 256 % 128)

/-- A write to ATTNCFG: a reserved code or an invalid address leaves it unchanged (R336). -/
def writeAttnCfg (v : W32) : State → State := State.modBus fun b =>
  if attnCfgOk v then { b with attnCfg := v &&& 0x00FF7F07 } else b

/-- A write transaction in progress: the address and the bytes written to multi-byte registers. -/
structure Wr where
  s : State
  addr : Nat
  buf : List (Nat × Byte) := []
  /-- The mailbox word of the byte before: the bytes that a transaction writes to a word in a row are one write of it
  (R415, log 27). -/
  word : Option Nat := none

/-- The value a multi-byte register takes: its bytes written in this transaction, the others as they
stand (log 20). -/
def Wr.value (x : Wr) (base n : Nat) : Nat :=
  leNat ((List.range n).map fun k =>
    match x.buf.find? (fun e => e.1 == base + k) with
    | some e => e.2
    | none => porchByte x.s (base + k))

/-- Register n bytes at base with their effect, if a holds its last byte (R325). -/
def Wr.commit (x : Wr) (a : Nat) : State :=
  if a = 0x0D then writeAttnMask (BitVec.ofNat 16 (x.value 0x0C 2)) x.s
  else if a = 0x13 then writeAttnCfg (BitVec.ofNat 32 (x.value 0x10 4)) x.s
  else if a = 0x17 then
    -- a byte of BUS that was not written clears nothing
    writeBus (BitVec.ofNat 32 (leNat ((x.buf.filter (fun e => e.1 == 0x14)).take 1 |>.map (·.2)))) x.s
  else x.s

/-- The slot byte at address a takes b while the host owns the slot (R343); `again` where the byte before went to the
same word. -/
def writeSlotByte (a : Nat) (b : Byte) (again : Bool) (s : State) : State :=
  let n : SlotId := Fin.ofNat 4 ((a - 0x100) / 64)
  if s.mbox.slots[n].st.hostOwned then
    let s := if again then s else s.modFaults fun f => f.wordWritten 4 ((a - 0x100) / 4)
    s.modSlot n fun x => { x with bytes := slotBytes (x.bytes.toList.set (a % 64) b) }
  else s

/-- Where the pointer goes after byte a: on by one, wrapping, but for a sluice (R323, R307). -/
def nextAddr (a : Nat) : Nat :=
  if a = 0x207 then 0x200 else if a = 0x21F then 0x210 else (a + 1) % 65536

/-- One data byte is written (R322, R325). -/
def Wr.step (x : Wr) (b : Byte) : Wr :=
  let a := x.addr
  let next := nextAddr a
  if a = 0x20 then
    -- class 7 of the next tick (R343)
    { x with s := x.s.modMbox fun m => { m with rungNext := m.rungNext ||| b }, addr := next }
  else if 0x100 ≤ a ∧ a < 0x200 then
    let k := (a - 0x100) / 4
    { x with s := writeSlotByte a b (x.word == some k) x.s, word := some k, addr := next }
  else if (0x0C ≤ a ∧ a < 0x0E) ∨ (0x10 ≤ a ∧ a < 0x18) then
    let y := { x with buf := (a, b) :: x.buf }
    { y with s := y.commit a, addr := next }
  else { x with addr := next }

/-- The data bytes of a write transaction, the pointer's two first (R323). -/
def writeBytes (data : List Byte) (s : State) : State :=
  match data with
  | lo :: hi :: rest =>
    let x := rest.foldl Wr.step { s := s, addr := leNat [lo, hi] }
    x.s.modBus fun b => { b with pointer := BitVec.ofNat 16 x.addr }
  | _ => s

/-- A write transaction, if the Rexia acknowledges its address (R328). -/
def writeTransaction (data : List Byte) (s : State) : State :=
  if s.acks then writeBytes data (s.modBus Bus.join) else refuse s

/-- BUS_WRITE (R327). -/
def execBusWrite (v : W32) (s : State) : Host.Outcome State Fault Refusal :=
  .next (writeTransaction ([0x14, 0x00] ++ toLE 4 v.toNat) s)
/-- ATTNMASK_WRITE (R337). -/
def execAttnmaskWrite (v : W16) (s : State) : Host.Outcome State Fault Refusal :=
  .next (writeTransaction ([0x0C, 0x00] ++ toLE 2 v.toNat) s)
/-- ATTNCFG_WRITE (R336). -/
def execAttncfgWrite (v : W32) (s : State) : Host.Outcome State Fault Refusal :=
  .next (writeTransaction ([0x10, 0x00] ++ toLE 4 v.toNat) s)
/-- REGISTER_WRITE (R325): the data bytes of a write transaction, register address first. -/
def execRegisterWrite (data : List Byte) (s : State) : Host.Outcome State Fault Refusal :=
  .next (writeTransaction data s)

/-! ## START, STOP, timeouts -/

/-- The bus pins are sensed: powered and not in reset (Table 22-3). -/
def State.busSensed (s : State) : Bool := s.core.dev != .off && !s.core.rstLow

/-- The code of a strap pin by its levels (Table 15-1): idle, just after the START, at the first SCL
low. -/
def strapCode (idle start low : Bool) : Nat :=
  if !idle then 0 else if !start then 3 else if !low then 2 else 1

/-- The address the three straps give (R320). -/
def strapAddr (idle start low : BitVec 3) : BitVec 7 :=
  let c (k : Nat) := strapCode (idle.getLsbD k) (start.getLsbD k) (low.getLsbD k)
  BitVec.ofNat 7 (0x10 + c 0 + 4 * c 1 + 16 * c 2)

/-- A classing: the first fixes the address, a later different one sets ADDRMIS and raises notice
0x0103 (R321). -/
def classStraps (a : BitVec 7) (s : State) : State :=
  if !s.bus.addrValid then s.modBus fun b => { b with addr := a, addrValid := true }
  else if s.bus.addr ≠ a then
    notice 0x0103 .ordinary (argB 0 a.toNat) (s.modBus fun b => { b with addrMis := true })
  else s

/-- A START cancels a backoff, which waits for the following STOP (R339). -/
def Bus.startSeen (b : Bus) : Bus :=
  { b with busy := true, inTrans := false, wait := if b.wait = .backoff then .forStop else b.wait }

/-- The backoff starts in the tick with LT `now` (R339). -/
def Bus.backOff (now : W64) (b : Bus) : Bus := { b with wait := .backoff, backoffFrom := now }

/-- The bus becomes free: what waited for it starts its backoff (R333, R339). -/
def Bus.freed (now : W64) (b : Bus) : Bus :=
  let b := { b with busy := false }
  if b.wait = .forFree then b.backOff now else b

/-- A STOP frees the bus and starts the backoff (R339). -/
def Bus.stopSeen (now : W64) (b : Bus) : Bus :=
  let b := { b with busy := false, inTrans := false }
  if b.wait = .forStop ∨ b.wait = .forFree then b.backOff now else b

/-- BUS_START_CONDITION (R321, R332, R339). -/
def execBusStartCondition (idle afterStart sclLow : BitVec 3) (s : State) : Host.Outcome State Fault Refusal :=
  .next (if s.busSensed then
      classStraps (strapAddr idle afterStart sclLow) (s.modBus Bus.startSeen)
    else s)

/-- BUS_STOP_CONDITION (R332, R333, R339). -/
def execBusStopCondition (s : State) : Host.Outcome State Fault Refusal :=
  .next (if s.busSensed then s.modBus (Bus.stopSeen s.core.lt) else s)

/-- A timeout abandons the transaction: the flag and ATTN.BUS are set, and the bus counts as busy
(R330, R331, R333). -/
def busTimeout (f : Bus → Bus) (s : State) : State :=
  attn .bus (s.modBus fun b => { f b with busy := true, inTrans := false, rdata := [] })

/-- The Rexia takes part in a transaction (R330): it has acknowledged its address or a general call since the last
START, and no STOP has come. A timeout of a transaction of its own is the outcome of that attempt (R338). -/
def State.takesPart (s : State) : Bool := s.busSensed && s.bus.inTrans

/-- SCL_TIMEOUT (R330). -/
def execSclTimeout (s : State) : Host.Outcome State Fault Refusal :=
  .next (if s.takesPart then busTimeout (fun b => { b with toutScl := true }) s else s)
/-- SDA_TIMEOUT (R331): the Rexia has held SDA low for a data bit or an acknowledge. In which bit the clock stopped
is the bus's affair, and the event says that SDA was held then (log 73). -/
def execSdaTimeout (s : State) : Host.Outcome State Fault Refusal :=
  .next (if s.takesPart then busTimeout (fun b => { b with toutSda := true }) s else s)
/-- BUS_FREE_IDLE (R333). -/
def execBusFreeIdle (s : State) : Host.Outcome State Fault Refusal :=
  .next (if s.busSensed then s.modBus (Bus.freed s.core.lt) else s)

/-- DOZE_WAKE_BY_BUS (R329): a transaction addressed to the Rexia while it dozes. -/
def execDozeWakeByBus (s : State) : Host.Outcome State Fault Refusal :=
  .next (if s.core.doze && s.bus.addrValid then wakeEvent true s else s)

/-! ## General calls (R334) -/

/-- General calls are acknowledged and taken: from the end of BOOT, outside DOZE. -/
def State.takesGeneralCalls (s : State) : Bool :=
  s.busSensed && s.core.dev != .boot && !s.core.doze

/-- The 12 bytes a matching digest check carries; none in HELD, where no bolt is in force. -/
def State.digestExpected (s : State) : Option (List Byte) :=
  if s.core.dev = .held ∨ s.bolt.inForce.isNone then none
  else some (toLE 4 s.bolt.gen.toNat ++ s.bolt.digest.take 8)

/-- The generation notice 0x0F01 carries: 0 in HELD (Table 17-10). -/
def State.noticeGen (s : State) : Nat := if s.core.dev = .held then 0 else s.bolt.gen.toNat

/-- The reeve compares the digest of a check (R334). -/
def compareDigest (data : List Byte) (s : State) : State :=
  if s.digestExpected = some data then s else attn .digest (notice 0x0F01 .ordinary (argW 0 s.noticeGen) s)

/-- DIGEST_CHECK (R334): the data bytes after the second byte 0x44. The reeve compares them, when it runs again if it is
stalled. Any other number of bytes is ignored; the call may have been cut short, and the Rexia still takes part in it
(log 73). -/
def execDigestCheck (data : List Byte) (s : State) : Host.Outcome State Fault Refusal :=
  .next (
    if !s.takesGeneralCalls then s
    else if data.length ≠ 12 then s.modBus Bus.join
    else if s.core.reeveRuns then compareDigest data s
    else s.modBus fun b => { b with digestAsked := some data })

/-- The check that a stalled reeve left. -/
def digestLate (s : State) : State :=
  match s.bus.digestAsked with
  | some d => if s.reeveActive then compareDigest d (s.modBus fun b => { b with digestAsked := none }) else s
  | none => s

/-! ## Attention writes (R337 to R339) -/

def Bus.enabled (b : Bus) : Bool := b.attnCfg.getLsbD 0
def Bus.renotify (b : Bus) : Nat := b.attnCfg.toNat / 65536 % 256

/-- An attempt may start (R337). -/
def State.attemptDue (s : State) : Bool :=
  s.bus.machine == .pending && s.bus.enabled && s.bus.addrValid && s.reeveActive &&
    !s.bus.busy && s.bus.wait == .none

/-- A failure is counted; the sixteenth in a row halts the machine (R337). -/
def Bus.failed (b : Bus) : Bus :=
  { b with nfail := satAdd b.nfail 1, failRun := b.failRun + 1,
           machine := if 16 ≤ b.failRun + 1 then .halted else b.machine }

/-- The bytes of an attempt: HNADDR with the write bit, the Rexia's own address in bits [7:1], and ATTN low byte
first (R338). -/
def Bus.transfer (b : Bus) : List Byte :=
  [BitVec.ofNat 8 (2 * (b.attnCfg.toNat / 256 % 128)), BitVec.ofNat 8 (2 * b.addr.toNat)] ++ toLE 2 b.attn.toNat

/-- The backoff of R339 in ns: 50 us and 4 us times the address index. -/
def Bus.backoffNs (b : Bus) : Nat := 50000 + 4000 * (b.addr.toNat - 0x10)

/-- The backoff has run: it began and ends between ticks, so that k ticks stand for up to k + 1 tick times. -/
def State.backoffOver (s : State) : Bool := decide (s.bus.backoffNs < 15625 * (s.since s.bus.backoffFrom + 1))

/-- An attempt that starts now, with its outcome (R338, R339). -/
def attempt (o : AttemptEnd) (s : State) : State :=
  match o with
  | .acknowledged => s.modBus fun b =>
      { b with machine := .sent, sentAt := s.core.lt, nfail := 0, failRun := 0, notified := b.transfer }
  | .notAcknowledged => s.modBus fun b => b.failed.backOff s.core.lt
  | .sclTimeout => busTimeout (fun b => { b.failed with wait := .forFree, toutScl := true }) s
  | .arbitrationLost => s.modBus fun b =>
      { b with arbLost := satAdd b.arbLost 1, wait := .forStop, busy := true }

/-- ATTENTION_ATTEMPT (R338). -/
def execAttentionAttempt (o : AttemptEnd) (s : State) : Host.Outcome State Fault Refusal :=
  .next (if s.attemptDue then attempt o s else s)

/-- ATTENTION_BACKOFF_EXPIRY (R339). -/
def execAttentionBackoffExpiry (s : State) : Host.Outcome State Fault Refusal :=
  .next (if s.bus.wait = .backoff ∧ s.backoffOver then s.modBus fun b => { b with wait := .none } else s)

/-- RENOTIFY has elapsed since the success with a masked cause still set (R337). -/
def State.renotifyDue (s : State) : Bool :=
  s.bus.machine == .sent && 0 < s.bus.renotify && s.bus.attn &&& s.bus.attnMask != 0 &&
    decide (640 * s.bus.renotify ≤ s.since s.bus.sentAt)

/-- RENOTIFY_EXPIRY (R337). -/
def execRenotifyExpiry (s : State) : Host.Outcome State Fault Refusal :=
  .next (if s.renotifyDue then s.modBus fun b => { b with machine := .pending } else s)

end Sys2Proof.Machine
end

