-- ==== Sys2Proof/Machine/Lock.lean ====
section
/-!
DEFINITION. The field lock (spec/21): attempts, lockout, challenge and sealing.
-/

namespace Sys2Proof.Machine

/-- The length of the lockout the given count of failures starts (R443). -/
def lockoutLength (fails : Nat) : Nat := 600 * 2 ^ (min (fails - 4) 10)

/-- The LOCK record (R446). -/
def lockRecord (event : Nat) (s : State) : State :=
  boxRecord 0x0E (argB 0 event ||| argB 1 s.lock.fails ||| argW 2 s.lockRem |||
    argB 6 s.lock.level.val) s

/-- The response with LOCKED (R374). -/
def lockedResponse (byLockout : Bool) (s : State) : List Byte :=
  [BitVec.ofNat 8 s.lock.fails, boolByte byLockout] ++ toLE 4 s.lockRem

/-- A failed attempt: the fourth and every later one starts a lockout (R443). -/
def attemptFailed (n : SlotId) (event : Nat) (s : State) : State :=
  let len := lockoutLength s.lock.fails
  let starts := decide (4 ≤ s.lock.fails)
  let s := if starts then s.modLock fun l => { l with lockout := some (len, s.core.lt) } else s
  let s := lockRecord event s
  let s := notice 0x1102 .ordinary (argB 0 s.lock.fails ||| argW 4 s.lockRem) s
  let s := if starts then notice 0x1103 .ordinary (argW 4 len) s else s
  post n .locked 0 (lockedResponse false s) s

/-- A successful attempt raises the level (R437, R440). -/
def attemptWon (n : SlotId) (event : Nat) (level : Fin 3) (s : State) : State :=
  let rises := decide (s.lock.level < level)
  let s := s.modLock fun l => { l with fails := 0, level := if rises then level else l.level }
  let s := lockRecord event s
  let s := if rises then
      notice 0x1101 .ordinary (argB 0 level.val ||| argB 1 (event / 2)) s
    else s
  postStatus n .ok s

/-- The outcome of an attempt that has been counted. The event is that of the acceptance; the refusal's is one
more. -/
def judgeAttempt (n : SlotId) (event : Nat) (level : Fin 3) (ok : Bool) (use : State → State) (s : State) : State :=
  if ok then attemptWon n event level (use s) else attemptFailed n (event + 1) (use s)

/-- An attempt, with writes held in its turn no more than it began with (R440, R447); or its refusal while writes are
held or a lockout is in force (R443). One that could not begin at its dispatch begins now. -/
def lockAttempt (n : SlotId) (event : Nat) (level : Fin 3) (ok : Bool) (use : State → State)
    (s : State) : State :=
  let t := if s.attempting n then s else beginAttempt n s
  if t.attempting n then judgeAttempt n event level ok use t
  else if !s.nvmAllowed then postStatus n .nvmHot s
  else post n .locked 0 (lockedResponse true s) (lockRecord 4 s)

/-- The password of the factory record. -/
def password : List Byte := (List.finRange 8).map Config.passwordByte

/-- LOCK_PASSWORD (R440). -/
def execLockPassword (n : SlotId) (s : State) : Host.Outcome State Fault Refusal :=
  .next (onSlot n 0x1101 (fun p s => lockAttempt n 0 1 (p == password) id s) s)

/-- LOCK_CHALLENGE (R442): the nonce is a free value (log 4). -/
def execLockChallenge (n : SlotId) (s : State) : Host.Outcome State Fault Refusal :=
  .next (onSlot n 0x1102 (fun _ s =>
    let nonce := (List.finRange 16).map (Config.nonceByte s.free)
    postOk n nonce (s.drawFree.modLock fun l => { l with nonce := some (nonce, s.core.lt) })) s)

/-- The expected response to a nonce (R442). -/
def expectedResponse (nonce : List Byte) : List Byte :=
  (hmacSha256 ((List.finRange 32).map Config.keyByte)
    (nonce ++ toLE 8 Config.serial.toNat ++ [0x16, 0xA0])).take 16

/-- The response matches a valid nonce (R442). -/
def State.responseOk (s : State) (p : List Byte) : Bool :=
  match s.lock.nonce with
  | some (nonce, _) => s.nonceValid && p == expectedResponse nonce
  | none => false

/-- LOCK_RESPONSE (R440, R442): the nonce is used up. -/
def execLockResponse (n : SlotId) (s : State) : Host.Outcome State Fault Refusal :=
  .next (onSlot n 0x1103 (fun p s =>
    lockAttempt n 2 2 (s.responseOk p) (State.modLock fun l => { l with nonce := none }) s) s)

/-- NONCE_EXPIRY (R442). -/
def execNonceExpiry (s : State) : Host.Outcome State Fault Refusal :=
  .next (
    match s.lock.nonce with
    | some (_, t) => if nonceLife ≤ s.since t then s.modLock fun l => { l with nonce := none } else s
    | none => s)

/-- A lockout ends at a whole second at which its time has run out and its end can be written
(R444). -/
def State.lockoutEndDue (s : State) : Bool :=
  match s.lock.lockout with
  | some (len, t) =>
    s.nvmAllowed && decide (len * ticksPerSecond ≤ s.since t) && s.since t % ticksPerSecond == 0
  | none => false

/-- LOCKOUT_END (R444). -/
def execLockoutEnd (s : State) : Host.Outcome State Fault Refusal :=
  .next (if s.lockoutEndDue then s.modLock fun l => { l with lockout := none } else s)

/-- A FORCE bit is released in this tick, with its notice where no release of it is under way; a condition still
real in the next tick is a new event (R413, R414, R416, R447). -/
def releaseForce (n : Source) (s : State) : State :=
  let x := s.faults.src[n]
  let t := s.modSource n fun x => { x with force := false, nextForce := none, fresh := x.fresh || x.force }
  if x.nextForce.getD x.force then notice 0x0E08 .fault (argB 0 n.val ||| argB 1 1) t else t

/-- Every FORCE bit is released, the armed ECC word disarmed, a SYS.PATCH staging discarded (R445). -/
def sealReleases (s : State) : State :=
  dropStaging 0x0109 0
    (((List.finRange 64).foldl (fun s n => releaseForce n s) s).modFaults fun f => { f with armed := none })

/-- The lock is sealed (R445). -/
def sealLock (s : State) : State :=
  let before := s.lock.sealed
  let s := sealReleases (s.modLock fun l => { l with sealed := true, level := 0 })
  notice 0x1104 .ordinary (argB 0 (boolNat before)) (lockRecord 5 s)

/-- LOCK_SEAL (R445): OK without change if already SEALED. -/
def execLockSeal (n : SlotId) (s : State) : Host.Outcome State Fault Refusal :=
  .next (onSlot n 0x1104 (fun _ s =>
    if s.lock.sealed && s.lock.level == 0 then postStatus n .ok s
    else if !s.nvmAllowed then postStatus n .nvmHot s
    else postStatus n .ok (sealLock s)) s)

end Sys2Proof.Machine
end

