-- ==== Sys2Proof/Machine/Faults.lean ====
section
/-!
DEFINITION. The fault collector (spec/19) but for what an escalation does to the device: detections
by tick, counting and promotion, merging, the end of a reaction, and the FAULT family.
-/

namespace Sys2Proof.Machine

def FClass.code : FClass → Nat
  | .notice => 0 | .minor => 1 | .severe => 2 | .grave => 3

def fclassOf (k : Nat) : FClass :=
  if k = 0 then .notice else if k = 1 then .minor else if k = 2 then .severe else .grave

/-! ## One tick (R402, R406, R407, R413) -/

/-- The detection of source n in this tick is an event not yet taken, or one of the tick before is (R402). -/
def FSource.eventDue (x : FSource) : Bool := (x.owed || (x.det && (!x.prevDet || x.fresh))) && !x.taken

/-- A source in the next tick: `now` is what its detector reports; the FORCE and mask bits written in
the tick before take effect; grace runs outside BOOT (R406). -/
def FSource.tick (boot now : Bool) (x : FSource) : FSource :=
  let force := x.nextForce.getD x.force
  { x with
    prevDet := x.det
    det := now || force
    -- one tick more for an event that came after its class (log 74)
    owed := x.eventDue && !x.owed
    detInjected := x.eventDue && !x.owed && x.detInjected
    quietTicks := if x.det then 0 else min 8 (x.quietTicks + 1)
    force := force, nextForce := none
    -- a condition still there in the tick after a release is an event (R414)
    fresh := x.fresh || (x.force && !force)
    masked := x.nextMask.getD x.masked, nextMask := none
    taken := false
    reaction := x.reaction.map fun r =>
      { r with age := r.age + 1, grace := if boot then r.grace else r.grace - 1 } }

/-- The holds of the sources cleared in the tick before end (R408). -/
def Faults.release (f : Faults) : Faults :=
  { f with
    heatHeld := f.heatHeld &&& ~~~f.freed
    convHeld := f.convHeld && !f.freed.getLsbD 10
    heatDefer := f.heatDefer && !f.freed.getLsbD 11, freed := 0 }

/-- Every source in the next tick; sources 55 to 63 never detect (R400). -/
def Faults.tick (boot : Bool) (now : BitVec 64) (f : Faults) : Faults :=
  { f with src := Vector.ofFn fun (n : Source) =>
      f.src[n].tick boot (now.getLsbD n.val && decide (n.val < 55)) }

/-- At a boundary that ends a frame the events grow a frame older, and leave the longest window there can be (R404);
reactions that have taken their action count every boundary (R407). -/
def FSource.boundary (whole : Bool) (x : FSource) : FSource :=
  { x with
    events := if whole then (x.events.map (· + 1)).filter (· < 65535) else x.events
    reaction := x.reaction.map fun r =>
      if r.action.isSome then { r with boundaries := r.boundaries + 1 } else r }

def Faults.boundary (whole : Bool) (f : Faults) : Faults := { f with src := f.src.map (FSource.boundary whole) }

/-! ## Merging (Table 19-4) -/

/-- The group of four ports a source number of a group table belongs to. -/
def inGroup (g n : Nat) : Bool := 16 + 4 * g ≤ n && n ≤ 19 + 4 * g

/-- The reaction of source r merges events of source n (R409, Table 19-4). -/
def merges (r n : Source) : Bool :=
  let r := r.val
  let n := n.val
  r == n ||
  (if 4 ≤ r ∧ r ≤ 6 then n == 12 || n == 13 || (40 ≤ n && n ≤ 47)
   else if r = 7 ∨ r = 8 then n == 10 || (16 ≤ n && n ≤ 35) || (40 ≤ n && n ≤ 47)
   else if r = 9 then n == 11 || (36 ≤ n && n ≤ 39)
   else if r = 10 then 40 ≤ n && n ≤ 47
   else if r = 11 then n == 9 || (36 ≤ n && n ≤ 39)
   else if 16 ≤ r ∧ r ≤ 31 then n == 32 + (r - 16) / 4 || n == 36 + (r - 16) / 4
   else if 32 ≤ r ∧ r ≤ 35 then inGroup (r - 32) n
   else if 36 ≤ r ∧ r ≤ 39 then n == 9 || n == 11 || inGroup (r - 36) n
   else if r = 40 ∨ r = 41 then n == 42 || n == 44
   else if r = 42 then n == 40 || n == 41
   else false)

/-- The reaction that merges an event of source n; the lowest-numbered if several do. -/
def Faults.mergedInto (f : Faults) (n : Source) : Option Source :=
  (List.finRange 64).find? fun r => f.src[r].reaction.isSome && merges r n

/-! ## Events (R402 to R405) -/

/-- The event is attributed FORCED (R414, R415). -/
def FSource.attribForced (x : FSource) : Bool := x.force || x.detInjected

/-- Events within the last W frames, this one included (R404). -/
def FSource.recent (x : FSource) : Nat := x.events.countP (· < x.w)

/-- The event sets its sticky bit and is counted; a count of N promotes a NOTICE or MINOR source
(R403, R404). -/
def FSource.count (x : FSource) : FSource :=
  let ev := 0 :: x.events
  let promote := (x.inForce == .notice || x.inForce == .minor) && decide (x.n ≤ ev.countP (· < x.w))
  { x with
    observed := x.observed || !x.attribForced
    forced := x.forced || x.attribForced
    events := ev, taken := true, fresh := false
    promoted := x.promoted || promote
    inForce := if promote then .severe else x.inForce }

/-- A merged event adds one to the reacting source's consequent count (R409). -/
def mergeEvent (n r : Source) (s : State) : State :=
  (s.modSource n fun x => { x with taken := true, fresh := false }).modSource r fun x =>
    { x with consequent := min 65535 (x.consequent + 1) }

/-- Notices 0x0E01 and 0x0E02 of an event (R416): x before it, y after. -/
def eventNotices (n : Source) (x y : FSource) (s : State) : State :=
  let s := if x.uncleared then s else
    notice 0x0E01 .fault (argB 0 n.val ||| argB 1 y.inForce.code ||| argB 2 (boolNat y.attribForced)) s
  if y.promoted && !x.promoted then
    notice 0x0E02 .fault (argB 0 n.val ||| argB 1 (satNat 255 y.recent) ||| argH 2 y.w) s
  else s

/-- A reaction begins: its grace time is the one set now (R407); ATTN.FAULT, and a wake in DOZE
(R405). -/
def beginReaction (n : Source) (s : State) : State :=
  wakeEvent false (attn .fault (s.modSource n fun x =>
    { x with reaction := some { grace := 64 * s.faults.grace } }))

/-! ## The end of a reaction (R407) -/

/-- The reaction ends at the third boundary after its action. -/
def Reaction.ended (r : Reaction) : Bool := r.action.isSome && decide (3 ≤ r.boundaries)

/-- A FAULT.CONFIG takes effect (R404, R406). -/
def FSource.configure (c : FClass × Nat × Nat) (x : FSource) : FSource :=
  { x with cls := c.1, n := c.2.1, w := c.2.2
           inForce := if x.promoted then x.inForce else c.1, pendCfg := none }

/-- The reaction of source n ends: notice 0x0E06, and a FAULT.CONFIG that waited applies (R417). -/
def endReaction (n : Source) (s : State) : State :=
  let x := s.faults.src[n]
  let s := s.modSource n fun x =>
    let x := { x with reaction := none }
    match x.pendCfg with
    | some c => x.configure c
    | none => x
  notice 0x0E06 .fault (argB 0 n.val ||| argH 2 x.consequent) s

/-- The reaction of source n is due to end in this tick. -/
def State.reactionEndDue (s : State) (n : Source) : Bool :=
  match s.faults.src[n].reaction with
  | some r => r.ended
  | none => false

/-- Every reaction due to end ends, before the events of the tick (R407). -/
def endReactions (s : State) : State :=
  (List.finRange 64).foldl (fun s n => if s.reactionEndDue n then endReaction n s else s) s

/-- REACTION_END (R407). -/
def execReactionEnd (f : Source) (s : State) : Host.Outcome State Fault Refusal :=
  .next (if s.reactionEndDue f then endReaction f s else s)

/-! ## The FAULT family (R370) -/

/-- The record of one source in FAULT.READ (Table 17-6). -/
def FSource.readBytes (n : Nat) (x : FSource) : List Byte :=
  [BitVec.ofNat 8 n,
   BitVec.ofNat 8 (x.inForce.code + 4 * boolNat x.observed + 8 * boolNat x.forced +
     16 * boolNat x.uncleared + 32 * boolNat x.masked + 64 * boolNat x.reaction.isSome),
   BitVec.ofNat 8 (satNat 255 x.recent), 0] ++ toLE 2 x.consequent

/-- FAULT.READ's fields. -/
def faultReadFault (p : List Byte) : Option Nat :=
  if 63 < u8 p 0 then some 0
  else if u8 p 1 = 0 ∨ 8 < u8 p 1 ∨ 64 < u8 p 0 + u8 p 1 then some 1 else none

/-- FAULT_READ (R370). -/
def execFaultRead (n : SlotId) (s : State) : Host.Outcome State Fault Refusal :=
  .next (onSlot n 0x0E01 (fun p =>
    orRefuse n ((faultReadFault p).map (.badArg, ·)) fun s =>
      postOk n ((List.range (u8 p 1)).flatMap fun k =>
        FSource.readBytes (u8 p 0 + k) (s.faults.src.toList.getD (u8 p 0 + k) {})) s) s)

/-- A source is cleared (R412): an event of this very tick is not lost (R417, R9). -/
def FSource.clear (x : FSource) : FSource :=
  if x.reaction.isSome then x
  else
    let keep := x.taken
    { x with
      observed := keep && !x.attribForced && x.observed
      forced := keep && x.attribForced && x.forced
      events := if keep then [0] else []
      consequent := 0, promoted := false, inForce := x.cls, fresh := !keep }

/-- The sources a FAULT.CLEAR clears: not in reaction, and with no event of this very tick (R417). -/
def Faults.clears (mask : Nat) (f : Faults) (n : Source) : Bool :=
  mask.testBit n.val && f.src[n].reaction.isNone && !(f.src[n]).clear.uncleared

def Faults.clear (mask : Nat) (f : Faults) : Faults :=
  { f with
    src := Vector.ofFn fun (n : Source) => if mask.testBit n.val then (f.src[n]).clear else f.src[n]
    freed := f.freed ||| BitVec.ofNat 64 (bits ((List.finRange 64).map (f.clears mask))) }

/-- FAULT.CLEAR's effect: the holds that last until the clear end in the tick after it (R408), and the heater trips of
a group whose source it clears (R135); the 25 ms count from the end of the converters' hold (R183). -/
def applyFaultClear (mask : Nat) (s : State) : State :=
  let gone := fun (p : PortId) => s.faults.clears mask (Fin.ofNat 64 (36 + p.val / 4))
  let freed := s.faults.convHeld && s.faults.clears mask 10
  let s := if freed then s.modCore fun c => { c with refSince := c.lt + 1 } else s
  (s.modFaults (Faults.clear mask)).modHeat fun v => Vector.ofFn fun p =>
    let h := v[p]
    if gone p then { h with trip := none } else h

/-- FAULT_CLEAR (R412): a reserved source is refused (R400). -/
def execFaultClear (n : SlotId) (s : State) : Host.Outcome State Fault Refusal :=
  .next (onSlot n 0x0E02 (fun p s =>
    if u8 p 6 / 128 ≠ 0 then badArg n 6 s
    else if u8 p 7 ≠ 0 then badArg n 7 s
    else postStatus n .ok (applyFaultClear (u64 p 0) s)) s)

/-- FAULT.CONFIG's fields (R400, R370). -/
def faultConfigFault (p : List Byte) : Option Nat :=
  if 54 < u8 p 0 then some 0
  else if 3 < u8 p 1 then some 1
  else if u8 p 2 = 0 then some 2
  else if 1 < u8 p 3 then some 3
  else if u16 p 4 = 0 then some 4
  else firstNonZero p 6 2

/-- FAULT.CONFIG's effect: the mask from the next tick, the rest at once or at the end of the
source's reaction (R406, R417). -/
def applyFaultConfig (p : List Byte) : State → State :=
  State.modSource (Fin.ofNat 64 (u8 p 0)) fun x =>
    let c := (fclassOf (u8 p 1), u8 p 2, u16 p 4)
    let x := { x with nextMask := some ((u8 p 3).testBit 0) }
    if x.reaction.isSome then { x with pendCfg := some c } else x.configure c

/-- FAULT_CONFIG (R406). -/
def execFaultConfig (n : SlotId) (s : State) : Host.Outcome State Fault Refusal :=
  .next (onSlot n 0x0E03 (fun p =>
    orRefuse n ((faultConfigFault p).map (.badArg, ·)) fun s =>
      postStatus n .ok (applyFaultConfig p s)) s)

/-- FAULT.FORCE's refusals: LOCKED while SEALED before any field (R363). -/
def faultForceFault (p : List Byte) (s : State) : Option (Status × Nat) :=
  if s.lock.level = 0 then some (.locked, 0)
  else if 54 < u8 p 0 then some (.badArg, 0)
  else if 1 < u8 p 1 then some (.badArg, 1)
  else none

/-- FAULT_FORCE (R413): from the tick after; notice 0x0E08. -/
def execFaultForce (n : SlotId) (s : State) : Host.Outcome State Fault Refusal :=
  .next (onSlot n 0x0E04 (fun p s =>
    orRefuse n (faultForceFault p s) (fun s =>
      let k : Source := Fin.ofNat 64 (u8 p 0)
      let b := u8 p 1 == 1
      let x := s.faults.src[k]
      let s := s.modSource k fun x => { x with nextForce := some b }
      let s := if x.nextForce.getD x.force = b then s else
        notice 0x0E08 .fault (argB 0 k.val ||| argB 1 (boolNat !b)) s
      postStatus n .ok s) s) s)

/-- Check bits and word addresses of a checker (Table 19-2). -/
def checkerWidth (c : Nat) : Nat := if c = 0 ∨ c = 4 then 7 else 8
def checkerWords (c : Nat) : Nat :=
  if c = 0 then 32768 else if c = 1 then 65536 else if c = 2 then 8192 else if c = 3 then 1024 else 64

def faultEccFault (p : List Byte) (s : State) : Option (Status × Nat) :=
  if s.lock.level = 0 then some (.locked, 0)
  else if 4 < u8 p 0 then some (.badArg, 0)
  else if 2 ^ checkerWidth (u8 p 0) ≤ u8 p 1 then some (.badArg, 1)
  else match firstNonZero p 2 2 with
    | some d => some (.badArg, d)
    | none => if checkerWords (u8 p 0) ≤ u32 p 4 then some (.badArg, 4) else none

/-- FAULT_ECC (R415): arms one word, or disarms with a mask of 0. -/
def execFaultEcc (n : SlotId) (s : State) : Host.Outcome State Fault Refusal :=
  .next (onSlot n 0x0E05 (fun p s =>
    orRefuse n (faultEccFault p s) (fun s =>
      if u8 p 1 = 0 then postStatus n .ok (s.modFaults fun f => { f with armed := none })
      else
        let s := s.modFaults fun f => { f with armed := some (Fin.ofNat 5 (u8 p 0), u32 p 4, u8 p 1) }
        postStatus n .ok (notice 0x0E08 .fault (argB 0 (0x80 + u8 p 0) ||| argB 1 2) s)) s) s)

def faultGraceFault (p : List Byte) : Option Nat :=
  if u16 p 0 = 0 ∨ 1000 < u16 p 0 then some 0 else none

def applyFaultGrace (p : List Byte) : State → State := State.modFaults fun f => { f with grace := u16 p 0 }

/-- FAULT_GRACE (R407). -/
def execFaultGrace (n : SlotId) (s : State) : Host.Outcome State Fault Refusal :=
  .next (onSlot n 0x0E06 (fun p =>
    orRefuse n ((faultGraceFault p).map (.badArg, ·)) fun s =>
      postStatus n .ok (applyFaultGrace p s)) s)

end Sys2Proof.Machine
end

