-- ==== Sys2Proof/Machine/Plan.lean ====
section
/-!
DEFINITION. The plan of a frame (spec/02, spec/12): the packing of windows, the
parts of heater steps, prices, and the fitting to the grant. A plan is built from the state at the freeze
and from the state as the next boundary will leave it, so far as that is known.
-/

namespace Sys2Proof.Machine

/-! ## Packing (R51, R52, R57) -/

/-- Windows back to back over ticks a to e; the remainder counts from m ticks on. -/
def packRun (l m a e : Nat) : List Win :=
  let n := e + 1 - a
  let full := (List.range (n / l)).map fun k => { start := a + k * l, len := l : Win }
  full ++ (if m ≤ n % l ∧ 0 < n % l then [{ start := a + n / l * l, len := n % l }] else [])

def packPolders (l m : Nat) (ps : List (Nat × Nat)) : List Win := ps.flatMap fun r => packRun l m r.1 r.2
def packGrid (l : Nat) : List Win := packRun l 1 0 639

/-- The current inputs of port p that are converted: in twill the twill input alone (Table 7-7). -/
def State.liveInputs (s : State) (p : PortId) : List (Fin 2) := s.ports[p].inputList.filter fun i => s.converts p i

/-- Windows of port p are placed in the frame (Table 7-7, R258). -/
def State.hasWindows (s : State) (p : PortId) : Bool :=
  let q := s.ports[p]
  q.measures && !(s.liveInputs p).isEmpty && !s.elecCal p

/-- A range brought within the bounds in force (R101, R151). -/
def State.inBounds (s : State) (p : PortId) (i : Fin 2) (r : Fin 8) : Fin 8 :=
  let lo := s.rangeFloor p i
  if r < lo then lo else if s.ports[p].inputs[i].hi < r then s.ports[p].inputs[i].hi else r

/-- The range an input has in the plan (R54, R101, R245): a decision or the bounds, then an overload step
that still waits (R110). New bounds and a gauze plan's floor move an input in STARTING too, where R101 and
R102 can be read against each other (DESIGN CHOICE, log 60). -/
def State.plannedRange (s : State) (p : PortId) (i : Fin 2) : Fin 8 :=
  let x := s.ports[p].inputs[i]
  match x.pinned with
  | some r => r
  | none =>
    let r := s.inBounds p i (if x.stepUp then x.range else x.nextRange.getD x.range)
    if x.stepUp ∧ r < x.hi then rangeUp r else r

/-- An input of port p will be on a guarded range (R46). -/
def State.guardedPort (s : State) (p : PortId) : Bool :=
  (s.liveInputs p).any fun i => decide ((s.plannedRange p i).val < s.frame.guarded)

/-- The training run of a stale seam: the first 64 ticks of the first polder that long (R181). -/
def State.trainingAt (s : State) (ps : List (Nat × Nat)) : Option Nat :=
  if s.seq.twill && s.seamStale then (ps.find? fun r => decide (r.1 + 63 ≤ r.2)).map (·.1) else none

/-- The polders left beside a training run. -/
def aroundTraining (t : Option Nat) (ps : List (Nat × Nat)) : List (Nat × Nat) :=
  match t with
  | some a => ps.filterMap fun r => if r.1 = a then (if a + 64 ≤ r.2 then some (a + 64, r.2) else none) else some r
  | none => ps

/-- The windows of port p: as guarded in polders, unguarded, or back to back. -/
structure Packed where
  wins : List Win := []
  inPolders : Bool := false
  isUnguarded : Bool := false
  /-- A twill input without a polder of Lmin. -/
  silent : Bool := false

def State.packPort (s : State) (ps rest : List (Nat × Nat)) (p : PortId) : Packed :=
  let q := s.ports[p]
  if !s.hasWindows p then {}
  else if !s.guardedPort p then { wins := packGrid q.len }
  else if ps.any fun r => decide (r.1 + q.lmin ≤ r.2 + 1) then
    { wins := packPolders q.len q.lmin rest, inPolders := true }
  else if s.seq.twill then { silent := true }
  else { wins := packGrid q.len, isUnguarded := true }

/-! ## Prices (R268, R269) -/

/-- The converters that run a table or the twill entry. -/
def State.convCount (s : State) : Nat :=
  if s.seq.twill then 2 else boolNat (!s.warpTable.isEmpty) + boolNat (!s.weftTable.isEmpty)

/-- The fixed price in uJ at a VDD in volts with k converters. -/
def fixedPrice (k : Nat) (v : Rat) : Rat := (Config.iBase + k * Config.iConv) * v * 10

/-- VDD's mean and lowest value so far in this frame, in volts; its last value before any tick. -/
def State.vddMean (s : State) : Rat :=
  if s.ledger.ticks = 0 then (s.core.vddMv : Rat) / 1000 else (s.ledger.vddSum : Rat) / s.ledger.ticks / 1000
def State.vddLow (s : State) : Nat := if s.ledger.ticks = 0 then s.core.vddMv else s.ledger.vddMin

/-- The state a plan made at its boundary is priced from: the frame just ended (R267). -/
def Ledger.ended (l : Ledger) : Ledger :=
  { l with vddSum := l.lastSum, ticks := l.lastTicks, vddMin := l.lastMin }

/-- The ambient temperature of a plate (R125): its source, the die sensor nearest the port where that is
not valid, 25 degC where there is no reading. -/
def State.ambient (s : State) (p : PortId) : Rat :=
  let x := s.heat[p].plate
  let die := ((s.therm.sensors[s.nearest (portRow p)].mean.map fun (v : Int) => (v : Rat) / 100)).getD 25
  if x.ambient = 0 then die
  else match s.envSource p true x.ambient x.ambientIdx with
    | some (some v) => F32.toRat v.1
    | _ => die

/-- R(T) in ohm. -/
def plateOhms (p : PortId) (x : Plate) (t : Rat) : Rat :=
  (if x.tcr then x.resistance t else Config.plateOhm p) / 1000

/-- What R125 models of a step on a plate: target temperature, steady power in mW, resistance there in
ohm, steady current in mA. -/
structure HeatModel where
  temp : Rat
  power : Rat
  ohms : Rat
  current : Rat

/-- Degree a plate is above the ambient for a milliwatt. -/
def Plate.rthK (x : Plate) : Rat := (x.rth : Rat) / 10

/-- The model of R125. A TEMP setpoint below the ambient makes P_ss negative, and its root has no value: such a step is
given no power and no current (DESIGN CHOICE, log 75). -/
def heatModel (p : PortId) (x : Plate) (ta : Rat) (kind : Nat) (set : Rat) : HeatModel :=
  let temp := if kind = 1 then set / 10 else ta + set / 1000 * x.rthK
  let power := if kind = 1 then max 0 ((set / 10 - ta) / x.rthK) else set / 1000
  let ohms := plateOhms p x temp
  { temp, power, ohms, current := if ohms ≤ 0 then 0 else 1000 * sqrtRat (power / 1000 / ohms) }

/-- The headroom cause of R125. -/
def noHeadroom (x : Plate) (low : Nat) (m : HeatModel) : Bool :=
  decide ((x.imax : Rat) < m.current ∨ (x.pmax : Rat) / 10 < m.power ∨
    vhtOf low < m.current / 1000 * (m.ohms + 6))

/-- The price in uJ of a part of n ticks that begins at a plate temperature tm. -/
def partPrice (vdd : Rat) (x : Plate) (kind n : Nat) (tm : Rat) (m : HeatModel) : Rat :=
  let up := if kind = 1 then (x.tau : Rat) / 10 / x.rthK * max 0 (m.temp - tm) else 0
  let el := m.power * n * (15625 / 1000000) + up
  let vel := sqrtRat (m.power / 1000 * m.ohms)
  if vel = 0 then 0 else el * min (2 * vdd) (36 / 10) / (Config.etaHt * vel)

/-- A first-order response towards a temperature over n ticks. -/
def settleTo (x : Plate) (n : Nat) (target tm : Rat) : Rat :=
  target + (tm - target) * expRat (-((n : Rat) * 15625 / 1000000 / ((x.tau : Rat) / 10)))

/-- The plate temperature after a part that drives. -/
def afterPart (x : Plate) (kind n : Nat) (ta tm : Rat) (m : HeatModel) : Rat :=
  if kind = 1 then (if tm ≤ m.temp then m.temp else max m.temp (settleTo x n ta tm))
  else settleTo x n m.temp tm

/-! ## The parts of heater steps in a frame (R119 to R127) -/

/-- The ticks t to t + n - 1 of a frame from the heater as it enters tick t: the step in force in each,
with the tick in which it began, and the heater after them. -/
def simTicks (cover : Nat → Bool) (now : W64) (t n : Nat) (h : Heater) : List (Option InForce) × Heater :=
  match n with
  | 0 => ([], h)
  | n + 1 =>
    let h := h.simEvents now t (cover t)
    let here := if h.run = .stopped then none else some h.inForceNow
    let r := simTicks cover (now + 1) (t + 1) n h.advance
    (here :: r.1, r.2)

/-- A part that ends before tick t. -/
def partUpTo (p : PortId) (t : Nat) (x : InForce × Nat) : HeatPart × Drive :=
  ({ port := p, step := x.1.1, tick := x.2, ticks := t - x.2 }, x.1.2.2)

/-- Equal neighbours become parts. -/
def partsOf (p : PortId) (t : Nat) (cur : Option (InForce × Nat)) : List (Option InForce) → List (HeatPart × Drive)
  | [] => cur.toList.map (partUpTo p t)
  | x :: r =>
    match cur, x with
    | some (y, a), some z =>
      if y = z then partsOf p (t + 1) cur r else partUpTo p t (y, a) :: partsOf p (t + 1) (some (z, t)) r
    | some y, none => partUpTo p t y :: partsOf p (t + 1) none r
    | none, some z => partsOf p (t + 1) (some (z, t)) r
    | none, none => partsOf p (t + 1) none r

/-- Each part with the number of those of its step before it. -/
def numbered (l : List (HeatPart × Drive)) : List (HeatPart × Drive) :=
  l.zipIdx.map fun (x, i) => ({ x.1 with nth := (l.take i).countP (·.1.step == x.1.step) }, x.2)

/-- A guarded window of a coupled port covers a tick of a frame in which the ports have these windows. -/
def State.coverAt (s : State) (wins : PortId → List Win) (mask : BitVec 16) (t : Nat) : Bool :=
  (List.finRange 16).any fun p => mask.getLsbD p.val && s.guardedPort p &&
    (wins p).any fun w => decide (w.start ≤ t ∧ t < w.start + w.len)

/-- The parts of port p that call for drive, as its profile or the replacement that starts in the frame has
them (R125); a plate without R0 and alpha runs no TEMP step (R114). -/
def State.heatParts (s : State) (wins : PortId → List Win) (p : PortId) : List (HeatPart × Drive) :=
  let h := s.heat[p]
  if s.ports[p].state ≠ .running ∨ h.tripped ∨ h.run = .stopped then []
  else
    (numbered (partsOf p 0 none (simTicks (s.coverAt wins h.plate.coupled) s.core.lt 0 640 h).1)).filter fun x =>
      x.2.kind != 0 && (h.plate.tcr || x.2.kind != 1)

/-! ## Fitting (R270 to R273) -/

inductive Item where
  | window (p : PortId) (w : Win)
  | heat (x : HeatPart) (d : Drive)
  | gauze (p : PortId)

def Item.port : Item → PortId
  | .window p _ => p
  | .heat x _ => x.port
  | .gauze p => p

/-- 0 window, 1 heater part, 2 gauze. -/
def Item.kind : Item → Nat
  | .window _ _ => 0
  | .heat _ _ => 1
  | .gauze _ => 2

def Item.tick : Item → Nat
  | .window _ w => w.start
  | .heat x _ => x.tick
  | .gauze _ => 0

/-- What the fitting is given: the state at the freeze, VDD, the grant in uJ, what is held back. -/
structure FitEnv where
  now : State
  pv : State
  vdd : Rat
  low : Nat
  fixed : Rat
  debt : Rat
  theta : Nat
  thermal : Bool

/-- What the fitting has come to. -/
structure FitSt where
  spent : Rat
  heat : Rat := 0
  /-- Predicted draw in mW and heater current in mA of each tick. -/
  draw : List Rat
  amps : List Rat := List.replicate 640 0
  tm : Vector Rat 16
  tmAt : Vector Nat 16 := Vector.replicate 16 0
  placed : List Item := []
  /-- Deferrals: item, cause 0 thermal, 1 headroom, 2 ledger, and whether the peak check failed. -/
  deferred : List (Item × Nat × Bool) := []
  reserve : Bool := false

/-- Tier and key of an item (Table 12-4). -/
def FitEnv.tier (e : FitEnv) (i : Item) : Nat := if e.now.alarmBearing i.port then 1 else 2 + i.kind

def FitEnv.before (e : FitEnv) (a b : Item) : Bool :=
  let k := fun (i : Item) =>
    (((e.tier i * 4 + (e.now.ports[i.port]).rank.val) * 16 + i.port.val) * 640 + i.tick) * 3 + i.kind
  decide (k a ≤ k b)

/-- A list of 640 with an amount added to ticks a to a + n - 1. -/
def addTicks (a n : Nat) (x : Rat) (l : List Rat) : List Rat :=
  l.zipIdx.map fun (v, t) => if a ≤ t ∧ t < a + n then v + x else v

/-- What an item would take: price, draw and current in a range of ticks, headroom missing, and the plate
temperature before and after it. -/
structure Cost where
  price : Rat
  at_ : Nat
  ticks : Nat
  draw : Rat
  amps : Rat := 0
  headroom : Bool := true
  before : Rat := 0
  after : Rat := 0

def FitEnv.cost (e : FitEnv) (x : FitSt) (i : Item) : Cost :=
  match i with
  | .window p w =>
    let m : Rat := (e.pv.liveInputs p).length
    { price := m * w.len * Config.iFe * e.vdd * (15625 / 1000000), at_ := w.start, ticks := w.len
      draw := m * Config.iFe * e.vdd }
  | .gauze _ => { price := Config.iGz * e.vdd * 10, at_ := 0, ticks := 640, draw := Config.iGz * e.vdd }
  | .heat h d =>
    let pl := (e.pv.heat[h.port]).plate
    let ta := e.now.ambient h.port
    let kind := d.kind
    let m := heatModel h.port pl ta kind (d.set : Rat)
    let t0 := settleTo pl (h.tick - x.tmAt[h.port]) ta x.tm[h.port]
    let rises := kind = 1 ∧ t0 < m.temp
    let amps := if rises then (pl.imax : Rat) else m.current
    { price := partPrice e.vdd pl kind h.ticks t0 m, at_ := h.tick, ticks := h.ticks
      draw := min (2 * e.vdd) (36 / 10) * amps / Config.etaHt, amps
      headroom := !noHeadroom pl e.low m, before := settleTo pl h.ticks ta t0
      after := afterPart pl kind h.ticks ta t0 m }

/-- R270. -/
def FitSt.failsPeak (cap : Nat) (c : Cost) (x : FitSt) : Bool :=
  (addTicks c.at_ c.ticks c.draw x.draw).any (fun v => decide ((cap : Rat) < v)) ||
  (addTicks c.at_ c.ticks c.amps x.amps).any fun v => decide (400 < v)

/-- The cause that defers an item, with whether the peak check failed. -/
def FitEnv.cause (e : FitEnv) (c : Cost) (x : FitSt) (i : Item) : Option (Nat × Bool) :=
  let l := e.now.ledger
  let limit : Rat := (l.ea : Rat) - e.debt - (if e.tier i = 1 then 0 else l.er)
  let isHeat := i.kind == 1
  let share : Rat := (e.theta : Rat) / 100 * ((l.ea : Rat) - l.er - e.fixed)
  let rest := i.kind == 0 && (e.now.ports[i.port]).rest
  if e.thermal && (isHeat || rest) then some (0, false)
  else if isHeat && !c.headroom then some (1, false)
  else if isHeat && e.now.faults.heatDefer then some (2, false)
  else if limit < x.spent + c.price then some (2, false)
  else if isHeat && decide (share < x.heat + c.price) then some (2, false)
  else if x.failsPeak l.pcap c then some (2, true)
  else none

/-- The plate temperature of an item's port after it. -/
def FitSt.plate (i : Item) (c : Cost) (driven : Bool) (x : FitSt) : FitSt :=
  match i with
  | .heat h _ =>
    { x with tm := x.tm.set h.port (if driven then c.after else c.before)
             tmAt := x.tmAt.set h.port (h.tick + h.ticks) }
  | _ => x

/-- One item is placed or deferred (R272). -/
def FitEnv.fit (e : FitEnv) (x : FitSt) (i : Item) : FitSt :=
  let c := e.cost x i
  match e.cause c x i with
  | some (k, peak) => { (x.plate i c false) with deferred := x.deferred ++ [(i, k, peak)] }
  | none =>
    let x := x.plate i c true
    let l := e.now.ledger
    { x with
      spent := x.spent + c.price, heat := if i.kind = 1 then x.heat + c.price else x.heat
      draw := addTicks c.at_ c.ticks c.draw x.draw, amps := addTicks c.at_ c.ticks c.amps x.amps
      placed := x.placed ++ [i]
      reserve := x.reserve ||
        (e.tier i == 1 && decide ((l.ea : Rat) - l.er - e.debt < x.spent + c.price)) }

/-- Gauze plans that will run. -/
def State.gauzeRuns (s : State) (p : PortId) : Bool := s.ports[p].measures && s.gauze[p].running

/-! ## The plan -/

/-- A plan with what its making does to the ledger. -/
structure Made where
  plan : Plan
  fit : FitSt
  /-- Twill inputs left without windows (Table 7-7). -/
  silent : Bool

/-- T_m of a plate where a planned frame begins at LT `at_` (R269): the ambient at the first plan of RUN, else what the
last planned frame left, settling towards the ambient since. -/
def State.plateTemp (s : State) (at_ : W64) (p : PortId) : Rat :=
  let h := s.heat[p]
  let ta := s.ambient p
  match h.tm with
  | some t => if s.core.dev = .run then settleTo h.plate (at_.toNat - h.tmLt.toNat) ta t else ta
  | none => ta

/-- The debt a plan is fitted against (R276): RUN begins without one. -/
def State.planDebt (s : State) : Nat := if s.core.dev = .run then s.ledger.debt else 0

/-- The plan of the frame `pv` begins, made at state `s`; `ended`: forced full throttle ends with it
(R292). -/
def makePlan (ended : Bool) (s pv : State) : Made :=
  let f := pv.frame
  let ps := Pattern.polders f.lead f.trail (s.frame.pattern.quiet 639) (pv.nextPattern.quiet 0) f.pattern
  let tr := pv.trainingAt ps
  let rest := aroundTraining tr ps
  let packed : Vector Packed 16 := Vector.ofFn fun p => pv.packPort ps rest p
  let wins := fun (p : PortId) => (packed[p]).wins
  let items := (List.finRange 16).flatMap fun p =>
    (wins p).map (Item.window p) ++
    ((pv.heatParts wins p).map fun x => Item.heat x.1 x.2) ++
    (if pv.gauzeRuns p then [Item.gauze p] else [])
  let vdd := s.vddMean
  let fixed := fixedPrice (if pv.seq.running then pv.convCount else 0) vdd
  let theta := s.therm.thetaNext ended
  let e : FitEnv :=
    { now := s, pv, vdd, low := s.vddLow, fixed, debt := (s.planDebt : Rat) / 64000000, theta
      thermal := decide (3 ≤ s.therm.state.val) }
  let start : FitSt :=
    { spent := fixed, draw := List.replicate 640 (fixed / 10)
      tm := Vector.ofFn fun p => s.plateTemp pv.core.lt p }
  let r := (items.mergeSort e.before).foldl e.fit start
  let mask := fun (g : PortId → Bool) => BitVec.ofNat 16 (bits ((List.finRange 16).map g))
  let heatOf := fun (l : List Item) => l.filterMap fun i => match i with
    | .heat x _ => some x
    | _ => none
  let plan : Plan :=
    { polders := ps, packed := packed.map (·.wins)
      placed := Vector.ofFn fun p => (wins p).filter fun w => r.placed.any fun i => match i with
        | .window p' w' => p' == p && w' == w
        | _ => false
      unguarded := mask fun p => (packed[p]).isUnguarded, inPolders := mask fun p => (packed[p]).inPolders
      guarded := mask fun p => pv.guardedPort p, lens := pv.ports.map fun q => (q.len, q.lmin)
      heat := heatOf r.placed, heatRefused := heatOf (r.deferred.map (·.1))
      heatersOk := !e.thermal
      gauze := mask fun p => r.placed.any fun i => match i with
        | .gauze p' => p' == p
        | _ => false
      training := tr, theta, price := (roundRat (r.spent * 100)).toNat, lead := f.lead, trail := f.trail }
  { plan, fit := r, silent := packed.toList.any (·.silent) }

/-! ## Counters and notices of a plan (R274) -/

/-- The counter of Table 12-5 that a deferral raises. -/
def PortLedger.count (kind cause : Nat) (x : PortLedger) : PortLedger :=
  if kind = 0 then
    (if cause = 0 then { x with winThermal := satAdd x.winThermal 1 } else { x with winLedger := satAdd x.winLedger 1 })
  else if kind = 1 then
    (if cause = 0 then { x with heatThermal := satAdd x.heatThermal 1 }
     else if cause = 1 then { x with heatHeadroom := satAdd x.heatHeadroom 1 }
     else { x with heatLedger := satAdd x.heatLedger 1 })
  else { x with gauze := satAdd x.gauze 1 }

def countDeferral (d : Item × Nat × Bool) (l : Ledger) : Ledger :=
  { l with ports := l.ports.set d.1.port ((l.ports[d.1.port]).count d.1.kind d.2.1)
           peak := if d.2.2 then satAdd l.peak 1 else l.peak }

/-- The deferrals of a port in this plan: its first names the notice 0x0A01. -/
def portDeferrals (l : List (Item × Nat × Bool)) (p : PortId) (s : State) : State :=
  match l.find? fun d => d.1.port == p with
  | some d => deferralNotice p d.1.kind d.2.1 s
  | none => s

/-- Tier 1 drew on the reserve, or not. -/
def reserveFrame (used : Bool) (s : State) : State :=
  if used then
    let tell := (s.ledger.reserveAge.map fun a => decide (101 ≤ a)).getD true
    let s := s.modLedger fun l => { l with reserve := satAdd l.reserve 1, reserveAge := some 0 }
    if tell then notice 0x0A02 .ordinary 0 s else s
  else s

/-- The plate temperatures at the end of the planned frame, which begins at LT `at_`. -/
def keepPlates (at_ : W64) (s : State) (r : FitSt) : Vector Heater 16 → Vector Heater 16 := fun v =>
  Vector.ofFn fun p =>
    let h := v[p]
    { h with tm := some (settleTo h.plate (640 - r.tmAt[p]) (s.ambient p) r.tm[p]), tmLt := at_ + 640 }

/-- The ranges the plan was made with take over at its boundary; an overload step that waits is made at its
window. -/
def keepRanges (pv : State) (s : State) : State :=
  overInputs (fun p i s =>
    if s.ports[p].measures && pv.ports[p].measures then
      let r := pv.plannedRange p i
      s.modInput p i fun x =>
        if x.stepUp then { x with planned := none, nextRange := none }
        else { x with planned := if r = x.range then none else some r, nextRange := none }
    else s) s

/-- What freezing a plan does (R267, R272, R274). -/
def freeze (ended : Bool) (pv s : State) : State :=
  let m := makePlan ended s pv
  let s := keepRanges pv (s.modHeat (keepPlates pv.core.lt s m.fit))
  let s := s.modLedger fun l => m.fit.deferred.foldl (fun l d => countDeferral d l) l
  let s := (List.finRange 16).foldl (fun s p => portDeferrals m.fit.deferred p s) s
  let s := reserveFrame m.fit.reserve s
  let s := if m.silent then s.modSeq fun q => { q with twillNoWin := countUp q.twillNoWin 1 } else s
  let s := s.modTherm fun t => { t with theta := m.plan.theta }
  s.modPlan fun x => { x with next := some m.plan }

end Sys2Proof.Machine
end

