-- ==== Sys2Proof/Machine/Ledger.lean ====
section
/-!
DEFINITION. The energy ledger's grant, booking and status (spec/12), and the LEDGER family (R368).
-/

namespace Sys2Proof.Machine

/-! ## Booking (R275 to R277); power in nW, energy in nW ticks -/

/-- One tick of the power monitor. -/
def Ledger.book (mv ua : Nat) (l : Ledger) : Ledger :=
  let p := mv * ua
  let above := decide (l.pcap * 1000000 < p)
  { l with
    booked := l.booked + p, total := l.total + p, ticks := l.ticks + 1, vddSum := l.vddSum + mv
    vddMin := if l.ticks = 0 then mv else min l.vddMin mv, pMax := max l.pMax p
    overload := if above then satAdd l.overload 1 else l.overload
    overloadRun := if above then l.overloadRun + 1 else 0 }

/-- The frame's figures at its end, in the tick in which the next begins; a price where it had a plan.
The ticks before frame 0 make no frame. -/
def Ledger.closeFrame (whole : Bool) (price : Nat) (l : Ledger) : Ledger :=
  let l := if whole then
      { l with lastBooked := l.booked, lastPrice := price, lastSum := l.vddSum, lastTicks := l.ticks,
               lastMin := l.vddMin, lastMax := l.pMax }
    else l
  { l with booked := 0, ticks := 0, vddSum := 0, vddMin := 0, pMax := 0 }

/-- VDD's mean over the frame just ended, in mV. -/
def Ledger.lastMean (l : Ledger) : Rat := if l.lastTicks = 0 then 0 else (l.lastSum : Rat) / l.lastTicks

/-- The debt after a frame booked as Es (R276). -/
def Ledger.newDebt (l : Ledger) (es : Nat) : Nat := min (l.ea * 64000000) (l.debt + es - l.ea * 64000000)

/-- A frame more since the last deferral of each port, the last use of the reserve and the last overrun (R274,
R276), in RUN or not. -/
def Ledger.age (l : Ledger) : Ledger :=
  { l with
    overrunAge := l.overrunAge.map (· + 1), reserveAge := l.reserveAge.map (· + 1)
    ports := l.ports.map fun x => { x with deferAge := x.deferAge.map (· + 1), noticeAge := x.noticeAge.map (· + 1) } }

/-- A frame boundary in the ledger: in RUN the debt moves, and a frame in which it grows is an overrun
(R276). -/
def ledgerBoundary (s : State) : State :=
  let d := s.ledger.newDebt s.ledger.lastBooked
  let run := s.measuring
  let grows := run && decide (s.ledger.debt < d)
  let s := s.modLedger fun l =>
    { l.age with debt := if run then d else l.debt }
  if grows then
    let tell := (s.ledger.overrunAge.map fun a => decide (101 ≤ a)).getD true
    let s := s.modLedger fun l => { l with overrun := satAdd l.overrun 1, overrunAge := some 0 }
    if tell then notice 0x0A03 .ordinary (argW 4 (satNat 0xFFFFFFFF (d / 640000))) s else s
  else s

/-! ## The grant (R265, R266) -/

/-- The fixed price of RUN at the present VDD and weave mode, in uJ. -/
def State.runPrice (s : State) : Rat := fixedPrice s.convCount ((s.core.vddMv : Rat) / 1000)

/-- A grant leaves less than the fixed price. -/
def State.shortOf (s : State) (ea er pcap : Nat) : Bool :=
  decide ((ea : Rat) - er < s.runPrice ∨ (pcap : Rat) < s.runPrice / 10)

def grantFault (p : List Byte) : Option Nat :=
  if u16 p 0 < 100 ∨ 10000 < u16 p 0 then some 0
  else if u16 p 0 < u16 p 2 then some 2
  else if u16 p 4 < 50 ∨ 900 < u16 p 4 then some 4
  else firstNonZero p 6 2

def applyGrant (p : List Byte) : State → State := State.modLedger fun l =>
  { l with ea := u16 p 0, er := u16 p 2, pcap := u16 p 4 }

def applyRank (p : List Byte) : State → State :=
  State.modPort (portNo (u8 p 0)) fun q => { q with rank := Fin.ofNat 4 (u8 p 1) }

/-- In RUN it applies to the first plan frozen from now on, and OK falls due at that plan's boundary. -/
def pendGrant (n : SlotId) (op : W16) (p : List Byte) (s : State) : State :=
  pendOn n op p .grant (s.frameIn (if s.plan.frozenAt.isSome then 2 else 1)) s

/-- Why a grant or a rank is refused (R266, R271). -/
def State.grantRefusal (s : State) (op : W16) (p : List Byte) : Option (Status × Nat) :=
  if op = 0x0A01 then
    match grantFault p with
    | some d => some (.badArg, d)
    | none => if s.shortOf (u16 p 0) (u16 p 2) (u16 p 4) then some (.ledgerShort, 0) else none
  else ((portFault p).or (if 3 < u8 p 1 then some 1 else none)).map (.badArg, ·)

/-- A waiting grant or rank applies. -/
def applyGrantOp (op : W16) (p : List Byte) : State → State := if op = 0x0A01 then applyGrant p else applyRank p

/-- LEDGER.GRANT and LEDGER.RANK. One that a freeze has already taken while it was QUEUED waits for that plan's
boundary, if it has not passed. -/
def grantCommand (op : W16) (n : SlotId) (p : List Byte) (s : State) : State :=
  if s.mbox.slots[n].early then
    if s.plan.frozenAt.isSome then pendOn n op p (.effectAt (s.frameIn 1)) (s.frameIn 1) s
    else postStatus n .ok s
  else orRefuse n (s.grantRefusal op p) (fun s =>
    if s.core.dev = .run then pendGrant n op p s else postStatus n .ok (applyGrantOp op p s)) s

/-- LEDGER_GRANT (R266). -/
def execLedgerGrant (n : SlotId) (s : State) : Host.Outcome State Fault Refusal :=
  .next (onSlot n 0x0A01 (grantCommand 0x0A01 n) s)

/-- LEDGER_RANK (R271). -/
def execLedgerRank (n : SlotId) (s : State) : Host.Outcome State Fault Refusal :=
  .next (onSlot n 0x0A02 (grantCommand 0x0A02 n) s)

/-- The command of a waiting pend goes on waiting for the boundary of frame n. -/
def effectAtFrame (w : Wait) (n : W32) : State → State := State.modMbox fun m =>
  { m with pend := m.pend.map fun x => if x.wait = w then { x with wait := .effectAt n } else x }

/-- A grant or rank whose doorbell has been taken but which the reeve has not yet come to run: it applies to this
freeze too (R266). -/
def grantQueued (n : SlotId) (s : State) : State :=
  let x := s.mbox.slots[n]
  let op := BitVec.ofNat 16 x.op
  if (x.op = 0x0A01 ∨ x.op = 0x0A02) ∧ s.core.dev = .run ∧ s.badWord n = none ∧ requestFault x s.core.dev = none ∧
      s.grantRefusal op x.payload = none then
    (applyGrantOp op x.payload s).modSlot n fun x => { x with early := true }
  else s

/-- The grants and ranks taken so far apply at a freeze; each completes at the boundary of the frame n
whose plan is frozen now. -/
def grantsAtFreeze (n : W32) (s : State) : State :=
  let due := s.mbox.pend.filter (·.wait == .grant)
  let s := effectAtFrame .grant n (due.foldl (fun s x => applyGrantOp x.op x.payload s) s)
  s.mbox.queue.foldl (fun s n => grantQueued n s) s

/-- Outside RUN a waiting grant applies and completes at once. -/
def grantsOutsideRun (s : State) : State :=
  (s.mbox.pend.filter (·.wait == .grant)).foldl (fun s x => postStatus x.slot .ok (applyGrantOp x.op x.payload s)) s

/-! ## LEDGER.STATUS (R368) -/

/-- An energy in 0.01 uJ. -/
def energyWord (k e : Nat) : List Byte := toLE k (satNat (2 ^ (8 * k) - 1) (e / 640000))

def PortLedger.bytes (x : PortLedger) : List Byte :=
  toLE 4 x.winThermal.toNat ++ toLE 4 x.winLedger.toNat ++ toLE 4 x.heatThermal.toNat ++
    toLE 4 x.heatHeadroom.toNat ++ toLE 4 x.heatLedger.toNat ++ toLE 4 x.gauze.toNat

def Ledger.status (l : Ledger) : List Byte :=
  energyWord 4 l.lastBooked ++ toLE 4 (satNat 0xFFFFFFFF l.lastPrice) ++ toLE 2 (roundRat l.lastMean).toNat ++ toLE 2 l.lastMin ++
    toLE 4 (satNat 0xFFFFFFFF (l.lastMax / 1000)) ++ energyWord 4 l.debt ++ toLE 8 (l.total / 640000) ++
    toLE 4 l.peak.toNat ++ toLE 4 l.reserve.toNat ++ toLE 4 l.overrun.toNat ++ toLE 4 l.overload.toNat ++
    l.ports.toList.flatMap PortLedger.bytes

/-- CLEAR clears the counters of Table 12-5. -/
def Ledger.clear (l : Ledger) : Ledger :=
  { l with
    peak := 0, reserve := 0, overrun := 0, overload := 0
    ports := l.ports.map fun x => { deferAge := x.deferAge, noticeAge := x.noticeAge } }

def ledgerStatusCmd : ReadCmd :=
  { op := 0x0A03, selOk := fun k => k == 0, object := fun _ s => s.ledger.status
    clear := fun _ => State.modLedger Ledger.clear }

/-- LEDGER_STATUS (R368). -/
def execLedgerStatus (n : SlotId) (s : State) : Host.Outcome State Fault Refusal :=
  .next (onSlot n 0x0A03 (fun p s => readObject ledgerStatusCmd n p s) s)

end Sys2Proof.Machine
end

