-- ==== Sys2Proof/Machine/Frame.lean ====
section
/-!
DEFINITION. The frame scheduler (spec/02): frames and FSYNC by tick, the events that report them, QUIET,
the plan at a boundary with its notices, and the FRAME family (R359).
-/

namespace Sys2Proof.Machine

/-! ## Frames by tick (R29 to R32) -/

/-- A boundary: this tick is tick 0 of a new frame. -/
def Frame.newFrame (f : Frame) : Frame :=
  { f with number := f.number + 1, lastLen := f.tick + 1, tick := 0, boundary := true, first := false
           wrapped := f.wrapped || f.number + 1 == 0 }

/-- Frame 0 starts in this tick (R30). -/
def Frame.start (src : FrameSource) (f : Frame) : Frame :=
  { f with number := 0, tick := 0, started := true, src := src, boundary := true, first := true, wrapped := false, lastLen := 640, sinceBase := 0
           missed := 0 }

/-- An edge for the count of well-spaced edges (R32). -/
def Frame.watch (edge : Bool) (f : Frame) : Frame :=
  if edge then
    let ok := f.sinceEdge.any fun n => decide (638 ≤ n + 1 ∧ n + 1 ≤ 642)
    { f with sinceEdge := some 0, goodEdges := if ok then f.goodEdges + 1 else 1 }
  else { f with sinceEdge := f.sinceEdge.map (· + 1) }

/-- The clock's watch of FSYNC (R487). -/
def Frame.clockWatch (edge : Bool) (f : Frame) : Frame :=
  let n := f.clockSince + 1
  if edge && decide (638 ≤ n ∧ n ≤ 642) then { f with clockSince := 0, clockMissed := 0 }
  else if edge && decide (9 ≤ f.goodEdges) then { f with clockSince := 0, clockMissed := 0 }
  else if n = 642 then { f with clockSince := 2, clockMissed := f.clockMissed + 1 }
  else { f with clockSince := n }

/-- A frame of the scheduler's own 640 ticks. -/
def Frame.ownTick (f : Frame) : Frame :=
  if 640 ≤ f.tick + 1 then f.newFrame else { f with tick := f.tick + 1 }

/-- One tick while it follows FSYNC (Table 2-1). -/
def Frame.followTick (edge : Bool) (f : Frame) : Frame :=
  let n := f.sinceBase + 1
  let f := { f with edge := edge }
  if edge && decide (638 ≤ n ∧ n ≤ 642) then
    let g := f.newFrame
    { g with sinceBase := 0, missed := 0, slip := if n = 640 then none else some ((g.lastLen : Int) - 640) }
  else
    let f := { f with edgeIgnored := edge }
    if n = 642 then { f.newFrame with sinceBase := 2, selfMade := true }
    else { f with tick := f.tick + 1, sinceBase := n }

/-- One tick of the scheduler, after BOOT: `edge` is a sampled rising edge of FSYNC. -/
def Frame.advance (edge : Bool) (f : Frame) : Frame :=
  let f := { f with
    boundary := false, edge := false, slip := none, edgeIgnored := false, selfMade := false
    reacquired := false, waitOver := false }
  let f := (f.watch edge).clockWatch edge
  if !f.started then
    let n := f.waitTicks + 1
    if edge then { (f.start .following) with edge := true, waitTicks := n }
    else if 2560 ≤ n then { (f.start .absent) with waitOver := true, waitTicks := n }
    else { f with waitTicks := n }
  else match f.src with
    | .byBolt => f.ownTick
    | .following => f.followTick edge
    | _ =>
      if edge && decide (9 ≤ f.goodEdges) then { f.newFrame with sinceBase := 0, missed := 0, reacquired := true }
      else f.ownTick

/-! ## The events that report them -/

/-- FSYNC_EDGE (R31): a slip or an ignored edge is counted, a slip reported. -/
def execFsyncEdge (s : State) : Host.Outcome State Fault Refusal :=
  .next (
    if s.frame.edge then
      let f := s.frame
      let s := s.modFrame fun f =>
        { f with edge := false, slip := none, edgeIgnored := false
                 slips := if f.slip.isSome then countUp f.slips 1 else f.slips
                 ignored := if f.edgeIgnored then countUp f.ignored 1 else f.ignored }
      match f.slip with
      | some d => notice 0x1202 .ordinary (argB 0 (d % 256).toNat) s
      | none => s
    else s)

/-- FSYNC_MISSED (R31): the boundary is the scheduler's own, one more in a row. -/
def execFsyncMissed (s : State) : Host.Outcome State Fault Refusal :=
  .next (
    if s.frame.selfMade then s.modFrame fun f => { f with selfMade := false, missed := f.missed + 1 } else s)

/-- FSYNC_LOST (R31): the fourth self-made boundary in a row. The nine edges of R32 are counted from now. -/
def execFsyncLost (s : State) : Host.Outcome State Fault Refusal :=
  .next (
    if s.frame.src = .following ∧ 4 ≤ s.frame.missed then
      notice 0x1203 .ordinary 0
        (s.modFrame fun f => { f with src := .absent, missed := 0, sinceEdge := none, goodEdges := 0 })
    else s)

/-- FSYNC_REACQUIRED (R32). -/
def execFsyncReacquired (s : State) : Host.Outcome State Fault Refusal :=
  .next (
    if s.frame.reacquired then s.modFrame fun f => { f with reacquired := false, src := .following } else s)

/-- FSYNC_WAIT_TIMEOUT (R30). -/
def execFsyncWaitTimeout (s : State) : Host.Outcome State Fault Refusal :=
  .next (
    if s.frame.waitOver then notice 0x1201 .ordinary 0 (s.modFrame fun f => { f with waitOver := false }) else s)

/-- QUIET_CHANGE (R47): the pin's new level; a change or a low pulse is caught. -/
def execQuietChange (high pulse : Bool) (s : State) : Host.Outcome State Fault Refusal :=
  .next (s.modPins fun p =>
    { p with quiet := high, quietCaught := p.quietCaught || pulse || high != p.quiet })

/-- The QUIET reading of the tick now over, and the sample of this one (R47). -/
def Pins.sampleQuiet (p : Pins) : Bool × Pins :=
  (p.quietAtSample && p.quiet && !p.quietCaught, { p with quietAtSample := p.quiet, quietCaught := false })

/-! ## Contradicted polders and unguarded measurement (R49, R60) -/

/-- The frame just ended for R49: counted if it was one of RUN outside DOZE. -/
def Frame.quietFrame (counted : Bool) (f : Frame) : Frame :=
  let bad := counted && decide (0 < f.badPolder)
  { f with
    contradicted := if counted then countUp f.contradicted f.badPolder else f.contradicted
    badLast := if counted then f.badPolder else 0, badPolder := 0
    badRun := if bad then f.badRun + 1 else 0, badSince := if bad then f.badSince.map (· + 1) else none }

/-- PATTERN_DISAGREE_NOTICE (R49). -/
def execPatternDisagreeNotice (s : State) : Host.Outcome State Fault Refusal :=
  .next (
    if 16 ≤ s.frame.badRun ∧ (s.frame.badSince.map fun a => decide (6000 ≤ a)).getD true then
      notice 0x1204 .ordinary (argW 4 s.frame.badLast) (s.modFrame fun f => { f with badSince := some 0 })
    else s)

/-- Notice 0x1205. -/
def unguardedNotice (kind mask : Nat) : State → State := notice 0x1205 .ordinary (argB 0 kind ||| argH 2 mask)

/-- The ports unguarded from this boundary on (R58, R60); the template runs on while there are any. -/
def setUnguarded (mask : BitVec 16) (s : State) : State :=
  let old := s.frame.unguarded
  let s := s.modFrame fun f =>
    { f with
      unguarded := mask
      unguardedFrames := if mask = 0 ∨ old = 0 then 0 else f.unguardedFrames + 1
      hours := if mask ≠ 0 ∧ old = 0 then countUp f.hours 1 else f.hours
      witness := if mask = 0 then f.witness else f.witness.roll }
  if old = mask then s
  else if old = 0 then unguardedNotice 0 mask.toNat s
  else if mask = 0 then unguardedNotice 2 old.toNat s
  else unguardedNotice 1 mask.toNat s

/-- UNGUARDED_HOURLY_NOTICE (R60). -/
def execUnguardedHourlyNotice (s : State) : Host.Outcome State Fault Refusal :=
  .next (
    if s.frame.unguarded ≠ 0 ∧ 360000 ≤ s.frame.unguardedFrames then
      unguardedNotice 1 s.frame.unguarded.toNat
        (s.modFrame fun f => { f with unguardedFrames := f.unguardedFrames - 360000, hours := countUp f.hours 1 })
    else s)

/-! ## The plan at its boundary (R56) -/

/-- The cause of notice 0x1206, if the plans differ for a reason that calls for it: 0 pattern, 1 margins,
2 range (a port crosses the guarded boundary), 3 window length (L or Lmin). Windows that differ for neither
of the last two, beside a training run (R181), are named with cause 2 (DESIGN CHOICE, log 58). -/
def planChange (a b : Plan) : Option Nat :=
  if a.polders != b.polders then some (if a.lead = b.lead ∧ a.trail = b.trail then 0 else 1)
  else
    let both := (List.finRange 16).filter fun p =>
      !a.packed[p].isEmpty && !b.packed[p].isEmpty && a.packed[p] != b.packed[p]
    if both.isEmpty then none
    else if both.any fun p => a.guarded.getLsbD p.val != b.guarded.getLsbD p.val || a.lens[p] == b.lens[p] then some 2
    else some 3

/-- Ranges decided for this plan take over (R54), within the bounds in force at its boundary, which come
before an overload step at its first window (R110). Under hold an input moves to its pinned range alone, in
the plan frozen with it (R245). -/
def takeRanges (s : State) : State :=
  overInputs (fun p i s =>
    let x := s.ports[p].inputs[i]
    let r := match x.pinned with
      | some r => if x.planned = some r then r else x.range
      | none => if s.calHold p then x.range else s.inBounds p i (x.planned.getD x.range)
    if s.ports[p].measures && r != x.range then
      (changeRange p i r s).modInput p i fun y => { y with stepUp := x.stepUp }
    else s) s

/-- Gauze excitation is withheld in this frame, or resumes (R273). -/
def withholdGauze (s : State) : State :=
  (List.finRange 16).foldl (fun s p =>
    if s.gauze[p].running then
      let held := s.plan.cur.any fun x => !x.gauze.getLsbD p.val
      s.modGauzeAt p fun g => { g with withheld := held }
    else s) s

/-- The port whose current signal the twill entry names. -/
def State.twillPort (s : State) : Option PortId :=
  s.seq.tables.twill.bind fun e => if e.isCurrent then some e.port else none

/-- A plan frozen before the change to twill at its boundary: only the twill input's port keeps windows, and only
in polders (Table 7-7). -/
def Plan.forTwill (tp : Option PortId) (x : Plan) : Plan :=
  let keep := fun (v : Vector (List Win) 16) => Vector.ofFn fun p =>
    if tp = some p ∧ !x.unguarded.getLsbD p.val then v[p] else []
  { x with packed := keep x.packed, placed := keep x.placed, unguarded := 0 }

/-- A port that its boundary finds stopped has no windows in the frame, also where the plan was frozen before the stop
was asked for (R80). -/
def Plan.forStarted (started : PortId → Bool) (x : Plan) : Plan :=
  let keep := fun (v : Vector (List Win) 16) => Vector.ofFn fun p => if started p then v[p] else []
  { x with
    packed := keep x.packed, placed := keep x.placed
    unguarded := x.unguarded &&& BitVec.ofNat 16 (bits ((List.finRange 16).map started)) }

/-- The plan a boundary puts in force: without the ports it stops, and in twill without what twill does not run; a
twill input left without windows counts (Table 7-7). -/
def State.planInForce (s : State) : Option Plan :=
  (if s.measuring then s.plan.next else none).map fun x =>
    let x := x.forStarted fun p => s.ports[p].measures
    if s.seq.twill then x.forTwill s.twillPort else x
def countSilent (s : State) : State :=
  if s.seq.twill && s.measuring && s.plan.next.any (fun x => s.twillPort.any fun p => x.unguarded.getLsbD p.val) then
    s.modSeq fun q => { q with twillNoWin := countUp q.twillNoWin 1 }
  else s

/-- The frozen plan comes into force, in RUN outside DOZE. In a frame of RUN without a plan no port has
windows, and the model counts none as unguarded: STATE.UNGUARDED falls there, with its notice (DESIGN CHOICE,
log 58). -/
def takePlan (s : State) : State :=
  let old := s.plan.cur
  let new := s.planInForce
  let s := countSilent s
  let s := s.modPlan fun x => { x with cur := new, next := none, frozenAt := none }
  let s := setUnguarded ((new.map (·.unguarded)).getD 0) s
  match new with
  | none => s
  | some b =>
    let s := match old.bind fun a => planChange a b with
      | some c => notice 0x1206 .ordinary (argB 0 c) s
      | none => s
    let s := if b.heatersOk && decide (s.therm.state < 3) then s.modTherm fun t => { t with heatersOff := false } else s
    withholdGauze (takeRanges s)

/-! ## The FRAME family (R359) -/

/-- The template is discarded (R58). -/
def Frame.newTemplate (f : Frame) : Frame := { f with witness := [] }

/-- A pattern object takes effect in its index. -/
def applyPattern (p : List Byte) : State → State := State.modFrame fun f =>
  let k : Fin 4 := Fin.ofNat 4 (u8 p 0)
  let f' := { f with patterns := f.patterns.set k (parsePattern (p.drop 1)) }
  if k = f.active then f'.newTemplate else f'

/-- A switch takes effect (R42). -/
def applySelect (p : List Byte) : State → State := State.modFrame fun f =>
  ({ f with active := Fin.ofNat 4 (u8 p 0) }).newTemplate

def framePatternDone (n : SlotId) (sel : Nat) (o : List Byte) (s : State) : State :=
  let p := BitVec.ofNat 8 sel :: o
  if sel = s.frame.active.val then pendBoundary n 0x1201 p (s.planBoundaries n) s
  else postStatus n .ok (applyPattern p s)

def framePatternCmd : ChunkCmd :=
  { op := 0x1201, selOk := fun k => k < 4, totalOk := fun _ t => t == 160, done := framePatternDone }

/-- FRAME_PATTERN (R41). -/
def execFramePattern (n : SlotId) (s : State) : Host.Outcome State Fault Refusal :=
  .next (onSlot n 0x1201 (fun p s => chunk framePatternCmd n p s) s)

/-- A stated frame lies behind, or its plan is frozen (R41). Frame numbers compare as 32-bit numbers: one
that lies behind the wrap is refused (DEDUCED, log 58). -/
def State.frameStale (s : State) (k : Nat) : Bool :=
  s.frame.started &&
    (decide (k ≤ s.frame.number.toNat) ||
      (s.core.dev == .run && s.plan.frozenAt.isSome && decide (k ≤ s.frame.number.toNat + 1)))

def frameSelectFault (p : List Byte) (s : State) : Option Nat :=
  if 3 < u8 p 0 then some 0
  else if 1 < u8 p 1 then some 1
  else (firstNonZero p 2 2).or <|
    if u8 p 1 = 0 then (if u32 p 4 = 0 then none else some 4)
    else if s.frameStale (u32 p 4) then some 4 else none

/-- FRAME_SELECT (R41). -/
def execFrameSelect (n : SlotId) (s : State) : Host.Outcome State Fault Refusal :=
  .next (onSlot n 0x1202 (fun p s =>
    match frameSelectFault p s with
    | some d => badArg n d s
    | none =>
      let f := BitVec.ofNat 32 (u32 p 4)
      if u8 p 1 = 1 then pendOn n 0x1202 p (.frame f) f s
      else pendBoundary n 0x1202 p (s.planBoundaries n) s) s)

def framePolderFault (p : List Byte) : Option Nat :=
  if 8 < u8 p 0 then some 0 else if 8 < u8 p 1 then some 1 else if 8 < u8 p 2 then some 2 else firstNonZero p 3 1

def applyPolder (p : List Byte) : State → State := State.modFrame fun f =>
  { f with lead := u8 p 0, trail := u8 p 1, guarded := u8 p 2 }

/-- FRAME_POLDER (R43, R46). -/
def execFramePolder (n : SlotId) (s : State) : Host.Outcome State Fault Refusal :=
  .next (onSlot n 0x1203 (fun p =>
    orRefuse n ((framePolderFault p).map (.badArg, ·)) fun s =>
      if s.core.dev = .run then pendBoundary n 0x1203 p (s.planBoundaries n) s
      else postStatus n .ok (applyPolder p s)) s)

/-- The FRAME.WINDOWS object of a port (R56). -/
def State.windowsObject (s : State) (p : PortId) : List Byte :=
  match s.plan.cur with
  | none => toLE 2 0 ++ toLE 2 0
  | some x =>
    toLE 2 x.polders.length ++ toLE 2 (x.packed[p]).length ++
      x.polders.flatMap (fun r => toLE 2 r.1 ++ toLE 2 r.2) ++
      (x.packed[p]).flatMap fun w => toLE 2 w.start ++ [BitVec.ofNat 8 w.len, 0]

def frameWindowsCmd : ReadCmd :=
  { op := 0x1204, selOk := fun k => k < 16, object := fun k s => s.windowsObject (portNo k) }

/-- FRAME_WINDOWS (R56). -/
def execFrameWindows (n : SlotId) (s : State) : Host.Outcome State Fault Refusal :=
  .next (onSlot n 0x1204 (fun p s => readObject frameWindowsCmd n p s) s)

/-- The FRAME.STATUS object (Table 16-14). -/
def State.frameStatus (s : State) : List Byte :=
  let f := s.frame
  toLE 4 f.slips.toNat ++ toLE 4 f.ignored.toNat ++ toLE 4 f.cuts.toNat ++ toLE 4 f.contradicted.toNat ++
    toLE 4 f.hours.toNat ++
    s.ports.toList.flatMap (fun q => toLE 4 q.breach.toNat ++ toLE 4 q.unguardedCount.toNat)

def clearFrameStatus (s : State) : State :=
  (s.modFrame fun f => { f with slips := 0, ignored := 0, cuts := 0, contradicted := 0, hours := 0 }).modPorts
    fun v => v.map fun q => { q with breach := 0, unguardedCount := 0 }

def frameStatusCmd : ReadCmd :=
  { op := 0x1205, selOk := fun k => k == 0, object := fun _ s => s.frameStatus, clear := fun _ => clearFrameStatus }

/-- FRAME_STATUS (R359). -/
def execFrameStatus (n : SlotId) (s : State) : Host.Outcome State Fault Refusal :=
  .next (onSlot n 0x1205 (fun p s => readObject frameStatusCmd n p s) s)

end Sys2Proof.Machine
end

