-- ==== Sys2Proof/Machine/Triggers.lean ====
section
/-!
DEFINITION. The time triggers (R393 to R395): TIME_TRIGGER and the command TIME.TRIGGER.
-/

namespace Sys2Proof.Machine

/-- The present FT has reached frame f, tick t (R393); frame numbers compare modulo 2^32. -/
def State.ftReached (s : State) (f : W32) (t : Nat) : Bool :=
  s.frame.started && (let d := (s.frame.number - f).toInt
    decide (0 < d ∨ (d = 0 ∧ t ≤ s.frame.tick)))

/-- The domain of a trigger on TA or TB. -/
def State.trigDomain (s : State) (t : Trigger) : Domain := if t.base = 1 then s.time.ta else s.time.tb

/-- The trigger's time has come (R393). -/
def State.trigReached (s : State) (t : Trigger) : Bool :=
  if t.base = 0 then s.ftReached t.frame t.tick
  else (s.trigDomain t).valid && decide (t.time * 256 ≤ (s.trigDomain t).time)

/-- Whole periods of a repeating trigger that lie behind its time (R394). -/
def State.trigBehind (s : State) (t : Trigger) : Nat :=
  if t.base = 0 then
    ((s.frame.number - t.frame).toNat - if t.tick ≤ s.frame.tick then 0 else 1) / max 1 t.period
  else ((s.trigDomain t).time - t.time * 256) / (max 1 t.period * 2 ^ 48)

/-- The trigger moved on by k periods. -/
def Trigger.move (k : Nat) (t : Trigger) : Trigger :=
  if t.base = 0 then { t with frame := t.frame + BitVec.ofNat 32 (k * t.period) }
  else { t with time := (t.time + k * t.period * 2 ^ 40) % 2 ^ 104 }

/-- The action is skipped (R395): 0 state, 1 port, 2 gauze conditions. -/
def skipAction (k : Fin 16) (reason : Nat) : State → State :=
  notice 0x0D09 .ordinary (argB 0 k.val ||| argB 1 1 ||| argB 4 reason)

/-- A sequence start by a trigger, as an accepted SEQ.START (R184, R395). -/
def triggerSeq (k : Fin 16) (s : State) : State :=
  if s.seq.running then s
  else if s.refWarm && !s.convHeld then s.modSeq fun q => { q with startAsked := true }
  else skipAction k 0 s

/-- A heater profile start by a trigger: a frame-locked one waits for the boundary (R121). -/
def triggerHeat (k : Fin 16) (p : PortId) (s : State) : State :=
  if s.profileStartable p then
    let pr := s.heat[p].nextProfile.or s.heat[p].profile
    if (pr.map Profile.locked).getD false then s.modHeater p fun h => { h with startNext := true }
    else startNow p s
  else skipAction k 1 s

/-- A gauze start by a trigger: in tick 0 of the second boundary (R142, R144, R145). -/
def triggerGauze (k : Fin 16) (p : PortId) (s : State) : State :=
  if s.ports[p].measures && s.ports[p].mode.hasGauze then
    match s.gauzeRefusal p with
    | some c =>
      skipAction k 2 (skipGauze p c s)
    | none => s.modGauzeAt p fun g => { g with starts := g.starts ++ [2] }
  else skipAction k 1 s

/-- The action of a trigger, in RUN only (R395). -/
def triggerAction (k : Fin 16) (t : Trigger) (s : State) : State :=
  if !s.measuring then skipAction k 0 s
  else if t.action = 1 then triggerSeq k s
  else if t.action = 2 then triggerHeat k t.port s
  else if t.action = 3 then triggerGauze k t.port s
  else s.modGas fun g => { g with oneShot := true }

/-- In DOZE a wake trigger wakes and owes its action, another is skipped (R395). -/
def triggerTaken (k : Fin 16) (t : Trigger) (s : State) : State :=
  if s.core.doze then
    if t.wake then wakeEvent false (s.modTime fun x => { x with owed := x.owed ++ [(k, t)] })
    else skipAction k 0 s
  else triggerAction k t s

/-- The actions owed since the wake are carried out (R395). -/
def owedActions (s : State) : State :=
  s.time.owed.foldl (fun s x => triggerAction x.1 x.2 s) (s.modTime fun x => { x with owed := [] })

/-- The actions owed since the wake are skipped: the device has left RUN before they were carried out (R395). -/
def skipOwed (s : State) : State :=
  s.time.owed.foldl (fun s x => skipAction x.1 0 s) (s.modTime fun x => { x with owed := [] })

/-- The trigger after it is taken: a one-shot disarms, a repeating one moves past its time (R394). -/
def advanceTrigger (k : Fin 16) (t : Trigger) (s : State) : State :=
  if t.repeats then
    let n := s.trigBehind t
    let s := s.modTime fun x => { x with triggers := x.triggers.set k (some (t.move (n + 1))) }
    if n = 0 then s else notice 0x0D09 .ordinary (argB 0 k.val ||| argH 2 (satNat 65535 n)) s
  else s.modTime fun x => { x with triggers := x.triggers.set k none }

/-- Triggers are compared in every powered state after BOOT. -/
def State.triggersRun (s : State) : Bool :=
  s.core.dev != .off && s.core.dev != .boot && !s.core.rstLow && s.core.resetPosted.isNone

/-- TIME_TRIGGER (R393): taken in the tick its time has come. -/
def execTimeTrigger (k : Fin 16) (s : State) : Host.Outcome State Fault Refusal :=
  .next (
    match s.time.triggers[k] with
    | some t =>
      if s.triggersRun && s.trigReached t then advanceTrigger k t (triggerTaken k t s) else s
    | none => s)

/-! ## TIME.TRIGGER -/

def parseTrigger (p : List Byte) : Trigger :=
  { base := u8 p 1, action := u8 p 2, wake := (u8 p 3).testBit 0, repeats := (u8 p 3).testBit 1
    port := portNo (u8 p 4), frame := BitVec.ofNat 32 (u32 p 8), tick := u16 p 12
    time := u64 p 8 * 2 ^ 40 + leNat (slice p 16 5), period := u32 p 24 }

/-- TIME.TRIGGER's fields (R367, R393). -/
def timeTriggerFault (p : List Byte) (s : State) : Option Nat :=
  let t := parseTrigger p
  if 15 < u8 p 0 then some 0
  else if 2 < u8 p 1 then some 1
  else if 4 < u8 p 2 then some 2
  else if 3 < u8 p 3 then some 3
  else if 15 < u8 p 4 ∨ (u8 p 4 ≠ 0 ∧ t.action ≠ 2 ∧ t.action ≠ 3) then some 4
  else (firstNonZero p 5 3).or <|
    (if t.base = 0 ∧ 639 < t.tick then some 12 else none).or <|
    (if t.base = 0 then firstNonZero p 14 7 else none).or <|
    (firstNonZero p 21 3).or <|
    (if t.repeats = (t.period == 0) then some 24 else none).or
      (if t.action ≠ 0 ∧ !t.repeats ∧ s.trigReached t then some 8 else none)

/-- The trigger is replaced, or disarmed by action 0. -/
def applyTrigger (p : List Byte) : State → State := State.modTime fun x =>
  { x with triggers := x.triggers.set (Fin.ofNat 16 (u8 p 0))
             (if u8 p 2 = 0 then none else some (parseTrigger p)) }

/-- TIME_TRIGGER_COMMAND (R393). -/
def execTimeTriggerCommand (n : SlotId) (s : State) : Host.Outcome State Fault Refusal :=
  .next (onSlot n 0x0D06 (fun p s =>
    match timeTriggerFault p s with
    | some d => badArg n d s
    | none => postStatus n .ok (applyTrigger p s)) s)

end Sys2Proof.Machine
end

