-- ==== Sys2Proof/Machine/Bolts.lean ====
section
/-!
DEFINITION. Bolts (spec/20): the selvedge check, the slots, BOLT.STAGE, BOLT.COMMIT and BOLT.INFO, the
records of a bolt and their application at BOOT and at SYS.RELEASE, and PORT.MODE's effect, which takes
what the bolt holds for a mode (R85).
-/

namespace Sys2Proof.Machine

/-! ## The selvedge (R420, R421) -/

/-- The check of R421 on an object of L bytes. -/
def selvedgeOk (o : List Byte) : Bool :=
  let l := o.length
  l % 4 == 0 && decide (64 ≤ l ∧ l ≤ NvmRegion.boltA.size) &&
    o.take 8 == [0x42, 0x4F, 0x4C, 0x54, 0x01, 0x03, 0x16, 0xA0] && u32 o 8 == l &&
    u32 o 12 != 0 && zeros o 24 8 && u32 o 16 == (crc32 (slice o 32 (l - 64))).toNat &&
    slice o (l - 32) 32 == sha256 (o.take (l - 32))

/-- GENERATION of a bolt, and the first 8 bytes of its DIGEST. -/
def boltGen (o : List Byte) : W32 := BitVec.ofNat 32 (u32 o 12)
def boltDigest (o : List Byte) : List Byte := slice o (o.length - 32) 8
def boltBody (o : List Byte) : List Byte := slice o 32 (o.length - 64)

/-! ## Slots (R424, R425) -/

/-- The slot holds a valid bolt. -/
def BoltSlot.holdsValid (x : BoltSlot) : Bool := x.valid && !x.rejected

/-- The commit mark of 24 bytes that names a bolt in slot k, 0 A, 1 B (R424). -/
def commitMark (k : Bool) (o : List Byte) : List Byte :=
  let m : List Byte := [0x43, 0x4F, 0x4D, 0x54, BitVec.ofNat 8 (boolNat k), 0, 0, 0] ++
    toLE 4 (boltGen o).toNat ++ boltDigest o
  m ++ toLE 4 (crc32 m).toNat

/-- Slot k is committed: its mark is intact and names the bolt in the slot (R424). -/
def BoltSlot.committed (k : Bool) (x : BoltSlot) : Bool := x.valid && x.mark == commitMark k x.bytes

/-- The state BOLT.INFO reports (R371, R426). -/
def BoltSlot.code (k : Bool) (x : BoltSlot) : Nat :=
  if x.bytes.isEmpty then 0
  else if x.bytes.length < x.total then 1
  else if !x.valid || x.rejected then 4
  else if x.committed k then 3 else 2

def Bolt.slot (b : Bolt) (k : Bool) : BoltSlot := if k then b.b else b.a
def Bolt.set (k : Bool) (x : BoltSlot) (b : Bolt) : Bolt := if k then { b with b := x } else { b with a := x }
def slotNo (k : Bool) : Nat := if k then 1 else 0

/-- The slot BOLT.STAGE writes: false A, true B (R371, R425). -/
def Bolt.stageTarget (b : Bolt) : Bool :=
  match b.inForce with
  | some k => !k
  | none =>
    if !b.a.holdsValid then false
    else if !b.b.holdsValid then true
    else decide ((boltGen b.b.bytes).toNat < (boltGen b.a.bytes).toNat)

/-- The target is erased, its mark first (R424). -/
def Bolt.beginStage (total : Nat) (b : Bolt) : Bolt :=
  let k := b.stageTarget
  { b.set k { total := total } with target := k }

/-- A chunk is programmed. -/
def Bolt.program (d : List Byte) (b : Bolt) : Bolt :=
  let x := b.slot b.target
  b.set b.target { x with bytes := x.bytes ++ d }

/-- Where slot k lies in the NVM (Table 20-1). -/
def slotOffset (k : Bool) : Nat := if k then NvmRegion.boltB.offset else NvmRegion.boltA.offset

/-- A chunk of BOLT.STAGE is programmed at its place in the slot. -/
def programChunk (d : List Byte) (s : State) : State :=
  let off := slotOffset s.bolt.target + (s.bolt.slot s.bolt.target).bytes.length
  (s.modBolt (Bolt.program d)).modFaults (Faults.nvmWritten off d.length)

/-- A generation is greater than that of every valid bolt, a rejected one included: its selvedge is valid (R436). -/
def Bolt.newer (g : W32) (b : Bolt) : Bool :=
  [b.a, b.b].all fun x => !x.valid || decide ((boltGen x.bytes).toNat < g.toNat)

/-- The last chunk checks the selvedge and the generation (R371). -/
def boltStaged (n : SlotId) (_ : Nat) (o : List Byte) (s : State) : State :=
  if selvedgeOk o && s.bolt.newer (boltGen o) then
    postStatus n .ok (s.modBolt fun b => b.set b.target { b.slot b.target with valid := true })
  else postStatus n .boltInvalid s

def boltStageCmd : ChunkCmd :=
  { op := 0x0F01, selOk := fun k => k == 0
    totalOk := fun _ t => decide (64 ≤ t ∧ t ≤ 32768 ∧ t % 4 = 0)
    late := fun s => if s.nvmAllowed then none else some .nvmHot
    onFirst := fun t => State.modBolt (Bolt.beginStage t)
    onChunk := programChunk
    done := boltStaged }

/-- BOLT_STAGE (R371). -/
def execBoltStage (n : SlotId) (s : State) : Host.Outcome State Fault Refusal :=
  .next (onSlot n 0x0F01 (fun p s => chunk boltStageCmd n p s) s)

/-- The slot that is staged and valid with generation g. -/
def Bolt.stagedSlot (g : W32) (b : Bolt) : Option Bool :=
  [false, true].find? fun k => (b.slot k).code k == 2 && boltGen (b.slot k).bytes == g

/-- BOLT_COMMIT (R371). -/
def execBoltCommit (n : SlotId) (s : State) : Host.Outcome State Fault Refusal :=
  .next (onSlot n 0x0F02 (fun p s =>
    if (s.bolt.stagedSlot (BitVec.ofNat 32 (u32 p 0))).isNone then postStatus n .boltInvalid s
    else if !s.nvmAllowed then postStatus n .nvmHot s
    else pendOn n 0x0F02 p .boltCommit s.frame.number s) s)

/-- The mark is programmed: a BOLT_COMMIT record. -/
def markSlot (k : Bool) (s : State) : State :=
  let o := (s.bolt.slot k).bytes
  let s := s.modBolt fun b => b.set k { b.slot k with mark := commitMark k o }
  boxRecord 0x09 (argB 0 (slotNo k) ||| argW 2 (boltGen o).toNat ||| argH 6 (u16 (boltDigest o) 0)) s

/-- BOLT_COMMIT_MARK_PROGRAMMED (R424): a mark that fails verification is NVM_WORN and raises source 13. -/
def execBoltCommitMarkProgrammed (verified : Bool) (s : State) : Host.Outcome State Fault Refusal :=
  .next (
    match s.mbox.pend.find? (·.wait == .boltCommit) with
    | none => s
    | some x =>
      match s.bolt.stagedSlot (BitVec.ofNat 32 (u32 x.payload 0)) with
      | none => postStatus x.slot .boltInvalid s
      | some k => if verified then postStatus x.slot .ok (markSlot k s) else postStatus x.slot .nvmWorn (raise 13 s))

/-- A commit whose mark is not yet written when writes become held (Table 17-12). -/
def commitHeld (s : State) : State :=
  if s.nvmAllowed then s else completeWhere (·.wait == .boltCommit) .nvmHot s

/-- A slot's 16 bytes in BOLT.INFO: its header counts once the object is complete. -/
def BoltSlot.info (k : Bool) (x : BoltSlot) : List Byte :=
  let whole := 2 ≤ x.code k
  let o := if whole then x.bytes else []
  [BitVec.ofNat 8 (x.code k), 0] ++ toLE 2 x.bytes.length ++ toLE 4 (u32 o 12) ++
    (if whole then boltDigest o else List.replicate 8 0)

def slotByte (k : Option Bool) : Nat :=
  match k with
  | some b => slotNo b
  | none => 0xFF

/-- BOLT_INFO (R371). -/
def execBoltInfo (n : SlotId) (s : State) : Host.Outcome State Fault Refusal :=
  .next (onSlot n 0x0F03 (fun _ s =>
    postOk n ([BitVec.ofNat 8 (slotByte s.bolt.inForce), 0, 0, 0] ++ s.bolt.a.info false ++ s.bolt.b.info true) s) s)

/-! ## The SYSTEM record (R423) -/

def systemFault (p : List Byte) : Bool :=
  1 < u8 p 0 || 2 < u8 p 1 || 7 < u8 p 2 || u8 p 3 != 0 || u16 p 4 == 0 || 240 < u16 p 4 ||
    u16 p 6 < 2 || 50 < u16 p 6 || u32 p 8 < 6000 || 8640000 < u32 p 8 || 0x3FF < u16 p 14 ||
    !attnCfgOk (BitVec.ofNat 32 (u32 p 16)) || BitVec.ofNat 32 (u32 p 16) &&& ~~~(0x00FF7F07 : W32) != 0 ||
    !zeros p 20 12

def parseSystem (p : List Byte) : SysRec :=
  { selfFrames := u8 p 0 == 1, discipline := Fin.ofNat 3 (u8 p 1), autostart := (u8 p 2).testBit 0
    refResume := (u8 p 2).testBit 1, tbActive := (u8 p 2).testBit 2, holdMin := u16 p 4, autoK := u16 p 6
    autoFrames := u32 p 8, autoPorts := BitVec.ofNat 16 (u16 p 12), attnMask := BitVec.ofNat 16 (u16 p 14)
    attnCfg := BitVec.ofNat 32 (u32 p 16) }

/-! ## PORT.MODE (R84, R85) -/

/-- A port as a mode takes it with the defaults of the mode. -/
def Port.inMode (m : Mode) (rtd : Bool) (q : Port) : Port :=
  { q with
    mode := m, rtd := rtd
    state := if m = .none then .disabled else .stopped
    bias := 0, rate := 100, vcm := 70, aux := 2, ring := 0, vlayer := 200 }

/-- PORT.MODE with the defaults of the mode: plates, profiles, tone plans and CAP coefficients too. -/
def modeDefaults (p : List Byte) (s : State) : State :=
  let k := portNo (u8 p 0)
  let s := s.modPort k (Port.inMode (modeOf (u8 p 1)) (u8 p 2 == 1))
  let s := s.modHeater k fun h => { h with plate := {}, profile := none, nextProfile := none }
  s.modGauzeAt k fun g => { g with plan := none, cap := [0, 0, 0, 0, 0] }

/-! ## Records (R422, R426) -/

/-- A bolt record: its body offset, opcode and content. -/
structure BoltRec where
  off : Nat
  op : Nat
  content : List Byte

/-- The records of a body from an offset, and the offset of one that is not whole or not padded with
zeros. -/
def boltRecs : Nat → Nat → List Byte → List BoltRec × Option Nat
  | 0, off, b => ([], if b.isEmpty then none else some off)
  | n + 1, off, b =>
    if b.isEmpty then ([], none)
    else
      let l := u16 b 2
      let size := 4 + (l + 3) / 4 * 4
      if b.length < size ∨ !zeros b (4 + l) (size - 4 - l) then ([], some off)
      else
        let r := boltRecs n (off + size) (b.drop size)
        ({ off, op := u16 b 0, content := slice b 4 l } :: r.1, r.2)

def recordsOf (o : List Byte) : List BoltRec × Option Nat := boltRecs ((boltBody o).length / 4) 0 (boltBody o)

/-- The state of an outcome. -/
def afterOutcome (s : State) (o : Host.Outcome State Fault Refusal) : State :=
  match o with
  | .next t => t
  | .fault _ => s
  | .refused _ => s

/-- A mailbox with one request being run. -/
def requestBox (op : Nat) (p : List Byte) : Mbox :=
  { slots := Vector.replicate 4 { bytes := slotBytes (toLE 2 op ++ [0, BitVec.ofNat 8 p.length, 0, 0, 0, 0] ++ p)
                                  st := .running } }

/-- A record is checked and applied as its command would be (R426), on a mailbox of its own and without
regard to the device state; none where the command would not complete with OK. -/
def tryCommand (op : Nat) (p : List Byte) (f : State → State) (s : State) : Option State :=
  let t := f ((s.modMbox fun _ => requestBox op p).modCore fun c =>
    { c with dev := .held, reeveRuns := true, resetPosted := none })
  let x := t.mbox.slots[0]
  if x.st == .done && u8 x.bytes.toList 4 == 0 then
    some (((t.modMbox fun _ => s.mbox).modBus fun _ => s.bus).modCore fun c =>
      { c with dev := s.core.dev, reeveRuns := s.core.reeveRuns, resetPosted := s.core.resetPosted })
  else none

/-- The chunked commands a bolt may hold, but for FRAME.PATTERN. -/
def boltChunks : List ChunkCmd :=
  [heatProfileCmd, gauzePlanCmd, seqLoadCmd, weaveCoefCmd, gasModelCmd, gasMatrixCmd]

/-- The commands with a fixed payload a bolt may hold, which take effect at once outside RUN. -/
def boltFixed : List (Nat × (SlotId → State → Host.Outcome State Fault Refusal)) :=
  [(0x0202, execPortBias), (0x0203, execPortRange), (0x0204, execPortWindow), (0x0205, execPortSettle),
   (0x0206, execPortAux), (0x0207, execPortRing), (0x0208, execPortLayer), (0x0301, execHeatPlate),
   (0x0407, execGauzeCap), (0x0502, execSeqMode), (0x0601, execWeaveSet), (0x0605, execWeavePhase),
   (0x0703, execGasChannel), (0x0801, execLeveeSet), (0x0A02, execLedgerRank), (0x0B03, execThermPolicy),
   (0x0E03, execFaultConfig), (0x0E06, execFaultGrace), (0x0D03, execTimeServo),
   (0x0D06, execTimeTriggerCommand), (0x1203, execFramePolder)]

/-- A chunked command's record: SEL and the whole object. -/
def chunkRecord (c : ChunkCmd) (p : List Byte) (s : State) : Option State :=
  let sel := u16 p 0
  let o := p.drop 2
  if 2 ≤ p.length && c.selOk sel && c.totalOk sel o.length then tryCommand c.op.toNat [] (c.done 0 sel o) s
  else none

/-- A setting that is checked by one function and applied by another. -/
def settle (fault : Bool) (f : State → State) (s : State) : Option State := if fault then none else some (f s)

/-- The commands of Table 20-4 whose record differs from the command. -/
def specialRecord (op : Nat) (p : List Byte) (s : State) : Option State :=
  if op = 0x0201 then settle (p.length != 4 || (portModeFault p).isSome) (modeDefaults p) s
  else if op = 0x0405 then
    if u8 p 1 = 1 ∧ p.length = 16 then
      tryCommand op p (fun s => afterOutcome s (execGauzeHealthSetReferences 0 s)) s
    else if u8 p 1 = 2 ∧ p.length = 18 then
      tryCommand op p (fun s => afterOutcome s (execGauzeHealthSetSpreads 0 s)) s
    else none
  else if op = 0x0604 then settle (p.length != 1 || u8 p 0 == 0 || 2 < u8 p 0) (applySyncResponse p) s
  else if op = 0x0A01 then settle (p.length != 8 || (grantFault p).isSome) (applyGrant p) s
  else if op = 0x0C02 then settle (p.length != 2 || (ringWaterFault p).isSome) (applyRingWater p) s
  else if op = 0x0F10 then
    settle (p.length != 32 || systemFault p) (State.modCore fun c => { c with sys := parseSystem p }) s
  else if op = 0x1201 then
    settle (p.length != 162 || 3 < u16 p 0) (applyPattern (p.take 1 ++ p.drop 2)) s
  else if op = 0x1202 then
    settle (p.length != 8 || u8 p 1 != 0 || (frameSelectFault p s).isSome) (applySelect p) s
  else none

/-- A record is applied; none where it is refused. -/
def applyRecord (op : Nat) (p : List Byte) (s : State) : Option State :=
  match boltChunks.find? fun c => c.op.toNat == op with
  | some c => chunkRecord c p s
  | none =>
    match boltFixed.find? fun e => e.1 == op with
    | some e =>
      if ((cmdRow op).map (·.len)) == some (.fixed p.length) then
        tryCommand op p (fun s => afterOutcome s (e.2 0 s)) s
      else none
    | none => specialRecord op p s

/-! ## Selection (R426) -/

def Lane.defaults (x : Lane) : Lane :=
  { x with setting := {}, ring := true, phase := 0, staged := none, pendSets := [] }

/-- Every setting of a port at its default, the mode NONE, in which a port is DISABLED (R78). -/
def Port.defaults (p : PortId) (q : Port) : Port :=
  { Port.factory p with
    inputs := (Port.factory p).inputs, breach := q.breach, unguardedCount := q.unguardedCount }

def Gauze.defaults (g : Gauze) : Gauze :=
  { ({} : Gauze) with serial := g.serial, completed := g.completed, discarded := g.discarded, skipped := g.skipped, health := g.health }

/-- A source as Table 19-1 gives it, under R406 and R417. -/
def FSource.atDefault (n : Source) (x : FSource) : FSource :=
  let d := FSource.default n
  let x := { x with nextMask := some d.masked }
  if x.reaction.isSome then { x with pendCfg := some (d.cls, d.n, d.w) } else x.configure (d.cls, d.n, d.w)

/-- Every setting a bolt can hold at the default of its subject chapter. -/
def configDefaults (s : State) : State :=
  let s := s.modPorts fun v => Vector.ofFn fun p => Port.defaults p v[p]
  let s := s.modHeat fun v => v.map fun h => { h with plate := {}, profile := none, nextProfile := none }
  let s := s.modGauze fun v => v.map Gauze.defaults
  let s := s.modSeq fun q => { q with tables := {}, twillNext := false, twill := false }
  let s := s.modLanes fun v => v.map Lane.defaults
  let s := s.modGas fun g =>
    { g with models := ({} : Gas).models, matrix := ({} : Gas).matrix, channels := ({} : Gas).channels }
  let s := s.modLevees fun v => v.map fun _ => {}
  let s := s.modFrame fun f =>
    { f with patterns := ({} : Frame).patterns, active := 0, lead := 2, trail := 1, guarded := 4 }
  let s := s.modLedger fun l => { l with ea := 10000, er := 200, pcap := 900 }
  let s := s.modFaults fun f => { f with src := Vector.ofFn fun n => FSource.atDefault n f.src[n], grace := 50 }
  let s := s.modTime fun t =>
    { t with ta := t.ta.toHost, tb := t.tb.toHost, triggers := Vector.replicate 16 none }
  let s := s.modPins fun x => { x with syncResponse := true }
  applyRingWater (toLE 2 4096) (s.modCore fun c => { c with sys := {} })

/-- The records in order, from the defaults: the state, or the offset of the first refused. -/
def applyRecords : List BoltRec → Option Nat → State → Except Nat State
  | [], none, s => .ok s
  | [], some off, _ => .error off
  | r :: rs, bad, s =>
    match applyRecord r.op r.content s with
    | some s' => applyRecords rs bad s'
    | none => .error r.off

/-- The ports that SYS.RELEASE found in SHUT stay there, where the new configuration gives them a mode: the state of a
port takes no part in the check of the records, which R426 gives as steps 2 and 4 of R346 alone. A port in NONE is
DISABLED, though R78 names PORT.START and SYS.RECOVER as the only ways out of SHUT (DESIGN CHOICE, log 75). -/
def keepShut (old : Vector Port 16) : State → State := State.modPorts fun v => Vector.ofFn fun p =>
  if old[p].state = .shut ∧ v[p].mode ≠ .none then { v[p] with state := .shut } else v[p]

/-- Slot k is tried: in force, or discarded and reported. A count of RECORDS other than the body's is a
refusal at the body's end (DEDUCED, log 23). -/
def trySlot (k : Bool) (s : State) : State × Bool :=
  let o := (s.bolt.slot k).bytes
  let s := readNvm (slotOffset k) o.length s
  let rs := recordsOf o
  let short := if rs.1.length = u32 o 20 then none else some (boltBody o).length
  match applyRecords rs.1 (rs.2.or short) (configDefaults s) with
  | .ok t =>
    (keepShut s.ports (t.modBolt fun b => { b with inForce := some k, gen := boltGen o, digest := boltDigest o }), true)
  | .error off =>
    let g := (boltGen o).toNat
    let s := s.modBolt fun b => b.set k { b.slot k with rejected := true }
    let s := boxRecord 0x0A (argB 0 (slotNo k) ||| argW 2 g ||| argH 6 off) s
    (notice 0x0F02 .ordinary (argB 0 (slotNo k) ||| argH 2 off ||| argW 4 g) s, false)

/-- The committed slots, the higher generation first. -/
def Bolt.candidates (b : Bolt) : List Bool :=
  let l := [false, true].filter fun k => (b.slot k).committed k
  if decide ((boltGen b.a.bytes).toNat < (boltGen b.b.bytes).toNat) then l.reverse else l

def trySlots : List Bool → State → State × Bool
  | [], s => (s, false)
  | k :: ks, s =>
    match trySlot k s with
    | (t, true) => (t, true)
    | (t, false) => trySlots ks t

/-- The bolt is selected; without one every setting is at its default and none is in force (R426). -/
def selectBolt (s : State) : State × Bool :=
  let s := s.modBolt fun b =>
    { b with a := { b.a with rejected := false }, b := { b.b with rejected := false }
             inForce := none, gen := 0, digest := [] }
  match trySlots s.bolt.candidates s with
  | (t, true) => (t, true)
  | (t, false) => (configDefaults t, false)

/-- A valid committed bolt exists (SYS.RELEASE's request, Table 17-1). -/
def Bolt.hasCommitted (b : Bolt) : Bool := !b.candidates.isEmpty

/-! ## What the bolt holds for a port's mode -/

/-- The records of the bolt in force. -/
def State.boltRecords (s : State) : List BoltRec :=
  match s.bolt.inForce with
  | some k => (recordsOf (s.bolt.slot k).bytes).1
  | none => []

/-- The mode, and the AUX excitation bit, the bolt in force gives a port. -/
def State.boltMode (s : State) (k : PortId) : Mode × Bool :=
  match (s.boltRecords.filter fun r => r.op == 0x0201 && portNo (u8 r.content 0) == k).getLast? with
  | some r => (modeOf (u8 r.content 1), u8 r.content 2 == 1)
  | none => (.none, false)

/-- The opcodes of mode parameters (R85). -/
def modeParamOps : List Nat := [0x0202, 0x0301, 0x0302, 0x0208, 0x0206, 0x0207, 0x0401, 0x0407]

/-- PORT.MODE at its boundary (R84, R85): the parameters the bolt holds for the port and mode, else the
mode's defaults; a notice where the mode departs from the bolt's. -/
def applyPortMode (n : SlotId) (p : List Byte) (s : State) : State :=
  let k := portNo (u8 p 0)
  let st := s.ports[k].state
  if st = .disabled ∨ st = .stopped then
    let m := modeOf (u8 p 1)
    let s := modeDefaults p s
    let recs := if (s.boltMode k).1 = m then
        s.boltRecords.filter fun r => modeParamOps.contains r.op && portNo (u8 r.content 0) == k else []
    let s := recs.foldl (fun s r => (applyRecord r.op r.content s).getD s) s
    let departs := decide (s.boltMode k ≠ (m, u8 p 2 == 1))
    let s := s.modPort k fun q => { q with departs := departs }
    let s := if departs then notice 0x0203 .ordinary (argB 0 k.val ||| argB 1 m.code) s else s
    postStatus n .ok s
  else postStatus n .wrongState s

end Sys2Proof.Machine
end

