-- ==== Sys2Proof/Machine/Power.lean ====
section
/-!
DEFINITION. Power, reset and BOOT (spec/22), the moves between device states (R23, R24, R27), the rails
(R18), the clock's discipline (R20, R487) and the SYS family (R364).
-/

namespace Sys2Proof.Machine

/-- A change at every port, in ascending order. -/
def eachPort (f : PortId → State → State) (s : State) : State := (List.finRange 16).foldl (fun s p => f p s) s

/-! ## Leaving a state -/

/-- One-shot requests that can no longer be served complete with WRONG_STATE (R348). -/
def dropUrgent (s : State) : State :=
  completeWhere (·.wait == .urgent) .wrongState (s.modSeq fun q => { q with urgent := [] })

/-- The converters and the plan end with RUN. STATE.UNGUARDED falls, and unguarded measurement ends with its
notice, at the boundary that follows (R57, R60). -/
def endMeasuring (s : State) : State :=
  let s := (stopConverters s).modSeq fun q => { q with stopped := false, startAsked := false }
  s.modPlan fun x => { frozenAt := x.frozenAt }

/-- A port that drives or is paused is stopped without a ramp (R77, R81). -/
def forceStopped (p : PortId) (s : State) : State :=
  if s.ports[p].driven || s.ports[p].state == .paused then forcePort p .stopped s else s

/-- The device leaves DOZE. -/
def leaveDoze : State → State := State.modCore fun c =>
  { c with doze := false, waking := none, wake := c.wake || c.doze, wdogTicks := if c.doze then 0 else c.wdogTicks }

/-- Every output stops in this tick on the way to SAFE or LATCHED (R77): calibrations end, clamps close,
SYS.STOP and SYS.HOLD complete with WRONG_STATE (R27). -/
def stopOutputs (s : State) : State :=
  let s := if s.core.doze then attn .wake (leaveDoze s) else s
  let s := if s.core.dev = .run then calLeaves s else s
  let s := (eachPort forceStopped (elecLeaves s)).modPorts fun v => v.map fun q => { q with engaged := false }
  let s := skipOwed (dropUrgent (endMeasuring s))
  let s := s.modCore fun c =>
    { c with stopping := false, stopToHeld := false, startAuto := false, wakeResume := false, hcause := .none }
  completeWhere (fun x => x.op == 0x0102 || x.op == 0x0103) .wrongState s

/-- The device enters a state; a departure from RUN releases the comparators (R240). -/
def enterDev (d : Dev) (s : State) : State :=
  let was := s.core.dev
  let s := setDev d s
  if was = .run ∧ d ≠ .run then leaveTwill (leveesLeave s) else s

/-! ## SAFE and LATCHED (R410) -/

/-- Every reaction in progress takes this tick as its action tick, without further check (R410). -/
def FSource.settleNow (now : W64) (x : FSource) : FSource :=
  { x with reaction := x.reaction.map fun r => { r with action := some now, boundaries := 0, checks := false } }

/-- The reeve is restarted: every slot it has not finished completes with WRONG_STATE (R410). A mode change pending for
this tick's boundary goes with its slot, against the row of Table 3-9 that lets it take effect at an escalation to SAFE:
R410 names the restart alone, by WDOG and REEVE_EXC, and is taken to win (DESIGN CHOICE, log 75). -/
def restartReeve (s : State) : State :=
  let open_ := fun (n : SlotId) => match s.mbox.slots[n].st with
    | .queued => true | .running => true | .pending => true | .free => false | .done => false
  let s := s.modCore fun c => { c with reeveRuns := true, wdogTicks := 0 }
  let s := ((List.finRange 4).filter open_).foldl (fun s n => postStatus n .wrongState s) s
  s.modMbox fun m => { m with queue := [], owed := [] }

/-- SAFE by the reaction of a source (Table 1-5, R410, R411). -/
def enterSafe (src : Source) (s : State) : State :=
  if s.core.dev = .off ∨ s.core.dev = .latched then s
  else
    let entry := s.core.dev ≠ .safe
    let s := enterDev .safe (stopOutputs s)
    let s := s.modFaults fun f => { f with src := f.src.map (FSource.settleNow s.core.lt) }
    let s := if entry then
        boxRecord 0x08 (argB 0 1 ||| argB 1 src.val) (notice 0x0E05 .fault (argB 0 src.val) s)
      else s
    if src = 4 ∨ src = 5 then restartReeve s else s

/-- LATCHED (Table 1-5, R293, R348, R410): outputs off, reactions end, PENDING slots complete. -/
def enterLatched (s : State) : State :=
  let boot := s.core.dev = .boot
  let s := stopOutputs s
  let s := (List.finRange 64).foldl
    (fun s n => if s.faults.src[n].reaction.isSome then endReaction n s else s) s
  let s := s.mbox.pend.foldl (fun s x => postNow x.slot .wrongState 0 [] s) s
  let s := enterDev .latched (s.modCore fun c =>
    { c with resetPosted := none, rstLow := false, powerUp := false, porchUp := true, refOn := false })
  if boot then ring 0 (flushHeld s) else s

/-! ## Resets and power (R449 to R453) -/

/-- The NUMBER of the newest HEAT_ENTRY written that no HEAT_CLOSE or HEAT_LOST has followed (R432). -/
def Box.openEntry (b : Box) : Option W32 :=
  match b.recs.find? fun r => [4, 5, 6].contains (u8 r.2 4) with
  | some r => if u8 r.2 4 = 4 then some (BitVec.ofNat 32 (u32 r.2 0)) else none
  | none => none

/-- What a reset leaves of the box (R429, R432, R452). -/
def Box.afterReset (b : Box) : Box :=
  { b with
    staged := [], overflow := none, dropped := 0, erasing := false, begun := none
    ready := b.newest % 16 != 15 || !b.pageErase
    heat := b.openEntry.map fun k => (some k, 0, 0) }

/-- What a reset leaves of the lock: the stored state, and a lockout that runs its full length again
(R443). An attempt cut short has failed, and is the fourth failure as any other (R440). -/
def Lock.afterReset (lt : W64) (cut : Bool) (l : Lock) : Lock :=
  let new := if cut && decide (4 ≤ l.fails) then some (lockoutLength l.fails, lt) else none
  { l with
    level := if l.sealed then 0 else 2, nonce := none
    lockout := (l.lockout.map fun x => (x.1, lt)).or new }

/-- The adaptation factor that is stored, or 1 (R225). What the port's last adaptation record holds, which limits
have acted since its last system calibration, and the frames since the store outlast the reset: the black box and
the NVM keep them (R224). -/
def Adapt.afterReset (x : Adapt) : Adapt :=
  let kept : Adapt :=
    { recorded := x.recorded, acted40 := x.acted40, acted30 := x.acted30, sinceStore := x.sinceStore
      periodFrames := x.periodFrames }
  match x.stored with
  | some (a, l) => { kept with a := a, periods := l, stored := some (a, l) }
  | none => kept

/-- Everything a reset does not keep under Table 22-4 restarts, LT at lt. -/
def afterReset (lt : W64) (s : State) : State :=
  let c := s.core
  let core : Core :=
    { lt := lt, bootCount := c.bootCount, patchStored := c.patchStored, rstPin := c.rstPin
      causeLatch := c.causeLatch, everBooted := c.everBooted, bootCause := c.bootCause
      vddMv := c.vddMv, iddUa := c.iddUa }
  let cal : Cal := { Cal.factory with recs := s.cal.recs, stored := s.cal.stored, sinceStore := s.cal.sinceStore }
  let gas : Gas := { adapt := s.gas.adapt.map Adapt.afterReset }
  { State.reset with
    core := core, cal := cal, gas := gas, pins := { quiet := s.pins.quiet, quietAtSample := s.pins.quietAtSample }
    bolt := { a := s.bolt.a, b := s.bolt.b }, box := s.box.afterReset, lock := s.lock.afterReset lt ((List.finRange 4).any s.attempting)
    free := s.free, pending := s.pending }

/-- BOOT begins for a cause, LT at lt (R454). -/
def beginBoot (cause : Fin 4) (lt : W64) (s : State) : State :=
  (afterReset lt s).modCore fun c =>
    { c with bootCause := cause, bootCount := countUp c.bootCount 1, causeLatch := false }

/-- The cause of a power-up: 3 with the cause latch intact (R450). -/
def Core.powerCause (c : Core) : Fin 4 := if c.causeLatch then 3 else 0

/-- POWER_ON (R449): with RESET_N low the Rexia stays in reset, and the cause of the coming BOOT is that
of the power-up (R460). -/
def execPowerOn (s : State) : Host.Outcome State Fault Refusal :=
  .next (
    if s.core.dev ≠ .off then s
    else if s.core.rstPin then
      (afterReset 0 s).modCore fun c => { c with rstLow := true, powerUp := true, bootCause := c.powerCause }
    else beginBoot s.core.powerCause 0 s)

/-- A BROWNOUT record can be written: writes allowed, and the pre-erased position known (R433, R452). -/
def State.brownoutRecord (s : State) : Bool :=
  s.nvmAllowed && s.core.everBooted && !s.core.rstLow && s.core.dev != .boot

/-- A record is being programmed: in its tick and the next, and in one more where its program lasts so long. -/
def State.inProgram (s : State) : Bool :=
  s.box.begun.any fun x => decide (s.since x.1 ≤ 1 + boolNat (Config.recordLong x.2.toNat))

/-- The record in progress is abandoned: its position is void, and its NUMBER goes to the next (R436). -/
def Box.abandon (b : Box) : Box :=
  match b.begun with
  | some (_, n) => { b with recs := b.recs.tail, number := n, begun := none }
  | none => b

/-- The hold-up's one record (R433), at the pre-erased position, whatever waits before it. -/
def holdUp (vddMv : Nat) (s : State) : State :=
  let args := argH 0 vddMv ||| argB 2 s.core.dev.code ||| argB 3 (s.box.staged.length + boolNat s.box.overflow.isSome)
  let r := { mkRec s 0x02 args with holdup := true, staged := false }
  programRecord r (if s.inProgram then s.modBox Box.abandon else s)

/-- BROWNOUT (R449, R433): OFF in this tick. -/
def execBrownout (vddMv : Nat) (s : State) : Host.Outcome State Fault Refusal :=
  .next (
    if s.core.dev = .off then s
    else
      let s := if s.brownoutRecord then holdUp vddMv s else s
      (afterReset 0 s).modCore fun c =>
        { c with dev := .off, powered := false, causeLatch := true, everBooted := false })

/-- CAUSE_LATCH_RETENTION_LOSS (R450): VDD has fallen below the retention threshold. -/
def execCauseLatchRetentionLoss (s : State) : Host.Outcome State Fault Refusal :=
  .next (if s.core.dev = .off then s.modCore fun c => { c with causeLatch := false } else s)

/-- RESET_N_LOW (R451): ignored in OFF and in LATCHED but for the level of the pin. -/
def execResetNLow (s : State) : Host.Outcome State Fault Refusal :=
  .next (
    let s := s.modCore fun c => { c with rstPin := true }
    if s.core.dev = .off ∨ s.core.dev = .latched ∨ s.core.rstLow then s
    else (afterReset s.core.lt s).modCore fun c => { c with rstLow := true })

/-- RESET_N_RELEASE (R23): BOOT begins, unless the reset has been overtaken by LATCHED (R27). -/
def execResetNRelease (s : State) : Host.Outcome State Fault Refusal :=
  .next (
    let cause : Fin 4 := if s.core.powerUp then s.core.bootCause else 1
    let s := s.modCore fun c => { c with rstPin := false }
    if s.core.rstLow then beginBoot cause s.core.lt s else s)

/-- SYS_RESET_BOOT_DELAY (R453): 1 ms after the OK. -/
def execSysResetBootDelay (s : State) : Host.Outcome State Fault Refusal :=
  .next (
    match s.core.resetPosted with
    | some t => if s.since t = 64 then beginBoot 2 s.core.lt s else s
    | none => s)

/-! ## BOOT (R454) -/

/-- BOOT runs, 1 ms or more since its start. -/
def State.bootPast (s : State) (ticks : Nat) : Bool :=
  s.core.dev == .boot && !s.core.rstLow && decide (ticks ≤ s.core.bootTicks)

/-- BOOT_PORCH_ANSWER (R23, R454): the porch answers; the stored patch is applied (R365). -/
def execBootPorchAnswer (s : State) : Host.Outcome State Fault Refusal :=
  .next (
    if s.bootPast 64 && !s.core.porchUp then
      s.modCore fun c => { c with porchUp := true, patchLevel := c.patchStored }
    else s)

/-- The bolt's setting for the attention machine and the time bases, at the end of BOOT (R336, R381). -/
def bootSettings (s : State) : State :=
  let y := s.core.sys
  (s.modBus fun b => { b with attnMask := y.attnMask, attnCfg := y.attnCfg }).modTime fun t =>
    { t with activeTb := y.tbActive }

/-- The records of the end of BOOT: POWER_ON, and HEAT_LOST for an interval left open (R432); `last` is
the number of the last record before. -/
def bootRecords (last : W32) (s : State) : State :=
  let c := s.core
  let s := boxRecord 0x01 (argB 0 c.bootCause.val ||| argB 1 (slotByte s.bolt.inForce) |||
    argW 2 s.bolt.gen.toNat ||| argH 6 c.patchLevel.toNat) s
  match s.box.heat with
  | some (some k, _, _) =>
    let s := boxRecord 0x06 (argW 0 k.toNat ||| argW 4 last.toNat) (s.modBox fun b => { b with heat := none })
    notice 0x0F05 .ordinary (argW 4 k.toNat) s
  | _ => s

/-- A start that leaves less than the fixed price (Table 17-1). -/
def State.startShort (s : State) : Bool := decide ((s.ledger.ea : Rat) - s.ledger.er < s.runPrice)

/-- Autostart: the reference is enabled (R24), and RUN asked for unless the ledger is short (R422). -/
def autostart (s : State) : State :=
  if s.core.sys.autostart then
    let s := refEnable s
    if s.startShort then notice 0x0F03 .ordinary 0 s else s.modCore fun c => { c with startAuto := true }
  else s

/-- The bolt is selected, then the calibration records and a set of electrical coefficients are applied (R426, R256,
R262). -/
def putInForce (elec : ElecSet) (s : State) : State × Bool :=
  let r := selectBolt s
  (calBoot (loadElec elec r.1), r.2)

/-- An abandoned page erase is redone, once writes are allowed (R433, R419, R454). -/
def redoErase (s : State) : State :=
  if s.nvmAllowed then s.modBox fun b => { b with pageErase := false, ready := true } else s

/-- BOOT_END (R23, R454). -/
def endBoot (s : State) : State :=
  let last := s.box.number
  let r := putInForce (s.cal.stored.getD ElecSet.factory) (redoErase s)
  let s := bootRecords last (bootSettings r.1)
  let s := s.modCore fun c =>
    { c with railsUp := true, everBooted := true, refclkGood := 0, hcause := if r.2 then .none else .noBolt }
  let s := ring 0 (flushHeld (setDev (if r.2 then .ready else .held) s))
  let s := if s.core.sys.selfFrames then s.modFrame (Frame.start .byBolt) else s
  if r.2 then autostart s else s

/-- BOOT_END: within 15 ms of the start, once the porch answers; a stalled reeve does not end it (R13). -/
def execBootEnd (s : State) : Host.Outcome State Fault Refusal :=
  .next (
    if s.bootPast 64 && decide (s.core.bootTicks < 960) && s.core.porchUp && s.core.reeveRuns then endBoot s else s)

/-! ## RUN begins and ends (R24, R80) -/

/-- The converters start, or wait for the reference (R183). -/
def startOrWait (s : State) : State :=
  if s.refWarm && !s.convHeld then startConverters s else s.modSeq fun q => { q with stopped := true }

/-- Entry to RUN at this boundary (R24, R79, R179, R200, R240, R276). R79 starts 'every port the bolt enables', R81 every
STOPPED port at a new entry: the model starts every STOPPED port, also one whose mode PORT.MODE gave where the bolt has
NONE (DESIGN CHOICE, log 75). -/
def enterRun (s : State) : State :=
  let s := enterDev .run (autoEntry (s.modCore fun c => { c with startAuto := false }))
  let s := s.modLedger fun l => { l with debt := 0 }
  let s := leveesEnter (startOrWait (resetAllLanes .applied (enterMode s)))
  eachPort (fun p s => if s.ports[p].state = .stopped then startPort p s else s) s

/-- 25 ms have passed since the reference was enabled (Table 1-5). -/
def State.startDue (s : State) : Bool := s.core.refOn && decide (s.core.refEnabled.toNat + 1600 ≤ s.core.lt.toNat)

/-- SYS.START and autostart at a boundary (R24, R27, Table 17-12). -/
def startsDue (s : State) : State :=
  let due := s.mbox.pend.filter (·.wait == .sysStart)
  let s := due.foldl (fun s x =>
    if s.core.dev ≠ .ready then postStatus x.slot .wrongState s
    else if !s.startDue then s
    else if s.startShort then postStatus x.slot .ledgerShort s
    else postStatus x.slot .ok (enterRun s)) s
  if s.core.startAuto && s.core.dev == .ready && s.startDue then
    if s.startShort then notice 0x0F03 .ordinary 0 (s.modCore fun c => { c with startAuto := false })
    else enterRun s
  else s

/-- RUN ends once every port has stopped (R80): READY, or HELD after SYS.HOLD. -/
def finishStop (s : State) : State :=
  if s.core.stopping && (List.finRange 16).all (fun p => !s.ports[p].driven) then
    let held := s.core.stopToHeld
    let s := skipOwed (endMeasuring (calLeaves s))
    let s := if held then dropUrgent (elecLeaves s) else s
    let s := s.modCore fun c =>
      { c with stopping := false, stopToHeld := false, wakeResume := false, hcause := if held then .hostHold else .none }
    let s := enterDev (if held then .held else .ready) s
    completeWhere (fun x => x.wait == .sysStop || x.wait == .sysHold) .ok s
  else s

/-- A PORT.STOP that falls due at this boundary. -/
def Pend.stopsPort (x : Pend) : Bool :=
  x.op == 0x020A && (match x.wait with
    | .boundary k => decide (k ≤ 1)
    | _ => false)

/-- SYS.STOP or SYS.HOLD at its boundary: every started port stops (R80), a PAUSED one where the boundary is also that of
a wake (R79, R81). A PORT.STOP due there too takes
effect with it, whatever the order of the doorbells (R86). -/
def beginStop (toHeld : Bool) (s : State) : State :=
  let s := (s.mbox.pend.filter Pend.stopsPort).foldl (fun s x => applyPortStop x.slot x.payload s) s
  let s := s.modCore fun c => { c with stopping := true, stopToHeld := c.stopToHeld || toHeld }
  finishStop (eachPort (fun p s =>
    if s.ports[p].measures then stopPort p s else if s.ports[p].state = .paused then dropPort p .stopped s else s) s)

/-- The command of a slot goes on waiting for w. -/
def waitFor (n : SlotId) (w : Wait) : State → State := State.modMbox fun m =>
  { m with pend := m.pend.map fun x => if x.slot = n then { x with wait := w } else x }

/-- SYS.STOP at its boundary. -/
def applySysStop (n : SlotId) (s : State) : State :=
  if s.core.dev = .run then beginStop false (waitFor n .sysStop s) else postStatus n .wrongState s

/-- From READY SYS.HOLD takes the device to HELD at once (Table 1-5). -/
def holdFromReady (s : State) : State :=
  enterDev .held (dropUrgent (elecLeaves (s.modCore fun c => { c with hcause := .hostHold, startAuto := false })))

/-- SYS.HOLD at its boundary, from RUN; a stop that has ended meanwhile leaves READY. -/
def applySysHold (n : SlotId) (s : State) : State :=
  if s.core.dev = .run then beginStop true (waitFor n .sysHold s)
  else if s.core.dev = .ready then postStatus n .ok (holdFromReady s)
  else postStatus n .wrongState s

/-- PORT_STOPPED (R80): the clamps close in the tick after zero bias. -/
def execPortStopped (p : PortId) (s : State) : Host.Outcome State Fault Refusal :=
  .next (
    if s.stopDue p then
      finishStop (completeWhere (·.wait == .portStop p) .ok (dropPort p .stopped s))
    else s)

/-- PROTECTION_TRIP (R82): the port is SHUT. If it was the last that a stop waited for, the stop ends (R86). -/
def execProtectionTrip (p : PortId) (s : State) : Host.Outcome State Fault Refusal :=
  .next (
    if s.ports[p].driven ∧ 2 ≤ s.ports[p].pinBad then
      raise (Fin.ofNat 64 (16 + p.val))
        (finishStop ((forcePort p .shut s).modPort p fun q => { q with pinBad := 0 }))
    else s)

/-! ## DOZE (R25, R458, R459) -/

/-- A port as the device begins to doze in RUN: EC ports keep their bias, others pause (R123). -/
def dozePort (p : PortId) (s : State) : State :=
  let q := s.ports[p]
  if q.mode.isEc then (if q.driven then endGauze p s else s)
  else if q.state = .running then dropPort p .paused s else s

/-- Entry to DOZE (Table 1-4, R458): no plan, converters and lanes off; in READY the reference too. -/
def enterDoze (s : State) : State :=
  let s := if s.core.dev = .run then
      let keep := s.seq.stopped
      (endMeasuring (eachPort dozePort (calLeaves s))).modSeq fun q => { q with stopped := keep }
    else
      s.modCore fun c => { c with refWasOn := c.refOn, refOn := false }
  (dropUrgent (elecLeaves s)).modCore fun c => { c with doze := true, waking := none, wdogTicks := 0 }

/-- A wake event meets the boundary (Table 1-6): one of this tick, or a wake trigger due in it. -/
def State.wakeNow (s : State) : Bool :=
  s.core.woke || s.time.triggers.toList.any fun t => t.any fun x => x.wake && s.trigReached x

/-- SYS.DOZE at its boundary, after every other command of it (Table 17-12). -/
def applySysDoze (n : SlotId) (s : State) : State :=
  if !(s.core.dev == .ready || s.core.dev == .run) || s.core.stopping then postStatus n .wrongState s
  else if s.wakeNow then postStatus n .busy s
  else enterDoze (postStatus n .ok s)

/-- WAKE_COMPLETE (R459): the reeve runs again; in READY a reference that was on is switched on. -/
def completeWake (w : Waking) (s : State) : State :=
  let s := leaveDoze s
  let s := if w.byBus then s else attn .wake s
  if s.core.dev = .run then s.modCore fun c => { c with wakeResume := true }
  else owedActions (if s.core.refWasOn then refEnable s else s)

def execWakeComplete (s : State) : Host.Outcome State Fault Refusal :=
  .next (
    match s.core.waking with
    | some w => if s.core.doze then completeWake w s else s
    | none => s)

/-- The first boundary after a wake in RUN (R25, R79, R169): converters, lanes, paused ports, and the
actions owed (R395). -/
def resumeWake (s : State) : State :=
  if s.core.wakeResume && s.measuring then
    let s := s.modCore fun c => { c with wakeResume := false }
    let s := resetAllLanes .plain s
    let s := if s.seq.stopped then s else startOrWait s
    let s := eachPort (fun p s =>
      if s.ports[p].state = .paused then startPort p s
      else if s.ports[p].measures && s.ports[p].mode.isEc then gauzePortStart p s else s) s
    owedActions s
  else s

/-! ## SYS.RELEASE and SYS.RECOVER -/

/-- A discipline source newly named has not been present yet (R487): the clock is free-running and REFCLK
needs its 64 ticks. One named as before stays as it is, whatever the frame source (R480). -/
def Core.disciplineAnew (was : SysRec) (c : Core) : Core :=
  if c.sys.discipline = was.discipline then c
  else { c with discPresent := false, discEver := false, clk := .freeRunning, refclkGood := 0 }

/-- SYS.RELEASE at its boundary (R27, R426). Frames go on as they run, or wait for FSYNC as they do: a
bolt that names another frame source moves STATE.FRAME at the next BOOT only, since the spec gives no
transition for it (DESIGN CHOICE, log 56). -/
def applySysRelease (n : SlotId) (s : State) : State :=
  if s.core.dev = .held then
    -- the stored electrical coefficients are loaded at BOOT alone (R262)
    let r := putInForce s.elecSet s
    let t := r.1.modCore (Core.disciplineAnew s.core.sys)
    if r.2 then postStatus n .ok (enterDev .ready (t.modCore fun c => { c with hcause := .none }))
    else postStatus n .boltInvalid (t.modCore fun c => { c with hcause := .noBolt })
  else postStatus n .wrongState s

/-- SYS.RECOVER at its boundary (R365): ports in SHUT whose protection source is cleared are STOPPED. -/
def applySysRecover (n : SlotId) (s : State) : State :=
  if s.core.dev = .safe ∧ !s.severeUncleared then
    let s := eachPort (fun p s =>
      if s.ports[p].state = .shut ∧ s.ports[p].mode ≠ .none ∧
          !(s.faults.src[(Fin.ofNat 64 (16 + p.val) : Source)]).uncleared then
        s.modPort p fun q => { q with state := .stopped }
      else s) s
    postStatus n .ok (enterDev .ready s)
  else postStatus n .wrongState s

/-! ## Rails (R18) -/

def railIdx : Rail → Fin 4
  | .vap => 0 | .van => 1 | .vht => 2 | .ref => 3

/-- The converters stop until the reference or their rail is back (R184). A request whose conversion is discarded
completes with REF_COLD, the status of a conversion that waits for the reference; the spec names none (DESIGN
CHOICE, log 62). -/
def haltConverters (s : State) : State :=
  let s := (stopConverters s).modSeq fun q => { q with stopped := q.stopped || s.seq.running, urgent := [] }
  completeWhere (·.wait == .urgent) .refCold s

/-- The blocks a rail feeds stop (Table 1-3). -/
def railStop : Rail → State → State
  | .vap, s => haltConverters (elecLeaves (eachPort forceStopped s))
  | .van, s => eachPort forceStopped s
  | .vht, s => s.modHeat fun v => v.map Heater.cut
  | .ref, s => haltConverters (elecLeaves s)

/-- A departure leaves no port driven: a stop in progress ends with it. -/
def departure (r : Rail) (s : State) : State :=
  let i := railIdx r
  let s := s.modCore fun c => { c with railHeld := c.railHeld ||| (1 <<< i.val) }
  raise (Fin.ofNat 64 (7 + i.val)) (finishStop (railStop r s))

/-- RAIL_DEPARTURE (R18): the second sampling out of regulation. -/
def execRailDeparture (r : Rail) (s : State) : Host.Outcome State Fault Refusal :=
  .next (
    if 2 ≤ s.core.railBad[railIdx r] ∧ !s.core.railHeld.getLsbD (railIdx r).val then departure r s else s)

/-! ## The clock's discipline (R20, R487) -/

/-- The named source is there in this tick. -/
def State.discNow (s : State) : Bool :=
  if s.core.sys.discipline = 2 then decide ((if s.core.discPresent then 1 else 64) ≤ s.core.refclkGood)
  else if s.frame.src = .byBolt then
    if s.core.discPresent then decide (s.frame.clockMissed < 4)
    else decide (9 ≤ s.frame.goodEdges) && s.frame.sinceEdge == some 0
  else s.frame.src == .following

/-- A source is named, and BOOT has ended. -/
def State.disciplines (s : State) : Bool :=
  s.core.sys.discipline != 0 && s.core.dev != .boot && s.core.dev != .off

def discCode (s : State) : Nat := if s.core.sys.discipline = 2 then 1 else 0

/-- DISCIPLINE_SOURCE_STOPPED (R20): holdover. -/
def execDisciplineSourceStopped (s : State) : Host.Outcome State Fault Refusal :=
  .next (
    if s.disciplines && s.core.discPresent && !s.discNow then
      notice 0x0101 .ordinary (argB 0 (discCode s))
        (s.modCore fun c => { c with discPresent := false, clk := .holdover })
    else s)

/-- DISCIPLINE_SOURCE_PRESENT (R487): a notice at a return only. -/
def execDisciplineSourcePresent (s : State) : Host.Outcome State Fault Refusal :=
  .next (
    if s.disciplines && !s.core.discPresent && s.discNow then
      let back := s.core.discEver
      let clk : ClockState := if s.core.sys.discipline = 2 then .refclk else .fsync
      let s := s.modCore fun c => { c with discPresent := true, discEver := true, clk := clk }
      if back then notice 0x0102 .ordinary (argB 0 (discCode s)) s else s
    else s)

/-! ## The SYS family (R364) -/

/-- Boundaries until the first at least 25 ms after the reference was enabled. -/
def State.startBoundaries (s : State) : Nat :=
  let left := s.core.refEnabled.toNat + 1600 - s.core.lt.toNat
  1 + (left - (640 - s.frame.tick) + 639) / 640

/-- SYS_START (R24). -/
def execSysStart (n : SlotId) (s : State) : Host.Outcome State Fault Refusal :=
  .next (onSlot n 0x0101 (fun p s =>
    if s.startShort then postStatus n .ledgerShort s
    else
      let s := refEnable s
      pendOn n 0x0101 p .sysStart (if s.frame.started then s.frameIn s.startBoundaries else 0xFFFFFFFF) s) s)

/-- SYS_STOP (R80). -/
def execSysStop (n : SlotId) (s : State) : Host.Outcome State Fault Refusal :=
  .next (onSlot n 0x0102 (fun p s => pendBoundary n 0x0102 p 1 s) s)

/-- SYS_HOLD: at once from READY, from RUN at the boundary. -/
def execSysHold (n : SlotId) (s : State) : Host.Outcome State Fault Refusal :=
  .next (onSlot n 0x0103 (fun p s =>
    if s.core.dev = .ready then postStatus n .ok (holdFromReady s) else pendBoundary n 0x0103 p 1 s) s)

/-- SYS_RELEASE. -/
def execSysRelease (n : SlotId) (s : State) : Host.Outcome State Fault Refusal :=
  .next (onSlot n 0x0104 (fun p s =>
    if s.bolt.hasCommitted then pendBoundary n 0x0104 p 1 s else postStatus n .boltInvalid s) s)

/-- SYS_DOZE. -/
def execSysDoze (n : SlotId) (s : State) : Host.Outcome State Fault Refusal :=
  .next (onSlot n 0x0105 (fun p s => pendBoundary n 0x0105 p 1 s) s)

/-- A page operation of BOLT.COMMIT, BOX.ERASE or SYS.PATCH is in progress (R365). -/
def State.nvmBusy (s : State) : Bool :=
  s.box.erasing || s.mbox.pend.any fun x => x.wait == .boltCommit || x.wait == .boxErase || x.wait == .patch

/-- SYS_RESET (R453, R365). -/
def execSysReset (n : SlotId) (s : State) : Host.Outcome State Fault Refusal :=
  .next (onSlot n 0x0106 (fun p s =>
    if u8 p 0 ≠ 0x5A then badArg n 0 s
    else if s.nvmBusy then postStatus n .busy s
    else (postStatus n .ok s).modCore fun c => { c with resetPosted := some c.lt }) s)

/-- SYS_RECOVER. -/
def execSysRecover (n : SlotId) (s : State) : Host.Outcome State Fault Refusal :=
  .next (onSlot n 0x0107 (fun p s =>
    if s.severeUncleared then postStatus n .wrongState s else pendBoundary n 0x0107 p 1 s) s)

/-- The response of SYS.INFO. -/
def State.info (s : State) : List Byte :=
  toLE 8 Config.serial.toNat ++ toLE 4 s.core.bootCount.toNat ++
    [BitVec.ofNat 8 (slotByte s.bolt.inForce), BitVec.ofNat 8 s.core.bootCause.val, 0, 0] ++
    toLE 4 s.core.patchLevel.toNat

/-- SYS_INFO. -/
def execSysInfo (n : SlotId) (s : State) : Host.Outcome State Fault Refusal :=
  .next (onSlot n 0x0108 (fun _ s => postOk n s.info s) s)

/-- SYS.PATCH as a chunked command: LOCKED while SEALED before any field (R363). -/
def sysPatchCmd : ChunkCmd :=
  { op := 0x0109, selOk := fun k => k == 0, totalOk := fun _ t => decide (0 < t ∧ t ≤ NvmRegion.patches.size)
    bar := fun s => if s.lock.level = 0 then some .locked else none
    done := fun n _ o s =>
      if s.nvmAllowed then pendOn n 0x0109 o .patch s.frame.number s else postStatus n .nvmHot s }

/-- SYS_PATCH. -/
def execSysPatch (n : SlotId) (s : State) : Host.Outcome State Fault Refusal :=
  .next (onSlot n 0x0109 (fun p s => chunk sysPatchCmd n p s) s)

/-- PATCH_PROGRAMMED (R365): the patch is in the NVM and takes effect at the next BOOT. No word of it is begun while
writes are held (R288). -/
def execPatchProgrammed (s : State) : Host.Outcome State Fault Refusal :=
  .next (
    match s.mbox.pend.find? (·.wait == .patch) with
    | some x =>
      if s.nvmAllowed then
        let l := Config.patchLevel x.payload
        let s := s.modFaults (Faults.nvmWritten NvmRegion.patches.offset x.payload.length)
        let s := boxRecord 0x10 (argW 0 l.toNat) (s.modCore fun c => { c with patchStored := l })
        postStatus x.slot .ok s
      else s
    | none => s)

end Sys2Proof.Machine
end

