-- ==== Sys2Proof/Machine/Boundary.lean ====
section
/-!
DEFINITION. A frame boundary: the pending commands that fall due there (R41, R347, R348), the moves
between device states (R24, R25, R80), the plan that comes into force (R54, R56, R267), and the freeze of
the next one. A plan is made against a preview: the state as the next boundary will leave it, so far as
that is known at the freeze.
-/

namespace Sys2Proof.Machine

/-! ## Commands due -/

/-- A waiting command falls due at this boundary. -/
def Pend.dueNow (f : W32) (x : Pend) : Bool :=
  match x.wait with
  | .boundary k => decide (k ≤ 1)
  | .frame n => decide (n.toNat ≤ f.toNat)
  | .effectAt n => decide ((f - n).toNat < 2 ^ 31)
  | _ => false

/-- One boundary fewer to wait for. -/
def Pend.countDown (x : Pend) : Pend :=
  match x.wait with
  | .boundary k => { x with wait := .boundary (k - 1) }
  | _ => x

/-- The order at one boundary: loads before switches of what they load (R42, Tables 7-10 and 17-12),
SYS.DOZE after everything else; otherwise the order of the doorbells (Table 16-16). -/
def Pend.rank (x : Pend) : Nat :=
  if x.op = 0x1201 ∨ x.op = 0x0501 ∨ x.op = 0x0D01 ∨ x.op = 0x0701 ∨ x.op = 0x0A01 ∨ x.op = 0x0A02 then 0
  else if x.op = 0x0105 then 2 else 1

/-- The effect is on settings alone, and the command then completes with OK. -/
def thenOk (f : List Byte → State → State) (n : SlotId) (p : List Byte) (s : State) : State :=
  postStatus n .ok (f p s)

/-- The effect is on settings of an object that must still pass the command's check: one that no longer does, by what
has happened since the doorbell, completes the command with WRONG_STATE (R348). -/
def ifStill (fault : List Byte → State → Option Nat) (f : List Byte → State → State) (n : SlotId) (p : List Byte)
    (s : State) : State :=
  if (fault p s).isSome then postStatus n .wrongState s else thenOk f n p s

/-- PORT.BIAS at its boundary: a plan loaded meanwhile that the bias would break refuses it as at the doorbell (R139). -/
def applyPortBiasAt (n : SlotId) (p : List Byte) (s : State) : State :=
  if portBiasFault p s = some 2 then badArg n 2 s else ifStill portBiasFault applyPortBias n p s

/-- HEAT.STOP at its boundary (R123). A replacement due there whose doorbell came later stands (R136). -/
def applyHeatStop (n : SlotId) (p : List Byte) (s : State) : State :=
  let k := portNo (u8 p 0)
  let h := s.heat[k]
  if s.ports[k].state = .running then
    let s := stopProfile k s
    postStatus n .ok (if h.late && (h.swapDue || h.iterEnd) then startProfile k s else s)
  else postStatus n .wrongState s

/-- SEQ.LOAD at its boundary: what has changed since its doorbell may have made it break R144 or
R196. -/
def applySeqLoadAt (n : SlotId) (p : List Byte) (s : State) : State :=
  if s.chainBusyNow s.seq.twillNext (unpackLoad 3 p s.seq.tables) then postStatus n .busy s
  else postStatus n .ok (applySeqLoad p s)

/-- SEQ.MODE at its boundary: in RUN it starts conversions, and not on a cold reference (R183), nor against what
has changed since its doorbell (R144, R174, R196); a twill entry that can no longer be twilled refuses it (R348). -/
def applySeqMode (n : SlotId) (p : List Byte) (s : State) : State :=
  let tw := u8 p 0 == 1
  if s.core.dev = .run ∧ !s.refWarm then postStatus n .refCold s
  else if tw && !s.seq.tables.twillOk then postStatus n .wrongState s
  else if (tw && s.twillBusy s.seq.tables) || s.chainBusyNow tw s.seq.tables then postStatus n .busy s
  else postStatus n .ok (applyMode (u8 p 0 == 1) s)

/-- GAS.MODEL at its boundary. -/
def applyGasModelAt (n : SlotId) (p : List Byte) (s : State) : State :=
  match applyGasModel p s with
  | .ok t => postStatus n .ok t
  | .error d => badArg n d s

/-- The PORT family at a boundary. -/
def portDue (op : W16) (n : SlotId) (p : List Byte) (s : State) : State :=
  if op = 0x0201 then applyPortMode n p s
  else if op = 0x0202 then applyPortBiasAt n p s
  else if op = 0x0203 then thenOk applyPortRange n p s
  else if op = 0x0204 then thenOk applyPortWindow n p s
  else if op = 0x0205 then thenOk applyPortSettle n p s
  else if op = 0x0206 then ifStill portAuxFault applyPortAux n p s
  else if op = 0x0207 then ifStill portRingFault applyPortRing n p s
  else if op = 0x0208 then ifStill portLayerFault applyPortLayer n p s
  else if op = 0x0209 then applyPortStart n p s
  else applyPortStop n p s

/-- The HEAT, GAUZE, SEQ and WEAVE families at a boundary. -/
def chainDue (op : W16) (n : SlotId) (p : List Byte) (s : State) : State :=
  if op = 0x0303 then applyHeatStart n p s
  else if op = 0x0304 then applyHeatStop n p s
  else if op = 0x0402 then applyGauzeStart n p s
  else if op = 0x0403 then applyGauzeStop n p s
  else if op = 0x0407 then ifStill gauzeCapFault applyGauzeCap n p s
  else if op = 0x0501 then applySeqLoadAt n p s
  else if op = 0x0502 then applySeqMode n p s
  else if op = 0x0505 then applySeqStart n s
  else applyWeaveSetAt n p s

/-- The GAS, LEVEE, CAL and FRAME families and TIME.SELECT at a boundary. -/
def engineDue (op : W16) (n : SlotId) (p : List Byte) (s : State) : State :=
  if op = 0x0701 then applyGasModelAt n p s
  else if op = 0x0702 then ifStill (fun p s => s.matrixFault p) applyGasMatrix n p s
  else if op = 0x0703 then thenOk applyGasChannel n p s
  else if op = 0x0801 then thenOk applyLeveeSet n p s
  else if op = 0x0904 then applyCalCommit n p s
  else if op = 0x0905 then applyCalAbort n p s
  else if op = 0x0906 then applyCalRange n p s
  else if op = 0x1201 then thenOk applyPattern n p s
  else if op = 0x1202 then thenOk applySelect n p s
  else if op = 0x1203 then thenOk applyPolder n p s
  else thenOk (fun p => applyTimeSelect (domOf (u8 p 0))) n p s

/-- The SYS family at a boundary. -/
def sysDue (op : W16) (n : SlotId) (s : State) : State :=
  if op = 0x0102 then applySysStop n s
  else if op = 0x0103 then applySysHold n s
  else if op = 0x0104 then applySysRelease n s
  else if op = 0x0105 then applySysDoze n s
  else applySysRecover n s

/-- A command takes effect and completes. One whose States column no longer admits the device state
completes with WRONG_STATE (R348). -/
def applyDue (x : Pend) (s : State) : State :=
  let admitted := ((cmdRow x.op.toNat).map fun r => r.states.contains s.core.dev).getD false
  match x.wait with
  | .effectAt _ => postStatus x.slot .ok s
  | _ =>
    if !admitted then postStatus x.slot .wrongState s
    else if x.op = 0x0D01 then applyTimeSet x s
    else if x.op < 0x0200 then sysDue x.op x.slot s
    else if x.op < 0x0300 then portDue x.op x.slot x.payload s
    else if x.op < 0x0700 then chainDue x.op x.slot x.payload s
    else engineDue x.op x.slot x.payload s

/-- The commands due that are still PENDING when their turn comes. -/
def applyRankDue (r : Nat) (s : State) : State :=
  let due := (s.mbox.pend.filter (Pend.dueNow s.frame.number)).filter fun x => x.rank == r
  due.foldl (fun s x => if s.mbox.pend.contains x then applyDue x s else s) s

/-- What waits for later boundaries has one fewer to wait for. -/
def countPend : State → State := State.modMbox fun m => { m with pend := m.pend.map Pend.countDown }

/-! ## The moves of a boundary -/

/-- Triggered gauze starts: in tick 0 of the second boundary (R142). One whose port no longer runs is skipped, counted
and reported as one that the conditions of R144 refuse (DESIGN CHOICE, log 75). -/
def gauzeCount (p : PortId) (s : State) : State :=
  let due := s.gauze[p].starts.any (· ≤ 1)
  let s := s.modGauzeAt p fun g => { g with starts := (g.starts.filter (1 < ·)).map (· - 1) }
  if !due then s
  else if s.measuring && s.ports[p].measures && s.ports[p].mode.hasGauze then tryGauze p s
  else skipGauze p 0 s

/-- Everything but the plan that a boundary brings about. Commands wait while the reeve is stalled. -/
def boundaryMoves (s : State) : State :=
  let s := elecBoundary (endHolds s)
  let s := if s.measuring then eachPort heatBoundary s else s
  let s := if s.core.dev = .run then s else grantsOutsideRun s
  let s := if s.reeveActive then resumeWake (startsDue (applyRankDue 1 (applyRankDue 0 s))) else s
  let s := eachPort gauzeCount s
  countPend (if s.reeveActive then applyRankDue 2 s else s)

/-! ## The freeze (R267) -/

/-- THERM.ACK is used up at a freeze (R292), also where a further failure has forced full throttle
again (Table 17-12). `n` is the frame whose plan is frozen. Answers whether forced full throttle has ended. -/
def ackAtFreeze (n : W32) (s : State) : Bool × State :=
  let ended := s.therm.ack && s.therm.forced
  let s := if ended then thermUpdate 0xFF (s.modTherm fun t => { t with forced := false, ack := false }) else s
  (ended, effectAtFrame .thermAck n s)

/-- The heaters as the next frame's tick 0 finds them, if nothing but their timelines moves them. -/
def previewHeaters (s : State) : State :=
  let left := 639 - s.frame.tick
  let wins := fun (p : PortId) => (s.plan.cur.map fun x => (x.placed[p] : List Win)).getD []
  s.modHeat fun v => Vector.ofFn fun p =>
    let h := v[p]
    if s.ports[p].state = .running then
      (simTicks (s.coverAt wins h.plate.coupled) (s.core.lt + 1) (s.frame.tick + 1) left h.advance).2
    else h

/-- The row of a command of the plan (R347); a FRAME.SELECT with a stated frame is none. -/
def planRow (op : Nat) (p : List Byte) : Option (SlotId → State → Host.Outcome State Fault Refusal) :=
  if op = 0x0203 then some execPortRange
  else if op = 0x0204 then some execPortWindow
  else if op = 0x0906 then some execCalRange
  else if op = 0x1201 then some execFramePattern
  else if op = 0x1202 ∧ u8 p 1 = 0 then some execFrameSelect
  else if op = 0x1203 then some execFramePolder
  else none

/-- A command of the plan whose doorbell was taken before the freeze, and which the reeve has not yet run, falls due
at the next boundary (R347): the plan counts on it. -/
def planQueued (s : State) : State :=
  s.mbox.queue.foldl (fun s n =>
    match planRow s.mbox.slots[n].op s.mbox.slots[n].payload with
    | some row =>
      match row n (dispatchSlot n s) with
      | .next t => t
      | _ => s
    | none => s) s

/-- The state as the next boundary will leave it, 640 - tick ticks from now. -/
def State.preview (s : State) : State :=
  let n : W64 := BitVec.ofNat 64 (640 - s.frame.tick)
  let s := (previewHeaters (planQueued s)).modCore fun c => { c with lt := c.lt + n }
  boundaryMoves (s.modFrame fun f =>
    { f with number := f.number + 1, lastLen := 640, tick := 0, boundary := false, first := false })

/-- A plan is made for a frame of RUN; the first after a wake in the frame after it (Table 12-7). Grants and ranks are
taken with a plan alone (R266, R271): `s` has them, `bare` is the state without. -/
def planFor (ended : Bool) (pv s bare : State) : State :=
  if pv.measuring && !s.core.wakeResume then freeze ended pv s else bare

/-- PLAN_FREEZE (R267): at the end of tick 608, by the reeve. -/
def execPlanFreeze (s : State) : Host.Outcome State Fault Refusal :=
  .next (
    if s.reeveActive && s.frame.started && s.frame.tick == 608 && s.plan.frozenAt.isNone then
      let r := ackAtFreeze (s.frame.number + 1) s
      let t := grantsAtFreeze (s.frame.number + 1) r.2
      let s := planFor r.1 t.preview t r.2
      s.modPlan fun x => { x with frozenAt := some s.core.lt }
    else s)

/-- A frame that ended before its tick 608 freezes the plan of the next at the boundary (R267), from
the frame just ended. -/
def freezeLate (s : State) : State :=
  if s.reeveActive && !s.frame.first && decide (s.frame.lastLen ≤ 608) && s.plan.next.isNone then
    let r := ackAtFreeze s.frame.number s
    let g := grantsAtFreeze s.frame.number r.2
    let l := r.2.ledger
    let t := planFor r.1 (boundaryMoves g) (g.modLedger Ledger.ended) r.2
    t.modLedger fun x => { x with vddSum := l.vddSum, ticks := l.ticks, vddMin := l.vddMin }
  else s

/-! ## FRAME_BOUNDARY -/

/-- VDD outside the recommended conditions in the frame just ended (R483): once per 6000 frames for each
direction. -/
def vddNotices (s : State) : State :=
  let l := s.ledger
  let s := s.modCore fun c =>
    { c with vddNoticeLow := c.vddNoticeLow.map (· + 1), vddNoticeHigh := c.vddNoticeHigh.map (· + 1) }
  let free := fun (a : Option Nat) => (a.map fun k => decide (6000 ≤ k)).getD true
  let s := if decide (0 < l.lastTicks ∧ l.lastMin < 850) && free s.core.vddNoticeLow then
      notice 0x0104 .ordinary (argB 0 0 ||| argH 4 l.lastMin) (s.modCore fun c => { c with vddNoticeLow := some 0 })
    else s
  if decide (1980 < l.lastMean) && free s.core.vddNoticeHigh then
    notice 0x0104 .ordinary (argB 0 1 ||| argH 4 (satNat 65535 (roundRat l.lastMean).toNat))
      (s.modCore fun c => { c with vddNoticeHigh := some 0 })
  else s

/-- Ages counted in frames. -/
def Port.ageFrame (q : Port) : Port := { q with vreAge := q.vreAge.map (· + 1), engaged := false }
def Domain.ageFrame (x : Domain) : Domain := { x with outlierAge := x.outlierAge.map (· + 1) }
def ageFrames (s : State) : State :=
  let s := weftCycle ((s.modCal Cal.frame).modPorts fun v => v.map Port.ageFrame)
  s.modTime fun t => { t with ta := t.ta.ageFrame, tb := t.tb.ageFrame }

/-- A frame has ended: its counts and notices (R49, R276, R483). -/
def closeFrame (s : State) : State :=
  let ran := s.measuring && !s.core.wakeResume
  let s := s.modFrame fun f => { f.quietFrame ran with quietBefore := f.pattern.quiet 639 }
  ageFrames (ledgerBoundary (vddNotices s))

/-- The gas frame that tick 0 closes is computed in tick 1 (R206); a computation still owed is a miss
(R207). -/
def gasBoundary (ran : Bool) (s : State) : State := s.modGas fun g =>
  { (if g.due then g.miss (s.frame.number - 2) else g) with due := ran && s.measuring }

/-- The temperature comparators are due their values in tick 1 (R231). -/
def tempsBoundary (s : State) : State := s.modTherm fun t => { t with leveeDue := s.measuring }

/-- The plan's training run starts in its tick (R181). -/
def startTraining (s : State) : State :=
  let here := s.plan.cur.any fun x => x.training == some s.frame.tick
  if s.measuring && s.seq.twill && s.seq.running && here then
    s.modSeq fun q => { q with seam := { q.seam with training := some s.core.lt } }
  else s

/-- The driver of a port in tick 0: the first step of a profile that the boundary has started begins, unless a
window of the new plan moves it (R121, R127). -/
def firstStep (p : PortId) (s : State) : State :=
  if s.heat[p].lead.isSome && s.heat[p].due == some 0 && s.heat[p].pos == 0 then beginDue p (drive p s)
  else drive p s

/-- A new frame: what has ended, the moves, the plan in force, and what tick 0 of it starts. -/
def newFrame (s : State) : State :=
  let ran := s.measuring && !s.core.wakeResume && !s.frame.first
  let s := s.modFrame fun f => { f with boundary := false }
  let s := if s.frame.first then s else closeFrame s
  let s := takePlan (boundaryMoves ((freezeLate s).modTherm Therm.boundary))
  let s := tempsBoundary (gasBoundary ran (s.modFrame fun f => { f with first := false }))
  openWindows (startTraining (eachPort firstStep s))

/-- FRAME_BOUNDARY (R29): in the tick the scheduler makes tick 0. -/
def execFrameBoundary (s : State) : Host.Outcome State Fault Refusal :=
  .next (if s.frame.boundary then newFrame s else s)

end Sys2Proof.Machine
end

