-- ==== Sys2Proof/Machine/Escalation.lean ====
section
/-!
DEFINITION. Escalation of faults (R402 to R411): events, reactions, the reeve's actions and the
collector's; and the thermal crossings, SHUTDOWN and the cross-check (R283, R289, R293).
-/

namespace Sys2Proof.Machine

/-! ## Block actions (Table 19-1) -/

/-- A port in STARTING, RUNNING or STOPPING is sent to SHUT (R408, R77). -/
def shutPort (p : PortId) (s : State) : State :=
  if s.ports[p].driven then finishStop (forcePort p .shut s) else s

/-- The ports of group g for which c holds are sent to SHUT. -/
def shutGroup (g : Nat) (c : Port → Bool) (s : State) : State :=
  eachPort (fun p s => if p.val / 4 = g ∧ c s.ports[p] then shutPort p s else s) s

/-- The profiles of the ports for which c holds end. -/
def stopProfiles (c : PortId → Bool) (s : State) : State := eachPort (fun p s => if c p then stopProfile p s else s) s

/-- Every slot is FREE and zero (source 48). -/
def freeSlots (s : State) : State :=
  (s.modFaults fun f => (List.range 64).foldl (fun f w => f.wordWritten 4 w) f).modMbox fun m =>
    { m with slots := Vector.replicate 4 {}, queue := [], pend := [], owed := [] }

/-- The SAMPLE or NOTICE ring is emptied, with its pending gap (R314). -/
def emptyRing (sample : Bool) : State → State := State.modRings (Rings.clear (if sample then 2 else 4))

/-- The port of a protection source. -/
def portOfSource (f : Source) : PortId := Fin.ofNat 16 (f.val - 16)

/-- What the reeve does within the grace time (Table 19-1). -/
def reeveAction (f : Source) (s : State) : State :=
  let k := f.val
  if k = 4 then s.modCore fun c => { c with wdogTicks := 0 }
  else if k = 9 then stopProfiles (fun _ => true) s
  else if k = 11 then s.modFaults fun x => { x with heatDefer := true }
  else if k = 14 ∨ k = 15 then emptyRing (k == 14) s
  else if 16 ≤ k ∧ k ≤ 31 then shutPort (portOfSource f) s
  else if 32 ≤ k ∧ k ≤ 35 then shutGroup (k - 32) (fun q => decide (8 ≤ q.ceBad)) s
  else if 36 ≤ k ∧ k ≤ 39 then stopProfiles (fun p => p.val / 4 == k - 36) s
  else if k = 48 then freeSlots s
  else s

/-- The reeve marks the reaction handled in the tick after the event (R400). -/
def emptyAction (f : Source) : Bool := f = 12 || f = 13 || (40 ≤ f && f ≤ 47) || (51 ≤ f && f ≤ 53)

/-- The action code of notice 0x0E04 for a source with a block action; none where it is SAFE. -/
def blockCode (f : Source) : Option Nat :=
  let k := f.val
  if k = 9 ∨ k = 11 ∨ (36 ≤ k ∧ k ≤ 39) then some 1
  else if k = 10 then some 2
  else if k = 14 ∨ k = 15 then some 3
  else if 16 ≤ k ∧ k ≤ 35 then some 0
  else if k = 48 then some 4
  else none

/-- Drivers held off by source f until it is cleared. -/
def holdHeaters (f : Source) (s : State) : State :=
  let s := s.modFaults fun x => { x with heatHeld := x.heatHeld ||| (1 <<< f.val) }
  s.modHeat fun v => Vector.ofFn fun p =>
    let h := v[p]
    if f.val < 36 ∨ p.val / 4 = f.val - 36 then h.cut else h

/-- The collector's block action (Table 19-1). -/
def blockAction (f : Source) (s : State) : State :=
  let k := f.val
  if k = 9 ∨ k = 11 ∨ (36 ≤ k ∧ k ≤ 39) then holdHeaters f s
  else if k = 10 then haltConverters (s.modFaults fun x => { x with convHeld := true })
  else if k = 14 ∨ k = 15 then emptyRing (k == 14) s
  else if 16 ≤ k ∧ k ≤ 31 then shutPort (portOfSource f) s
  else if 32 ≤ k ∧ k ≤ 35 then shutGroup (k - 32) (fun q => q.mode.isEc) s
  else if k = 48 then freeSlots s
  else s

/-! ## Events (R402 to R409) -/

/-- The reeve, interrupted in the tick of the event, takes its action (R408). -/
def interrupt (f : Source) (s : State) : State :=
  if s.reeveActive then
    let s := reeveAction f s
    s.modSource f fun x => { x with reaction := x.reaction.map fun r => { r with acted := true } }
  else s

/-- A GRAVE event enters LATCHED (R405), and each writes a record (R411). -/
def graveEvent (f : Source) (s : State) : State :=
  let entry := s.core.dev ≠ .latched
  let s := attn .fault s
  let s := if entry then notice 0x0E07 .fault (argB 0 f.val) s else s
  let s := boxRecord 0x08 (argB 0 2 ||| argB 1 f.val) s
  if entry then enterLatched s else s

/-- The event of source f is taken (R402 to R405, R409). -/
def takeEvent (f : Source) (s : State) : State :=
  let x := s.faults.src[f]
  let counted := fun (s : State) => eventNotices f x x.count (s.modSource f FSource.count)
  if x.inForce = .grave then graveEvent f (counted s)
  else match s.faults.mergedInto f with
    | some r => mergeEvent f r s
    | none =>
      if x.count.inForce = .severe then interrupt f (beginReaction f (counted s)) else counted s

/-- The event of source f, if it is due; reactions due to end have ended before (R407). -/
def faultEvent (f : Source) (s : State) : State :=
  if s.core.dev ≠ .off ∧ s.faults.src[f].eventDue then takeEvent f (endReactions s) else s

/-- FAULT_EVENT (R402). -/
def execFaultEvent (f : Source) (s : State) : Host.Outcome State Fault Refusal := .next (faultEvent f s)

/-- WATCHDOG_TIMEOUT (R400): 20 ms without service. -/
def execWatchdogTimeout (s : State) : Host.Outcome State Fault Refusal :=
  .next (if 1280 ≤ s.core.wdogTicks then faultEvent 4 (raise 4 s) else s)

/-- BOOT_TIMEOUT (R454): 15 ms after its start. -/
def execBootTimeout (s : State) : Host.Outcome State Fault Refusal :=
  .next (if s.bootPast 960 && s.core.bootTicks == 960 then faultEvent 54 (raise 54 s) else s)

/-! ## Reactions (R407, R408) -/

/-- The reaction of f, if its action is still to come. -/
def State.awaits (s : State) (f : Source) : Option Reaction := s.faults.src[f].reaction.filter (·.action.isNone)

/-- The action tick is this one; the check of the eighth tick after it follows. -/
def markAction (f : Source) (s : State) : State :=
  s.modSource f fun x =>
    { x with reaction := x.reaction.map fun r => { r with action := some s.core.lt, checks := true, acted := true } }

/-- The reeve takes the actions that it could not take in the tick of the event, being stalled or halted. -/
def serveReactions (s : State) : State :=
  if s.reeveActive then
    (List.finRange 64).foldl (fun s f =>
      if (s.awaits f).any fun r => !r.acted && decide (1 ≤ r.age) then interrupt f s else s) s
  else s

/-- What the reeve's action asks for has come about: for REF the converters have resumed (R184). -/
def State.actionDone (s : State) (f : Source) : Bool := f != 10 || !s.seq.stopped

/-- The reeve may mark the reaction handled, while the grace time runs (R400, R408). -/
def State.handledDue (s : State) (f : Source) (r : Reaction) : Bool :=
  s.reeveActive && r.acted && s.actionDone f && decide (0 < r.grace) &&
    (if emptyAction f then decide (1 ≤ r.age) else decide (8 ≤ s.faults.src[f].quietTicks ∧ 1 ≤ r.age))

/-- REACTION_HANDLED (R408). -/
def execReactionHandled (f : Source) (s : State) : Host.Outcome State Fault Refusal :=
  .next (
    match s.awaits f with
    | some r =>
      if s.handledDue f r then
        notice 0x0E03 .fault (argB 0 f.val ||| argW 4 (satNat 0xFFFFFFFF r.age)) (markAction f s)
      else s
    | none => s)

/-- The action at grace expiry: a block action with its notice and record, or SAFE (R408, R411). -/
def expire (f : Source) (s : State) : State :=
  match blockCode f with
  | some c =>
    let s := markAction f (blockAction f s)
    boxRecord 0x08 (argB 1 f.val ||| argB 2 c) (notice 0x0E04 .fault (argB 0 f.val ||| argB 1 c) s)
  | none => enterSafe f s

/-- GRACE_EXPIRY (R408): the grace time does not run during BOOT (R406). -/
def execGraceExpiry (f : Source) (s : State) : Host.Outcome State Fault Refusal :=
  .next (
    match s.awaits f with
    | some r => if r.grace = 0 ∧ s.core.dev ≠ .boot ∧ s.core.dev ≠ .off then expire f s else s
    | none => s)

/-- ACTION_CHECK (R408): in the eighth tick after the action tick. -/
def execActionCheck (f : Source) (s : State) : Host.Outcome State Fault Refusal :=
  .next (
    match s.faults.src[f].reaction with
    | some r =>
      if r.checks && r.action.any (fun t => decide (s.since t = 8)) then
        let s' := s.modSource f fun x =>
          { x with reaction := x.reaction.map fun r => { r with checks := false } }
        if s.faults.src[f].det then enterSafe f s' else s'
      else s
    | none => s)

/-! ## Thermal (R283 to R293) -/

/-- SEVERE taken: every heater driver off in this tick (Table 13-3). -/
def heatersOff (s : State) : State :=
  (s.modTherm fun t => { t with heatersOff := true, offAt := some s.core.lt }).modHeat fun v => v.map Heater.cut

/-- One comparator crosses (R283): the device thermal state follows once every crossing of this tick is
taken (R285). -/
def cross (t : Fin 9) (l : Fin 3) (rising : Bool) (s : State) : State :=
  let s := s.modSensor t fun x =>
    { x with up := if rising then x.up ||| (1 <<< l.val) else x.up &&& ~~~((1 : BitVec 4) <<< l.val) }
  let s := if rising ∧ l = 2 then heatersOff s else s
  wakeEvent false (if s.crossingsDue then s else thermUpdate t.val s)

/-- THERMAL_CROSSING (R283). -/
def execThermalCrossing (t : Fin 9) (l : Fin 3) (rising : Bool) (s : State) : Host.Outcome State Fault Refusal :=
  .next (if s.core.dev ≠ .off ∧ s.therm.sensors[t].crossDue l rising then cross t l rising s else s)

/-- SHUTDOWN (R293): LATCHED, with its record; 0xFF stands for no one sensor. -/
def shutdown (sensor : Nat) (s : State) : State :=
  if s.core.dev = .latched ∨ s.core.dev = .off then s
  else enterLatched (boxRecord 0x08 (argB 0 3 ||| argB 1 0xFF ||| argB 3 sensor) (heatersOff s))

/-- THERMAL_SHUTDOWN (R293). -/
def execThermalShutdown (t : Fin 9) (s : State) : Host.Outcome State Fault Refusal :=
  .next (
    let x := s.therm.sensors[t]
    if s.core.dev ≠ .off ∧ x.shutdownDue then
      let s := s.modSensor t fun x => { x with up := x.up ||| 8 }
      shutdown t.val (if s.crossingsDue then s else thermUpdate t.val s)
    else s)

/-- SENSOR_CROSS_CHECK (R289 to R292); with every sensor failed the Rexia takes SHUTDOWN. -/
def execSensorCrossCheck (s : State) : Host.Outcome State Fault Refusal :=
  .next (
    if s.tickOne then
      let before := s.therm.failures
      let s := crossCheck s
      let s := if before < s.therm.failures ∧ s.therm.forced then heatersOff s else s
      if s.therm.sensors.toList.all (·.failed) then shutdown 0xFF s else s
    else s)

end Sys2Proof.Machine
end

