-- ==== Sys2Proof/Machine/Ticks.lean ====
section
/-!
DEFINITION. TICK (R35): one tick of the common 64 kHz grid. It samples every input and detector, moves
what counts in ticks, and leaves the events of the tick due, each to be taken by its own command in the
order of Table 2-2. What a tick carries of QUIET and of the heater drivers' measurements belongs to the
tick now over (R47, R116).
-/

namespace Sys2Proof.Machine

/-! ## Clock, pins and frames -/

/-- The local time and what the tick before left behind (R14, R454). -/
def tickClock (i : TickIn) : State → State := State.modCore fun c =>
  { c with
    lt := c.lt + 1, woke := false, bootTicks := if c.dev = .boot then c.bootTicks + 1 else c.bootTicks
    vddMv := i.vddMv, iddUa := i.iddUa, reeveRuns := i.reeveRuns
    wdogTicks := if i.reeveRuns || c.doze then 0 else c.wdogTicks + 1
    refclkGood := if i.refclkGood then c.refclkGood + 1 else 0 }

/-- The open-drain outputs as the tick now over left them (R237, R406). -/
def tickPins (s : State) : State :=
  let run := s.core.dev == .run
  s.modPins fun x =>
    { x with faultN := x.faultFrom || s.faultLow, almaN := run && s.pinLow 3, almbN := run && s.pinLow 4 }

/-- In a tick 0 the figures of the frame just ended are fixed before the tick adds to the new one
(R276, R280, R404, R407). -/
def closeFigures (s : State) : State :=
  let whole := !s.frame.first
  let price := (s.plan.cur.map (·.price)).getD 0
  let s := (s.modTherm (Therm.roll whole)).modLedger (Ledger.closeFrame whole price)
  s.modFaults (Faults.boundary whole)

/-- The scheduler's tick; the counters run after BOOT (R29). -/
def tickFrame (fsync : Bool) (s : State) : State :=
  let s := s.modFrame (Frame.advance fsync)
  if s.frame.boundary then closeFigures s else s

/-- Readings of the die sensors, the heat comparator and the state that follows a declared failure
(R280, R291). -/
def tickTherm (temps : Vector (Option Int) 9) (s : State) : State :=
  (if s.therm.stale then thermUpdate 0xFF s else s).modTherm (Therm.tick temps)

/-! ## Rails (R18, R112, R184) -/

def countIf (b : Bool) (n : Nat) : Nat := if b then n + 1 else 0

/-- A rail or the reference is on: VHT while a step wants it. -/
def Core.watched (k : Fin 4) (vht : Bool) (c : Core) : Bool :=
  if k = 2 then vht else if k = 3 then c.railsUp && c.refOn else c.railsUp

/-- Samplings in a row out of regulation, and in it. A hold of VAP or VAN ends after 8 ticks in regulation,
the reference's at once, and that of VHT at the first boundary in regulation (R136); the 25 ms of R183
then count anew. -/
def Core.tickRails (bad : BitVec 4) (vht boundary : Bool) (c : Core) : Core :=
  let on := fun (k : Fin 4) => bad.getLsbD k.val && c.watched k vht
  -- a rail that is held off is switched on to see it return
  let still := fun (k : Fin 4) => bad.getLsbD k.val && (c.watched k vht || c.railHeld.getLsbD k.val)
  let good := Vector.ofFn fun (k : Fin 4) => min 8 (countIf (!still k) c.railGood[k])
  let free := fun (k : Fin 4) => c.railHeld.getLsbD k.val &&
    (if k = 2 then boundary && decide (1 ≤ good[k]) else decide ((if k = 3 then 1 else 8) ≤ good[k]))
  let released := BitVec.ofNat 4 (bits ((List.finRange 4).map free))
  { c with
    railBad := Vector.ofFn fun (k : Fin 4) => countIf (on k) c.railBad[k]
    railGood := good, railHeld := c.railHeld &&& ~~~released
    refSince := if free 0 || free 3 then c.lt else c.refSince }

/-! ## Ports and heaters -/

/-- A port in one tick: its ramp (R88), and the ticks in a row at a limit (Tables 3-8 and 4-2). -/
def Port.tick (i : TickIn) (p : PortId) (q : Port) : Port :=
  let q := q.rampStep
  let ring := i.ringLim.getLsbD p.val && q.driven
  let ce := i.ceLim.getLsbD p.val && q.measures && q.mode.isEc
  { q with
    pinBad := countIf (i.pinBad.getLsbD p.val && q.driven) q.pinBad
    ringBad := countIf ring q.ringBad, ringNoticed := q.ringNoticed && ring
    ceBad := countIf ce q.ceBad, ceNoticed := q.ceNoticed && ce }

/-- RUN begins at the next boundary, if that is 640 ticks after the last. -/
def State.runNext (s : State) : Bool :=
  s.core.dev == .ready && (s.core.startAuto || s.mbox.pend.any (·.wait == .sysStart)) && s.core.refOn &&
    decide (s.core.refEnabled.toNat + 1600 ≤ s.core.lt.toNat + 1)

/-- A window of a coupled port covers the next tick: of the plan in force, or in tick 639 of the next. -/
def State.coverNext (s : State) (mask : BitVec 16) : Bool :=
  if s.frame.tick = 639 then
    (List.finRange 16).any fun p =>
      mask.getLsbD p.val && s.plan.next.any fun x => x.guarded.getLsbD p.val && x.covers 0 p
  else s.coupledCover mask (s.frame.tick + 1)

/-- Port p starts at the next boundary. -/
def State.portNext (s : State) (p : PortId) : Bool :=
  (s.runNext && s.ports[p].state == .stopped) ||
  s.mbox.pend.any fun x => x.op == 0x0209 && portNo (u8 x.payload 0) == p && (match x.wait with
    | .boundary k => decide (k ≤ 1)
    | _ => false)

/-- A profile start that waits for the next boundary (R121, R124): HEAT.START, a replacement, a port start with
autostart. -/
def State.profileNext (s : State) (p : PortId) : Bool :=
  let h := s.heat[p]
  let auto := (h.profile.map (·.autostart)).getD false
  (h.swapDue && !h.late) || (s.portNext p && auto) || (s.core.wakeResume && s.ports[p].state == .paused && auto) ||
  s.mbox.pend.any fun x => x.op == 0x0303 && portNo (u8 x.payload 0) == p && (match x.wait with
    | .boundary k => decide (k ≤ 1)
    | _ => false)

/-- The heater of port p as the next tick finds it, so far as that is known now: its timeline, and at the end
of a frame what the boundary starts. -/
def State.heaterNext (s : State) (p : PortId) : Heater :=
  let h := s.heat[p].advance
  let last := s.frame.tick = 639
  let t := if last then 0 else s.frame.tick + 1
  let h := if last then Heater.boundary 640 h else h
  let h := if last ∧ s.profileNext p then
      { h.begin (s.core.lt + 1) with profile := h.nextProfile.or h.profile, nextProfile := none }
    else h
  h.simEvents (s.core.lt + 1) t (s.coverNext h.plate.coupled)

/-- A time trigger on FT starts the profile of port p in the next tick. -/
def State.triggerNext (s : State) (p : PortId) : Bool :=
  let next := if s.frame.tick = 639 then s.modFrame fun f => { f with number := f.number + 1, tick := 0 }
    else s.modFrame fun f => { f with tick := f.tick + 1 }
  let next := next.modTime fun t =>
    { t with ta := { t.ta with time := t.ta.time + t.ta.inc }, tb := { t.tb with time := t.tb.time + t.tb.inc } }
  s.time.triggers.toList.any fun t => t.any fun x => x.action == 2 && x.port == p && next.trigReached x

/-- VHT is on in this tick (R112): some port's step calls for drive in it, or in the next. -/
def State.vhtOn (s : State) : Bool :=
  (s.measuring || s.runNext) && (List.finRange 16).any fun p =>
    let h := s.heat[p]
    h.calls || (s.heaterNext p).calls ||
    (s.triggerNext p && s.profileStartable p && ((h.nextProfile.or h.profile).map fun x =>
      (x.stepAt 0).kind != 0 && !x.locked).getD false)

/-- In tick 639 the potentiostat of an EC port about to start is engaged at zero bias (R79). -/
def tickPorts (i : TickIn) (s : State) : State :=
  let s := s.modPorts fun v => Vector.ofFn fun p => v[p].tick i p
  if s.frame.tick = 639 then
    eachPort (fun p s =>
      if s.ports[p].mode.isEc && s.portNext p then s.modPort p fun q => { q with engaged := true } else s) s
  else s

/-- A heater in one tick: the measurement of the tick now over, whether that tick was off-profile
(R132), and the timeline. `lim`: the driver runs at a limit in the tick that begins. -/
def Heater.tick (p : PortId) (vddMv : Nat) (now : W64) (lim boundary : Bool) (m : Option HeatSample) (h : Heater) :
    Heater :=
  let h := h.noteRan boundary
  let h := match m with
    | some m => h.measure p vddMv now m
    | none => { h with limit := none, limitTicks := 0, limitAge := none }
  let h := if h.offProfile now then { h with lastOff := some now } else h
  ({ h with before := h.drove, atLimit := lim }).advance

/-- `now` is the LT of the tick over, `vht` whether VHT was on in it. At a boundary the driver's decision waits
for the new plan. -/
def tickHeat (i : TickIn) (now : W64) (vht : Bool) (s : State) : State :=
  let s := s.modHeat fun v => Vector.ofFn fun p =>
    v[p].tick p i.vddMv now (i.heatLim.getLsbD p.val) s.frame.boundary (i.heaters.find? (·.port == p))
  let s := if s.frame.boundary then s else eachPort drive s
  s.modCore (Core.tickRails i.railBad vht s.frame.boundary)

/-! ## The fault detectors (Table 19-1) -/

/-- What a detector of the chip's own reports from outside the model. -/
def externalSource (n : Source) : Bool :=
  n ≤ 3 || n == 5 || n == 6 || n == 13 || n == 14 || n == 15 || (48 ≤ n && n ≤ 53)

/-- A port of group g satisfies f. -/
def anyOfGroup (g : Nat) (f : PortId → Bool) : Bool := (List.finRange 16).any fun p => p.val / 4 == g && f p

/-- Source n detects in this tick. -/
def State.detects (i : TickIn) (s : State) (n : Source) : Bool :=
  let k := n.val
  if externalSource n then
    (i.detect.getLsbD k || (n == 13 && s.box.wear)) && (!firmwareSource n || s.core.reeveRuns)
  else if k = 4 then decide (1280 ≤ s.core.wdogTicks)
  else if 7 ≤ k ∧ k ≤ 10 then decide (2 ≤ s.core.railBad.toList.getD (k - 7) 0)
  else if k = 11 then decide (8 ≤ s.ledger.overloadRun)
  else if 16 ≤ k ∧ k ≤ 31 then
    let q := s.ports[portNo (k - 16)]
    q.driven && decide (2 ≤ q.pinBad ∨ 8 ≤ q.ringBad)
  else if 32 ≤ k ∧ k ≤ 35 then anyOfGroup (k - 32) fun p => decide (8 ≤ s.ports[p].ceBad)
  else false

def maskOf (f : Source → Bool) : BitVec 64 := BitVec.ofNat 64 (bits ((List.finRange 64).map f))

def tickFaults (i : TickIn) (s : State) : State :=
  let det := maskOf (s.detects i)
  let s := (s.modFaults (Faults.tick (s.core.dev == .boot) det)).modBox fun b =>
    { b with wear := b.wear && !s.core.reeveRuns }
  let s := s.modFaults fun f => { f with found := i.detect }
  s.modPins fun x => { x with faultFrom := s.faultLow }

/-! ## Measurements -/

/-- The seam's tick: the tick now over is usable or not; a training run cut short is abandoned, one planned for
this tick starts (R178 to R181, Table 7-10). -/
def tickSeam (s : State) : State :=
  let cut := s.frame.boundary && s.seq.seam.training.any fun t => decide (s.since t < 64)
  let s := if cut then s.modSeq fun q => { q with seam := { q.seam with training := none } } else s
  let s := if s.frame.boundary then s else startTraining s
  if s.seq.twill then
    let u := s.measuring && s.seq.running && usableTick s.seq.seam.codes
    let draw := s.free
    let s := if u then s.drawFree else s
    s.modSeq fun q => { q with seam := q.seam.tick u draw }
  else s

/-- Tick 1: the frame's records and the gas frame close (R103, R206). Tick 2: a computation still due
was missed (R207), and the temperature comparators get no means from it. -/
def tickGas (s : State) : State :=
  if !s.frame.started then s
  else if s.frame.tick = 1 then
    let s := rollRecords s
    let s := gasRoll s
    if s.gas.due then calFrame s else s
  else if s.frame.tick = 2 then
    (s.modTherm fun t => { t with leveeDue := false }).modGas fun g =>
      { (if g.due && s.measuring then g.miss (s.frame.number - 1) else g) with due := false, holdEnded := 0 }
  else s

/-- The tick now over was one of calibration hold, or of a slow tone (R150, R244). -/
def notePort (p : PortId) (s : State) : State :=
  let now := s.core.lt
  let s := if s.calHold p then s.modPort p fun q => { q with heldAt := some now } else s
  if s.slowTone p then s.modGauzeAt p fun g => { g with slowAt := some now } else s

/-- The integrations that the tick now over discards. -/
def tickGauze (s : State) : State :=
  eachPort (fun p s => if s.gauzeSpoils p then gauzeDiscard p s else s) s

/-- The rest of a tick after BOOT, at the frame and tick it has. -/
def tickRun (i : TickIn) (s : State) : State :=
  let quiet := (s.pins.sampleQuiet).1
  let s := (s.modPins fun p => (p.sampleQuiet).2).modTime Time.advance
  let s := s.modLedger (Ledger.book i.vddMv i.iddUa)
  tickGas (windowsTick quiet (tickSeam s))

/-- A tick outside reset. -/
def tickPowered (i : TickIn) (s : State) : State :=
  let s := ringLate s
  let past := s.core.lt
  let vht := s.vhtOn
  let up := s.core.dev != .boot
  let s := postOwed (tickClock i (tickPins (tickGauze (eachPort notePort s))))
  let s := s.modFaults Faults.release
  let s := if up then tickFrame i.fsync s else s
  let s := tickHeat i past vht (tickPorts i (tickTherm i.temps s))
  let s := if up then tickRun i s else s
  let s := tickFaults i s
  let s := s.modRings fun r => { r with gapDue := r.sgap.isSome && decide (r.sample.length < 8192) }
  let s := digestLate (serveReactions (commitHeld s))
  if s.reeveActive then calStagedWrite s else s

/-- In reset LT runs and the collector's detectors are sampled (R451, Table 1-6). -/
def tickReset (i : TickIn) (s : State) : State :=
  let s := s.modCore fun c => { c with lt := c.lt + 1 }
  let det := maskOf fun n => externalSource n && !firmwareSource n && i.detect.getLsbD n.val
  s.modFaults (Faults.tick true det)

/-- TICK (R35). -/
def execTick (i : TickIn) (s : State) : Host.Outcome State Fault Refusal :=
  .next (if s.core.dev = .off then s else if s.core.rstLow then tickReset i s else tickPowered i s)

end Sys2Proof.Machine
end

