-- ==== Sys2Proof/Machine/Dispatch.lean ====
section
/-!
DEFINITION. One arm per command of the table: the meaning it has, or its rejection by name.
-/

namespace Sys2Proof.Machine

/-- The effect of a command on everything but the queue. -/
def exec (i : Instr) (s : State) : Host.Outcome State Fault Refusal :=
  match i with
  | .powerOn => Sys2Proof.Machine.execPowerOn s
  | .brownout vddMv => Sys2Proof.Machine.execBrownout vddMv s
  | .resetNLow => Sys2Proof.Machine.execResetNLow s
  | .resetNRelease => Sys2Proof.Machine.execResetNRelease s
  | .bootPorchAnswer => Sys2Proof.Machine.execBootPorchAnswer s
  | .bootEnd => Sys2Proof.Machine.execBootEnd s
  | .bootTimeout => Sys2Proof.Machine.execBootTimeout s
  | .sysResetBootDelay => Sys2Proof.Machine.execSysResetBootDelay s
  | .tick j => Sys2Proof.Machine.execTick j s
  | .frameBoundary => Sys2Proof.Machine.execFrameBoundary s
  | .planFreeze => Sys2Proof.Machine.execPlanFreeze s
  | .fsyncEdge => Sys2Proof.Machine.execFsyncEdge s
  | .fsyncMissed => Sys2Proof.Machine.execFsyncMissed s
  | .fsyncLost => Sys2Proof.Machine.execFsyncLost s
  | .fsyncReacquired => Sys2Proof.Machine.execFsyncReacquired s
  | .fsyncWaitTimeout => Sys2Proof.Machine.execFsyncWaitTimeout s
  | .quietChange high pulse => Sys2Proof.Machine.execQuietChange high pulse s
  | .patternDisagreeNotice => Sys2Proof.Machine.execPatternDisagreeNotice s
  | .unguardedHourlyNotice => Sys2Proof.Machine.execUnguardedHourlyNotice s
  | .disciplineSourceStopped => Sys2Proof.Machine.execDisciplineSourceStopped s
  | .disciplineSourcePresent => Sys2Proof.Machine.execDisciplineSourcePresent s
  | .conversionComplete c => Sys2Proof.Machine.execConversionComplete c s
  | .windowComplete p j => Sys2Proof.Machine.execWindowComplete p j s
  | .lowSignalStepDown p j => Sys2Proof.Machine.execLowSignalStepDown p j s
  | .clipDetected p j positive => Sys2Proof.Machine.execClipDetected p j positive s
  | .urgentConversionDone n v err => Sys2Proof.Machine.execUrgentConversionDone n v err s
  | .converterSelfTest c g => Sys2Proof.Machine.execConverterSelfTest c g s
  | .railDeparture r => Sys2Proof.Machine.execRailDeparture r s
  | .referenceResume => Sys2Proof.Machine.execReferenceResume s
  | .seamConverged => Sys2Proof.Machine.execSeamConverged s
  | .seamStaleTimeout => Sys2Proof.Machine.execSeamStaleTimeout s
  | .seamTrainingEnd spursMet => Sys2Proof.Machine.execSeamTrainingEnd spursMet s
  | .syncNFall => Sys2Proof.Machine.execSyncNFall s
  | .weaveSyncRelease => Sys2Proof.Machine.execWeaveSyncRelease s
  | .biasTargetReached p => Sys2Proof.Machine.execBiasTargetReached p s
  | .portStopped p => Sys2Proof.Machine.execPortStopped p s
  | .cellSettlingEnd p => Sys2Proof.Machine.execCellSettlingEnd p s
  | .protectionTrip p => Sys2Proof.Machine.execProtectionTrip p s
  | .ringDriverLimit p => Sys2Proof.Machine.execRingDriverLimit p s
  | .ceCompliance p => Sys2Proof.Machine.execCeCompliance p s
  | .vreError p uv => Sys2Proof.Machine.execVreError p uv s
  | .heaterStepStart p => Sys2Proof.Machine.execHeaterStepStart p s
  | .profileIterationEnd p => Sys2Proof.Machine.execProfileIterationEnd p s
  | .heaterTrip p => Sys2Proof.Machine.execHeaterTrip p s
  | .heaterLimitNotice p => Sys2Proof.Machine.execHeaterLimitNotice p s
  | .featureCapture p => Sys2Proof.Machine.execFeatureCapture p s
  | .gauzeLeadInEnd p => Sys2Proof.Machine.execGauzeLeadInEnd p s
  | .gauzeIntegrationEnd p => Sys2Proof.Machine.execGauzeIntegrationEnd p s
  | .gauzePlanEnd p => Sys2Proof.Machine.execGauzePlanEnd p s
  | .gauzeFallEnd p => Sys2Proof.Machine.execGauzeFallEnd p s
  | .cellHealthFit p => Sys2Proof.Machine.execCellHealthFit p s
  | .adaptStore p => Sys2Proof.Machine.execAdaptStore p s
  | .gasComputation => Sys2Proof.Machine.execGasComputation s
  | .gasComputationMiss => Sys2Proof.Machine.execGasComputationMiss s
  | .leveeOvertop k => Sys2Proof.Machine.execLeveeOvertop k s
  | .leveeSettle k => Sys2Proof.Machine.execLeveeSettle k s
  | .calStepEnd p => Sys2Proof.Machine.execCalStepEnd p s
  | .calHoldLimit p => Sys2Proof.Machine.execCalHoldLimit p s
  | .elecCalEnd t m => Sys2Proof.Machine.execElecCalEnd t m s
  | .autoElecCal t => Sys2Proof.Machine.execAutoElecCal t s
  | .periodicSelfTest k ppm => Sys2Proof.Machine.execPeriodicSelfTest k ppm s
  | .thermalCrossing t l rising => Sys2Proof.Machine.execThermalCrossing t l rising s
  | .thermalShutdown t => Sys2Proof.Machine.execThermalShutdown t s
  | .sensorCrossCheck => Sys2Proof.Machine.execSensorCrossCheck s
  | .oscRefCompensation => Sys2Proof.Machine.execOscRefCompensation s
  | .heatEntry => Sys2Proof.Machine.execHeatEntry s
  | .heatClose => Sys2Proof.Machine.execHeatClose s
  | .stagedRecordsWrite => Sys2Proof.Machine.execStagedRecordsWrite s
  | .sampleGapMarker => Sys2Proof.Machine.execSampleGapMarker s
  | .noticeGapMarker => Sys2Proof.Machine.execNoticeGapMarker s
  | .sampleSluiceRead first n => Sys2Proof.Machine.execSampleSluiceRead first n s
  | .noticeSluiceRead first n => Sys2Proof.Machine.execNoticeSluiceRead first n s
  | .liveValueRead first n => Sys2Proof.Machine.execLiveValueRead first n s
  | .stateRead r => Sys2Proof.Machine.execStateRead r s
  | .attnRead r => Sys2Proof.Machine.execAttnRead r s
  | .busRead r => Sys2Proof.Machine.execBusRead r s
  | .busWrite v => Sys2Proof.Machine.execBusWrite v s
  | .attnmaskWrite v => Sys2Proof.Machine.execAttnmaskWrite v s
  | .attncfgWrite v => Sys2Proof.Machine.execAttncfgWrite v s
  | .dbellWrite v => Sys2Proof.Machine.execDbellWrite v s
  | .registerWrite data => Sys2Proof.Machine.execRegisterWrite data s
  | .commandDispatch => Sys2Proof.Machine.execCommandDispatch s
  | .chunkStagingTimeout op sel => Sys2Proof.Machine.execChunkStagingTimeout op sel s
  | .generalCallSync => Sys2Proof.Machine.execGeneralCallSync s
  | .digestCheck data => Sys2Proof.Machine.execDigestCheck data s
  | .dozeWakeByBus => Sys2Proof.Machine.execDozeWakeByBus s
  | .wakeComplete => Sys2Proof.Machine.execWakeComplete s
  | .sclTimeout => Sys2Proof.Machine.execSclTimeout s
  | .sdaTimeout => Sys2Proof.Machine.execSdaTimeout s
  | .busFreeIdle => Sys2Proof.Machine.execBusFreeIdle s
  | .attentionAttempt o => Sys2Proof.Machine.execAttentionAttempt o s
  | .attentionBackoffExpiry => Sys2Proof.Machine.execAttentionBackoffExpiry s
  | .renotifyExpiry => Sys2Proof.Machine.execRenotifyExpiry s
  | .faultEvent f => Sys2Proof.Machine.execFaultEvent f s
  | .watchdogTimeout => Sys2Proof.Machine.execWatchdogTimeout s
  | .reactionHandled f => Sys2Proof.Machine.execReactionHandled f s
  | .graceExpiry f => Sys2Proof.Machine.execGraceExpiry f s
  | .actionCheck f => Sys2Proof.Machine.execActionCheck f s
  | .reactionEnd f => Sys2Proof.Machine.execReactionEnd f s
  | .ppsEdge d ticksBack clock => Sys2Proof.Machine.execPpsEdge d ticksBack clock s
  | .ppsAbsent d => Sys2Proof.Machine.execPpsAbsent d s
  | .timeSetApply d => Sys2Proof.Machine.execTimeSetApply d s
  | .timeSetEdgeTimeout d => Sys2Proof.Machine.execTimeSetEdgeTimeout d s
  | .timeTrigger k => Sys2Proof.Machine.execTimeTrigger k s
  | .slewComplete => Sys2Proof.Machine.execSlewComplete s
  | .boltCommitMarkProgrammed verified => Sys2Proof.Machine.execBoltCommitMarkProgrammed verified s
  | .boxEraseDone => Sys2Proof.Machine.execBoxEraseDone s
  | .patchProgrammed => Sys2Proof.Machine.execPatchProgrammed s
  | .lockoutEnd => Sys2Proof.Machine.execLockoutEnd s
  | .nonceExpiry => Sys2Proof.Machine.execNonceExpiry s
  | .portMode n => Sys2Proof.Machine.execPortMode n s
  | .portBias n => Sys2Proof.Machine.execPortBias n s
  | .portRange n => Sys2Proof.Machine.execPortRange n s
  | .portWindow n => Sys2Proof.Machine.execPortWindow n s
  | .portSettle n => Sys2Proof.Machine.execPortSettle n s
  | .portAux n => Sys2Proof.Machine.execPortAux n s
  | .portRing n => Sys2Proof.Machine.execPortRing n s
  | .portLayer n => Sys2Proof.Machine.execPortLayer n s
  | .portStartCommand n => Sys2Proof.Machine.execPortStartCommand n s
  | .portStop n => Sys2Proof.Machine.execPortStop n s
  | .portStatus n => Sys2Proof.Machine.execPortStatus n s
  | .heatPlate n => Sys2Proof.Machine.execHeatPlate n s
  | .heatProfile n => Sys2Proof.Machine.execHeatProfile n s
  | .heatStart n => Sys2Proof.Machine.execHeatStart n s
  | .heatStop n => Sys2Proof.Machine.execHeatStop n s
  | .heatStatus n => Sys2Proof.Machine.execHeatStatus n s
  | .gauzePlan n => Sys2Proof.Machine.execGauzePlan n s
  | .gauzeStart n => Sys2Proof.Machine.execGauzeStart n s
  | .gauzeStop n => Sys2Proof.Machine.execGauzeStop n s
  | .gauzeRead n => Sys2Proof.Machine.execGauzeRead n s
  | .gauzeHealth n => Sys2Proof.Machine.execGauzeHealth n s
  | .gauzeHealthSetReferences n => Sys2Proof.Machine.execGauzeHealthSetReferences n s
  | .gauzeHealthSetSpreads n => Sys2Proof.Machine.execGauzeHealthSetSpreads n s
  | .gauzeStatus n => Sys2Proof.Machine.execGauzeStatus n s
  | .gauzeCap n => Sys2Proof.Machine.execGauzeCap n s
  | .seqLoad n => Sys2Proof.Machine.execSeqLoad n s
  | .seqMode n => Sys2Proof.Machine.execSeqMode n s
  | .seqUrgent n => Sys2Proof.Machine.execSeqUrgent n s
  | .seqRef n => Sys2Proof.Machine.execSeqRef n s
  | .seqStart n => Sys2Proof.Machine.execSeqStart n s
  | .seqStatus n => Sys2Proof.Machine.execSeqStatus n s
  | .weaveSet n => Sys2Proof.Machine.execWeaveSet n s
  | .weaveCoef n => Sys2Proof.Machine.execWeaveCoef n s
  | .weaveDelay n => Sys2Proof.Machine.execWeaveDelay n s
  | .weaveSync n => Sys2Proof.Machine.execWeaveSync n s
  | .weaveSyncResponse n => Sys2Proof.Machine.execWeaveSyncResponse n s
  | .weavePhase n => Sys2Proof.Machine.execWeavePhase n s
  | .weaveStatus n => Sys2Proof.Machine.execWeaveStatus n s
  | .weaveRead n => Sys2Proof.Machine.execWeaveRead n s
  | .gasModel n => Sys2Proof.Machine.execGasModel n s
  | .gasMatrix n => Sys2Proof.Machine.execGasMatrix n s
  | .gasChannel n => Sys2Proof.Machine.execGasChannel n s
  | .gasEnv n => Sys2Proof.Machine.execGasEnv n s
  | .gasRead n => Sys2Proof.Machine.execGasRead n s
  | .gasStatus n => Sys2Proof.Machine.execGasStatus n s
  | .gasAdaptRead n => Sys2Proof.Machine.execGasAdaptRead n s
  | .gasAdaptFreeze n => Sys2Proof.Machine.execGasAdaptFreeze n s
  | .gasAdaptRelease n => Sys2Proof.Machine.execGasAdaptRelease n s
  | .leveeSet n => Sys2Proof.Machine.execLeveeSet n s
  | .leveeAck n => Sys2Proof.Machine.execLeveeAck n s
  | .leveeStatus n => Sys2Proof.Machine.execLeveeStatus n s
  | .calBegin n => Sys2Proof.Machine.execCalBegin n s
  | .calZero n => Sys2Proof.Machine.execCalZero n s
  | .calSpan n => Sys2Proof.Machine.execCalSpan n s
  | .calCommit n => Sys2Proof.Machine.execCalCommit n s
  | .calAbort n => Sys2Proof.Machine.execCalAbort n s
  | .calRange n => Sys2Proof.Machine.execCalRange n s
  | .calElec n => Sys2Proof.Machine.execCalElec n s
  | .calStatus n => Sys2Proof.Machine.execCalStatus n s
  | .calClear n => Sys2Proof.Machine.execCalClear n s
  | .framePattern n => Sys2Proof.Machine.execFramePattern n s
  | .frameSelect n => Sys2Proof.Machine.execFrameSelect n s
  | .framePolder n => Sys2Proof.Machine.execFramePolder n s
  | .frameWindows n => Sys2Proof.Machine.execFrameWindows n s
  | .frameStatus n => Sys2Proof.Machine.execFrameStatus n s
  | .sysStart n => Sys2Proof.Machine.execSysStart n s
  | .sysStop n => Sys2Proof.Machine.execSysStop n s
  | .sysHold n => Sys2Proof.Machine.execSysHold n s
  | .sysRelease n => Sys2Proof.Machine.execSysRelease n s
  | .sysDoze n => Sys2Proof.Machine.execSysDoze n s
  | .sysReset n => Sys2Proof.Machine.execSysReset n s
  | .sysRecover n => Sys2Proof.Machine.execSysRecover n s
  | .sysInfo n => Sys2Proof.Machine.execSysInfo n s
  | .sysPatch n => Sys2Proof.Machine.execSysPatch n s
  | .ringClear n => Sys2Proof.Machine.execRingClear n s
  | .ringWater n => Sys2Proof.Machine.execRingWater n s
  | .timeSet n => Sys2Proof.Machine.execTimeSet n s
  | .timeIncr n => Sys2Proof.Machine.execTimeIncr n s
  | .timeServo n => Sys2Proof.Machine.execTimeServo n s
  | .timeSelect n => Sys2Proof.Machine.execTimeSelect n s
  | .timePps n => Sys2Proof.Machine.execTimePps n s
  | .timeTriggerCommand n => Sys2Proof.Machine.execTimeTriggerCommand n s
  | .timeStatus n => Sys2Proof.Machine.execTimeStatus n s
  | .ledgerGrant n => Sys2Proof.Machine.execLedgerGrant n s
  | .ledgerRank n => Sys2Proof.Machine.execLedgerRank n s
  | .ledgerStatus n => Sys2Proof.Machine.execLedgerStatus n s
  | .thermRead n => Sys2Proof.Machine.execThermRead n s
  | .thermStatus n => Sys2Proof.Machine.execThermStatus n s
  | .thermPolicy n => Sys2Proof.Machine.execThermPolicy n s
  | .thermAck n => Sys2Proof.Machine.execThermAck n s
  | .faultRead n => Sys2Proof.Machine.execFaultRead n s
  | .faultClear n => Sys2Proof.Machine.execFaultClear n s
  | .faultConfig n => Sys2Proof.Machine.execFaultConfig n s
  | .faultForce n => Sys2Proof.Machine.execFaultForce n s
  | .faultEcc n => Sys2Proof.Machine.execFaultEcc n s
  | .faultGrace n => Sys2Proof.Machine.execFaultGrace n s
  | .boltStage n => Sys2Proof.Machine.execBoltStage n s
  | .boltCommit n => Sys2Proof.Machine.execBoltCommit n s
  | .boltInfo n => Sys2Proof.Machine.execBoltInfo n s
  | .boxInfo n => Sys2Proof.Machine.execBoxInfo n s
  | .boxRead n => Sys2Proof.Machine.execBoxRead n s
  | .boxErase n => Sys2Proof.Machine.execBoxErase n s
  | .lockPassword n => Sys2Proof.Machine.execLockPassword n s
  | .lockChallenge n => Sys2Proof.Machine.execLockChallenge n s
  | .lockResponse n => Sys2Proof.Machine.execLockResponse n s
  | .lockSeal n => Sys2Proof.Machine.execLockSeal n s
  | .busStartCondition idle afterStart sclLow => Sys2Proof.Machine.execBusStartCondition idle afterStart sclLow s
  | .busStopCondition => Sys2Proof.Machine.execBusStopCondition s
  | .causeLatchRetentionLoss => Sys2Proof.Machine.execCauseLatchRetentionLoss s
  | .electricalCoefficientStore => Sys2Proof.Machine.execElectricalCoefficientStore s
  | .pageEraseComplete => Sys2Proof.Machine.execPageEraseComplete s

end Sys2Proof.Machine
end

