-- ==== Sys2Proof/Machine/Order.lean ====
section
/-!
DEFINITION. The order of the events of one tick (R36, Table 2-2), and the queueing of a tick in that order. The
sender knows which events a tick brings; `State.queueTick` puts them behind the TICK class by class, and within a
class by source, and the host's reads of the porch behind them all (R37). Where Table 2-2 does not name an event,
its place is the model's (DESIGN CHOICE, log 7).
-/

namespace Sys2Proof.Machine

/-- The classes of Table 2-2, between the start of the tick and what follows its events: the reeve's work, the
host's transactions that change something, and its reads. Ahead of the results of class 6 come what starts or resets
lanes in the tick (R169, R200), and the clips, which mark every result of the tick (R98). -/
inductive TickClass where
  | start | scheduled | grave | thermal | faults | levees | frame | lanes | clips | samples | doorbells | reeve | bus
  | reads
deriving DecidableEq, Repr

/-- The number of a class. -/
def TickClass.rank : TickClass → Nat
  | .start => 0 | .scheduled => 1 | .grave => 2 | .thermal => 3 | .faults => 4 | .levees => 5 | .frame => 6
  | .lanes => 7 | .clips => 8 | .samples => 9 | .doorbells => 10 | .reeve => 11 | .bus => 12 | .reads => 13

/-- Class and source index of a command in the state its tick meets (Table 2-2). -/
def State.place (s : State) : Instr → TickClass × Nat
  | .tick _ | .powerOn | .brownout _ | .resetNLow | .causeLatchRetentionLoss | .bootPorchAnswer | .sysResetBootDelay => (.start, 0)
  | .resetNRelease => (.grave, 64)
  | .biasTargetReached p | .portStopped p => (.scheduled, p.val)
  | .bootTimeout => (.grave, 54)
  | .faultEvent f => (if s.faults.src[f].inForce = .grave then .grave else .faults, f.val)
  | .thermalCrossing t l _ => (.thermal, 4 * t.val + l.val)
  | .thermalShutdown t => (.thermal, 4 * t.val + 3)
  | .heatEntry => (.thermal, 36)
  | .watchdogTimeout => (.faults, 4)
  | .railDeparture r => (.faults, 7 + (railIdx r).val)
  | .protectionTrip p | .ringDriverLimit p => (.faults, 16 + p.val)
  | .ceCompliance p => (.faults, 32 + p.val / 4)
  | .heaterTrip p => (.faults, 36 + p.val / 4)
  | .reactionHandled f | .graceExpiry f | .actionCheck f | .reactionEnd f => (.faults, f.val)
  | .leveeOvertop k | .leveeSettle k => (.levees, k.val)
  | .frameBoundary => (.frame, 0)
  | .fsyncEdge | .fsyncMissed | .fsyncLost | .fsyncReacquired | .fsyncWaitTimeout => (.frame, 1)
  | .ppsEdge d _ _ | .ppsAbsent d | .timeSetApply d => (.frame, if d = .ta then 2 else 3)
  | .syncNFall | .generalCallSync => (.frame, 4)
  | .timeTrigger k => (.frame, 6 + k.val)
  | .heaterStepStart p | .profileIterationEnd p | .gauzeLeadInEnd p | .gauzeFallEnd p => (.frame, 22 + p.val)
  | .referenceResume => (.lanes, 0)
  | .seamConverged | .seamStaleTimeout | .seamTrainingEnd _ => (.lanes, 1)
  | .elecCalEnd _ _ => (.lanes, 2)
  | .clipDetected p i _ => (.clips, 2 * p.val + i.val)
  | .windowComplete p i => (.samples, ((s.laneOfInput p i).map (·.val)).getD 64)
  | .conversionComplete x => (.samples, ((s.convEntry x).bind (·.lane)).elim 64 (·.val))
  | .featureCapture p | .gauzeIntegrationEnd p | .gauzePlanEnd p | .cellHealthFit p => (.samples, 65 + p.val)
  | .urgentConversionDone _ _ _ | .converterSelfTest _ _ => (.samples, 81)
  | .gasComputation => (.samples, 82)
  | .dbellWrite v =>
    (.doorbells, if v.getLsbD 0 then 0 else if v.getLsbD 1 then 1 else if v.getLsbD 2 then 2 else 3)
  | .busWrite _ | .attnmaskWrite _ | .attncfgWrite _ | .registerWrite _ | .dozeWakeByBus | .sclTimeout
  | .sdaTimeout | .busFreeIdle | .attentionAttempt _ | .attentionBackoffExpiry | .renotifyExpiry
  | .busStartCondition _ _ _ | .busStopCondition | .digestCheck _ => (.bus, 0)
  | .stateRead _ | .attnRead _ | .busRead _ | .sampleSluiceRead _ _ | .noticeSluiceRead _ _
  | .liveValueRead _ _ => (.reads, 0)
  -- the mailbox commands, and what the reeve does of its own accord
  | _ => (.reeve, 0)

/-- a may be taken before b. -/
def State.before (s : State) (a b : Instr) : Bool :=
  let x := s.place a
  let y := s.place b
  x.1.rank < y.1.rank || (x.1.rank == y.1.rank && x.2 ≤ y.2)

/-- The events of one tick in the order in which they are taken, those of one place as the sender has them. -/
def State.inOrder (s : State) (evs : List Instr) : List Instr := evs.insertionSort fun a b => s.before a b

/-- One tick is queued: its samples, and its events in order. -/
def State.queueTick (i : TickIn) (evs : List Instr) (s : State) : State :=
  { s with pending := s.pending ++ .tick i :: s.inOrder evs }

end Sys2Proof.Machine
end

