-- ==== Sys2Proof/Safety.lean ====
section
/-!
DEFINITION. What a safe state is, in the terms the statements use: no bounded buffer holds more than its
capacity.
-/

namespace Sys2Proof.Machine

/-- Neither ring holds more than its capacity (R299, R303). -/
def State.ringsBounded (s : State) : Prop :=
  s.rings.sample.length ≤ 8192 ∧ s.rings.notice.length ≤ 512

/-- Besides, at most 63 records are staged (R430). -/
def State.Inv (s : State) : Prop := s.ringsBounded ∧ s.box.staged.length ≤ 63

/-- The ECC sources of the SAMPLE and of the NOTICE ring, whose action empties the ring (Table 19-1). -/
def ringSource (f : Source) : Bool := f = 14 || f = 15

/-- The commands that take entries from a ring: sluice reads and the register bursts that run into the
sluices, RING_CLEAR, what the reeve and the collector do about an error in a ring, and what starts BOOT
or enters reset or OFF (R301, R307, R314, Table 19-1). -/
def emptiesRings : Instr → Bool
  | .stateRead _ => true
  | .attnRead _ => true
  | .busRead _ => true
  | .sampleSluiceRead _ _ => true
  | .noticeSluiceRead _ _ => true
  | .liveValueRead _ _ => true
  | .ringClear _ => true
  | .faultEvent f => ringSource f
  | .reactionHandled f => ringSource f
  | .graceExpiry f => ringSource f
  | .powerOn => true
  | .brownout _ => true
  | .resetNLow => true
  | .resetNRelease => true
  | .sysResetBootDelay => true
  | _ => false

/-- A stalled reeve owes a ring its emptying: it takes the action in the first TICK in which it runs (R408). -/
def State.ringActionOwed (s : State) : Bool :=
  (List.finRange 64).any fun f => ringSource f && (s.awaits f).any fun r => !r.acted

/-- The commands of the lock, and those that begin a BOOT, a reset or OFF. -/
def movesLock : Instr → Bool
  | .lockPassword _ => true
  | .lockChallenge _ => true
  | .lockResponse _ => true
  | .lockSeal _ => true
  | .nonceExpiry => true
  | .lockoutEnd => true
  | .powerOn => true
  | .brownout _ => true
  | .resetNLow => true
  | .resetNRelease => true
  | .sysResetBootDelay => true
  | _ => false

end Sys2Proof.Machine
end

