-- ==== Sys2Proof/Certificates/Slice0/Obligations.lean ====
section
/-!
DEFINITION. The statements for the provers. A statement about a mailbox command is about a slot that
runs a request of the command (R346), and says what the command does from there to its completion.
-/

namespace Sys2Proof.Machine

/-- Slot n runs a request of opcode op with payload p: it was dispatched and passed the checks of its
opcode, length and state (R344, R346). -/
def State.request (s : State) (n : SlotId) (op : Nat) (p : List Byte) : Prop :=
  s.runs n op = true ∧ s.mbox.slots[n].payload = p

/-- The request of slot n is the chunk that completes an object o of the chunked command op (R349): the
only chunk of the object, or one that continues what is staged. -/
def State.lastChunk (s : State) (n : SlotId) (op sel : Nat) (o : List Byte) : Prop :=
  ∃ p, s.request n op p ∧ u16 p 0 = sel ∧ u16 p 4 = o.length ∧ u8 p 7 = 0 ∧
    ((u8 p 6 = 1 ∧ u16 p 2 = 0 ∧ o = p.drop 8) ∨
     (u8 p 6 = 0 ∧ ∃ g, s.stagingOf (BitVec.ofNat 16 op) sel = some g ∧ g.sel = sel ∧ g.total = u16 p 4 ∧
       g.data.length = u16 p 2 ∧ g.complete = false ∧ o = g.data ++ p.drop 8))

/-- The cell and the residual of R152 that the last tone results of port k give. -/
def State.cellFound (s : State) (k : PortId) : CellFit × Rat :=
  let r := cellFit (s.gauze[k].results.map fun t =>
    { f := toneHz s.gauze[k].resultsF0 t.k, z := Cplx.polar (F32.toRat t.zmag) ((t.zph : Rat) / 36000) })
  ({ rs := F32.ofRat r.1.1, rct := F32.ofRat r.1.2.1, cdl := F32.ofRat r.1.2.2 }, r.2)

/-- A crossing of a comparator of sensor t: nothing else of the sensor changes (R283). -/
def Sensor.crossed (rising : Bool) (l : Fin 3) (x : Sensor) : Sensor :=
  { x with up := if rising then x.up ||| (1 <<< l.val) else x.up &&& ~~~((1 : BitVec 4) <<< l.val) }

/-- The lock after a wrong attempt at LT t (R440, R443). -/
def Lock.failed (t : W64) (l : Lock) : Lock :=
  { l with
    attempts := satAdd l.attempts 1
    fails := min 255 (l.fails + 1)
    lockout := if 4 ≤ min 255 (l.fails + 1) then some (600 * 2 ^ min (min 255 (l.fails + 1) - 4) 10, t) else none }

end Sys2Proof.Machine

open Sys2Proof Sys2Proof.Machine

/-- For every command c and state s, a step of s with c put at the front of its queue is exec of c on
s; with an empty queue a step leaves the state as it is (the model's choice, log 5). -/
def Obligations.StepRunsFront : Prop :=
  (∀ (c : Instr) (s : State), step { s with pending := c :: s.pending } = exec c s) ∧
  ∀ s : State, s.pending = [] → step s = .next s

/-- A request of PORT.RANGE, PORT.WINDOW, PORT.SETTLE, PORT.AUX, PORT.RING or PORT.LAYER with fields
in range (Table 16-5) sets the port's fields and posts OK: RANGE and WINDOW outside RUN, SETTLE
always, AUX (AUX RTD), RING (not MOX or IRT) and LAYER (MOX) for a port not RUNNING. Nothing else
of the state changes but by the posting. -/
def Obligations.PortSettingsApplyAtOnce : Prop :=
  ∀ (s : State) (n : SlotId) (p : List Byte) (k : PortId), u8 p 0 = k.val →
    -- portRange (PORT_RANGE, R101) completes
    (∀ i : Fin 2, s.request n 0x0203 p → s.core.dev ≠ .run → u8 p 1 = i.val →
      u8 p 2 ≤ u8 p 4 → u8 p 4 ≤ u8 p 3 → u8 p 3 ≤ 7 → 1 ≤ u8 p 5 →
      exec (.portRange n) s = .next (postStatus n .ok (s.modInput k i fun x =>
        { x with lo := Fin.ofNat 8 (u8 p 2), hi := Fin.ofNat 8 (u8 p 3), start := Fin.ofNat 8 (u8 p 4)
                 s := u8 p 5 }))) ∧
    -- portWindow (PORT_WINDOW, R51, R56) completes
    (s.request n 0x0204 p → s.core.dev ≠ .run → 1 ≤ u8 p 2 → u8 p 2 ≤ u8 p 1 → u8 p 1 ≤ 64 → u8 p 3 = 0 →
      exec (.portWindow n) s =
        .next (postStatus n .ok (s.modPort k fun q => { q with len := u8 p 1, lmin := u8 p 2 }))) ∧
    -- portSettle (PORT_SETTLE, R351, R106) completes
    (s.request n 0x0205 p → u8 p 1 ≤ 60 → u16 p 2 ≤ 1440 →
      exec (.portSettle n) s =
        .next (postStatus n .ok (s.modPort k fun q => { q with shortSettle := u8 p 1, settle := u16 p 2 }))) ∧
    -- portAux (PORT_AUX, R488, R134) completes
    (s.request n 0x0206 p → s.ports[k].mode = .aux → s.ports[k].rtd = true → s.ports[k].state ≠ .running →
      u8 p 1 ≤ 2 →
      exec (.portAux n) s =
        .next (postStatus n .ok (s.modPort k fun q => { q with aux := Fin.ofNat 3 (u8 p 1) }))) ∧
    -- portRing (PORT_RING, R72) completes
    (s.request n 0x0207 p → s.ports[k].mode ≠ .mox → s.ports[k].mode ≠ .irt → s.ports[k].state ≠ .running →
      u8 p 1 ≤ 3 →
      exec (.portRing n) s =
        .next (postStatus n .ok (s.modPort k fun q => { q with ring := BitVec.ofNat 8 (u8 p 1) }))) ∧
    -- portLayer (PORT_LAYER, R128) completes
    (s.request n 0x0208 p → s.ports[k].mode = .mox → s.ports[k].state ≠ .running → u8 p 1 = 0 →
      (s16 p 2).natAbs ≤ 1000 →
      exec (.portLayer n) s = .next (postStatus n .ok (s.modPort k fun q => { q with vlayer := s16 p 2 })))

/-- A valid PORT.MODE for a DISABLED or STOPPED port, PORT.BIAS for an EC port STARTING or RUNNING,
PORT.RANGE and PORT.WINDOW in RUN (the boundary after next if the doorbell came after the freeze),
PORT.AUX, PORT.RING and PORT.LAYER of a RUNNING port, PORT.START of a port that may start (a
boundary later behind a pending mode change) and PORT.STOP of a started port wait as PENDING with
all else as it was; PORT.BIAS of another EC port, or of a DISABLED one, sets bias code, rate and
VCM and posts OK. The bias must leave room for the tone plan that was loaded for the port (log 54:
a default plan is not a loaded one). -/
def Obligations.PortCommandsWaitForTheirBoundary : Prop :=
  ∀ (s : State) (n : SlotId) (p : List Byte) (k : PortId), u8 p 0 = k.val →
    -- portMode (PORT_MODE, R84) completes
    (s.request n 0x0201 p → u8 p 1 ≤ 6 → (u8 p 2 = 0 ∨ (u8 p 1 = 6 ∧ u8 p 2 = 1)) → u8 p 3 = 0 →
      (s.ports[k].state = .disabled ∨ s.ports[k].state = .stopped) →
      exec (.portMode n) s = .next (pendBoundary n 0x0201 p 1 s)) ∧
    -- portBias (PORT_BIAS, R90) completes
    (s.request n 0x0202 p → (s.ports[k].mode.isEc = true ∨ s.ports[k].state = .disabled) → u8 p 1 = 0 → (s16 p 2).natAbs ≤ 16384 →
      (∀ x, s.gauze[k].plan = some x → biasFits (s16 p 2) x.ampSum = true) → 1 ≤ u16 p 4 → u16 p 4 ≤ 1000 → 40 ≤ u8 p 6 →
      u8 p 6 ≤ 100 → u8 p 7 = 0 →
      (s.ports[k].state = .starting ∨ s.ports[k].state = .running →
        exec (.portBias n) s = .next (pendBoundary n 0x0202 p 1 s)) ∧
      (s.ports[k].state ≠ .starting → s.ports[k].state ≠ .running →
        exec (.portBias n) s = .next (postStatus n .ok (s.modPort k fun q =>
          { q with bias := s16 p 2, rate := u16 p 4, vcm := u8 p 6 })))) ∧
    -- portRange (PORT_RANGE, R101) completes
    (∀ i : Fin 2, s.request n 0x0203 p → s.core.dev = .run → u8 p 1 = i.val → u8 p 2 ≤ u8 p 4 →
      u8 p 4 ≤ u8 p 3 → u8 p 3 ≤ 7 → 1 ≤ u8 p 5 →
      exec (.portRange n) s = .next (pendBoundary n 0x0203 p (s.planBoundaries n) s)) ∧
    -- portWindow (PORT_WINDOW, R51, R56) completes
    (s.request n 0x0204 p → s.core.dev = .run → 1 ≤ u8 p 2 → u8 p 2 ≤ u8 p 1 → u8 p 1 ≤ 64 → u8 p 3 = 0 →
      exec (.portWindow n) s = .next (pendBoundary n 0x0204 p (s.planBoundaries n) s)) ∧
    (s.ports[k].state = .running →
      -- portAux (PORT_AUX, R488, R134) completes
      (s.request n 0x0206 p → s.ports[k].mode = .aux → s.ports[k].rtd = true → u8 p 1 ≤ 2 →
        exec (.portAux n) s = .next (pendBoundary n 0x0206 p 1 s)) ∧
      -- portRing (PORT_RING, R72) completes
      (s.request n 0x0207 p → s.ports[k].mode ≠ .mox → s.ports[k].mode ≠ .irt → u8 p 1 ≤ 3 →
        exec (.portRing n) s = .next (pendBoundary n 0x0207 p 1 s)) ∧
      -- portLayer (PORT_LAYER, R128) completes
      (s.request n 0x0208 p → s.ports[k].mode = .mox → u8 p 1 = 0 → (s16 p 2).natAbs ≤ 1000 →
        exec (.portLayer n) s = .next (pendBoundary n 0x0208 p 1 s))) ∧
    -- portStartCommand (PORT_START_COMMAND, R79) completes
    (s.request n 0x0209 p → s.startable k = true →
      exec (.portStartCommand n) s =
        .next (pendBoundary n 0x0209 p (if s.modePending k then 2 else 1) s)) ∧
    -- portStop (PORT_STOP, R80) completes
    (s.request n 0x020A p → (s.ports[k].state = .starting ∨ s.ports[k].state = .running) →
      exec (.portStop n) s = .next (pendBoundary n 0x020A p 1 s))

/-- A request of PORT.STATUS for port k completes with OK and RLEN 16: port state code; mode code with
the RTD bit; the ranges of I1 and I2, 0xFF for an input the mode lacks; applied and target bias
codes; the flag bits CELL_SETTLING, calibration hold, unguarded, alarm-bearing and departed mode;
the settling time left in s; and R_IHT in milliohm where the mode has the signal IHT. -/
def Obligations.PortStatusReportsThePort : Prop :=
  ∀ (s : State) (n : SlotId) (p : List Byte) (k : PortId), u8 p 0 = k.val → s.request n 0x020B p →
    -- portStatus (PORT_STATUS, R351) completes
    ∃ resp : List Byte, exec (.portStatus n) s = .next (postOk n resp s) ∧ resp.length = 16 ∧
      u8 resp 0 = s.ports[k].state.code ∧
      u8 resp 1 = s.ports[k].mode.code + (if s.ports[k].mode = .aux ∧ s.ports[k].rtd then 16 else 0) ∧
      (∀ i : Fin 2, u8 resp (2 + i.val) =
        if i.val < s.ports[k].mode.inputs then s.ports[k].inputs[i].range.val else 0xFF) ∧
      slice resp 4 2 = toLEInt 2 (biasCode s.ports[k].applied) ∧
      slice resp 6 2 = toLEInt 2 s.ports[k].bias ∧
      u8 resp 8 = bits [s.ports[k].settling, s.calHold k, s.frame.unguarded.getLsbD k.val, s.alarmBearing k,
        s.ports[k].departs] ∧
      u8 resp 9 = 0 ∧ slice resp 10 4 = toLE 4 (s.settleLeft k) ∧
      slice resp 14 2 = toLE 2 (if s.ports[k].provides 6 then (roundRat (s.rIht k)).toNat else 0)

/-- A request of HEAT.PLATE with fields in range sets the plate's parameters and posts OK where R114
admits it, and completes with WRONG_STATE everywhere else. The last chunk of a valid HEAT.PROFILE
loads the profile, as the waiting replacement while one runs (R124), and posts OK. HEAT.START of a
RUNNING port with a profile that its plate can run (R114) and no trip, and HEAT.STOP of a RUNNING
port, wait as PENDING for the next boundary. HEAT.STATUS answers the 16 bytes of its row: state,
step, trip cause and limit bit, then of the last measurement the temperature that R115 gives, the
power and the resistance, then the skipped steps. Where the element carries no current, or R115
has no solution, temperature and resistance read 0 (the model's choice, log 61). Nothing else
changes but by the posting. -/
def Obligations.HeatCommands : Prop :=
  ∀ (s : State) (n : SlotId) (p : List Byte) (k : PortId), u8 p 0 = k.val →
    -- heatPlate (HEAT_PLATE, R114) completes
    (s.request n 0x0301 p → heatPlateFault p = none →
      (s.plateFree k = true → exec (.heatPlate n) s = .next (postStatus n .ok (s.modHeater k fun h =>
        { h with plate :=
          { tcr := u8 p 1 == 1, tmax := u16 p 2, r0 := u32 p 4, alpha := s32 p 8, beta := s32 p 12
            pmax := u16 p 16, imax := u8 p 18, rth := u32 p 20, tau := u32 p 24
            coupled := BitVec.ofNat 16 (u16 p 28), ambient := u8 p 30, ambientIdx := u8 p 31 } }))) ∧
      (s.plateFree k = false → exec (.heatPlate n) s = .next (postStatus n .wrongState s))) ∧
    -- heatProfile (HEAT_PROFILE, R124) completes
    (∀ o : List Byte, s.lastChunk n 0x0302 k.val o → profileFault s.heat[k].plate o = none →
      12 ≤ o.length → o.length ≤ 516 → o.length % 8 = 4 →
      exec (.heatProfile n) s = .next (postStatus n .ok ((dropStaging 0x0302 k.val s).modHeater k fun h =>
        if h.run = .stopped then { h with profile := some (parseProfile o) }
        else { h with nextProfile := some (parseProfile o), late := s.stopWaits k }))) ∧
    -- heatStart (HEAT_START, R121) completes
    (∀ pr, s.request n 0x0303 p → s.ports[k].state = .running →
      s.heat[k].nextProfile.or s.heat[k].profile = some pr → pr.steps.all s.heat[k].plate.runs = true →
      s.heat[k].trip = none → exec (.heatStart n) s = .next (pendBoundary n 0x0303 p 1 s)) ∧
    -- heatStop (HEAT_STOP, R123) completes
    (s.request n 0x0304 p → s.ports[k].state = .running →
      exec (.heatStop n) s = .next (pendBoundary n 0x0304 p 1 s)) ∧
    -- heatStatus (HEAT_STATUS, R352) completes
    (s.request n 0x0305 p → ∃ resp : List Byte, exec (.heatStatus n) s = .next (postOk n resp s) ∧
      resp.length = 16 ∧
      u8 resp 0 = (if s.heat[k].trip.isSome then 2 else if s.heat[k].run = .stopped then 0 else 1) ∧
      u8 resp 1 = s.heat[k].step % 256 ∧ u8 resp 2 = (s.heat[k].trip.map tripCode).getD 0 ∧
      u8 resp 3 = boolNat s.heat[k].limit.isSome ∧
      slice resp 6 2 =
        toLE 2 (satNat 65535 (roundRat ((s.heat[k].vhsUv : Rat) * s.heat[k].ihtNa / 1000000000)).toNat) ∧
      (s.heat[k].ihtNa ≠ 0 → ∀ r : Rat, r = (s.heat[k].vhsUv : Rat) * 1000000 / s.heat[k].ihtNa →
        slice resp 8 4 = toLE 4 (satNat 0xFFFFFFFF (roundRat r).toNat) ∧
        slice resp 4 2 = toLEInt 2 (satInt 16 (roundRat
          (10 * (s.heat[k].plate.temperature r (s.heat[k].setTemp s.core.lt)).getD 0)))) ∧
      (s.heat[k].ihtNa = 0 → slice resp 4 2 = [0, 0] ∧ slice resp 8 4 = [0, 0, 0, 0]) ∧
      slice resp 12 4 = toLE 4 s.heat[k].skipped.toNat)

/-- A step that is due begins unless a window of a coupled port holds it back (R125 to R127): the
step, its first tick and the count of skipped steps are set and nothing waits any longer, and it
does not drive while the heaters are off; one held back leaves everything as it is. The end of an
iteration stops a ONCE_OFF profile, whose replacement starts at the next boundary, holds the
setpoint of a ONCE_HOLD one, puts a LOOP profile back to the start of its timeline, and lets a
replacement wait for a boundary if it is frame-locked and the tick is not 0 (R120, R124). A trip
that a check decided is in force and keeps the drive off until a new start, notice 0x0302 names
it, and the source of the heater group detects (R135). A limit that held for 64000 ticks raises
notice 0x0301 at most once in 6000 frames (R134). A feature with results in its span is passed to
the gas engine in the place of the one of its index with the same flags; a span without results
passes none (R131). -/
def Obligations.HeaterEvents : Prop :=
  ∀ (s : State) (k : PortId),
    -- heaterStepStart (HEATER_STEP_START, R125 to R127) completes
    (∀ d, s.heat[k].due = some d →
      ((s.heat[k].differs d && s.coupledCover s.heat[k].plate.coupled s.frame.tick) = true →
        exec (.heaterStepStart k) s = .next s) ∧
      ((s.heat[k].differs d && s.coupledCover s.heat[k].plate.coupled s.frame.tick) = false →
        ∃ t, exec (.heaterStepStart k) s = .next t ∧ t.heat[k].step = d ∧ t.heat[k].since = s.core.lt ∧
          t.heat[k].due = none ∧ t.heat[k].lead = none ∧
          t.heat[k].skipped = countUp s.heat[k].skipped
            (if s.heat[k].lead.isSome then d else d - s.heat[k].step - 1) ∧
          (s.therm.heatersOff = true → t.heat[k].drove = false) ∧
          t.heat[k].run = s.heat[k].run ∧ t.ports = s.ports ∧ t.mbox = s.mbox)) ∧
    -- profileIterationEnd (PROFILE_ITERATION_END, R120, R124) completes
    (∀ pr, s.heat[k].iterEnd = true → s.heat[k].profile = some pr →
      (pr.endMode = .onceOff → ∃ t, exec (.profileIterationEnd k) s = .next t ∧
        t.heat[k].run = .stopped ∧ t.heat[k].drove = false ∧ t.heat[k].iterEnd = false ∧
        t.heat[k].startNext = s.heat[k].nextProfile.isSome) ∧
      (pr.endMode = .onceHold → ∃ t, exec (.profileIterationEnd k) s = .next t ∧
        t.heat[k].run = .held ∧ t.heat[k].step = s.heat[k].step ∧ t.heat[k].iterEnd = false) ∧
      (pr.endMode = .loop → s.heat[k].nextProfile = none → ∃ t, exec (.profileIterationEnd k) s = .next t ∧
        t.heat[k].run = s.heat[k].run ∧ t.heat[k].step = 0 ∧ t.heat[k].pos = 0 ∧ t.heat[k].iterEnd = false) ∧
      (∀ nx, pr.endMode = .loop → s.heat[k].nextProfile = some nx → nx.locked = true → s.frame.tick ≠ 0 →
        ∃ t, exec (.profileIterationEnd k) s = .next t ∧ t.heat[k].run = .waiting ∧
          t.heat[k].nextProfile = some nx ∧ t.heat[k].iterEnd = false)) ∧
    -- heaterTrip (HEATER_TRIP, R135) completes
    (∀ c, s.heat[k].tripDue = some c → exec (.heaterTrip k) s =
      .next (raise (groupSource 36 k) (notice 0x0302 .ordinary (argB 0 k.val ||| argB 1 (tripCode c))
        (s.modHeater k fun h =>
          { h with trip := some c, tripped := true, tripDue := none, drove := false, probe := false })))) ∧
    -- heaterLimitNotice (HEATER_LIMIT_NOTICE, R134) completes
    (∀ l, s.heat[k].limit = some l → 64000 ≤ s.heat[k].limitTicks →
      (∀ a, s.heat[k].limitAge = some a → 6000 ≤ a) → exec (.heaterLimitNotice k) s =
        .next (notice 0x0301 .ordinary (argB 0 k.val ||| argB 1 (limitCode l))
          (s.modHeater k fun h => { h with limitAge := some 0 }))) ∧
    -- featureCapture (FEATURE_CAPTURE, R131) completes
    (∀ x, s.heat[k].spanEnd = some x →
      (x.within s.heat[k].results = [] → exec (.featureCapture k) s =
        .next (s.modHeater k fun h => { h with spanEnd := none })) ∧
      (x.within s.heat[k].results ≠ [] →
        ∃ t f, exec (.featureCapture k) s = .next t ∧ t.heat[k].spanEnd = none ∧
          t.gas.passed[k] =
            (x.feature, f) :: s.gas.passed[k].filter (fun e => e.1 != x.feature || e.2.flags != f.flags) ∧
          f.age = 0 ∧ f.value = ((x.within s.heat[k].results).map (·.value)).sum /
            (x.within s.heat[k].results).length))

/-- The last chunk of a valid GAUZE.PLAN for an EC or CAP port whose plan is not running loads the
plan and posts OK. GAUZE.START of a port that measures and that R144 and R145 admit waits as
PENDING for the second boundary after its doorbell, of which one has passed if the doorbell was
taken in the frame before. GAUZE.STOP of a running plan waits for the next boundary. GAUZE.CAP of
a port in the mode CAP sets C0 and the four humidity coefficients: at the next boundary in RUN, at
once elsewhere. Nothing else changes. -/
def Obligations.GauzeCommands : Prop :=
  ∀ (s : State) (n : SlotId) (p : List Byte) (k : PortId), u8 p 0 = k.val →
    -- gauzePlan (GAUZE_PLAN, R137) completes
    (∀ o : List Byte, s.lastChunk n 0x0401 k.val o → s.ports[k].mode.hasGauze = true →
      s.gauze[k].phase = .idle → tonePlanFault s.ports[k].mode.isEc s.ports[k].bias o = none →
      24 ≤ o.length → o.length ≤ 80 → o.length % 8 = 0 →
      exec (.gauzePlan n) s = .next (postStatus n .ok ((dropStaging 0x0401 k.val s).modGauzeAt k fun g =>
        { g with plan := some (parseTonePlan o) }))) ∧
    -- gauzeStart (GAUZE_START, R142) completes
    (s.request n 0x0402 p → (s.ports[k].state = .starting ∨ s.ports[k].state = .running) →
      s.ports[k].mode.hasGauze = true → s.gauzeRefusal k = none →
      (s.since s.mbox.slots[n].rung ≤ s.frame.tick →
        exec (.gauzeStart n) s = .next (pendBoundary n 0x0402 p 2 s)) ∧
      (s.frame.tick < s.since s.mbox.slots[n].rung →
        exec (.gauzeStart n) s = .next (pendBoundary n 0x0402 p 1 s))) ∧
    -- gauzeStop (GAUZE_STOP, R143) completes
    (s.request n 0x0403 p → s.gauze[k].phase ≠ .idle →
      exec (.gauzeStop n) s = .next (pendBoundary n 0x0403 p 1 s)) ∧
    -- gauzeCap (GAUZE_CAP, R156) completes
    (s.request n 0x0407 p → s.ports[k].mode = .cap → (∀ i < 3, u8 p (1 + i) = 0) →
      (∀ i < 5, F32.finite (f32At p (4 + 4 * i)) = true) →
      (s.core.dev = .run → exec (.gauzeCap n) s = .next (pendBoundary n 0x0407 p 1 s)) ∧
      (s.core.dev ≠ .run → exec (.gauzeCap n) s = .next (postStatus n .ok (s.modGauzeAt k fun g =>
        { g with cap := [f32At p 4, f32At p 8, f32At p 12, f32At p 16, f32At p 20] }))))

/-- GAUZE.READ of a tone answers its result's 16 bytes, an empty response where there is none, and
with tone 0xFF the relative humidity, its flags and its age. GAUZE.HEALTH operation 0 answers the
last report; operation 1 sets positive finite references and operation 2 finite spreads from 1.1
to 10.0 and the threshold, each posting OK. GAUZE.STATUS answers phase, channels in use and the
three counts. Nothing else changes but by the posting. -/
def Obligations.GauzeReadings : Prop :=
  ∀ (s : State) (n : SlotId) (p : List Byte) (k : PortId), u8 p 0 = k.val →
    -- gauzeRead (GAUZE_READ, R148) completes
    (s.request n 0x0404 p →
      (u8 p 1 ≤ 7 → s.gauze[k].results[u8 p 1]? = none → exec (.gauzeRead n) s = .next (postOk n [] s)) ∧
      (∀ r, u8 p 1 ≤ 7 → s.gauze[k].results[u8 p 1]? = some r → exec (.gauzeRead n) s = .next (postOk n
        (toLE 4 r.zmag.toNat ++ toLEInt 2 r.zph ++ toLE 2 r.k ++ toLE 4 r.imag.toNat ++
          toLE 2 (r.serial % 65536) ++ [flagsByte r.flags, boolByte r.measured]) s)) ∧
      (∀ v fl, u8 p 1 = 0xFF → s.gauze[k].rh = some (v, fl) → exec (.gauzeRead n) s = .next (postOk n
        (toLE 2 v ++ toLE 2 fl.toNat ++ toLE 2 (satNat 65535 s.gauze[k].rhAge)) s))) ∧
    -- gauzeHealth (GAUZE_HEALTH, R155) completes
    -- gauzeHealthSetReferences (GAUZE_HEALTH_SET_REFERENCES, R154) completes
    -- gauzeHealthSetSpreads (GAUZE_HEALTH_SET_SPREADS, R154) completes
    (s.request n 0x0405 p → (∀ i < 2, u8 p (2 + i) = 0) →
      (u8 p 1 = 0 → exec (.gauzeHealth n) s = .next (postOk n (s.gauze[k].health.getD {}).bytes s)) ∧
      (u8 p 1 = 1 → (∀ i < 3, F32.finite (f32At p (4 + 4 * i)) = true ∧ 0 < F32.toRat (f32At p (4 + 4 * i))) →
        exec (.gauzeHealthSetReferences n) s = .next (postStatus n .ok (s.modGauzeAt k fun g =>
          { g with refs := some { rs := f32At p 4, rct := f32At p 8, cdl := f32At p 12 }, refsWanted := false }))) ∧
      (u8 p 1 = 2 → (∀ i < 3, F32.finite (f32At p (4 + 4 * i)) = true ∧
          F32.le 0x3F8CCCCD (f32At p (4 + 4 * i)) = true ∧ F32.le (f32At p (4 + 4 * i)) 0x41200000 = true) →
        u16 p 16 ≤ 1000 → exec (.gauzeHealthSetSpreads n) s = .next (postStatus n .ok (s.modGauzeAt k fun g =>
          { g with spread := { rs := f32At p 4, rct := f32At p 8, cdl := f32At p 12 }
                   threshold := u16 p 16 })))) ∧
    -- gauzeStatus (GAUZE_STATUS, R353) completes
    (s.request n 0x0406 p → exec (.gauzeStatus n) s = .next (postOk n
      ([BitVec.ofNat 8 s.gauze[k].phase.code, BitVec.ofNat 8 (s.channelsUsed none)] ++
        toLE 2 s.gauze[k].completed.toNat ++ toLE 4 s.gauze[k].discarded.toNat ++
        toLE 4 s.gauze[k].skipped.toNat) s))

/-- A lead-in that has run its LEAD base periods turns into integration (R142). An integration that
has run its M periods gives one tone result per tone of the plan, of the current and voltage found
in the conversions within it, with the next SERIAL, counts as completed, and starts the next
integration where it ended, or discards that one where R147 does (R148); a run that its boundary
has ended gives the results it had still to give; only the gauze of that port changes. A plan of
COUNT integrations ends after them (R142). A fall ends after 64 ticks, and a waiting GAUZE.STOP
completes with OK (R143). A due fit whose residual is above 5 % or that leaves the bounds of R153
reports status 1 or 2 and keeps the previous parameters and HI; another reports its parameters,
with status 3 and HI 0 while the port has no references, else with status 0 and the HI of R154.
Adaptation that differs from the NVM is stored at most once in 360000 frames while NVM writes are
allowed (R224). -/
def Obligations.GauzeEvents : Prop :=
  ∀ (s : State) (k : PortId),
    -- gauzeLeadInEnd (GAUZE_LEAD_IN_END, R142) completes
    (s.gauze[k].phase = .lead → (s.tonePlan k).lead ≤ s.gauze[k].periods s.core.lt (s.tonePlan k).f0 →
      exec (.gauzeLeadInEnd k) s = .next (s.modGauzeAt k fun g => { g with phase := .integ })) ∧
    -- gauzeIntegrationEnd (GAUZE_INTEGRATION_END, R148) completes
    (s.gauze[k].ended = none → s.gauze[k].phase = .integ →
      s.gauze[k].intStart + (s.tonePlan k).m ≤ s.gauze[k].periods s.core.lt (s.tonePlan k).f0 →
      ((s.tonePlan k).count = 0 ∨ s.gauze[k].serial < (s.tonePlan k).count) →
      ∃ g : Gauze, exec (.gauzeIntegrationEnd k) s = .next (s.modGauzeAt k fun _ => g) ∧
        g.serial = s.gauze[k].serial + 1 ∧ g.completed = countUp s.gauze[k].completed 1 ∧
        (s.gauze[k].spoilt = false → g.intStart = s.gauze[k].intStart + (s.tonePlan k).m ∧
          g.discarded = s.gauze[k].discarded) ∧
        (s.gauze[k].spoilt = true → ((s.tonePlan k).count = 0 ∨ g.serial < (s.tonePlan k).count) →
          g.discarded = countUp s.gauze[k].discarded 1 ∧
          g.intStart = s.gauze[k].periods s.core.lt (s.tonePlan k).f0 + 1) ∧ g.phase = .integ ∧ g.spoilt = false ∧
        g.results = (s.tonePlan k).tones.map (fun x =>
          toneResult k (s.tonePlan k) g.serial (s.gauze[k].integrationFlags (s.tonePlan k)) x
            (s.toneFound k s.gauze[k] x)) ∧
        g.fitDue = (s.gauze[k].fitDue || (s.tonePlan k).fit)) ∧
    (∀ r, s.gauze[k].ended = some r → (s.gauze[k].phase = .integ →
        s.gauze[k].periods s.core.lt (s.tonePlan k).f0 < s.gauze[k].intStart + (s.tonePlan k).m) →
      ∃ g : Gauze, exec (.gauzeIntegrationEnd k) s = .next (s.modGauzeAt k fun _ => g) ∧
        g.ended = none ∧ g.run = s.gauze[k].run ∧ g.phase = s.gauze[k].phase ∧
        g.completed = countUp s.gauze[k].completed 1 ∧ g.fitDue = (s.gauze[k].fitDue || (s.tonePlan k).fit) ∧
        g.results = (s.tonePlan k).tones.map (fun x => toneResult k (s.tonePlan k) (r.serial + 1)
          ((s.gauze[k].withRun r).integrationFlags (s.tonePlan k)) x (s.toneFound k (s.gauze[k].withRun r) x))) ∧
    -- gauzePlanEnd (GAUZE_PLAN_END, R142) completes
    (s.gauze[k].phase = .integ → 0 < (s.tonePlan k).count → (s.tonePlan k).count ≤ s.gauze[k].serial →
      exec (.gauzePlanEnd k) s = .next (s.modGauzeAt k fun g => { g with phase := .idle, withheld := false })) ∧
    -- gauzeFallEnd (GAUZE_FALL_END, R143) completes
    (s.gauze[k].phase = .fall → 64 ≤ s.since s.gauze[k].fallFrom →
      exec (.gauzeFallEnd k) s = .next (completeWhere (·.wait == .gauzeFall k) .ok
        (s.modGauzeAt k fun g => { g with phase := .idle, withheld := false }))) ∧
    -- cellHealthFit (CELL_HEALTH_FIT, R152 to R155) completes
    (s.gauze[k].fitDue = true → s.reeveActive = true →
      ∃ t h, exec (.cellHealthFit k) s = .next t ∧ t.gauze[k].fitDue = false ∧ t.gauze[k].health = some h ∧
        h.residual = (roundRat (10000 * (s.cellFound k).2)).toNat ∧
        h.flags = flagUnion (s.gauze[k].results.map (·.flags)) ∧
        (5 < 100 * (s.cellFound k).2 →
          h.status = 1 ∧ h.cell = (s.gauze[k].health.getD {}).cell ∧ h.hi = (s.gauze[k].health.getD {}).hi) ∧
        (100 * (s.cellFound k).2 ≤ 5 → cellOk (s.cellFound k).1 = false →
          h.status = 2 ∧ h.cell = (s.gauze[k].health.getD {}).cell ∧ h.hi = (s.gauze[k].health.getD {}).hi) ∧
        (100 * (s.cellFound k).2 ≤ 5 → cellOk (s.cellFound k).1 = true → h.cell = (s.cellFound k).1 ∧
          (s.gauze[k].refs = none → s.gauze[k].refsWanted = false → h.status = 3 ∧ h.hi = 0) ∧
          (∀ r, s.gauze[k].refs = some r → s.gauze[k].refsWanted = false →
            h.status = 0 ∧ h.hi = healthIndex (s.cellFound k).1 r s.gauze[k].spread))) ∧
    -- adaptStore (ADAPT_STORE, R224) completes
    (s.reeveActive = true → s.nvmAllowed = true → 360000 ≤ s.gas.adapt[k].sinceStore →
      s.gas.adapt[k].stored ≠ some (s.gas.adapt[k].a, s.gas.adapt[k].periods) →
      let x : Adapt := { s.gas.adapt[k] with
        stored := some (s.gas.adapt[k].a, s.gas.adapt[k].periods), sinceStore := 0 }
      exec (.adaptStore k) s = .next (s.modGas fun g => { g with adapt := g.adapt.set k x }))

/-- The last chunk of a valid GAS.MODEL (R215) or GAS.MATRIX (R216) object, and a GAS.CHANNEL with
fields in range, wait in RUN for the next boundary as PENDING; outside RUN they take effect at
once and post OK, a GAS.MODEL whose AUX sources give the quantities it names (R489): the port's
record with its ADAPT bit, all 256 coefficients, the channel's name, offset, scale, series and
RING; no other port's record and no other channel changes. GAS.ENV sets the host's temperature or
humidity with age 0 and posts OK. -/
def Obligations.GasCommands : Prop :=
  ∀ (s : State) (n : SlotId) (p : List Byte) (k : PortId), u8 p 0 = k.val →
    -- gasModel (GAS_MODEL, R226) completes
    (∀ o : List Byte, s.lastChunk n 0x0701 k.val o → gasModelFault o = none →
      (o.length = 120 ∨ o.length = 636) →
      (s.core.dev = .run → exec (.gasModel n) s =
        .next (pendBoundary n 0x0701 (BitVec.ofNat 8 k.val :: o) 1 (dropStaging 0x0701 k.val s))) ∧
      (s.core.dev ≠ .run → s.quantityFault k o = none → ∃ g : Gas, exec (.gasModel n) s =
          .next (postStatus n .ok ((dropStaging 0x0701 k.val s).modGas fun _ => g)) ∧
        g.models = s.gas.models.set k o ∧ g.adapt[k].frozen = (u8 o 4 == 0) ∧
        g.adapt[k].a = s.gas.adapt[k].a ∧ g.matrix = s.gas.matrix ∧ g.channels = s.gas.channels ∧
        g.values = s.gas.values ∧ g.outs = s.gas.outs)) ∧
    -- gasMatrix (GAS_MATRIX, R216) completes
    (∀ o : List Byte, s.lastChunk n 0x0702 0 o → s.matrixFault o = none → o.length = 1024 →
      (s.core.dev = .run → exec (.gasMatrix n) s =
        .next (pendBoundary n 0x0702 o 1 (dropStaging 0x0702 0 s))) ∧
      (s.core.dev ≠ .run → ∃ g : Gas, exec (.gasMatrix n) s =
          .next (postStatus n .ok ((dropStaging 0x0702 0 s).modGas fun _ => g)) ∧
        g.matrix = (List.range 256).map (fun i => f32At o (4 * i)) ∧ g.models = s.gas.models ∧
        g.channels = s.gas.channels ∧ g.values = s.gas.values ∧ g.outs = s.gas.outs)) ∧
    -- gasChannel (GAS_CHANNEL, R218) completes
    (s.request n 0x0703 p → u8 p 1 ≤ 3 → u8 p 2 ≤ 4 → u8 p 3 ≤ 1 →
      (slice p 4 8).findIdx? (fun b => b.getLsbD 7) = none → F32.finite (f32At p 12) = true →
      (s.core.dev = .run → exec (.gasChannel n) s = .next (pendBoundary n 0x0703 p 1 s)) ∧
      (s.core.dev ≠ .run → ∃ g : Gas, exec (.gasChannel n) s = .next (postStatus n .ok (s.modGas fun _ => g)) ∧
        g.channels = s.gas.channels.set k
          { name := slice p 4 8, offset := f32At p 12, rscale := Fin.ofNat 4 (u8 p 1)
            series := Fin.ofNat 5 (u8 p 2), ring := u8 p 3 == 1 } ∧
        g.models = s.gas.models ∧ g.matrix = s.gas.matrix ∧ g.outs = s.gas.outs)) ∧
    -- gasEnv (GAS_ENV, R226) completes
    (s.request n 0x0704 p → u8 p 1 = 0 →
      (u8 p 0 = 0 → exec (.gasEnv n) s =
        .next (postStatus n .ok (s.modGas fun g => { g with hostT := some (s16 p 2, 0) }))) ∧
      (u8 p 0 = 1 → exec (.gasEnv n) s =
        .next (postStatus n .ok (s.modGas fun g => { g with hostH := some (s16 p 2, 0) }))))

/-- GAS.READ answers the five series of a channel, 11 bytes each: value, flags, coverage, changes.
GAS.STATUS answers the misses and the masks of ports without a value, with a carried value, on the
environment fallback and with frozen adaptation. GAS.ADAPT with operation 0 answers the factor,
its extremes, the ADAPT bit and the limits; with 1 and 2 it freezes, with which a change that
waits is dropped, or releases the port's adaptation first and answers the same. Nothing else
changes but by the posting. -/
def Obligations.GasReadings : Prop :=
  ∀ (s : State) (n : SlotId) (p : List Byte) (k : PortId), u8 p 0 = k.val →
    -- gasRead (GAS_READ, R219) completes
    (s.request n 0x0705 p → ∃ resp, exec (.gasRead n) s = .next (postOk n resp s) ∧
      resp = s.gas.outs[k].toList.flatMap (fun x =>
        toLEInt 4 x.value ++ toLE 2 x.flags.toNat ++ toLE 4 x.coverage ++ [BitVec.ofNat 8 x.changes])) ∧
    -- gasStatus (GAS_STATUS, R356) completes
    (∀ q, s.request n 0x0706 q → exec (.gasStatus n) s = .next (postOk n
      (toLE 4 s.gas.missed.toNat ++ toLE 2 (portMask fun i => s.gas.values[i].missing) ++
        toLE 2 (portMask fun i => u8 (s.gas.model i) 0 != 0 && hasFlag s.gas.values[i].out Flag.carried) ++
        toLE 2 (portMask fun i => s.gas.envT[i].fallback || s.gas.envH[i].fallback) ++
        toLE 2 (portMask fun i => s.ports[i].mode.isEc && s.gas.adapt[i].frozen)) s)) ∧
    -- gasAdaptRead (GAS_ADAPT_READ, R225) completes
    -- gasAdaptFreeze (GAS_ADAPT_FREEZE, R225) completes
    -- gasAdaptRelease (GAS_ADAPT_RELEASE, R225) completes
    (s.request n 0x0707 p →
      (u8 p 1 = 0 → exec (.gasAdaptRead n) s = .next (postOk n s.gas.adapt[k].bytes s)) ∧
      (u8 p 1 = 1 → ∃ t, exec (.gasAdaptFreeze n) s = .next (postOk n t.gas.adapt[k].bytes t) ∧
        t.gas.adapt[k] = { s.gas.adapt[k] with frozen := true, next := none } ∧
        t = s.modGas fun _ => { s.gas with adapt := s.gas.adapt.set k t.gas.adapt[k] }) ∧
      (u8 p 1 = 2 → ∃ t, exec (.gasAdaptRelease n) s = .next (postOk n t.gas.adapt[k].bytes t) ∧
        t.gas.adapt[k] = { s.gas.adapt[k] with frozen := false } ∧
        t = s.modGas fun _ => { s.gas with adapt := s.gas.adapt.set k t.gas.adapt[k] }))

/-- In tick 1 of a measuring frame the computation that is due is made once: nothing is due any
longer, the run of misses ends with its count added, and models, matrix and channels stay (R206,
R207). The reeve counts the misses of a run once, with notice 0x0701 at the first (R207). An
overtop or settle decided in an earlier tick is taken (R233, R236): OUT, its direction and the
latch are set, the notice of R306, with the comparator, the event and its direction, the flag word
and the value, is raised unless the action is none, and the LEVEE cause from action 2 on. In the
tick of a boundary at which the reeve applies a new record of the comparator no overtop is taken
(R243), a settle is (the model's reading, log 64). -/
def Obligations.GasAndLeveeEvents : Prop :=
  ∀ s : State,
    -- gasComputation (GAS_COMPUTATION, R206) completes
    (s.reeveActive = true → s.measuring = true → s.frame.tick = 1 → s.gas.due = true →
      ∃ t, exec .gasComputation s = .next t ∧ t.gas.due = false ∧ t.gas.missRun = none ∧
        t.gas.oneShot = false ∧ t.gas.models = s.gas.models ∧ t.gas.matrix = s.gas.matrix ∧
        t.gas.channels = s.gas.channels ∧ t.ports = s.ports ∧ t.mbox = s.mbox ∧
        (s.gas.missOld = [] → ∀ f m told, s.gas.missRun = some (f, m, told) →
          t.gas.missed = countUp s.gas.missed m)) ∧
    -- gasComputationMiss (GAS_COMPUTATION_MISS, R207) completes
    (∀ f m told, s.reeveActive = true → s.gas.missOld = [] → s.gas.missRun = some (f, m + 1, told) →
      ∃ t, exec .gasComputationMiss s = .next t ∧ t.gas.missed = countUp s.gas.missed (m + 1) ∧
        t.gas.missRun = some (f, 0, true) ∧ (told = true → t.rings = s.rings) ∧
        (told = false → t = notice 0x0701 .ordinary (argW 4 f.toNat)
          (s.modGas fun g => { g with missed := countUp g.missed (m + 1), missRun := some (f, 0, true) }))) ∧
    -- leveeOvertop (LEVEE_OVERTOP, R233) completes
    -- leveeSettle (LEVEE_SETTLE, R233) completes
    (∀ (k : Fin 48) (e : LeveeEvent) (rest : List LeveeEvent), s.measuring = true →
      s.levees[k].decided = e :: rest → e.at_ ≠ s.core.lt → (e.overtop = true → s.recordDue k = false) →
      ∃ t, (e.overtop = true → exec (.leveeOvertop k) s = .next t ∧ exec (.leveeSettle k) s = .next s) ∧
        (e.overtop = false → exec (.leveeSettle k) s = .next t ∧ exec (.leveeOvertop k) s = .next s) ∧
        t.levees = s.levees.set k { s.levees[k] with out := e.overtop, above := e.above, decided := rest
                                                     latched := s.levees[k].latched || e.overtop } ∧
        (s.levees[k].action = 0 → t.rings = s.rings) ∧
        (s.levees[k].action ≠ 0 → t.rings =
          (notice 0x0801 (if 3 ≤ s.levees[k].action then .alarm else .ordinary) (argB 0 k.val |||
            argB 1 (boolNat (!e.overtop) + 4 * boolNat e.above) ||| argH 2 e.flags.toNat ||| argWi 4 e.value) s).rings) ∧
        (2 ≤ s.levees[k].action → t.bus.attn.getLsbD 0 = true)) ∧
    (∀ k : Fin 48, s.reeveActive = true → s.recordDue k = true → exec (.leveeOvertop k) s = .next s)

/-- The last chunk of a SEQ.LOAD without held objects whose tables R164, R196 and R144 allow waits in
RUN for the next boundary, and with the converters stopped outside RUN replaces the table at once;
what those rules are checked against is the state that the commands already PENDING will leave.
SEQ.MODE, if nothing refuses it, waits in RUN for the boundary and elsewhere selects the mode for
the next entry to RUN. SEQ.URGENT in plain weave with a warm reference and an open slot is taken
for the first unused one of the next tick; in twill or without an open slot it is dropped and
counted with BUSY, and with a cold reference or held converters it completes with REF_COLD.
SEQ.REF switches the reference outside RUN and refuses to switch it off in RUN. SEQ.START waits
for the boundary or completes with REF_COLD. SEQ.STATUS answers its bytes and with operation 1
zeroes the counts. -/
def Obligations.SeqCommands : Prop :=
  ∀ (s : State) (n : SlotId) (p : List Byte),
    -- seqLoad (SEQ_LOAD, R170) completes
    (∀ (k : Nat) (o : List Byte), s.lastChunk n 0x0501 k o → recordsFault o = none → k < 3 → o.length % 8 = 0 →
      (if k = 0 then 8 ≤ o.length ∧ o.length ≤ 256 else if k = 1 then o.length ≤ 256 else o.length = 8) →
      (∀ g ∈ s.mbox.staging, g.op = 0x0501 → g.sel = k) → (s.tablesNext.take k o).broken = false →
      overLoad s.settingNext s.twillNext (s.tablesNext.take k o) = false →
      s.gauzeBroken s.twillNext (s.tablesNext.take k o) = false →
      (s.core.dev = .run → exec (.seqLoad n) s = .next (pendBoundary n 0x0501 (packLoad [(k, o)]) 1
        (s.modMbox fun m => { m with staging := m.staging.filter (·.op != 0x0501) }))) ∧
      (s.core.dev ≠ .run → s.seq.running = false → exec (.seqLoad n) s = .next (postStatus n .ok
        ((s.modMbox fun m => { m with staging := m.staging.filter (·.op != 0x0501) }).modSeq fun q =>
          { q with tables := s.seq.tables.take k o })))) ∧
    -- seqMode (SEQ_MODE, R174) completes
    (s.request n 0x0502 p → seqModeRefusal p s.tablesNext s = none →
      (s.core.dev = .run → exec (.seqMode n) s = .next (pendBoundary n 0x0502 p 1 s)) ∧
      (s.core.dev ≠ .run → exec (.seqMode n) s =
        .next (postStatus n .ok (s.modSeq fun q => { q with twillNext := u8 p 0 == 1 })))) ∧
    -- seqUrgent (SEQ_URGENT, R173) completes
    (s.request n 0x0503 p → urgentFault p s = none →
      (s.seq.twill = true → exec (.seqUrgent n) s =
        .next (postStatus n .busy (s.modSeq fun q =>
          { q with dropped := countUp q.dropped 1, urgent := q.urgent.filter (·.slot != n) }))) ∧
      (s.seq.twill = false → (s.refWarm && !s.convHeld) = false →
        exec (.seqUrgent n) s = .next (postStatus n .refCold s)) ∧
      (s.seq.twill = false → s.refWarm = true → s.convHeld = false →
        (s.openSlots (s.core.lt + 1))[s.seq.urgent.countP fun u => u.taken == s.core.lt]? = none →
        exec (.seqUrgent n) s = .next (postStatus n .busy (s.modSeq fun q =>
          { q with dropped := countUp q.dropped 1, urgent := q.urgent.filter (·.slot != n) }))) ∧
      (∀ c, s.seq.twill = false → s.refWarm = true → s.convHeld = false →
        (s.core.dev = .run → s.seq.running = true) →
        (s.openSlots (s.core.lt + 1))[s.seq.urgent.countP fun u => u.taken == s.core.lt]? = some c →
        exec (.seqUrgent n) s = .next ((s.modSeq fun q =>
            { q with urgent := q.urgent ++ [{ slot := n, taken := s.core.lt, sample := c }] }).modMbox fun m =>
          { m with pend := m.pend ++
              [{ slot := n, op := 0x0503, payload := p, wait := .urgent, since := s.core.lt }] }))) ∧
    -- seqRef (SEQ_REF, R183) completes
    (s.request n 0x0504 p →
      (s.core.dev = .run → u8 p 0 = 0 → exec (.seqRef n) s = .next (postStatus n .wrongState s)) ∧
      (s.core.dev = .run → u8 p 0 = 1 → exec (.seqRef n) s = .next (postStatus n .ok s)) ∧
      (s.core.dev ≠ .run → u8 p 0 = 0 → exec (.seqRef n) s =
        .next (postStatus n .ok (s.modCore fun c => { c with refOn := false }))) ∧
      (s.core.dev ≠ .run → u8 p 0 = 1 → s.core.refOn = false → exec (.seqRef n) s =
        .next (postStatus n .ok (s.modCore fun c => { c with refOn := true, refSince := c.lt, refEnabled := c.lt })))) ∧
    -- seqStart (SEQ_START, R184) completes
    (s.request n 0x0505 p →
      ((s.refWarm && !s.convHeld) = true → exec (.seqStart n) s =
        .next (pendBoundary n 0x0505 p 1 (s.modSeq fun q => { q with startAsked := true }))) ∧
      ((s.refWarm && !s.convHeld) = false → exec (.seqStart n) s = .next (postStatus n .refCold s))) ∧
    -- seqStatus (SEQ_STATUS, R354) completes
    (s.request n 0x0506 p →
      (u8 p 0 = 0 → exec (.seqStatus n) s = .next (postOk n s.seqStatus s)) ∧
      (u8 p 0 = 1 → exec (.seqStatus n) s = .next ((postOk n s.seqStatus s).modSeq fun q =>
        { q with dropped := 0, lost := 0, twillNoWin := 0, seam := { q.seam with fails := 0 } })))

/-- A WEAVE.SET with fields in range whose load fits waits in RUN for the next boundary with the
setting held at its lane; outside RUN it is the lane's setting at once, the lane is reset and OK
is posted; one whose load R196 refuses completes with BUSY and changes nothing. The last chunk of
a WEAVE.COEF whose coefficients are 24-bit numbers and fit the coefficient memory becomes the
lane's staged set. WEAVE.PHASE sets the phase delay. WEAVE.SYNC with 0 completes at the release of
SYNC_N, driven low in the ticks after its doorbell, or at once if that has passed; one whose
doorbell the stalled reeve left unserved drives the pin from its execution (log 68); with 1 or 2
it turns the response on or off. -/
def Obligations.WeaveCommands : Prop :=
  ∀ (s : State) (n : SlotId) (p : List Byte) (l : LaneId), u8 p 0 = l.val →
    -- weaveSet (WEAVE_SET, R201) completes
    (s.request n 0x0601 p → weaveSetFault p s = none →
      let st := weaveSetting p (s.lanes[l].staged.getD [])
      let left := if u8 p 1 = 0xFF then none else s.lanes[l].staged
      (overLoad (fun k => if k = l then st else s.settingNext k) s.twillNext s.tablesNext = true →
        exec (.weaveSet n) s = .next (postStatus n .busy s)) ∧
      (overLoad (fun k => if k = l then st else s.settingNext k) s.twillNext s.tablesNext = false →
        (s.core.dev = .run → exec (.weaveSet n) s = .next (pendBoundary n 0x0601 p 1 (s.modLane l fun x =>
          { x with pendSets := x.pendSets.filter (·.slot != n) ++ [{ slot := n, setting := st, ring := u8 p 2 == 1 }]
                   staged := left }))) ∧
        (s.core.dev ≠ .run → exec (.weaveSet n) s = .next (postStatus n .ok (s.modLane l fun x =>
          ({ x with setting := st, ring := u8 p 2 == 1, pendSets := x.pendSets.filter (·.slot != n),
                     staged := left }).reset
            s.core.lt .plain))))) ∧
    -- weaveCoef (WEAVE_COEF, R197) completes
    (∀ o : List Byte, s.lastChunk n 0x0602 l.val o → 4 ≤ o.length → o.length ≤ 2560 → o.length % 4 = 0 →
      coefFault o = none → s.coefHeld l + o.length / 4 ≤ 8192 →
      exec (.weaveCoef n) s = .next (postStatus n .ok ((dropStaging 0x0602 l.val s).modLane l fun x =>
        { x with staged := some (coefList o) }))) ∧
    -- weavePhase (WEAVE_PHASE, R203) completes
    (s.request n 0x0605 p → u8 p 1 = 0 → u16 p 2 ≤ 1023 →
      exec (.weavePhase n) s = .next (postStatus n .ok (s.modLane l fun x => { x with phase := u16 p 2 }))) ∧
    -- weaveSync (WEAVE_SYNC, R202) completes
    -- weaveSyncResponse (WEAVE_SYNC_RESPONSE, R202) completes
    (s.request n 0x0604 p →
      (u8 p 0 = 0 → s.mbox.slots[n].early = false → exec (.weaveSync n) s =
        .next ((s.modPins fun x => { x with syncFrom := some s.core.lt }).modMbox fun m =>
          { m with pend := m.pend ++
              [{ slot := n, op := 0x0604, payload := p, wait := .syncRelease, since := s.core.lt }] })) ∧
      (u8 p 0 = 0 → s.mbox.slots[n].early = true →
        (∀ a, s.pins.syncFrom = some a → exec (.weaveSync n) s = .next (s.modMbox fun m => { m with pend := m.pend ++
          [{ slot := n, op := 0x0604, payload := p, wait := .syncRelease, since := s.core.lt }] })) ∧
        (s.pins.syncFrom = none → exec (.weaveSync n) s = .next (postStatus n .ok s))) ∧
      (u8 p 0 = 1 ∨ u8 p 0 = 2 → exec (.weaveSyncResponse n) s =
        .next (postStatus n .ok (s.modPins fun x => { x with syncResponse := u8 p 0 == 1 }))))

/-- WEAVE.DELAY answers the lane's span, total decimation, settling count and group delay, and whether
its response is symmetric or has no DC. WEAVE.STATUS answers filter number, RING, the outputs left
to settle and inputs to discard, the SAT count, the load and the SYNC response, and with operation
1 zeroes the SAT count. WEAVE.READ from offset 0 takes a snapshot of the weave's coefficients with
the frame number and answers its length, the offset, that frame and the first 48 bytes (R350). -/
def Obligations.WeaveReadings : Prop :=
  ∀ (s : State) (n : SlotId) (p : List Byte) (l : LaneId), u8 p 0 = l.val →
    -- weaveDelay (WEAVE_DELAY, R198) completes
    (s.request n 0x0603 p → exec (.weaveDelay n) s = .next (postOk n
      (toLE 4 s.lanes[l].setting.span ++ toLE 4 s.lanes[l].setting.dt ++ toLE 2 s.lanes[l].setting.settle ++
        toLEInt 4 (s.lanes[l].setting.delay.getD 0) ++
        [BitVec.ofNat 8 (bits [s.lanes[l].setting.response == s.lanes[l].setting.response.reverse,
          s.lanes[l].setting.delay.isNone])]) s)) ∧
    -- weaveStatus (WEAVE_STATUS, R204) completes
    (s.request n 0x0606 p → ∃ resp : List Byte,
      resp = [BitVec.ofNat 8 ((s.lanes[l].setting.weave.map (·.val)).getD 0xFF), boolByte s.lanes[l].ring] ++
        toLE 2 s.lanes[l].settleLeft ++ toLE 2 s.lanes[l].discard ++ toLE 4 s.lanes[l].satCount.toNat ++
        toLE 2 (s.seq.tables.load s.settingOf s.seq.twill) ++ [boolByte s.pins.syncResponse] ∧
      (u8 p 1 = 0 → exec (.weaveStatus n) s = .next (postOk n resp s)) ∧
      (u8 p 1 = 1 → exec (.weaveStatus n) s =
        .next ((postOk n resp s).modLane l fun x => { x with satCount := 0 }))) ∧
    -- weaveRead (WEAVE_READ, R195) completes
    (∀ w q, s.request n 0x0607 q → u16 q 0 = w → w < 24 → u16 q 2 = 0 → u8 q 4 ≤ 1 → (∀ i < 3, u8 q (5 + i) = 0) →
      weaveObject w ≠ [] → ∃ t, exec (.weaveRead n) s = .next (postOk n
          (toLE 2 (weaveObject w).length ++ toLE 2 0 ++ toLE 4 s.frame.number.toNat ++ (weaveObject w).take 48) t) ∧
        t = takeSnap 0x0607 w (weaveObject w) s)

/-- In plain weave a conversion that its converter's table has there completes (R168): one of an
internal channel enters its lane as 64 times its code with its flags, or nothing where it has no
lane; one of a live current signal is kept as the sample of its tick and enters no lane (R94,
R95). A conversion the table does not have there changes nothing. A window that has ended with
both samples completes (R94): it is no longer waiting, and the BREACH and UNGUARDED counts follow
its flags. The low-signal step takes the next range down for the next plan (R103). The first clip
in a window fixes the sign of its result (the model's reading, log 31); a clip resets the
integrator in the next tick and marks conversions up to the fourth tick after it (R98). An urgent
conversion posts code, flags and the frame, tick and clock of its sampling instant (R173). A self-
test cycle whose three swatches are there is judged, and a limit missed in two cycles running
raises source 40 (Warp) or 41 (Weft) (R167). -/
def Obligations.ConversionsAndWindows : Prop :=
  ∀ s : State,
    -- conversionComplete (CONVERSION_COMPLETE, R168) completes
    (∀ (c : ConvIn) (e : Entry), s.measuring = true → s.seq.running = true → s.seq.twill = false →
      s.convEntry c = some e →
      (s.onSchedule e c = false → exec (.conversionComplete c) s = .next s) ∧
      (∀ l, s.onSchedule e c = true → e.cls = .internal → e.lane = some l →
        exec (.conversionComplete c) s = .next (laneInput l (s.codeOf c.conv e c.v c.err * 64)
          (codeOvr (s.codeOf c.conv e c.v c.err) ||| s.convFlags e (s.convBegan e c)) s)) ∧
      (s.onSchedule e c = true → e.cls = .internal → e.lane = none →
        exec (.conversionComplete c) s = .next s) ∧
      (s.onSchedule e c = true → e.cls = .port → s.entryLive e = true → e.sig < 2 →
        s.ports[e.port].inputs[(Fin.ofNat 2 e.sig)].lastSample.any (·.1 == s.core.lt) = false →
        ∃ t, exec (.conversionComplete c) s = .next t ∧ t.lanes = s.lanes ∧ t.rings = s.rings ∧
          t.ports[e.port].inputs[(Fin.ofNat 2 e.sig)].lastSample = some (s.core.lt,
            { np := c.np, v := codeVolts e.gain (s.codeOf c.conv e c.v c.err)
              clk := s.convClock e c, stale := s.seamStale }))) ∧
    -- windowComplete (WINDOW_COMPLETE, R94) completes
    (∀ (p : PortId) (i : Fin 2) (o : OpenWin) (code : Int), s.ports[p].inputs[i].doneWin = some o →
      s.measuring = true → s.ports[p].measures = true → i.val < s.ports[p].mode.inputs →
      s.windowCode p i o = some code → ∃ t, exec (.windowComplete p i) s = .next t ∧
        t.ports[p].inputs[i].doneWin = none ∧
        t.ports[p].breach = countUp s.ports[p].breach (boolNat (hasFlag (s.windowFlags p i o code) Flag.breach)) ∧
        t.ports[p].unguardedCount =
          countUp s.ports[p].unguardedCount (boolNat (hasFlag (s.windowFlags p i o code) Flag.unguarded)) ∧
        t.ports[p].state = s.ports[p].state ∧ t.mbox = s.mbox) ∧
    -- lowSignalStepDown (LOW_SIGNAL_STEP_DOWN, R103) completes
    (∀ (p : PortId) (i : Fin 2), s.lowSignalDue p i = true → exec (.lowSignalStepDown p i) s =
      .next (s.modInput p i fun x =>
        { x with nextRange := some (x.range - 1), lowOk := false, lowRun := 0 })) ∧
    -- clipDetected (CLIP_DETECTED, R98) completes
    (∀ (p : PortId) (i : Fin 2) (b : Bool), s.measuring = true → s.ports[p].driven = true →
      i.val < s.ports[p].mode.inputs → s.converts p i = true → ∃ t, exec (.clipDetected p i b) s = .next t ∧
        t.ports[p].inputs[i].resetNext = true ∧ t.seq.neighbourTo = some (s.core.lt + 4) ∧
        (∀ o, s.ports[p].inputs[i].openWin = some o →
          t.ports[p].inputs[i].openWin = some { o with clip := o.clip.or (some b) }) ∧
        (∀ (q : PortId) (j : Fin 2), ¬ (q = p ∧ j = i) → j.val < s.ports[q].mode.inputs →
          t.ports[q].inputs[j].neighbourTo = some (s.core.lt + 4))) ∧
    -- urgentConversionDone (URGENT_CONVERSION_DONE, R173) completes
    (∀ (n : SlotId) (v err : Rat) (u : Urgent) (x : Pend), s.seq.urgent.find? (·.slot == n) = some u →
      s.mbox.pend.find? (fun x => x.slot == n && x.wait == .urgent) = some x →
      (u.sample + 21) / 960 ≤ s.core.lt.toNat →
      ∃ resp : List Byte, exec (.urgentConversionDone n v err) s = .next (postOk n resp
          (drawTone (urgentEntry x.payload) (s.modSeq fun q => { q with
            urgent := q.urgent.filter (·.slot != n)
            served := u.sample :: q.served.filter fun c => decide (s.core.lt.toNat ≤ c / 960 + 1) }))) ∧
        resp.length = 14 ∧ slice resp 0 4 = toLEInt 4 (s.codeOf .weft (urgentEntry x.payload) v err) ∧
        slice resp 4 2 = toLE 2 (codeOvr (s.codeOf .weft (urgentEntry x.payload) v err) |||
          s.convFlags (urgentEntry x.payload) (u.taken + 1)).toNat ∧
        slice resp 6 4 = toLE 4 (s.countBack (s.core.lt.toNat - u.sample / 960)).1.toNat ∧
        slice resp 10 2 = toLE 2 (s.countBack (s.core.lt.toNat - u.sample / 960)).2 ∧
        slice resp 12 2 = toLE 2 (u.sample % 960)) ∧
    -- converterSelfTest (CONVERTER_SELF_TEST, R167) completes
    (∀ (c : Conv) (g : Fin 5) (l : List (Fin 3 × Int)), s.seq.twill = false → s.seq.running = true →
      s.core.reeveRuns = true → s.seq.tests[convIdx c].cycle g = some l →
      ∃ t, exec (.converterSelfTest c g) s = .next t ∧
        (∀ w code, (w, code) ∈ l → swatchBad c g w code = true →
          (g, w) ∈ t.seq.tests[convIdx c].failed ∧
          ((g, w) ∈ s.seq.tests[convIdx c].failed →
            t.faults.src[(if c = .warp then 40 else 41 : Source)].det = true)) ∧
        ((∀ w code, (w, code) ∈ l → swatchBad c g w code = false) → t.faults = s.faults))

/-- A seam that converges in twill raises notice 0x0502 (R179), and one that ages while converged
0x0501 (R180). A training run ends after 64 ticks: with the spurs met the seam is trained and no
longer aged, and its lane due for a reset; without, the failure is counted (R181). A departure
holds the rail and makes its source detect; without VAP or the reference the converters stop
(R18). Conversion resumes when due (R184): both converters start in this tick and every lane is
reset with its phase. SYNC_N and a general call SYNC reset every lane while the response is on and
the device measures, and do nothing otherwise (R202, R334). SYNC_N is released in the fifth tick
after WEAVE.SYNC, whose command then completes. -/
def Obligations.SeamRailAndSyncEvents : Prop :=
  ∀ s : State,
    -- seamConverged (SEAM_CONVERGED, R179) completes
    (s.seq.twill = true → s.seq.seam.convergedDue = true → exec .seamConverged s =
      .next (notice 0x0502 .ordinary 0 (s.modSeq fun q =>
        { q with seam := { q.seam with converged := true, convergedDue := false } }))) ∧
    -- seamStaleTimeout (SEAM_STALE_TIMEOUT, R180) completes
    (s.seq.twill = true → s.seq.seam.agedDue = true →
      (s.seamStale = false → exec .seamStaleTimeout s = .next (notice 0x0501 .ordinary 0
        (s.modSeq fun q => { q with seam := { q.seam with aged := true, agedDue := false } }))) ∧
      (s.seamStale = true → exec .seamStaleTimeout s =
        .next (s.modSeq fun q => { q with seam := { q.seam with aged := true, agedDue := false } }))) ∧
    -- seamTrainingEnd (SEAM_TRAINING_END, R181) completes
    (∀ a, s.seq.seam.training = some a → 64 ≤ s.since a →
      (∃ t, exec (.seamTrainingEnd true) s = .next t ∧ t.seq.seam.training = none ∧
        t.seq.seam.trained = true ∧ t.seq.seam.converged = s.seq.seam.converged ∧ t.seq.seam.aged = false ∧ t.seq.seam.resetLane = true ∧
        t.seq.seam.fails = s.seq.seam.fails) ∧
      (∃ t, exec (.seamTrainingEnd false) s = .next t ∧ t.seq.seam.training = none ∧
        t.seq.seam.converged = s.seq.seam.converged ∧ t.seq.seam.fails = min 255 (s.seq.seam.fails + 1) ∧
        t.rings = s.rings)) ∧
    -- railDeparture (RAIL_DEPARTURE, R18) completes
    (∀ r : Rail, 2 ≤ s.core.railBad[railIdx r] → s.core.railHeld.getLsbD (railIdx r).val = false →
      ∃ t, exec (.railDeparture r) s = .next t ∧ t.core.railHeld.getLsbD (railIdx r).val = true ∧
        t.faults.src[(Fin.ofNat 64 (7 + (railIdx r).val) : Source)].det = true ∧
        (r = .vap ∨ r = .ref → t.seq.running = false) ∧
        (r = .vht → ∀ p : PortId, t.heat[p].drove = false)) ∧
    -- referenceResume (REFERENCE_RESUME, R184) completes
    (s.resumeDue = true → ∃ t, exec .referenceResume s = .next t ∧ t.seq.running = true ∧
      t.seq.stopped = false ∧ t.seq.startAsked = false ∧ t.seq.warpLt = s.core.lt ∧ t.seq.weftLt = s.core.lt ∧
      t.lanes = s.lanes.map (Lane.reset s.core.lt .applied) ∧ t.ports = s.ports) ∧
    -- syncNFall (SYNC_N_FALL, R202) completes
    -- generalCallSync (GENERAL_CALL_SYNC, R334) completes
    (s.pins.syncResponse = true → s.measuring = true →
      (s.syncHeld = false →
        exec .syncNFall s = .next (s.modLanes fun v => v.map (Lane.reset s.core.lt .sync))) ∧
      (s.syncHeld = true → exec .syncNFall s = .next s) ∧
      (s.takesSync = true →
        exec .generalCallSync s = .next (s.modLanes fun v => v.map (Lane.reset s.core.lt .sync)))) ∧
    (s.pins.syncResponse = false ∨ s.measuring = false →
      exec .syncNFall s = .next s ∧ exec .generalCallSync s = .next s) ∧
    -- weaveSyncRelease (WEAVE_SYNC_RELEASE, R202) completes
    (∀ a, s.pins.syncFrom = some a → s.since a = 5 → exec .weaveSyncRelease s =
      .next (completeWhere (·.wait == .syncRelease) .ok (s.modPins fun x => { x with syncFrom := none })))

/-- POWER_ON from OFF with RESET_N high begins BOOT with LT 0, the boot count one up (saturating) and
cause 3 if the cause latch is intact, else 0; with RESET_N low the device stays in reset. A
brownout puts the device in OFF in that tick, sets the cause latch and empties rings and mailbox;
outside OFF it changes the black box only by its own record, if that can be written; a record in
progress is abandoned and its NUMBER taken by this one (the model's choice, log 76). Loss of
retention clears the latch in OFF. RESET_N low resets, its release begins BOOT with cause 1, and 1
ms after the OK of SYS.RESET BOOT begins with cause 2, LT running on. Bolts, records and the queue
of commands are kept. After 1 ms of BOOT the porch answers with the stored patch level, and the
end of BOOT, within 15 ms of its start, leads to READY or HELD. BOOT that lasts 15 ms raises
source 54, whose event is taken at once and, while its class is GRAVE, latches. -/
def Obligations.PowerAndReset : Prop :=
  ∀ s : State,
    -- powerOn (POWER_ON, R449, R460) completes
    (s.core.dev = .off → s.core.rstPin = false → ∃ t, exec .powerOn s = .next t ∧ t.core.dev = .boot ∧
      t.core.lt = 0 ∧ t.core.bootCount = countUp s.core.bootCount 1 ∧
      t.core.bootCause = (if s.core.causeLatch then 3 else 0) ∧ t.core.causeLatch = false ∧
      t.core.bootTicks = 0 ∧ t.rings = {} ∧ t.mbox = {} ∧ t.bolt.a = s.bolt.a ∧ t.bolt.b = s.bolt.b ∧
      t.box.recs = s.box.recs ∧ t.pending = s.pending) ∧
    (s.core.dev = .off → s.core.rstPin = true → ∃ t, exec .powerOn s = .next t ∧ t.core.rstLow = true ∧
      t.core.powerUp = true ∧ t.core.bootCause = (if s.core.causeLatch then 3 else 0)) ∧
    -- brownout (BROWNOUT, R449, R433) completes
    (∀ v, s.core.dev ≠ .off → ∃ t, exec (.brownout v) s = .next t ∧ t.core.dev = .off ∧
      t.core.powered = false ∧ t.core.causeLatch = true ∧ t.rings = {} ∧ t.mbox = {} ∧
      t.core.bootCount = s.core.bootCount ∧ (s.brownoutRecord = false → t.box.recs = s.box.recs) ∧
      (s.brownoutRecord = true → s.inProgram = false → t.box.number = countUp s.box.number 1) ∧
      (∀ lt m, s.brownoutRecord = true → s.inProgram = true → s.box.begun = some (lt, m) →
        t.box.number = countUp m 1)) ∧
    -- causeLatchRetentionLoss (CAUSE_LATCH_RETENTION_LOSS, R450) completes
    (s.core.dev = .off → exec .causeLatchRetentionLoss s =
      .next (s.modCore fun c => { c with causeLatch := false })) ∧
    -- resetNLow (RESET_N_LOW, R451) completes
    (s.core.dev ≠ .off → s.core.dev ≠ .latched → s.core.rstLow = false →
      ∃ t, exec .resetNLow s = .next t ∧ t.core.rstLow = true ∧ t.core.rstPin = true ∧ t.core.lt = s.core.lt ∧
        t.rings = {} ∧ t.mbox = {} ∧ t.bolt.a = s.bolt.a ∧ t.bolt.b = s.bolt.b ∧ t.box.recs = s.box.recs) ∧
    -- resetNRelease (RESET_N_RELEASE, R23) completes
    (s.core.rstLow = true → s.core.powerUp = false → ∃ t, exec .resetNRelease s = .next t ∧
      t.core.dev = .boot ∧ t.core.rstLow = false ∧ t.core.bootCause = 1 ∧ t.core.lt = s.core.lt ∧
      t.core.bootCount = countUp s.core.bootCount 1) ∧
    -- sysResetBootDelay (SYS_RESET_BOOT_DELAY, R453) completes
    (∀ a, s.core.resetPosted = some a → s.since a = 64 → ∃ t, exec .sysResetBootDelay s = .next t ∧
      t.core.dev = .boot ∧ t.core.bootCause = 2 ∧ t.core.lt = s.core.lt ∧ t.core.resetPosted = none ∧
      t.core.bootCount = countUp s.core.bootCount 1) ∧
    -- bootPorchAnswer (BOOT_PORCH_ANSWER, R23) completes
    -- bootEnd (BOOT_END, R23) completes
    (s.core.dev = .boot → s.core.rstLow = false → 64 ≤ s.core.bootTicks →
      (s.core.porchUp = false → exec .bootPorchAnswer s =
        .next (s.modCore fun c => { c with porchUp := true, patchLevel := c.patchStored })) ∧
      (s.core.porchUp = true → s.core.reeveRuns = true → s.core.bootTicks < 960 → ∃ t, exec .bootEnd s = .next t ∧ (t.core.dev = .ready ∨ t.core.dev = .held) ∧
        (t.core.dev = .held → t.core.hcause = .noBolt) ∧ t.core.railsUp = true ∧ t.rings.held = [])) ∧
    -- bootTimeout (BOOT_TIMEOUT, R454) completes
    (s.core.dev = .boot → s.core.rstLow = false → s.core.bootTicks = 960 →
      exec .bootTimeout s = .next (faultEvent 54 (raise 54 s)) ∧ ((raise 54 s).faults.src[(54 : Source)]).det = true ∧
      ((s.faults.src[(54 : Source)]).inForce = .grave → (s.faults.src[(54 : Source)]).prevDet = false →
        (s.faults.src[(54 : Source)]).taken = false → (s.faults.src[(54 : Source)]).reaction = none →
        ∃ t, exec .bootTimeout s = .next t ∧ t.core.dev = .latched))

/-- State.reset is a Rexia at the start of its BOOT: BOOT, LT zero, no frame begun, both rings empty
with their sequence numbers and counters zero, every slot FREE, no fault source uncleared, ATTN
zero, the watermark 4096, every port DISABLED, the rings' pending gaps none, and no command
waiting. The values the spec gives no reset value for are the model's (logs 1 and 2) and are not
stated. -/
def Obligations.ResetState : Prop :=
  let s := State.reset
  s.pending = [] ∧ s.core.dev = .boot ∧ s.core.lt = 0 ∧ s.frame.started = false ∧ s.frame.number = 0 ∧
    s.frame.tick = 0 ∧ s.rings.sample = [] ∧ s.rings.notice = [] ∧ s.rings.sseq = 0 ∧ s.rings.nseq = 0 ∧
    s.rings.sdrop = 0 ∧ s.rings.ndrop = 0 ∧ s.rings.nalost = 0 ∧ s.rings.water = 4096 ∧
    (∀ n : SlotId, s.mbox.slots[n].st = .free) ∧ s.mbox.queue = [] ∧ s.mbox.pend = [] ∧ s.bus.attn = 0 ∧
    (∀ f : Source, s.faults.src[f].observed = false ∧ s.faults.src[f].forced = false) ∧
    (∀ p : PortId, s.ports[p].state = .disabled) ∧ s.seq.twill = false ∧ s.box.staged = []

/-- The invariant of StepKeepsInv holds in State.reset. -/
def Obligations.InvAtReset : Prop :=
  State.reset.Inv

/-- From every state in which the SAMPLE ring holds at most 8192 entries, the NOTICE ring at most 512
and at most 63 black-box records are staged, every step answers a next state in which they do,
whatever the command. -/
def Obligations.StepKeepsInv : Prop :=
  ∀ s : State, s.Inv → ∃ t, step s = .next t ∧ t.Inv

/-- No command of the table ends in a fault or a refusal, in any state: exec answers a next state, and
the queue behind the command is the one it was given. -/
def Obligations.EveryCommandCompletes : Prop :=
  ∀ (c : Instr) (s : State), ∃ t, exec c s = .next t ∧ t.pending = s.pending

/-- A command that answers a next state leaves every entry held in either ring where it is, in its
order, adding entries only behind them; the commands that take entries from a ring or empty it
(sluice reads and register bursts that run into the sluices, RING_CLEAR, the action on an error in
a ring, a TICK in which the reeve owes that action, and what starts BOOT or enters reset or OFF)
are named and left out. -/
def Obligations.EntriesAreNeverOverwritten : Prop :=
  ∀ (c : Instr) (s t : State), emptiesRings c = false →
    (∀ i, c = .tick i → s.ringActionOwed = false) → exec c s = .next t →
    s.rings.sample <+: t.rings.sample ∧ s.rings.notice <+: t.rings.notice

/-- Every command outside the LOCK family, the lock's own two timers and those that begin a BOOT, a
reset or OFF leaves the whole field lock as it is: level, seal, password and key generation,
counters, lockout and nonce. COMMAND_DISPATCH alone may do one thing to it: of a slot with an
opcode of an attempt that begins, it counts the attempt (log 72), where no lockout is in force and
writes are allowed. -/
def Obligations.OnlyTheLockMovesTheLock : Prop :=
  ∀ (c : Instr) (s t : State), movesLock c = false → exec c s = .next t →
    (c ≠ .commandDispatch → t.lock = s.lock) ∧
    (c = .commandDispatch → t.lock ≠ s.lock → s.lock.lockout = none ∧ s.nvmAllowed = true ∧
      ∃ n q, s.mbox.queue = n :: q ∧ (s.mbox.slots[n].op = 0x1101 ∨ s.mbox.slots[n].op = 0x1103) ∧
        t.mbox.slots[n].st = .running ∧ t.lock = { s.lock with attempts := satAdd s.lock.attempts 1,
                                                               fails := satNat 255 (s.lock.fails + 1) })

/-- LT goes up by one in a TICK of a Rexia with power, RESET_N low or high; POWER_ON and BROWNOUT
restart it at zero; every other command, RESET_N and the reset of SYS.RESET included, leaves it as
it is. -/
def Obligations.LocalTimeMovesWithTheTick : Prop :=
  ∀ (c : Instr) (s t : State), exec c s = .next t →
    match c with
    | .tick _ => t.core.lt = if s.core.dev = .off then s.core.lt else s.core.lt + 1
    | .powerOn => t.core.lt = if s.core.dev = .off then 0 else s.core.lt
    | .brownout _ => t.core.lt = if s.core.dev = .off then s.core.lt else 0
    | _ => t.core.lt = s.core.lt

/-- Outside BOOT, a doorbell of a slot the host owns queues it behind the others, with IGN cleared and
the tick on record; a doorbell of any other slot sets IGN and changes nothing else in the mailbox.
A DBELL write of zero rings none. In BOOT the doorbells are kept for its end. COMMAND_DISPATCH
takes the oldest QUEUED slot while the reeve runs and has no other slot in hand: a request that
passes the checks of R346 becomes RUNNING, an attempt at the lock is counted as it does (log 72),
a request that fails them is DONE with its status and ATTN.MBOX is set, and one with an
uncorrectable word is DONE with BAD_ARG and 0x8000 plus the word's offset. A staging without a
chunk for 60 s is discarded, and no other. -/
def Obligations.DoorbellsAndDispatch : Prop :=
  ∀ s : State, (∀ n : SlotId, ∀ k < 16, s.faults.wordError 4 (16 * n.val + k) = none) →
    s.faults.found.getLsbD 48 = false → s.mbox.rung = 0 →
    -- dbellWrite (DBELL_WRITE, R343) completes
    (∀ n : SlotId, s.acks = true → s.core.dev ≠ .boot → s.mbox.slots[n].st.hostOwned = true →
      s.immediate s.mbox.slots[n].op = false → ∃ t, exec (.dbellWrite (1 <<< n.val)) s = .next t ∧
        t.mbox.slots[n].st = .queued ∧ t.mbox.slots[n].ign = false ∧ t.mbox.slots[n].rung = s.core.lt ∧
        t.mbox.slots[n].bytes = s.mbox.slots[n].bytes ∧ t.mbox.queue = s.mbox.queue ++ [n] ∧
        (s.mbox.slots[n].op ≠ 0x0901 → (∀ m : SlotId, m ≠ n → t.mbox.slots[m] = s.mbox.slots[m]) ∧
          t.rings = s.rings ∧ t.core = s.core)) ∧
    (∀ n : SlotId, s.acks = true → s.core.dev ≠ .boot → s.mbox.slots[n].st.hostOwned = false →
      ∃ t, exec (.dbellWrite (1 <<< n.val)) s = .next t ∧
        t.mbox.slots[n] = { s.mbox.slots[n] with ign := true } ∧ t.mbox.queue = s.mbox.queue ∧
        (∀ m : SlotId, m ≠ n → t.mbox.slots[m] = s.mbox.slots[m])) ∧
    (s.acks = true → ∃ t, exec (.dbellWrite 0) s = .next t ∧ t.mbox = s.mbox) ∧
    (∀ v, s.acks = true → s.core.dev = .boot →
      ∃ t, exec (.dbellWrite v) s = .next t ∧ t.mbox = { s.mbox with rung := v }) ∧
    (s.acks = false → exec (.dbellWrite 0xFF) s = .next (refuse s)) ∧
    -- commandDispatch (COMMAND_DISPATCH, R344, R346) completes
    (∀ n q, s.reeveActive = true → s.slotInHand = false → s.mbox.queue = n :: q →
      (s.mbox.slots[n].bad = none → requestFault { s.mbox.slots[n] with st := .running } s.core.dev = none →
        ∃ t, exec .commandDispatch s = .next t ∧ t.mbox.queue = q ∧
          (s.mbox.slots[n].op ≠ 0x1101 → s.mbox.slots[n].op ≠ 0x1103 →
            t.mbox.slots[n] = { s.mbox.slots[n] with st := .running } ∧ t.lock = s.lock) ∧
          (s.mbox.slots[n].op = 0x1101 ∨ s.mbox.slots[n].op = 0x1103 → s.nvmAllowed = true → s.lock.lockout = none →
            t.mbox.slots[n] = { s.mbox.slots[n] with st := .running, early := true } ∧
            t.lock = { s.lock with attempts := satAdd s.lock.attempts 1, fails := satNat 255 (s.lock.fails + 1) }) ∧
          t.mbox.pend = s.mbox.pend ∧ t.rings = s.rings ∧ t.bus = s.bus) ∧
      (∀ k, s.posts = true → s.mbox.slots[n].bad = some k →
        ∃ t, exec .commandDispatch s = .next t ∧ t.mbox.queue = q ∧ t.mbox.slots[n].st = .done ∧
          u8 t.mbox.slots[n].bytes.toList 4 = Status.badArg.code.toNat ∧
          u16 t.mbox.slots[n].bytes.toList 6 = 0x8000 + 4 * k.val ∧ t.bus.attn.getLsbD 4 = true) ∧
      (∀ e, s.posts = true → s.mbox.slots[n].bad = none → requestFault { s.mbox.slots[n] with st := .running } s.core.dev = some e →
        ∃ t, exec .commandDispatch s = .next t ∧ t.mbox.queue = q ∧ t.mbox.slots[n].st = .done ∧
          u8 t.mbox.slots[n].bytes.toList 4 = e.1.code.toNat ∧
          u16 t.mbox.slots[n].bytes.toList 6 = e.2 % 65536 ∧ t.bus.attn.getLsbD 4 = true)) ∧
    ((s.reeveActive = false ∨ s.mbox.queue = [] ∨ s.slotInHand = true) → exec .commandDispatch s = .next s) ∧
    -- chunkStagingTimeout (CHUNK_STAGING_TIMEOUT, R349) completes
    (∀ op (sel : Fin 3) g, s.mbox.staging.find? (Staging.holds op sel.val) = some g →
      (3840000 ≤ s.since g.last →
        exec (.chunkStagingTimeout op sel) s = .next (dropStaging op g.sel s)) ∧
      (s.since g.last < 3840000 → exec (.chunkStagingTimeout op sel) s = .next s)) ∧
    (∀ op (sel : Fin 3), s.mbox.staging.find? (Staging.holds op sel.val) = none → exec (.chunkStagingTimeout op sel) s = .next s)

/-- While the reeve posts (it is neither stalled nor halted, and no OK of SYS.RESET has been posted),
a final status with a response of at most 56 bytes makes the slot DONE, with its status code,
DETAIL, the response's length and the response in their places, sets ATTN.MBOX, ends what the slot
waited for, and leaves every other slot as it is. ACCEPTED_PENDING makes the slot PENDING with
code 0x01 and the frame it names in the first four response bytes, and one more command waits,
behind the others. -/
def Obligations.PostingIsOneTick : Prop :=
  ∀ (s : State) (n : SlotId) (d : Nat) (resp : List Byte), s.posts = true → d < 65536 → resp.length ≤ 56 →
    (∀ st : Status, ∃ t, t = post n st d resp s ∧ t.mbox.slots[n].st = .done ∧
      u8 t.mbox.slots[n].bytes.toList 4 = st.code.toNat ∧ u8 t.mbox.slots[n].bytes.toList 5 = resp.length ∧
      u16 t.mbox.slots[n].bytes.toList 6 = d ∧ slice t.mbox.slots[n].bytes.toList 8 resp.length = resp ∧
      slice t.mbox.slots[n].bytes.toList 0 4 = slice s.mbox.slots[n].bytes.toList 0 4 ∧
      t.bus.attn = s.bus.attn ||| 0x10 ∧ (∀ x ∈ t.mbox.pend, x.slot ≠ n) ∧
      (∀ m : SlotId, m ≠ n → t.mbox.slots[m] = s.mbox.slots[m]) ∧ t.rings = s.rings ∧ t.core = s.core) ∧
    (∀ (op : W16) (p : List Byte) (w : Wait) (f : W32), ∃ t, t = pendOn n op p w f s ∧
      t.mbox.slots[n].st = .pending ∧ u8 t.mbox.slots[n].bytes.toList 4 = 1 ∧
      u32 t.mbox.slots[n].bytes.toList 8 = f.toNat ∧
      t.mbox.pend = s.mbox.pend ++ [{ slot := n, op, payload := p, wait := w, since := s.core.lt }] ∧
      t.bus = s.bus ∧ (∀ m : SlotId, m ≠ n → t.mbox.slots[m] = s.mbox.slots[m]))

/-- RING.CLEAR with bit 0 clears SDROP, NDROP and NALOST, with bit 1 empties the SAMPLE ring and with
bit 2 the NOTICE ring, each with its pending gap; the sequence numbers carry on, and it completes
with OK, which a stalled or halted reeve posts later (R13). A doorbell of it is taken at once, in
the tick of the doorbell, outside BOOT. -/
def Obligations.RingClear : Prop :=
  ∀ (s : State) (n : SlotId) (p : List Byte), s.request n 0x0C01 p → u8 p 0 < 8 →
    -- ringClear (RING_CLEAR, R314) completes
    ∃ t, exec (.ringClear n) s = .next t ∧ (s.posts = true → t.mbox.slots[n].st = .done ∧
        u8 t.mbox.slots[n].bytes.toList 4 = Status.ok.code.toNat) ∧
      t.rings.sseq = s.rings.sseq ∧ t.rings.nseq = s.rings.nseq ∧ t.rings.water = s.rings.water ∧
      ((u8 p 0).testBit 0 = true → t.rings.sdrop = 0 ∧ t.rings.ndrop = 0 ∧ t.rings.nalost = 0) ∧
      ((u8 p 0).testBit 0 = false →
        t.rings.sdrop = s.rings.sdrop ∧ t.rings.ndrop = s.rings.ndrop ∧ t.rings.nalost = s.rings.nalost) ∧
      ((u8 p 0).testBit 1 = true → t.rings.sample = [] ∧ t.rings.sgap = none) ∧
      ((u8 p 0).testBit 1 = false → t.rings.sample = s.rings.sample ∧ t.rings.sgap = s.rings.sgap) ∧
      ((u8 p 0).testBit 2 = true → t.rings.notice = [] ∧ t.rings.ngap = none) ∧
      ((u8 p 0).testBit 2 = false → t.rings.notice = s.rings.notice ∧ t.rings.ngap = s.rings.ngap) ∧
      (s.core.dev ≠ .boot → s.immediate 0x0C01 = true)

/-- A RING.WATER write with a watermark of 1 to 8192 completes with OK. If SLEVEL already lies at or
above the new watermark the cause SWATER is set in the tick in which the command runs, whether or
not it was armed before. Otherwise it is armed, and the entry with which SLEVEL rises to the
watermark sets it; after either it is armed again only once SLEVEL has fallen to half the new
watermark (R315). -/
def Obligations.RingWater : Prop :=
  ∀ (s : State) (n : SlotId) (p : List Byte), s.request n 0x0C02 p → 1 ≤ u16 p 0 → u16 p 0 ≤ 8192 →
    -- ringWater (RING_WATER, R490) completes
    (u16 p 0 ≤ s.rings.sample.length → ∃ t, exec (.ringWater n) s = .next t ∧ t.rings.water = u16 p 0 ∧
      t.bus.attn.getLsbD 3 = true ∧ t.rings.armed = false ∧ t.rings.sample = s.rings.sample ∧
      t.mbox.slots[n].st = .done) ∧
    (s.rings.sample.length < u16 p 0 → ∃ t, exec (.ringWater n) s = .next t ∧ t.rings.water = u16 p 0 ∧
      t.rings.armed = true ∧ t.bus.attn = s.bus.attn ||| 0x10 ∧ t.rings.sample = s.rings.sample ∧
      t.mbox.slots[n].st = .done ∧
      ∀ v tag fl, t.rings.sample.length + 1 = u16 p 0 → (pushSample v tag fl t).bus.attn.getLsbD 3 = true ∧
        (pushSample v tag fl t).rings.armed = false) ∧
    ∀ r : Rings, r.armed = false → (r.rearm.armed = true ↔ 2 * r.sample.length ≤ r.water)

/-- With 512 entries held an alarm or fault notice leaves the NOTICE ring as it is, counts one in
NALOST (which saturates) and moves the sequence number on; the host has to drain the ring. -/
def Obligations.FullNoticeRing : Prop :=
  ∀ (s : State) (code : W16) (k : Kind) (args : W64), k ≠ .ordinary → s.rings.notice.length = 512 →
    s.core.dev ≠ .off → s.core.dev ≠ .boot →
    (notice code k args s).rings.notice = s.rings.notice ∧
      (notice code k args s).rings.nalost = (if s.rings.nalost = 0xFFFF then 0xFFFF else s.rings.nalost + 1) ∧
      (notice code k args s).rings.nseq = s.rings.nseq + 1 ∧
      (notice code k args s).rings.ndrop = s.rings.ndrop ∧ (notice code k args s).bus = s.bus

/-- In READY and RUN an output whose entries do not all fit into the 8192 of the ring leaves the ring
as it is: each of its entries is counted in SDROP (which saturates) and a gap becomes pending.
Entries held are never overwritten: an output that fits is added behind them. -/
def Obligations.FullSampleRing : Prop :=
  ∀ (s : State) (tag : Byte) (o : Out), s.ringOpen = true → s.rings.sgap = none →
    ((s.rings.sample.length + (if needsExt o.flags then 2 else 1) > 8192 →
      (emitSample tag o s).rings.sample = s.rings.sample ∧
      (emitSample tag o s).rings.sdrop.toNat =
        min (s.rings.sdrop.toNat + (if needsExt o.flags then 2 else 1)) 4294967295 ∧
      (emitSample tag o s).rings.sgap = some (if needsExt o.flags then 2 else 1)) ∧
    (s.rings.sample.length + (if needsExt o.flags then 2 else 1) ≤ 8192 →
      s.rings.sample <+: (emitSample tag o s).rings.sample ∧
      (emitSample tag o s).rings.sample.length =
        s.rings.sample.length + (if needsExt o.flags then 2 else 1) ∧
      (emitSample tag o s).rings.sdrop = s.rings.sdrop))

/-- A SAMPLE gap that is due, with a free entry and the ring open, becomes one marker: tag 0xFF, VALUE
the entries dropped up to 0xFFFFFF, and the gap is over. A NOTICE gap becomes a marker of kind 3
and code 0x0C01 with the count once fewer than 480 entries are held. Otherwise nothing happens. -/
def Obligations.GapMarkers : Prop :=
  ∀ s : State,
    -- sampleGapMarker (SAMPLE_GAP_MARKER, R302) completes
    (∀ k, s.rings.sgap = some k → s.rings.gapDue = true → s.ringOpen = true → s.rings.sample.length < 8192 →
      ∃ t e, exec .sampleGapMarker s = .next t ∧ t.rings.sample = s.rings.sample ++ [e] ∧
        e.toNat % 2 ^ 24 = min k 0xFFFFFF ∧ e.toNat / 2 ^ 24 % 256 = 0xFF ∧ t.rings.sgap = none ∧
        t.rings.sseq = s.rings.sseq + 1 ∧ t.rings.sdrop = s.rings.sdrop ∧ t.rings.notice = s.rings.notice) ∧
    ((s.rings.sgap = none ∨ s.rings.gapDue = false ∨ s.ringOpen = false ∨ 8192 ≤ s.rings.sample.length) →
      exec .sampleGapMarker s = .next s) ∧
    -- noticeGapMarker (NOTICE_GAP_MARKER, R304) completes
    (∀ k, s.rings.ngap = some k → s.rings.notice.length < 480 → s.core.dev ≠ .off → s.core.dev ≠ .boot →
      ∃ t e, exec .noticeGapMarker s = .next t ∧ t.rings.notice = s.rings.notice ++ [e] ∧
        e.toNat % 65536 = 0x0C01 ∧ e.toNat / 2 ^ 24 % 4 = 3 ∧ e.toNat / 2 ^ 64 % 2 ^ 32 = min k 0xFFFFFFFF ∧
        t.rings.ngap = none ∧ t.rings.nseq = s.rings.nseq + 1 ∧ t.rings.sample = s.rings.sample) ∧
    ((s.rings.ngap = none ∨ 480 ≤ s.rings.notice.length ∨ s.core.dev = .off ∨ s.core.dev = .boot) →
      exec .noticeGapMarker s = .next s)

/-- A read of a whole SAMPLE entry from the sluice's first byte drives the oldest entry, pops it and
leaves the pointer at the sluice; an empty ring gives the empty entry 0x00000000FD000000 and
nothing is popped. A read of a whole NOTICE entry does the same with that ring; an empty one gives
zeros. A read that begins inside the sluice pops nothing; one with no pointer write begins where
the pointer stands. A whole live value drives VALUE and GEN and latches the flag word, the tag and
GEN. An address the Rexia does not acknowledge drives nothing. -/
def Obligations.SluiceAndLiveReads : Prop :=
  ∀ s : State, (s.acks = true → (∀ c a, s.faults.wordError c a = none) → s.faults.found = 0 →
      -- sampleSluiceRead (SAMPLE_SLUICE_READ, R307) completes
      (∀ e l, s.rings.sample = e :: l → ∃ t, exec (.sampleSluiceRead (some 0) 8) s = .next t ∧
        t.bus.rdata = toLE 8 e.toNat ∧ t.rings.sample = l ∧ t.bus.pointer = 0x0200 ∧
        t.rings.notice = s.rings.notice ∧ t.rings.sseq = s.rings.sseq ∧ t.mbox = s.mbox) ∧
      (s.rings.sample = [] → ∃ t, exec (.sampleSluiceRead (some 0) 8) s = .next t ∧
        t.bus.rdata = toLE 8 0x00000000FD000000 ∧ t.rings.sample = []) ∧
      (∀ first : Fin 8, first.val ≠ 0 → ∃ t, exec (.sampleSluiceRead (some first) 1) s = .next t ∧
        t.bus.rdata = [(toLE 8 s.rings.slatch.toNat).getD first.val 0] ∧ t.rings.sample = s.rings.sample) ∧
      -- noticeSluiceRead (NOTICE_SLUICE_READ, R307) completes
      (∀ e l, s.rings.notice = e :: l → ∃ t, exec (.noticeSluiceRead (some 0) 16) s = .next t ∧
        t.bus.rdata = toLE 16 e.toNat ∧ t.rings.notice = l ∧ t.bus.pointer = 0x0210 ∧
        t.rings.sample = s.rings.sample ∧ t.rings.nseq = s.rings.nseq ∧ t.mbox = s.mbox) ∧
      (s.rings.notice = [] → ∃ t, exec (.noticeSluiceRead (some 0) 16) s = .next t ∧
        t.bus.rdata = List.replicate 16 0 ∧ t.rings.notice = []) ∧
      -- liveValueRead (LIVE_VALUE_READ, R311) completes
      (∀ k : Fin 80, ∃ t, exec (.liveValueRead (some ⟨4 * k.val, by omega⟩) 4) s = .next t ∧
        t.bus.rdata = toLE 3 (s.liveOf k.val).value.toNat ++ [(s.liveOf k.val).gen] ∧
        t.rings.lvFlags = (s.liveOf k.val).flags ∧ t.rings.lvTag = BitVec.ofNat 8 k.val ∧
        t.rings.lvGen = (s.liveOf k.val).gen ∧ t.rings.sample = s.rings.sample ∧
        t.rings.notice = s.rings.notice ∧ t.lanes = s.lanes)) ∧
    (∀ m, (s.bus.pointer = 0x0200 → exec (.sampleSluiceRead none m) s = exec (.sampleSluiceRead (some 0) m) s) ∧
      (s.bus.pointer = 0x0210 → exec (.noticeSluiceRead none m) s = exec (.noticeSluiceRead (some 0) m) s) ∧
      (s.bus.pointer = 0x043F → exec (.liveValueRead none m) s = exec (.liveValueRead (some 319) m) s)) ∧
    (s.acks = false → s.bus.addrValid = false → ∃ t, exec (.sampleSluiceRead (some 0) 8) s = .next t ∧
      t.bus.rdata = [] ∧ t.rings = s.rings)

/-- A read of a register drives its bytes as the register stood, lowest first, leaves the pointer
behind the last and clears what the bytes read clear: the byte of WAKE clears WAKE, also alone,
the last byte of ATTN clears every cause and returns the attention machine to IDLE if the first
was read in the transaction too, the byte of ARBLOST clears it. A read of other bytes clears
nothing. A read with no pointer write begins where the pointer stands. Nothing else of the
registers, the rings or the mailbox changes. An address the Rexia does not acknowledge drives
nothing and clears nothing. -/
def Obligations.RegisterReads : Prop :=
  ∀ s : State,
    (s.acks = true →
      -- stateRead (STATE_READ, R22) completes
      -- attnRead (ATTN_READ, R337) completes
      -- busRead (BUS_READ, R327) completes
      (∃ t, exec (.stateRead ⟨some 0, 2⟩) s = .next t ∧ t.bus.rdata = toLE 2 s.stateWord ∧ t.core.wake = false ∧
        t.bus.pointer = 0x000A ∧ t.bus.attn = s.bus.attn ∧ t.rings = s.rings ∧ t.mbox = s.mbox ∧
        t.frame = s.frame) ∧
      (∃ t, exec (.stateRead ⟨some 0, 1⟩) s = .next t ∧ t.bus.rdata = toLE 1 s.stateWord ∧ t.core.wake = false ∧
        t.bus.pointer = 0x0009) ∧
      (∃ t, exec (.stateRead ⟨some 1, 1⟩) s = .next t ∧ t.bus.rdata = (toLE 2 s.stateWord).drop 1 ∧
        t.core = s.core ∧ t.bus.pointer = 0x000A) ∧
      (∃ t, exec (.attnRead ⟨some 0, 2⟩) s = .next t ∧ t.bus.rdata = toLE 2 s.bus.attn.toNat ∧ t.bus.attn = 0 ∧
        t.bus.machine = .idle ∧ t.bus.pointer = 0x000C ∧ t.bus.attnMask = s.bus.attnMask ∧ t.core = s.core ∧
        t.rings = s.rings ∧ t.mbox = s.mbox) ∧
      (∃ t, exec (.attnRead ⟨some 0, 1⟩) s = .next t ∧ t.bus.rdata = toLE 1 s.bus.attn.toNat ∧
        t.bus.attn = s.bus.attn ∧ t.bus.machine = s.bus.machine) ∧
      (∃ t, exec (.attnRead ⟨some 1, 1⟩) s = .next t ∧ t.bus.rdata = (toLE 2 s.bus.attn.toNat).drop 1 ∧
        t.bus.attn = s.bus.attn ∧ t.bus.machine = s.bus.machine) ∧
      (∃ t, exec (.busRead ⟨some 0, 4⟩) s = .next t ∧ t.bus.rdata = toLE 4 s.bus.word ∧ t.bus.arbLost = 0 ∧
        t.bus.nfail = s.bus.nfail ∧ t.bus.toutScl = s.bus.toutScl ∧ t.bus.pointer = 0x0018 ∧ t.core = s.core ∧
        t.rings = s.rings) ∧
      (∃ t, exec (.busRead ⟨some 0, 3⟩) s = .next t ∧ t.bus.rdata = toLE 3 s.bus.word ∧
        t.bus.arbLost = s.bus.arbLost ∧ t.bus.pointer = 0x0017) ∧
      (∃ t, exec (.busRead ⟨some 3, 1⟩) s = .next t ∧ t.bus.rdata = (toLE 4 s.bus.word).drop 3 ∧
        t.bus.arbLost = 0 ∧ t.bus.nfail = s.bus.nfail)) ∧
    (∀ m, (∀ k : Fin 2, s.bus.pointer = BitVec.ofNat 16 (0x08 + k.val) →
        exec (.stateRead ⟨none, m⟩) s = exec (.stateRead ⟨some k, m⟩) s) ∧
      (∀ k : Fin 2, s.bus.pointer = BitVec.ofNat 16 (0x0A + k.val) →
        exec (.attnRead ⟨none, m⟩) s = exec (.attnRead ⟨some k, m⟩) s) ∧
      (∀ k : Fin 4, s.bus.pointer = BitVec.ofNat 16 (0x14 + k.val) →
        exec (.busRead ⟨none, m⟩) s = exec (.busRead ⟨some k, m⟩) s)) ∧
    (s.acks = false → s.bus.addrValid = false → ∃ t, exec (.stateRead ⟨some 0, 2⟩) s = .next t ∧ t.bus.rdata = [] ∧
      t.core = s.core ∧ exec (.attnRead ⟨some 0, 2⟩) s = .next t ∧ exec (.busRead ⟨some 0, 4⟩) s = .next t ∧
      t.bus.attn = s.bus.attn ∧ t.bus.arbLost = s.bus.arbLost)

/-- A write of the whole BUS register clears the timeout flags it has ones for and nothing else of the
bus port; ATTNMASK takes bits 0 to 9 of the value, and a cause already set whose mask bit becomes
1 moves the attention machine as a new masked cause does; ATTNCFG takes the value where it holds
no reserved RENOTIFY code and a valid address, and is left unchanged otherwise. A write of fewer
than two data bytes changes no register. A slot byte takes what is written while the host owns the
slot and is unchanged otherwise. -/
def Obligations.RegisterWrites : Prop :=
  ∀ s : State, s.acks = true →
    -- busWrite (BUS_WRITE, R327) completes
    (∀ v : W32, ∃ t, exec (.busWrite v) s = .next t ∧
      t.bus.toutScl = (s.bus.toutScl && !v.getLsbD 0) ∧ t.bus.toutSda = (s.bus.toutSda && !v.getLsbD 1) ∧
      t.bus.nfail = s.bus.nfail ∧ t.bus.arbLost = s.bus.arbLost ∧ t.bus.addr = s.bus.addr ∧
      t.bus.addrMis = s.bus.addrMis ∧ t.bus.attn = s.bus.attn ∧ t.rings = s.rings ∧ t.core = s.core) ∧
    -- attnmaskWrite (ATTNMASK_WRITE, R337) completes
    (∀ v : W16, ∃ t, exec (.attnmaskWrite v) s = .next t ∧ t.bus.attnMask = v &&& 0x03FF ∧
      t.bus.attn = s.bus.attn ∧ t.bus.attnCfg = s.bus.attnCfg ∧
      t.bus.machine = (if s.bus.attn &&& (v &&& 0x03FF) &&& ~~~s.bus.attnMask = 0 then s.bus.machine
        else match s.bus.machine with
          | .idle => .pending
          | .halted => .pending
          | .pending => .pending
          | .sent => .sent) ∧ t.rings = s.rings ∧ t.core = s.core) ∧
    -- attncfgWrite (ATTNCFG_WRITE, R336) completes
    (∀ v : W32, ∃ t, exec (.attncfgWrite v) s = .next t ∧
      t.bus.attnCfg = (if attnCfgOk v then v &&& 0x00FF7F07 else s.bus.attnCfg) ∧
      t.bus.attnMask = s.bus.attnMask ∧ t.bus.attn = s.bus.attn ∧ t.bus.machine = s.bus.machine ∧
      t.rings = s.rings ∧ t.core = s.core) ∧
    -- registerWrite (REGISTER_WRITE, R325) completes
    (∀ data : List Byte, data.length < 2 →
      exec (.registerWrite data) s = .next (s.modBus fun b => { b with inTrans := true })) ∧
    (∀ (n : SlotId) (k : Nat) (b : Byte), k < 64 → ∃ t,
      exec (.registerWrite (toLE 2 (0x100 + 64 * n.val + k) ++ [b])) s = .next t ∧
      (s.mbox.slots[n].st.hostOwned = true →
        t.mbox.slots[n].bytes.toList = s.mbox.slots[n].bytes.toList.set k b) ∧
      (s.mbox.slots[n].st.hostOwned = false → t.mbox.slots[n] = s.mbox.slots[n]) ∧
      (∀ m : SlotId, m ≠ n → t.mbox.slots[m] = s.mbox.slots[m]) ∧ t.mbox.queue = s.mbox.queue ∧
      t.rings = s.rings ∧ t.core = s.core)

/-- Each strap pin gives a code from 0 to 3: 0 low when idle, 3 released at START, 2 released by the
first SCL low, 1 high throughout. The address is 0x10 + AD0 + 4 AD1 + 16 AD2, from 0x10 to 0x4F,
and the three codes can be read back from it. The first START that is sensed fixes it. -/
def Obligations.StrapsGiveTheAddress : Prop :=
  (∀ a b c : Bool, strapCode a b c = if a = false then 0 else if b = false then 3 else if c = false then 2 else 1) ∧
  (∀ idle start low : BitVec 3,
    let code := fun k => strapCode (idle.getLsbD k) (start.getLsbD k) (low.getLsbD k)
    (strapAddr idle start low).toNat = 0x10 + code 0 + 4 * code 1 + 16 * code 2 ∧
      0x10 ≤ (strapAddr idle start low).toNat ∧ (strapAddr idle start low).toNat ≤ 0x4F ∧
      ∀ s : State, s.busSensed = true → s.bus.addrValid = false →
        ∃ t, exec (.busStartCondition idle start low) s = .next t ∧ t.bus.addrValid = true ∧
          t.bus.addr.toNat = 0x10 + code 0 + 4 * code 1 + 16 * code 2)

/-- A later START whose straps give another address sets ADDRMIS and raises notice 0x0103, and the
address stays (R321); one that gives the same changes only the bus's business and a backoff, which
then waits for the following STOP (R339). A STOP, or both lines high for 50 us, frees the bus, and
an attempt that waits for it starts its backoff in that tick (R333, R339). An SCL or SDA timeout
of a Rexia that takes part in a transaction, since the last START and with no STOP since, sets its
flag and ATTN.BUS, drops the transaction and takes the bus as busy (R330, R331); of any other it
does nothing. With the pins not sensed none of them does anything. A digest check of 12 bytes that
does not match the bolt in force sets ATTN.DIGEST and raises notice 0x0F01; one that matches does
nothing (R334), and a stalled reeve is left the comparison. One with another number of bytes is
ignored (R334), and the Rexia takes part in it (log 73). -/
def Obligations.BusEvents : Prop :=
  ∀ s : State,
    (s.busSensed = true →
      -- busStartCondition (BUS_START_CONDITION, R321, R339) completes
      (∀ idle st low : BitVec 3, s.bus.addrValid = true →
        (strapAddr idle st low = s.bus.addr → exec (.busStartCondition idle st low) s = .next (s.modBus fun b =>
          { b with busy := true, inTrans := false, wait := if b.wait = .backoff then .forStop else b.wait })) ∧
        (strapAddr idle st low ≠ s.bus.addr → ∃ t, exec (.busStartCondition idle st low) s = .next t ∧
          t.bus.addrMis = true ∧ t.bus.addr = s.bus.addr ∧ t.bus.busy = true ∧ t.core = s.core ∧
          t.mbox = s.mbox)) ∧
      -- busStopCondition (BUS_STOP_CONDITION, R339) completes
      -- busFreeIdle (BUS_FREE_IDLE, R333) completes
      (exec .busStopCondition s = .next (s.modBus fun b =>
        if b.wait = .forStop ∨ b.wait = .forFree then
          { b with busy := false, inTrans := false, wait := .backoff, backoffFrom := s.core.lt }
        else { b with busy := false, inTrans := false })) ∧
      (exec .busFreeIdle s = .next (s.modBus fun b =>
        if b.wait = .forFree then { b with busy := false, wait := .backoff, backoffFrom := s.core.lt }
        else { b with busy := false }))) ∧
    -- sclTimeout (SCL_TIMEOUT, R330) completes
    -- sdaTimeout (SDA_TIMEOUT, R331) completes
    (s.busSensed = true → s.bus.inTrans = true →
      (∃ t, exec .sclTimeout s = .next t ∧ t.bus.toutScl = true ∧ t.bus.toutSda = s.bus.toutSda ∧
        t.bus.attn = s.bus.attn ||| 0x100 ∧ t.bus.busy = true ∧ t.bus.inTrans = false ∧ t.bus.rdata = [] ∧ t.core = s.core ∧
        t.rings = s.rings ∧ t.mbox = s.mbox) ∧
      (∃ t, exec .sdaTimeout s = .next t ∧ t.bus.toutSda = true ∧ t.bus.toutScl = s.bus.toutScl ∧
        t.bus.attn = s.bus.attn ||| 0x100 ∧ t.bus.busy = true ∧ t.bus.inTrans = false ∧ t.bus.rdata = [] ∧ t.core = s.core ∧
        t.rings = s.rings ∧ t.mbox = s.mbox)) ∧
    (s.bus.inTrans = false → exec .sclTimeout s = .next s ∧ exec .sdaTimeout s = .next s) ∧
    (s.busSensed = false → ∀ a b c : BitVec 3, exec (.busStartCondition a b c) s = .next s ∧
      exec .busStopCondition s = .next s ∧ exec .busFreeIdle s = .next s ∧ exec .sclTimeout s = .next s ∧
      exec .sdaTimeout s = .next s) ∧
    -- digestCheck (DIGEST_CHECK, R334) completes
    (∀ data : List Byte, s.takesGeneralCalls = true → s.core.reeveRuns = true → data.length = 12 →
      (s.digestExpected = some data → exec (.digestCheck data) s = .next s) ∧
      (s.digestExpected ≠ some data → exec (.digestCheck data) s =
        .next (attn .digest (notice 0x0F01 .ordinary (argW 0 s.noticeGen) s)))) ∧
    (∀ data : List Byte, s.takesGeneralCalls = true → s.core.reeveRuns = false → data.length = 12 →
      exec (.digestCheck data) s = .next (s.modBus fun b => { b with digestAsked := some data })) ∧
    (∀ data : List Byte, s.takesGeneralCalls = true → data.length ≠ 12 →
      exec (.digestCheck data) s = .next (s.modBus fun b => { b with inTrans := true }))

/-- A masked cause that goes from 0 to 1 moves IDLE and HALTED to PENDING; an unmasked one, or one
already set, moves nothing. The count of failures begins anew with it, but not where the event
coincides with a read of ATTN that found the machine PENDING. An attempt that is due and
acknowledged carries HNADDR, the Rexia's own address and the causes (R338), makes the machine SENT
at LT and zeroes NFAIL; one not acknowledged counts in NFAIL up to 255 and waits out a backoff,
and the sixteenth in a row halts the machine; one lost in arbitration counts in ARBLOST up to 255
and waits for a STOP; an attempt not due does nothing. The end of a backoff of 50 us and 4 us per
address step lets the next attempt start. RENOTIFY expired with a masked cause still set makes a
SENT machine PENDING. A transaction addressed to a dozing Rexia wakes it, once. -/
def Obligations.AttentionMachine : Prop :=
  ∀ s : State,
    (∀ c : Cause, s.bus.attn &&& c.mask = 0 →
      (attn c s).bus.attn = s.bus.attn ||| c.mask ∧
      (s.bus.attnMask &&& c.mask ≠ 0 → s.bus.machine = .idle ∨ s.bus.machine = .halted →
        (attn c s).bus.machine = .pending ∧
          (attn c s).bus.failRun = if s.bus.readPending = some s.core.lt then s.bus.failRun else 0) ∧
      (s.bus.attnMask &&& c.mask = 0 → (attn c s).bus.machine = s.bus.machine)) ∧
    (∀ c : Cause, s.bus.attn &&& c.mask ≠ 0 → attn c s = s) ∧
    -- attentionAttempt (ATTENTION_ATTEMPT, R337, R338, R339) completes
    (s.attemptDue = true →
      exec (.attentionAttempt .acknowledged) s = .next (s.modBus fun b =>
        { b with machine := .sent, sentAt := s.core.lt, nfail := 0, failRun := 0
                 notified := [BitVec.ofNat 8 (2 * (b.attnCfg.toNat / 256 % 128)),
                   BitVec.ofNat 8 (2 * b.addr.toNat)] ++ toLE 2 b.attn.toNat }) ∧
      (∃ t, exec (.attentionAttempt .notAcknowledged) s = .next t ∧
        t.bus.nfail.toNat = min (s.bus.nfail.toNat + 1) 255 ∧ t.bus.wait = .backoff ∧
        t.bus.backoffFrom = s.core.lt ∧ t.bus.machine = (if 15 ≤ s.bus.failRun then .halted else s.bus.machine) ∧
        t.bus.attn = s.bus.attn ∧ t.core = s.core) ∧
      (∃ t, exec (.attentionAttempt .sclTimeout) s = .next t ∧ t.bus.toutScl = true ∧
        t.bus.nfail.toNat = min (s.bus.nfail.toNat + 1) 255 ∧ t.bus.wait = .forFree ∧
        t.bus.attn = s.bus.attn ||| 0x100) ∧
      (∃ t, exec (.attentionAttempt .arbitrationLost) s = .next t ∧
        t.bus.arbLost.toNat = min (s.bus.arbLost.toNat + 1) 255 ∧ t.bus.wait = .forStop ∧
        t.bus.nfail = s.bus.nfail ∧ t.bus.machine = s.bus.machine ∧ t.core = s.core)) ∧
    (s.attemptDue = false → ∀ o, exec (.attentionAttempt o) s = .next s) ∧
    -- attentionBackoffExpiry (ATTENTION_BACKOFF_EXPIRY, R339) completes
    (s.bus.wait = .backoff → 50000 + 4000 * (s.bus.addr.toNat - 0x10) < 15625 * (s.since s.bus.backoffFrom + 1) →
      exec .attentionBackoffExpiry s = .next (s.modBus fun b => { b with wait := .none })) ∧
    (s.bus.wait ≠ .backoff → exec .attentionBackoffExpiry s = .next s) ∧
    -- renotifyExpiry (RENOTIFY_EXPIRY, R337) completes
    (s.renotifyDue = true → exec .renotifyExpiry s = .next (s.modBus fun b => { b with machine := .pending })) ∧
    (s.renotifyDue = false → exec .renotifyExpiry s = .next s) ∧
    -- dozeWakeByBus (DOZE_WAKE_BY_BUS, R329) completes
    (s.core.doze = true → s.bus.addrValid = true → s.core.waking = none → exec .dozeWakeByBus s =
      .next (s.modCore fun c => { c with waking := some { since := s.core.lt, byBus := true } })) ∧
    ((s.core.doze = false ∨ s.core.waking.isSome = true) → exec .dozeWakeByBus s = .next s)

/-- SYS.START with a ledger that covers the fixed price enables the reference and waits, and completes
with LEDGER_SHORT otherwise; SYS.STOP, SYS.DOZE, SYS.HOLD in RUN, SYS.RELEASE with a committed
bolt and SYS.RECOVER with no SEVERE source uncleared wait for the next boundary; SYS.RELEASE
without one completes with BOLT_INVALID and SYS.RECOVER with one uncleared with WRONG_STATE.
SYS.HOLD from READY enters HELD at once, by the host's hand. SYS.RESET with the key 0x5A completes
with OK and starts the reset's delay at LT, or with BUSY while the NVM is programmed. SYS.INFO
answers serial number, boot count, slot, boot cause and patch level. The last chunk of a SYS.PATCH
waits for its programming unless the lock is SEALED, which completes it with LOCKED. -/
def Obligations.SysCommands : Prop :=
  ∀ (s : State) (n : SlotId) (p : List Byte),
    -- sysStart (SYS_START, R24) completes
    (s.request n 0x0101 p →
      (s.startShort = true → exec (.sysStart n) s = .next (postStatus n .ledgerShort s)) ∧
      (s.startShort = false → ∃ t f, exec (.sysStart n) s = .next (pendOn n 0x0101 p .sysStart f t) ∧
        t = refEnable s ∧ t.core.refOn = true ∧ t.core.dev = s.core.dev ∧
        (s.frame.started = false → f = 0xFFFFFFFF))) ∧
    -- sysStop (SYS_STOP, R80) completes
    (s.request n 0x0102 p → exec (.sysStop n) s = .next (pendBoundary n 0x0102 p 1 s)) ∧
    -- sysHold (SYS_HOLD, R364) completes
    (s.request n 0x0103 p →
      (s.core.dev = .ready → ∃ t, exec (.sysHold n) s = .next t ∧ t.core.dev = .held ∧
        t.core.hcause = .hostHold ∧ t.core.startAuto = false) ∧
      (s.core.dev = .run → exec (.sysHold n) s = .next (pendBoundary n 0x0103 p 1 s))) ∧
    -- sysRelease (SYS_RELEASE, R364) completes
    (s.request n 0x0104 p →
      (s.bolt.hasCommitted = true → exec (.sysRelease n) s = .next (pendBoundary n 0x0104 p 1 s)) ∧
      (s.bolt.hasCommitted = false → exec (.sysRelease n) s = .next (postStatus n .boltInvalid s))) ∧
    -- sysDoze (SYS_DOZE, R459) completes
    (s.request n 0x0105 p → exec (.sysDoze n) s = .next (pendBoundary n 0x0105 p 1 s)) ∧
    -- sysReset (SYS_RESET, R453) completes
    (s.request n 0x0106 p → u8 p 0 = 0x5A →
      (s.nvmBusy = true → exec (.sysReset n) s = .next (postStatus n .busy s)) ∧
      (s.nvmBusy = false → ∃ t, exec (.sysReset n) s = .next t ∧ t.core.resetPosted = some s.core.lt ∧
        t.mbox.slots[n].st = .done ∧ u8 t.mbox.slots[n].bytes.toList 4 = 0 ∧ t.core.dev = s.core.dev ∧
        t.core.lt = s.core.lt ∧ t.rings = s.rings)) ∧
    -- sysRecover (SYS_RECOVER, R365) completes
    (s.request n 0x0107 p →
      (s.severeUncleared = true → exec (.sysRecover n) s = .next (postStatus n .wrongState s)) ∧
      (s.severeUncleared = false → exec (.sysRecover n) s = .next (pendBoundary n 0x0107 p 1 s))) ∧
    -- sysInfo (SYS_INFO, R364) completes
    (s.request n 0x0108 p → ∃ resp : List Byte, exec (.sysInfo n) s = .next (postOk n resp s) ∧
      resp.length = 20 ∧ slice resp 0 8 = toLE 8 Config.serial.toNat ∧
      slice resp 8 4 = toLE 4 s.core.bootCount.toNat ∧ u8 resp 13 = s.core.bootCause.val ∧
      slice resp 16 4 = toLE 4 s.core.patchLevel.toNat) ∧
    -- sysPatch (SYS_PATCH, R365) completes
    (∀ o : List Byte, s.lastChunk n 0x0109 0 o → 0 < o.length → s.nvmAllowed = true →
      (s.lock.level ≠ 0 → exec (.sysPatch n) s =
        .next (pendOn n 0x0109 o .patch s.frame.number (dropStaging 0x0109 0 s))) ∧
      (s.lock.level = 0 → exec (.sysPatch n) s = .next (postStatus n .locked s)))

/-- A wake that is due ends DOZE (R459): in RUN the measurement resumes at the next boundary, in
READY, with no trigger's action owed, a reference that was on is on again; a wake by any event but
the bus sets ATTN.WAKE. Without one nothing happens. A patch programmed, while writes are allowed,
is stored for the next BOOT and its command completes with OK, posted at once by a reeve that
posts (R365); the patch level in force stays. A discipline source that stops takes the clock to
holdover with notice 0x0101 (R20); one that is there again disciplines it, with notice 0x0102 at a
return but not the first time (R487). -/
def Obligations.DeviceEvents : Prop :=
  ∀ s : State,
    -- wakeComplete (WAKE_COMPLETE, R459) completes
    (∀ w, s.core.waking = some w → s.core.doze = true →
      (s.core.dev = .run → ∃ t, exec .wakeComplete s = .next t ∧ t.core.doze = false ∧ t.core.wakeResume = true ∧
        t.core.waking = none ∧ t.core.dev = .run ∧ (w.byBus = false → t.bus.attn.getLsbD 9 = true) ∧
        (w.byBus = true → t.bus.attn = s.bus.attn)) ∧
      (s.core.dev = .ready → s.core.refWasOn = true → s.time.owed = [] →
        ∃ t, exec .wakeComplete s = .next t ∧ t.core.doze = false ∧ t.core.refOn = true ∧
          t.core.dev = .ready)) ∧
    ((s.core.waking = none ∨ s.core.doze = false) → exec .wakeComplete s = .next s) ∧
    -- patchProgrammed (PATCH_PROGRAMMED, R365) completes
    (∀ x, s.mbox.pend.find? (·.wait == .patch) = some x → s.nvmAllowed = true → ∃ t, exec .patchProgrammed s = .next t ∧
      t.core.patchStored = Config.patchLevel x.payload ∧ t.core.patchLevel = s.core.patchLevel ∧
      (s.posts = true → t.mbox.slots[x.slot].st = .done ∧
        u8 t.mbox.slots[x.slot].bytes.toList 4 = 0) ∧ t.rings = s.rings) ∧
    (s.mbox.pend.find? (·.wait == .patch) = none ∨ s.nvmAllowed = false → exec .patchProgrammed s = .next s) ∧
    -- disciplineSourceStopped (DISCIPLINE_SOURCE_STOPPED, R20) completes
    (s.disciplines = true → s.core.discPresent = true → s.discNow = false →
      exec .disciplineSourceStopped s = .next (notice 0x0101 .ordinary (argB 0 (discCode s))
        (s.modCore fun c => { c with discPresent := false, clk := .holdover }))) ∧
    ((s.core.discPresent = false ∨ s.discNow = true) → exec .disciplineSourceStopped s = .next s) ∧
    -- disciplineSourcePresent (DISCIPLINE_SOURCE_PRESENT, R487) completes
    (s.disciplines = true → s.core.discPresent = false → s.discNow = true →
      ∃ t, exec .disciplineSourcePresent s = .next t ∧ t.core.discPresent = true ∧ t.core.discEver = true ∧
        t.core.clk = (if s.core.sys.discipline = 2 then .refclk else .fsync) ∧
        (s.core.discEver = false → t.rings = s.rings) ∧ t.frame = s.frame ∧ t.mbox = s.mbox) ∧
    ((s.core.discPresent = true ∨ s.discNow = false) → exec .disciplineSourcePresent s = .next s)

/-- A ramp at its target ends (R89): STARTING becomes RUNNING and a settling count begins at LT. A
stop whose zero bias was reached in an earlier tick makes the port STOPPED with its drivers off
(R80). A settling time that has passed ends CELL_SETTLING (R106). A pin out of bounds in two ticks
sends the port to SHUT and its source detects (R82). A ring driver at its limit, or a counter
electrode out of compliance, in 8 ticks detects and raises its notice once, and the port keeps
running (R82, R91). Once a frame of RUN the reeve compares a reference electrode: beyond 5 mV in
two frames in a row it raises notice 0x0204, at most every 6000 frames; one within 5 mV ends the
row, as a frame without a comparison does (R91). -/
def Obligations.PortEvents : Prop :=
  ∀ (s : State) (p : PortId),
    -- biasTargetReached (BIAS_TARGET_REACHED, R89) completes
    (s.ports[p].ramping = true → s.ports[p].driven = true → s.ports[p].applied = s.ports[p].target →
      ∃ t, exec (.biasTargetReached p) s = .next t ∧ t.ports[p].ramping = false ∧
        t.ports[p].reachedAt = s.core.lt ∧ t.ports[p].applied = s.ports[p].applied ∧
        t.ports[p].state = (if s.ports[p].state = .starting then .running else s.ports[p].state) ∧
        (s.ports[p].settling = true → s.ports[p].state ≠ .stopping → t.ports[p].settleFrom = some s.core.lt) ∧
        (∀ q : PortId, q ≠ p → t.ports[q] = s.ports[q]) ∧ t.rings = s.rings) ∧
    -- portStopped (PORT_STOPPED, R80) completes
    (s.stopDue p = true → s.core.stopping = false → ∃ t, exec (.portStopped p) s = .next t ∧
      t.ports[p].state = .stopped ∧ t.ports[p].applied = 0 ∧ t.ports[p].settling = false ∧
      t.core.dev = s.core.dev ∧ (∀ q : PortId, q ≠ p → t.ports[q].state = s.ports[q].state)) ∧
    (s.stopDue p = false → exec (.portStopped p) s = .next s) ∧
    -- cellSettlingEnd (CELL_SETTLING_END, R106) completes
    (s.settleDue p = true → exec (.cellSettlingEnd p) s =
      .next (s.modPort p (Port.settled s.core.lt))) ∧
    (s.settleDue p = false → exec (.cellSettlingEnd p) s = .next s) ∧
    -- protectionTrip (PROTECTION_TRIP, R82) completes
    (s.ports[p].driven = true → 2 ≤ s.ports[p].pinBad → ∃ t, exec (.protectionTrip p) s = .next t ∧
      t.ports[p].state = .shut ∧ t.ports[p].applied = 0 ∧ t.ports[p].pinBad = 0 ∧
      t.faults.src[(Fin.ofNat 64 (16 + p.val) : Source)].det = true ∧
      (∀ q : PortId, q ≠ p → t.ports[q].state = s.ports[q].state)) ∧
    (s.ports[p].pinBad < 2 → exec (.protectionTrip p) s = .next s) ∧
    -- ringDriverLimit (RING_DRIVER_LIMIT, R82) completes
    (s.ports[p].driven = true → 8 ≤ s.ports[p].ringBad →
      ∃ t, exec (.ringDriverLimit p) s = .next t ∧ t.ports[p] = { s.ports[p] with ringNoticed := true } ∧
        t.faults.src[(Fin.ofNat 64 (16 + p.val) : Source)].det = true ∧
        (s.ports[p].ringNoticed = true → t.rings = s.rings)) ∧
    -- ceCompliance (CE_COMPLIANCE, R91) completes
    (s.ports[p].measures = true → s.ports[p].mode.isEc = true → 8 ≤ s.ports[p].ceBad →
      ∃ t, exec (.ceCompliance p) s = .next t ∧ t.ports[p] = { s.ports[p] with ceNoticed := true } ∧
        t.faults.src[groupSource 32 p].det = true ∧ (s.ports[p].ceNoticed = true → t.rings = s.rings)) ∧
    -- vreError (VRE_ERROR, R91) completes
    (∀ uv : Int, s.reeveActive = true → s.measuring = true → s.ports[p].measures = true →
      s.ports[p].mode.isEc = true → s.ports[p].vreFrame ≠ some s.frame.number →
      (uv.natAbs ≤ 5000 → exec (.vreError p uv) s = .next (s.modPort p fun q =>
        { q with vreBad := 0, vreAge := none, vreFrame := some s.frame.number })) ∧
      (5000 < uv.natAbs → s.ports[p].vreFrame ≠ some (s.frame.number - 1) → exec (.vreError p uv) s =
        .next (s.modPort p fun q => { q with vreBad := 1, vreAge := none, vreFrame := some s.frame.number })) ∧
      (5000 < uv.natAbs → s.ports[p].vreFrame = some (s.frame.number - 1) →
        (s.ports[p].vreBad = 0 → exec (.vreError p uv) s =
          .next (s.modPort p fun q => { q with vreBad := 1, vreFrame := some s.frame.number })) ∧
        (1 ≤ s.ports[p].vreBad → (∀ a, s.ports[p].vreAge = some a → 6000 ≤ a) → exec (.vreError p uv) s =
          .next (notice 0x0204 .ordinary (argB 0 p.val ||| argWi 4 uv) (s.modPort p fun q =>
            { q with vreBad := q.vreBad + 1, vreAge := some 0, vreFrame := some s.frame.number }))) ∧
        (∀ a, 1 ≤ s.ports[p].vreBad → s.ports[p].vreAge = some a → a < 6000 → exec (.vreError p uv) s =
          .next (s.modPort p fun q =>
            { q with vreBad := q.vreBad + 1, vreFrame := some s.frame.number })))) ∧
    (∀ uv : Int, s.reeveActive = false ∨ s.measuring = false ∨ s.ports[p].vreFrame = some s.frame.number →
      exec (.vreError p uv) s = .next s)

/-- A command due at a boundary in a device state its States column does not name completes with
WRONG_STATE and has no other effect. Otherwise PORT.RANGE, PORT.WINDOW, PORT.AUX, PORT.RING and
PORT.LAYER set what they carry of their port and complete with OK (the last three with WRONG_STATE
where the port's mode no longer admits them), as FRAME.POLDER, FRAME.SELECT and FRAME.PATTERN do
of the scheduler; HEAT.STOP of a RUNNING port stops its profile, starts the replacement where one
loaded after its doorbell is due as the iteration ends there (R136), and completes with
WRONG_STATE for any other; PORT.START of a STOPPED port with a mode starts it unless the device
stops there too (R80); SYS.RECOVER with a SEVERE source uncleared completes with WRONG_STATE;
SYS.DOZE meeting a wake completes with BUSY. What a command waits for otherwise counts down by one
at each boundary. -/
def Obligations.CommandsAtTheirBoundary : Prop :=
  ∀ (s : State) (x : Pend),
    (∀ r, cmdRow x.op.toNat = some r → s.core.dev ∉ r.states → (∀ f, x.wait ≠ .effectAt f) →
      applyDue x s = postStatus x.slot .wrongState s) ∧
    (∀ k, x.wait = .boundary k →
      (∀ r, cmdRow x.op.toNat = some r → s.core.dev ∈ r.states →
        (x.op = 0x0203 → applyDue x s = postStatus x.slot .ok
          (s.modInput (portNo (u8 x.payload 0)) (Fin.ofNat 2 (u8 x.payload 1)) fun i =>
            { i with lo := Fin.ofNat 8 (u8 x.payload 2), hi := Fin.ofNat 8 (u8 x.payload 3)
                     start := Fin.ofNat 8 (u8 x.payload 4), s := u8 x.payload 5 })) ∧
        (x.op = 0x0204 → applyDue x s = postStatus x.slot .ok (s.modPort (portNo (u8 x.payload 0)) fun q =>
          { q with len := u8 x.payload 1, lmin := u8 x.payload 2 })) ∧
        (x.op = 0x0206 →
          (portAuxFault x.payload s = none → applyDue x s = postStatus x.slot .ok
            (s.modPort (portNo (u8 x.payload 0)) fun q => { q with aux := Fin.ofNat 3 (u8 x.payload 1) })) ∧
          (portAuxFault x.payload s ≠ none → applyDue x s = postStatus x.slot .wrongState s)) ∧
        (x.op = 0x0207 →
          (portRingFault x.payload s = none → applyDue x s = postStatus x.slot .ok
            (s.modPort (portNo (u8 x.payload 0)) fun q => { q with ring := BitVec.ofNat 8 (u8 x.payload 1) })) ∧
          (portRingFault x.payload s ≠ none → applyDue x s = postStatus x.slot .wrongState s)) ∧
        (x.op = 0x0208 →
          (portLayerFault x.payload s = none → applyDue x s = postStatus x.slot .ok
            (s.modPort (portNo (u8 x.payload 0)) fun q => { q with vlayer := s16 x.payload 2 })) ∧
          (portLayerFault x.payload s ≠ none → applyDue x s = postStatus x.slot .wrongState s)) ∧
        (x.op = 0x0209 → s.startable (portNo (u8 x.payload 0)) = true → s.core.stopping = false →
          s.stopsNow = false →
          applyDue x s = postStatus x.slot .ok (startPort (portNo (u8 x.payload 0)) s)) ∧
        (x.op = 0x0304 → s.ports[portNo (u8 x.payload 0)].state = .running →
          (s.heat[portNo (u8 x.payload 0)].late = false →
            applyDue x s = postStatus x.slot .ok (stopProfile (portNo (u8 x.payload 0)) s)) ∧
          (s.heat[portNo (u8 x.payload 0)].late = true → s.heat[portNo (u8 x.payload 0)].iterEnd = true →
            applyDue x s = postStatus x.slot .ok
              (startProfile (portNo (u8 x.payload 0)) (stopProfile (portNo (u8 x.payload 0)) s)))) ∧
        (x.op = 0x0304 → s.ports[portNo (u8 x.payload 0)].state ≠ .running →
          applyDue x s = postStatus x.slot .wrongState s) ∧
        (x.op = 0x1203 → applyDue x s = postStatus x.slot .ok (s.modFrame fun f =>
          { f with lead := u8 x.payload 0, trail := u8 x.payload 1, guarded := u8 x.payload 2 })) ∧
        (x.op = 0x1202 → applyDue x s = postStatus x.slot .ok (s.modFrame fun f =>
          { f with active := Fin.ofNat 4 (u8 x.payload 0), witness := [] })) ∧
        (x.op = 0x1201 → ∃ t, applyDue x s = postStatus x.slot .ok t ∧
          t.frame.patterns = s.frame.patterns.set (Fin.ofNat 4 (u8 x.payload 0)) (parsePattern (x.payload.drop 1)) ∧
          t.frame.active = s.frame.active ∧ t.ports = s.ports ∧ t.core = s.core) ∧
        (x.op = 0x0107 → s.severeUncleared = true → applyDue x s = postStatus x.slot .wrongState s) ∧
        (x.op = 0x0105 → s.core.stopping = false → s.wakeNow = true →
          applyDue x s = postStatus x.slot .busy s)) ∧
      (x.dueNow s.frame.number = true ↔ k ≤ 1) ∧ x.countDown.wait = .boundary (k - 1)) ∧
    ∀ p : PortId, s.ports[p].mode.isEc = false → ∃ t, t = startPort p s ∧ t.ports[p].state = .running

/-- A TICK of a Rexia in OFF changes nothing. A TICK outside reset adds one to LT, takes the tick's
VDD, current and reeve inputs, puts on FAULT_N whether a source was uncleared and unmasked as the
tick now over began or ended (R406), and, after BOOT, moves the frame scheduler by one tick under
R29 to R32; the device state stays, unless a reaction waits for the action a stalled reeve owes
it. Its mailboxes stay unless a BOLT.COMMIT waits for its mark, a response is owed or a doorbell
waits; the doorbells of the bursts of the tick now over wait for this one (R343). With RESET_N low
only LT and the detectors move. FRAME_BOUNDARY takes a boundary that is due once: the frame's
number and tick stay, the next plan is used up and no freeze is on record. PLAN_FREEZE freezes at
tick 608 of a started frame while the reeve runs, at LT, and leaves the plan in force. -/
def Obligations.TickAndBoundary : Prop :=
  -- tick (TICK, R35) completes
  (∀ (i : TickIn) (s : State), s.core.dev = .off → exec (.tick i) s = .next s) ∧
  (∀ (i : TickIn) (s : State), s.core.dev ≠ .off → s.core.rstLow = true →
    ∃ t, exec (.tick i) s = .next t ∧ t.core.lt = s.core.lt + 1 ∧ t.core.dev = s.core.dev ∧ t.frame = s.frame ∧
      t.rings = s.rings ∧ t.ports = s.ports ∧ t.mbox = s.mbox) ∧
  (∀ (i : TickIn) (s : State), s.core.dev ≠ .off → s.core.rstLow = false →
    (∀ (f : Source) (r : Reaction), s.faults.src[f].reaction = some r → r.acted = true) →
    ∃ t, exec (.tick i) s = .next t ∧ t.core.lt = s.core.lt + 1 ∧ t.core.dev = s.core.dev ∧
      t.core.vddMv = i.vddMv ∧ t.core.iddUa = i.iddUa ∧ t.core.reeveRuns = i.reeveRuns ∧
      t.pins.faultN = (s.pins.faultFrom || s.faultLow) ∧
      (s.mbox.rung = 0 → s.mbox.owed = [] → (∀ x ∈ s.mbox.pend, x.wait ≠ .boltCommit) →
        t.mbox = { s.mbox with rung := s.mbox.rungNext, rungNext := 0 }) ∧
      (s.core.dev = .boot → t.frame = s.frame) ∧
      (s.core.dev ≠ .boot → t.frame.number = (s.frame.advance i.fsync).number ∧
        t.frame.tick = (s.frame.advance i.fsync).tick ∧
        t.frame.boundary = (s.frame.advance i.fsync).boundary)) ∧
  (∀ f : Frame, f.started = true → f.src = .byBolt → ∀ edge, (f.advance edge).number =
      (if 640 ≤ f.tick + 1 then f.number + 1 else f.number) ∧
    (f.advance edge).tick = (if 640 ≤ f.tick + 1 then 0 else f.tick + 1) ∧
    (f.advance edge).boundary = decide (640 ≤ f.tick + 1)) ∧
  -- frameBoundary (FRAME_BOUNDARY, R29) completes
  (∀ s : State, (s.frame.boundary = true → ∃ t, exec .frameBoundary s = .next t ∧ t.frame.boundary = false ∧
      t.frame.number = s.frame.number ∧ t.frame.tick = s.frame.tick ∧ t.plan.next = none ∧
      t.plan.frozenAt = none) ∧
    (s.frame.boundary = false → exec .frameBoundary s = .next s) ∧
    -- planFreeze (PLAN_FREEZE, R267) completes
    (s.reeveActive = true → s.frame.started = true → s.frame.tick = 608 → s.plan.frozenAt = none →
      ∃ t, exec .planFreeze s = .next t ∧ t.plan.frozenAt = some s.core.lt ∧ t.plan.cur = s.plan.cur ∧
        t.frame.number = s.frame.number ∧ t.frame.tick = 608))

/-- A sampled edge off the expected tick by d ticks is counted as a slip and reported by notice 0x1202
with d; an edge further off is counted as ignored. A boundary the scheduler made itself counts as
missed, once. The fourth in a row loses FSYNC with notice 0x1203 and the source becomes absent,
the edges toward a reacquisition counted anew. A reacquisition makes the source FSYNC again. The
wait timeout raises notice 0x1201. Each of them does nothing where it is not due. -/
def Obligations.FsyncEvents : Prop :=
  ∀ s : State,
    -- fsyncEdge (FSYNC_EDGE, R31) completes
    (s.frame.edge = true →
      (∀ d, s.frame.slip = some d → exec .fsyncEdge s = .next (notice 0x1202 .ordinary
        (argB 0 (d % 256).toNat) (s.modFrame fun f =>
          { f with edge := false, slip := none, edgeIgnored := false, slips := countUp f.slips 1
                   ignored := if f.edgeIgnored then countUp f.ignored 1 else f.ignored }))) ∧
      (s.frame.slip = none → exec .fsyncEdge s = .next (s.modFrame fun f =>
        { f with edge := false, edgeIgnored := false
                 ignored := if f.edgeIgnored then countUp f.ignored 1 else f.ignored }))) ∧
    (s.frame.edge = false → exec .fsyncEdge s = .next s) ∧
    -- fsyncMissed (FSYNC_MISSED, R31) completes
    exec .fsyncMissed s = .next (if s.frame.selfMade then
      s.modFrame fun f => { f with selfMade := false, missed := s.frame.missed + 1 } else s) ∧
    -- fsyncLost (FSYNC_LOST, R31) completes
    (s.frame.src = .following → 4 ≤ s.frame.missed → exec .fsyncLost s =
      .next (notice 0x1203 .ordinary 0 (s.modFrame fun f => { f with src := .absent, missed := 0, sinceEdge := none, goodEdges := 0 }))) ∧
    ((s.frame.src ≠ .following ∨ s.frame.missed < 4) → exec .fsyncLost s = .next s) ∧
    -- fsyncReacquired (FSYNC_REACQUIRED, R32) completes
    exec .fsyncReacquired s = .next (if s.frame.reacquired then
      s.modFrame fun f => { f with reacquired := false, src := .following } else s) ∧
    -- fsyncWaitTimeout (FSYNC_WAIT_TIMEOUT, R30) completes
    exec .fsyncWaitTimeout s = .next (if s.frame.waitOver then
      notice 0x1201 .ordinary 0 (s.modFrame fun f => { f with waitOver := false }) else s)

/-- QUIET_CHANGE sets the pin's level and remembers a change or a low pulse until the next sampling; a
tick's QUIET reading is quiet only if the pin was high at both samplings with nothing caught
between them. After 16 consecutive counted frames with a contradicted polder notice 0x1204 carries
the last frame's count, at most once in 6000 frames. After 360000 frames unguarded notice 0x1205
names the ports, and the hour counts. -/
def Obligations.QuietAndUnguardedNotices : Prop :=
  ∀ s : State,
    -- quietChange (QUIET_CHANGE, R47) completes
    (∀ high pulse, exec (.quietChange high pulse) s = .next (s.modPins fun p =>
      { p with quiet := high, quietCaught := p.quietCaught || pulse || (high != p.quiet) })) ∧
    ((s.pins.sampleQuiet).1 = true ↔
      s.pins.quietAtSample = true ∧ s.pins.quiet = true ∧ s.pins.quietCaught = false) ∧
    -- patternDisagreeNotice (PATTERN_DISAGREE_NOTICE, R49) completes
    (16 ≤ s.frame.badRun → (∀ a, s.frame.badSince = some a → 6000 ≤ a) → exec .patternDisagreeNotice s =
      .next (notice 0x1204 .ordinary (argW 4 s.frame.badLast) (s.modFrame fun f => { f with badSince := some 0 }))) ∧
    ((s.frame.badRun < 16 ∨ ∃ a, s.frame.badSince = some a ∧ a < 6000) → exec .patternDisagreeNotice s = .next s) ∧
    -- unguardedHourlyNotice (UNGUARDED_HOURLY_NOTICE, R60) completes
    (s.frame.unguarded ≠ 0 → 360000 ≤ s.frame.unguardedFrames → exec .unguardedHourlyNotice s =
      .next (notice 0x1205 .ordinary (argB 0 1 ||| argH 2 s.frame.unguarded.toNat) (s.modFrame fun f =>
        { f with unguardedFrames := f.unguardedFrames - 360000, hours := countUp f.hours 1 }))) ∧
    ((s.frame.unguarded = 0 ∨ s.frame.unguardedFrames < 360000) → exec .unguardedHourlyNotice s = .next s)

/-- The last chunk of a FRAME.PATTERN loads the 640 symbols into its index, at once where that pattern
is not the active one, else at the boundary its plan gives; FRAME.SELECT waits for its boundary or
for the frame it names; FRAME.POLDER takes effect at once outside RUN and waits for its boundary
in RUN. FRAME.WINDOWS and FRAME.STATUS answer a snapshot of their objects, and CLEAR zeroes the
status counters after the snapshot. -/
def Obligations.FrameCommands : Prop :=
  ∀ (s : State) (n : SlotId) (p : List Byte),
    -- framePattern (FRAME_PATTERN, R41) completes
    (∀ o : List Byte, ∀ k < 4, s.lastChunk n 0x1201 k o → o.length = 160 →
      (k ≠ s.frame.active.val → exec (.framePattern n) s = .next (postStatus n .ok
        ((dropStaging 0x1201 k s).modFrame fun f =>
          { f with patterns := f.patterns.set (k % 4) (parsePattern o) (Nat.mod_lt _ (by decide)) }))) ∧
      (k = s.frame.active.val → exec (.framePattern n) s =
        .next (pendBoundary n 0x1201 (BitVec.ofNat 8 k :: o) (s.planBoundaries n) (dropStaging 0x1201 k s)))) ∧
    -- frameSelect (FRAME_SELECT, R41) completes
    (s.request n 0x1202 p → frameSelectFault p s = none →
      (u8 p 1 = 0 → exec (.frameSelect n) s = .next (pendBoundary n 0x1202 p (s.planBoundaries n) s)) ∧
      (u8 p 1 = 1 → exec (.frameSelect n) s = .next (pendOn n 0x1202 p (.frame (BitVec.ofNat 32 (u32 p 4)))
        (BitVec.ofNat 32 (u32 p 4)) s))) ∧
    -- framePolder (FRAME_POLDER, R43) completes
    (s.request n 0x1203 p → framePolderFault p = none →
      (s.core.dev ≠ .run → exec (.framePolder n) s = .next (postStatus n .ok (s.modFrame fun f =>
        { f with lead := u8 p 0, trail := u8 p 1, guarded := u8 p 2 }))) ∧
      (s.core.dev = .run → exec (.framePolder n) s =
        .next (pendBoundary n 0x1203 p (s.planBoundaries n) s))) ∧
    -- frameWindows (FRAME_WINDOWS, R56) completes
    (s.request n 0x1204 p → u16 p 0 < 16 → u16 p 2 = 0 → u8 p 4 ≤ 1 → firstNonZero p 5 3 = none →
      ∃ t, exec (.frameWindows n) s = .next (postOk n (Snapshot.response 0
          { op := 0x1204, sel := u16 p 0, frame := s.frame.number, data := s.windowsObject (portNo (u16 p 0)) }) t) ∧
        t = takeSnap 0x1204 (u16 p 0) (s.windowsObject (portNo (u16 p 0))) s) ∧
    -- frameStatus (FRAME_STATUS, R359) completes
    (s.request n 0x1205 p → u16 p 0 = 0 → u16 p 2 = 0 → firstNonZero p 5 3 = none →
      (u8 p 4 = 0 → exec (.frameStatus n) s = .next (postOk n (Snapshot.response 0
          { op := 0x1205, sel := 0, frame := s.frame.number, data := s.frameStatus })
        (takeSnap 0x1205 0 s.frameStatus s))) ∧
      (u8 p 4 = 1 → ∃ t, exec (.frameStatus n) s = .next (postOk n (Snapshot.response 0
          { op := 0x1205, sel := 0, frame := s.frame.number, data := s.frameStatus }) t) ∧
        t.frame.slips = 0 ∧ t.frame.ignored = 0 ∧ t.frame.cuts = 0 ∧ t.frame.contradicted = 0 ∧
        t.frame.hours = 0 ∧ (∀ k : PortId, t.ports[k].breach = 0 ∧ t.ports[k].unguardedCount = 0) ∧
        t.rings = s.rings ∧ t.core = s.core))

/-- CAL.BEGIN of a RUNNING port with a model and no hold begins a session in the tick of its doorbell
while the reeve runs, and is then only answered; one that has not begun there begins when it runs:
the inputs are pinned on the ranges it names, or on those they have, and a report of an earlier
session is gone. CAL.ZERO and CAL.SPAN of a session that can take a step start to average and
wait. CAL.COMMIT with a step to commit, CAL.ABORT of a session and CAL.RANGE of a port in hold
wait for their boundary. CAL.ELEC that Table 11-6 does not refuse waits for its end, with one more
run. CAL.STATUS answers a step's 26 bytes or a target's 10. CAL.CLEAR voids the port's record
while NVM writes are allowed. Each refusal posts the status its rule gives and changes nothing
else. -/
def Obligations.CalCommands : Prop :=
  (∀ (s : State) (n : SlotId) (k : PortId), s.reeveActive = true → s.core.dev ≠ .boot → s.badWord n = none →
    requestFault s.mbox.slots[n] s.core.dev = none → s.mbox.slots[n].op = 0x0901 →
    u8 s.mbox.slots[n].payload 0 = k.val → s.beginRefusal s.mbox.slots[n].payload = none →
      (atDoorbell n s).cal.sessions[k] = some { begun := s.core.lt } ∧
      (atDoorbell n s).mbox.slots[n].early = true) ∧
  ∀ (s : State) (n : SlotId) (p : List Byte) (k : PortId), u8 p 0 = k.val →
    -- calBegin (CAL_BEGIN, R246) completes
    (s.request n 0x0901 p → s.mbox.slots[n].early = true → s.calHold k = true →
      exec (.calBegin n) s = .next (postStatus n .ok s)) ∧
    (s.request n 0x0901 p → calBeginFault p s = none → u8 (s.gas.model k) 0 ≠ 0 →
      (s.ports[k].state = .running → s.calHold k = false → ∃ t, exec (.calBegin n) s = .next (postStatus n .ok t) ∧
        t.cal.sessions[k] = some { begun := s.core.lt } ∧ t.cal.steps[k] = ({}, {}) ∧
        (∀ i : Fin 2, t.ports[k].inputs[i].pinned = some (if (u8 p 1).testBit i.val then
          Fin.ofNat 8 (u8 p (2 + i.val)) else s.ports[k].inputs[i].range)) ∧ t.gas = s.gas ∧ t.rings = s.rings) ∧
      (s.mbox.slots[n].early = false → s.ports[k].state ≠ .running → exec (.calBegin n) s = .next (postStatus n .wrongState s)) ∧
      (s.mbox.slots[n].early = false → s.ports[k].state = .running → s.calHold k = true → exec (.calBegin n) s = .next (postStatus n .busy s))) ∧
    (u8 p 1 = 0 → u16 p 2 ≠ 0 →
      -- calZero (CAL_ZERO, R247) completes
      (s.request n 0x0902 p → s.stepRefusal k false p = none → ∃ t f,
        exec (.calZero n) s = .next (pendOn n 0x0902 p (.calStep k) f t) ∧ (∀ x, s.cal.sessions[k] = some x →
          ∃ y, t.cal.sessions[k] = some y ∧ y.begun = x.begun ∧ y.zero = x.zero ∧ y.span = x.span ∧
            y.avg = some { span := false, n := u16 p 2, c := 0, after := s.mbox.slots[n].rung })) ∧
      -- calSpan (CAL_SPAN, R247) completes
      (s.request n 0x0903 p → s.stepRefusal k true p = none → ∃ t f,
        exec (.calSpan n) s = .next (pendOn n 0x0903 p (.calStep k) f t) ∧ (∀ x, s.cal.sessions[k] = some x →
          ∃ y, t.cal.sessions[k] = some y ∧ y.begun = x.begun ∧ y.zero = x.zero ∧ y.span = x.span ∧
            y.avg = some { span := true, n := u16 p 2, c := s32 p 4, after := s.mbox.slots[n].rung }))) ∧
    -- calCommit (CAL_COMMIT, R252) completes
    (s.request n 0x0904 p → u8 p 1 ≤ 1 →
      (s.commitRefusal k (u8 p 1 == 1) = none → exec (.calCommit n) s = .next (pendBoundary n 0x0904 p 1 s)) ∧
      (∀ e d, s.commitRefusal k (u8 p 1 == 1) = some (e, d) → exec (.calCommit n) s = .next (post n e d [] s))) ∧
    -- calAbort (CAL_ABORT, R254) completes
    (s.request n 0x0905 p →
      (s.session k ≠ none → exec (.calAbort n) s = .next (pendBoundary n 0x0905 p 1 s)) ∧
      (s.session k = none → exec (.calAbort n) s = .next (postStatus n .wrongState s))) ∧
    -- calRange (CAL_RANGE, R245) completes
    (s.request n 0x0906 p → u8 p 1 < s.ports[k].mode.inputs → u8 p 2 < 8 →
      (s.calHold k = true → exec (.calRange n) s = .next (pendBoundary n 0x0906 p (s.planBoundaries n) s)) ∧
      (s.calHold k = false → exec (.calRange n) s = .next (postStatus n .wrongState s))) ∧
    -- calElec (CAL_ELEC, R257) completes
    (s.request n 0x0907 p → u8 p 1 = 0 →
      (s.elecRefusal (.port k) = none → exec (.calElec n) s = .next (pendOn n 0x0907 p (.calElec (.port k))
        (s.frameIn 1) (s.modCal fun c => { c with runs := c.runs ++ [{ target := .port k, gain := 0, left := none }] }))) ∧
      (∀ e, s.elecRefusal (.port k) = some e → exec (.calElec n) s = .next (postStatus n e s))) ∧
    -- calStatus (CAL_STATUS, R358) completes
    (s.request n 0x0908 p → u8 p 1 ≤ 2 → ∃ resp : List Byte, exec (.calStatus n) s = .next (postOk n resp s) ∧
      resp.length = (if u8 p 1 = 2 then 10 else 26) ∧
      u8 resp 0 = (if u8 p 1 = 2 then s.cal.stats[targetNo (.port k)].result.val
        else if u8 p 1 = 0 then s.cal.steps[k].1.result.val else s.cal.steps[k].2.result.val)) ∧
    -- calClear (CAL_CLEAR, R256) completes
    (s.request n 0x0909 p →
      (s.nvmAllowed = true → exec (.calClear n) s = .next (postStatus n .ok (s.modCal fun c =>
        { c with recs := c.recs.set k none, staged := c.staged.set k none }))) ∧
      (s.nvmAllowed = false → exec (.calClear n) s = .next (postStatus n .nvmHot s)))

/-- In tick 1 a step whose gas frames are all closed reports its result and averages no longer; one
that can be committed is kept with the session. A session whose hold limit is reached is over,
with notice 0x0901, and its hold ends at the next boundary. In tick 0 an electrical calibration
that has lasted its frames applies what it measured if it lies within Table 11-5, and otherwise
counts a failure with notice 0x0902 and leaves the coefficients; it is then no longer a run. An
automatic one that is due and not refused adds a run. A periodic self-test that is due notes
whether it failed, restarts its age, and raises its source at the second failure in a row. The
electrical coefficients are stored at most once a day while NVM writes are allowed and they differ
from what is stored. Where nothing is due nothing happens. -/
def Obligations.CalEvents : Prop :=
  ∀ s : State,
    -- calStepEnd (CAL_STEP_END, R247) completes
    (∀ (p : PortId) x a, s.session p = some x → x.avg = some a → s.reeveActive = true → s.frame.tick = 1 → a.gone = a.n →
      ∃ t, exec (.calStepEnd p) s = .next t ∧
        (a.span = true → t.cal.steps[p] = (s.cal.steps[p].1, s.stepReport p x a)) ∧
        (a.span = false → t.cal.steps[p] = (s.stepReport p x a, s.cal.steps[p].2)) ∧
        (∃ y, t.cal.sessions[p] = some y ∧ y.avg = none ∧ y.begun = x.begun) ∧ t.gas = s.gas ∧ t.rings = s.rings) ∧
    -- calHoldLimit (CAL_HOLD_LIMIT, R254) completes
    (∀ (p : PortId) x, s.session p = some x → s.core.sys.holdMin * 3840000 ≤ s.since x.begun →
      ∃ t, exec (.calHoldLimit p) s = .next t ∧
        t.cal.sessions[p] = some { x with atLimit := true, avg := none } ∧ t.core = s.core ∧ t.gas = s.gas) ∧
    (∀ (p : PortId) x, s.session p = some x → s.since x.begun < s.core.sys.holdMin * 3840000 →
      exec (.calHoldLimit p) s = .next s) ∧
    -- elecCalEnd (ELEC_CAL_END, R257) completes
    (∀ (tg : CalTarget) m r, s.cal.runs.find? (·.target == tg) = some r → r.left = some 0 → s.frame.tick = 0 → s.reeveActive = true →
      ∃ t, exec (.elecCalEnd tg m) s = .next t ∧ (∀ x ∈ t.cal.runs, x.target ≠ tg) ∧
        (s.elecWithin r m = true → t.cal.stats[targetNo tg].result = 1 ∧ t.cal.stats[targetNo tg].run = 0) ∧
        (s.elecWithin r m = false → t.cal.stats[targetNo tg].result = 2 ∧ t.cal.refTrim = s.cal.refTrim ∧
          t.cal.conv = s.cal.conv ∧
          t.cal.stats[targetNo tg].total = countUp s.cal.stats[targetNo tg].total 1)) ∧
    (∀ tg m, s.cal.runs.find? (·.target == tg) = none → exec (.elecCalEnd tg m) s = .next s) ∧
    -- autoElecCal (AUTO_ELEC_CAL, R261) completes
    (∀ tg, s.reeveActive = true → s.core.dev = .run ∨ s.core.dev = .ready → s.autoDue tg = true →
      s.elecRefusal tg = none → ∃ g, exec (.autoElecCal tg) s = .next (s.modCal fun c =>
        { c with runs := c.runs ++ [{ target := tg, gain := g, left := none }] })) ∧
    (∀ tg, s.autoDue tg = false → exec (.autoElecCal tg) s = .next s) ∧
    -- periodicSelfTest (PERIODIC_SELF_TEST, R263) completes
    (∀ ppm wide, s.selfDue .reference = true → ∃ t, exec (.periodicSelfTest .reference (ppm, wide)) s = .next t ∧
      t.cal.selfFail[(0 : Fin 2)] = decide (2000 < ppm.natAbs) ∧ t.cal.selfAge[(0 : Fin 2)] = 0 ∧
      (2000 < ppm.natAbs → s.cal.selfFail[(0 : Fin 2)] = true → t.faults.src[(46 : Source)].det = true) ∧
      (s.cal.selfFail[(0 : Fin 2)] = false → t.faults = s.faults)) ∧
    (∀ ppm wide, s.selfDue .chargeStandard = true →
      ∃ t, exec (.periodicSelfTest .chargeStandard (ppm, wide)) s = .next t ∧
        t.cal.selfFail[(1 : Fin 2)] = decide (5000 < ppm.natAbs ∨ 5000 < wide.natAbs) ∧
        t.cal.selfAge[(1 : Fin 2)] = 0 ∧
        ((5000 < ppm.natAbs ∨ 5000 < wide.natAbs) → s.cal.selfFail[(1 : Fin 2)] = true →
          t.faults.src[(47 : Source)].det = true) ∧
        (s.cal.selfFail[(1 : Fin 2)] = false → t.faults = s.faults)) ∧
    (∀ k ppm, s.selfDue k = false → exec (.periodicSelfTest k ppm) s = .next s) ∧
    -- electricalCoefficientStore (ELECTRICAL_COEFFICIENT_STORE, R262) completes
    (s.reeveActive = true → s.nvmAllowed = true →
      (8640000 ≤ s.cal.sinceStore → s.elecSet ≠ s.cal.stored.getD ElecSet.factory →
        exec .electricalCoefficientStore s =
          .next (s.modCal fun c => { c with stored := some s.elecSet, sinceStore := 0 })) ∧
      (s.cal.sinceStore < 8640000 → exec .electricalCoefficientStore s = .next s))

/-- LEVEE.SET with a record R229 allows puts it in force at once outside RUN: the comparator is back
IN with zero counts and no latch; in RUN it waits for the next boundary. LEVEE.ACK clears the
latch of every comparator in its mask and of no other. LEVEE.STATUS answers eight bytes for each
comparator asked for. -/
def Obligations.LeveeCommands : Prop :=
  ∀ (s : State) (n : SlotId) (p : List Byte),
    -- leveeSet (LEVEE_SET, R230) completes
    (s.request n 0x0801 p → leveeSetFault p = none →
      (s.core.dev ≠ .run → ∃ t, exec (.leveeSet n) s = .next (postStatus n .ok t) ∧
        (∃ x, t.levees = s.levees.set (u8 p 0 % 48) x ∧ x.rec_ = slice p 4 20 ∧ x.out = false ∧ x.outCount = 0 ∧
          x.inCount = 0 ∧ x.latched = false ∧ x.evOut = false ∧ x.decided = []) ∧
        (s.levees[u8 p 0 % 48].out = false → t.rings = s.rings)) ∧
      (s.core.dev = .run → exec (.leveeSet n) s = .next (pendBoundary n 0x0801 p 1 s))) ∧
    -- leveeAck (LEVEE_ACK, R237) completes
    (s.request n 0x0802 p → firstNonZero p 6 2 = none → ∃ t, exec (.leveeAck n) s = .next (postStatus n .ok t) ∧
      (∀ k : Fin 48, t.levees[k] = if (u48 p 0).testBit k.val then { s.levees[k] with latched := false } else s.levees[k]) ∧
      t.rings = s.rings ∧ t.bus = s.bus) ∧
    -- leveeStatus (LEVEE_STATUS, R357) completes
    (s.request n 0x0803 p → leveeStatusFault p = none → ∃ resp : List Byte,
      exec (.leveeStatus n) s = .next (postOk n resp s) ∧ resp.length = 8 * u8 p 1 ∧
      ∀ k < u8 p 1, slice resp (8 * k) 8 = (s.levees[leveeNo (u8 p 0 + k)]).status)

/-- A LEDGER.GRANT in range completes with LEDGER_SHORT and changes nothing where it leaves less than
the fixed price; otherwise it takes effect at once outside RUN, and in RUN waits for the first
plan frozen from now on. LEDGER.RANK sets the port's rank in the same way. One that a freeze took
while it was QUEUED waits for that plan's boundary, or is answered once it has passed.
LEDGER.STATUS answers a snapshot of its object; CLEAR then zeroes the counters of Table 12-5 and
leaves the energy figures. -/
def Obligations.LedgerCommands : Prop :=
  ∀ (s : State) (n : SlotId) (p : List Byte),
    -- ledgerGrant (LEDGER_GRANT, R266) completes
    (s.request n 0x0A01 p → s.mbox.slots[n].early = false → grantFault p = none →
      (s.core.dev ≠ .run → exec (.ledgerGrant n) s = .next (
        if s.shortOf (u16 p 0) (u16 p 2) (u16 p 4) then postStatus n .ledgerShort s
        else postStatus n .ok (s.modLedger fun l => { l with ea := u16 p 0, er := u16 p 2, pcap := u16 p 4 }))) ∧
      (s.core.dev = .run → exec (.ledgerGrant n) s = .next (
        if s.shortOf (u16 p 0) (u16 p 2) (u16 p 4) then postStatus n .ledgerShort s
        else pendOn n 0x0A01 p .grant (s.frameIn (if s.plan.frozenAt.isSome then 2 else 1)) s))) ∧
    -- ledgerRank (LEDGER_RANK, R271) completes
    (s.request n 0x0A02 p → s.mbox.slots[n].early = false → u8 p 0 < 16 → u8 p 1 < 4 →
      (s.core.dev ≠ .run → ∃ t, exec (.ledgerRank n) s = .next (postStatus n .ok t) ∧
        (∀ k : PortId, t.ports[k] =
          if k.val = u8 p 0 then { s.ports[k] with rank := Fin.ofNat 4 (u8 p 1) } else s.ports[k]) ∧
        t.ledger = s.ledger ∧ t.rings = s.rings) ∧
      (s.core.dev = .run → exec (.ledgerRank n) s = .next
        (pendOn n 0x0A02 p .grant (s.frameIn (if s.plan.frozenAt.isSome then 2 else 1)) s))) ∧
    (∀ op c, (op, c) ∈ [((0x0A01 : W16), Instr.ledgerGrant n), (0x0A02, .ledgerRank n)] → s.request n op.toNat p →
      s.mbox.slots[n].early = true →
      (s.plan.frozenAt ≠ none → exec c s = .next (pendOn n op p (.effectAt (s.frameIn 1)) (s.frameIn 1) s)) ∧
      (s.plan.frozenAt = none → exec c s = .next (postStatus n .ok s))) ∧
    -- ledgerStatus (LEDGER_STATUS, R368) completes
    (s.request n 0x0A03 p → u16 p 0 = 0 → u16 p 2 = 0 → u8 p 4 < 2 → firstNonZero p 5 3 = none →
      ∃ t, exec (.ledgerStatus n) s = .next (postOk n (Snapshot.response 0
          { op := 0x0A03, sel := 0, frame := s.frame.number, data := s.ledger.status }) t) ∧
        (u8 p 4 = 0 → t.ledger = s.ledger) ∧
        (u8 p 4 = 1 → t.ledger.peak = 0 ∧ t.ledger.reserve = 0 ∧ t.ledger.overrun = 0 ∧ t.ledger.overload = 0 ∧
          (∀ k : PortId, t.ledger.ports[k].winThermal = 0 ∧ t.ledger.ports[k].winLedger = 0 ∧
            t.ledger.ports[k].heatThermal = 0 ∧ t.ledger.ports[k].heatHeadroom = 0 ∧
            t.ledger.ports[k].heatLedger = 0 ∧ t.ledger.ports[k].gauze = 0) ∧
          t.ledger.total = s.ledger.total ∧ t.ledger.debt = s.ledger.debt) ∧
        t.core = s.core ∧ t.rings = s.rings ∧ t.ports = s.ports)

/-- THERM.READ answers the last reading and the mean of each of the nine sensors and the mask of
failed ones. THERM.STATUS answers the device thermal state, the hold level, whether full throttle
is forced and the level of each sensor. THERM.POLICY sets the rest bit of every port and of
nothing else. THERM.ACK waits for the freeze that ends the forced state; where nothing is forced
it completes with WRONG_STATE. -/
def Obligations.ThermCommands : Prop :=
  ∀ (s : State) (n : SlotId) (p : List Byte),
    -- thermRead (THERM_READ, R280) completes
    (s.request n 0x0B01 p → ∃ resp : List Byte, exec (.thermRead n) s = .next (postOk n resp s) ∧ resp.length = 38 ∧
      (∀ t : Fin 9, slice resp (4 * t.val) 2 = toLEInt 2 (s.therm.sensors[t].reading.getD (-32768)) ∧
        slice resp (4 * t.val + 2) 2 = toLEInt 2 (s.therm.sensors[t].mean.getD (-32768))) ∧
      slice resp 36 2 = toLE 2 (bits (s.therm.sensors.toList.map (·.failed)))) ∧
    -- thermStatus (THERM_STATUS, R284) completes
    (s.request n 0x0B02 p → ∃ resp : List Byte, exec (.thermStatus n) s = .next (postOk n resp s) ∧ resp.length = 16 ∧
      u8 resp 0 = s.therm.state.val ∧ u8 resp 1 = s.therm.hold.val ∧ u8 resp 2 = boolNat s.therm.forced ∧ u8 resp 3 = s.thetaInForce % 256 ∧
      (∀ t : Fin 9, u8 resp (4 + t.val) = (s.therm.sensors[t].level).val)) ∧
    -- thermPolicy (THERM_POLICY, R287) completes
    (s.request n 0x0B03 p → ∃ t, exec (.thermPolicy n) s = .next (postStatus n .ok t) ∧
      (∀ k : PortId, t.ports[k] = { s.ports[k] with rest := (u16 p 0).testBit k.val }) ∧
      t.core = s.core ∧ t.therm = s.therm ∧ t.heat = s.heat ∧ t.rings = s.rings) ∧
    -- thermAck (THERM_ACK, R292) completes
    (s.request n 0x0B04 p →
      (s.therm.forced = false → exec (.thermAck n) s = .next (postStatus n .wrongState s)) ∧
      (s.therm.forced = true → ∃ t, exec (.thermAck n) s = .next t ∧ t.therm = { s.therm with ack := true } ∧
        t.mbox.slots[n].st = .pending ∧ (∃ x, t.mbox.pend = s.mbox.pend ++ [x] ∧ x.slot = n ∧ x.wait = .thermAck) ∧
        t.rings = s.rings ∧ t.heat = s.heat))

/-- A crossing that is due moves its comparator alone among the sensors' state; after the last
crossing of a tick the device thermal state is that of R284, before it stays as it was; SEVERE
rising switches every heater driver off. A SHUTDOWN crossing of a sensor not failed switches the
drivers off and enters LATCHED. In tick 1 of a frame a sensor without a reading in 8 or more ticks
of the last is declared failed and source 12 detects; with no failure to declare, no sensor
changes; when every sensor has failed the device is LATCHED. Compensation takes the nearest sensor
and moves towards its mean by at most 1 degC. Where nothing is due nothing happens. -/
def Obligations.ThermalEvents : Prop :=
  ∀ s : State,
    -- thermalCrossing (THERMAL_CROSSING, R283) completes
    (∀ (t : Fin 9) (l : Fin 3) rising, s.core.dev ≠ .off → s.therm.sensors[t].crossDue l rising = true →
      ∃ u, exec (.thermalCrossing t l rising) s = .next u ∧
        u.therm.sensors = s.therm.sensors.set t (s.therm.sensors[t].crossed rising l) ∧
        (u.crossingsDue = false → u.therm.state = u.thermState) ∧
        (u.crossingsDue = true → u.therm.state = s.therm.state) ∧
        (rising = true → l = 2 → ∀ p : PortId, u.heat[p].drove = false) ∧
        (¬ (rising = true ∧ l = 2) → u.heat = s.heat) ∧ u.core.dev = s.core.dev) ∧
    (∀ (t : Fin 9) (l : Fin 3) rising, s.therm.sensors[t].crossDue l rising = false →
      exec (.thermalCrossing t l rising) s = .next s) ∧
    -- thermalShutdown (THERMAL_SHUTDOWN, R293) completes
    (∀ t : Fin 9, s.core.dev ≠ .off → s.core.dev ≠ .latched → s.therm.sensors[t].failed = false →
      s.therm.sensors[t].rise[3] = 8 → s.therm.sensors[t].up.getLsbD 3 = false →
      ∃ u, exec (.thermalShutdown t) s = .next u ∧ u.core.dev = .latched ∧
        (∀ p : PortId, u.heat[p].drove = false) ∧ u.therm.sensors[t].up.getLsbD 3 = true) ∧
    (∀ t : Fin 9, s.therm.sensors[t].rise[3] < 8 ∨ s.therm.sensors[t].failed = true →
      exec (.thermalShutdown t) s = .next s) ∧
    -- sensorCrossCheck (SENSOR_CROSS_CHECK, R289) completes
    (s.tickOne = true →
      (∀ t : Fin 9, s.therm.sensors[t].failed = false → 8 ≤ s.therm.sensors[t].missedLast →
        ∃ u, exec .sensorCrossCheck s = .next u ∧ u.therm.sensors[t].failed = true ∧
          u.faults.src[(12 : Source)].det = true) ∧
      ((∀ t : Fin 9, s.therm.sensors[t].failed = false ∧ s.therm.sensors[t].missedLast < 8) →
        s.therm.deviant = none → ∃ u, exec .sensorCrossCheck s = .next u ∧
          u.therm.sensors = s.therm.sensors ∧ u.therm.failures = s.therm.failures ∧ u.core = s.core) ∧
      ((∀ t : Fin 9, s.therm.sensors[t].failed = true ∨ 8 ≤ s.therm.sensors[t].missedLast) →
        ∃ u, exec .sensorCrossCheck s = .next u ∧ u.core.dev = .latched) ∧
      -- oscRefCompensation (OSC_REF_COMPENSATION, R282) completes
      ∃ u, exec .oscRefCompensation s = .next u ∧ u.core.oscSensor = s.nearest 0 ∧ u.core.refSensor = s.nearest 0 ∧
        (∀ m, s.core.oscSensor = s.nearest 0 → s.therm.sensors[s.nearest 0].mean = some m →
          u.core.oscComp = some (compStep s.core.oscComp m)) ∧
        (∀ m, s.core.refSensor = s.nearest 0 → s.therm.sensors[s.nearest 0].mean = some m →
          u.core.refComp = some (compStep s.core.refComp m)) ∧
        (s.core.oscSensor ≠ s.nearest 0 → u.core.oscComp = s.core.oscComp) ∧
        u.therm = s.therm ∧ u.core.dev = s.core.dev) ∧
    (s.tickOne = false → exec .sensorCrossCheck s = .next s ∧ exec .oscRefCompensation s = .next s)

/-- FAULT.READ answers six bytes for each source asked for. FAULT.CLEAR clears the sticky bits, the
promotion count and the consequent count of every source in its mask that is not in reaction and
whose event is not of this very tick, and returns its class in force to the configured class;
every other source is as it was. FAULT.CONFIG sets the mask bit from the next tick, and class, N
and W at once, or at the end of a reaction in progress. FAULT.FORCE and FAULT.ECC complete with
LOCKED while the lock is SEALED; open, they set the FORCE bit from the next tick, and arm one word
or disarm. FAULT.GRACE sets the grace time. -/
def Obligations.FaultCommands : Prop :=
  ∀ (s : State) (n : SlotId) (p : List Byte),
    -- faultRead (FAULT_READ, R370) completes
    (s.request n 0x0E01 p → faultReadFault p = none → ∃ resp : List Byte,
      exec (.faultRead n) s = .next (postOk n resp s) ∧ resp.length = 6 * u8 p 1 ∧
      ∀ k < u8 p 1, ∀ f : Source, f.val = u8 p 0 + k →
        slice resp (6 * k) 6 = FSource.readBytes f.val s.faults.src[f]) ∧
    -- faultClear (FAULT_CLEAR, R412) completes
    (s.request n 0x0E02 p → u8 p 6 < 128 → u8 p 7 = 0 → ∃ t, exec (.faultClear n) s = .next (postStatus n .ok t) ∧
      (∀ f : Source, (u64 p 0).testBit f.val = true → s.faults.src[f].reaction = none →
        s.faults.src[f].taken = false →
        t.faults.src[f].observed = false ∧ t.faults.src[f].forced = false ∧ t.faults.src[f].events = [] ∧
        t.faults.src[f].consequent = 0 ∧ t.faults.src[f].inForce = s.faults.src[f].cls ∧
        t.faults.src[f].cls = s.faults.src[f].cls ∧ t.faults.src[f].det = s.faults.src[f].det) ∧
      (∀ f : Source, (u64 p 0).testBit f.val = false ∨ s.faults.src[f].reaction ≠ none →
        t.faults.src[f] = s.faults.src[f]) ∧
      t.faults.grace = s.faults.grace ∧ t.rings = s.rings ∧ t.ports = s.ports ∧ t.core.dev = s.core.dev) ∧
    -- faultConfig (FAULT_CONFIG, R406) completes
    (s.request n 0x0E03 p → faultConfigFault p = none → ∃ t, exec (.faultConfig n) s = .next (postStatus n .ok t) ∧
      (∀ f : Source, f.val = u8 p 0 →
        t.faults.src[f].nextMask = some (decide (u8 p 3 = 1)) ∧ t.faults.src[f].masked = s.faults.src[f].masked ∧
        (s.faults.src[f].reaction = none → t.faults.src[f].cls = fclassOf (u8 p 1) ∧
          t.faults.src[f].n = u8 p 2 ∧ t.faults.src[f].w = u16 p 4 ∧
          t.faults.src[f].inForce = if s.faults.src[f].promoted then s.faults.src[f].inForce else fclassOf (u8 p 1)) ∧
        (s.faults.src[f].reaction ≠ none → t.faults.src[f].pendCfg = some (fclassOf (u8 p 1), u8 p 2, u16 p 4) ∧
          t.faults.src[f].cls = s.faults.src[f].cls ∧ t.faults.src[f].inForce = s.faults.src[f].inForce)) ∧
      (∀ f : Source, f.val ≠ u8 p 0 → t.faults.src[f] = s.faults.src[f]) ∧ t.rings = s.rings ∧ t.core = s.core) ∧
    -- faultForce (FAULT_FORCE, R413) completes
    (s.request n 0x0E04 p →
      (s.lock.level = 0 → exec (.faultForce n) s = .next (postStatus n .locked s)) ∧
      (faultForceFault p s = none → ∃ t, exec (.faultForce n) s = .next (postStatus n .ok t) ∧
        (∀ f : Source, t.faults.src[f] = if f.val = u8 p 0 then
          { s.faults.src[f] with nextForce := some (u8 p 1 == 1) } else s.faults.src[f]) ∧ t.core = s.core)) ∧
    -- faultEcc (FAULT_ECC, R415) completes
    (s.request n 0x0E05 p →
      (s.lock.level = 0 → exec (.faultEcc n) s = .next (postStatus n .locked s)) ∧
      (faultEccFault p s = none →
        (u8 p 1 = 0 → exec (.faultEcc n) s = .next (postStatus n .ok (s.modFaults fun f => { f with armed := none }))) ∧
        (u8 p 1 ≠ 0 → ∃ t, exec (.faultEcc n) s = .next (postStatus n .ok t) ∧ t.faults.src = s.faults.src ∧
          (u8 p 0 ≠ 3 → t.faults.armed = some (Fin.ofNat 5 (u8 p 0), u32 p 4, u8 p 1))))) ∧
    -- faultGrace (FAULT_GRACE, R407) completes
    (s.request n 0x0E06 p → 1 ≤ u16 p 0 → u16 p 0 ≤ 1000 →
      exec (.faultGrace n) s = .next (postStatus n .ok (s.modFaults fun f => { f with grace := u16 p 0 })))

/-- An event that is due, with no reaction due to end: of a GRAVE source it enters LATCHED with
ATTN.FAULT; merged, it adds one to the consequent count of the reacting source and begins nothing;
counted without promotion it sets a sticky bit and begins no reaction; of a source then SEVERE it
begins a reaction with the grace time now set. An event not due changes nothing. A watchdog that
was not served for 20 ms is an event of source 4. A reaction whose condition is gone is marked
handled, with this tick as its action tick. At grace expiry outside BOOT the source's block action
is taken, or SAFE entered; neither it nor the reeve's own action moves the device unless a
SYS.STOP waits for its ports. In the eighth tick after the action tick a condition still reported
enters SAFE, one gone does not. A reaction ends at its third boundary after its action. -/
def Obligations.FaultEvents : Prop :=
  ∀ s : State,
    -- faultEvent (FAULT_EVENT, R402) completes
    (∀ f : Source, s.core.dev ≠ .off → s.faults.src[f].eventDue = true → (∀ g, s.reactionEndDue g = false) →
      (s.faults.src[f].inForce = .grave → ∃ t, exec (.faultEvent f) s = .next t ∧ t.core.dev = .latched ∧
        t.bus.attn.getLsbD 5 = true) ∧
      (s.faults.src[f].inForce ≠ .grave → ∀ r, s.faults.mergedInto f = some r →
        ∃ t, exec (.faultEvent f) s = .next t ∧
          t.faults.src[r].consequent = min 65535 (s.faults.src[r].consequent + 1) ∧
          (∀ g : Source, t.faults.src[g].reaction = s.faults.src[g].reaction) ∧ t.core = s.core ∧ t.rings = s.rings) ∧
      (s.faults.mergedInto f = none → s.faults.src[f].count.inForce ≠ .grave →
        s.faults.src[f].count.inForce ≠ .severe → ∃ t, exec (.faultEvent f) s = .next t ∧
          t.faults.src[f] = s.faults.src[f].count ∧
          (t.faults.src[f].observed = true ∨ t.faults.src[f].forced = true) ∧
          (∀ g : Source, g ≠ f → t.faults.src[g] = s.faults.src[g]) ∧ t.core = s.core) ∧
      (s.faults.mergedInto f = none → s.faults.src[f].inForce ≠ .grave → s.faults.src[f].count.inForce = .severe →
        ∃ t, exec (.faultEvent f) s = .next t ∧
          (∃ r, t.faults.src[f].reaction = some r ∧ r.grace = 64 * s.faults.grace ∧ r.action = none) ∧
          t.bus.attn.getLsbD 5 = true ∧ (s.core.stopping = false → t.core.dev = s.core.dev))) ∧
    (∀ f : Source, s.faults.src[f].eventDue = false → exec (.faultEvent f) s = .next s) ∧
    -- watchdogTimeout (WATCHDOG_TIMEOUT, R400) completes
    (1280 ≤ s.core.wdogTicks → exec .watchdogTimeout s = exec (.faultEvent 4) (raise 4 s)) ∧
    (s.core.wdogTicks < 1280 → exec .watchdogTimeout s = .next s) ∧
    -- reactionHandled (REACTION_HANDLED, R408) completes
    (∀ f : Source, ∀ r, s.faults.src[f].reaction = some r → r.action = none →
      (s.handledDue f r = true → r.acted = true → ∃ t, exec (.reactionHandled f) s = .next t ∧
        t.faults.src[f].reaction = some { r with action := some s.core.lt, checks := true } ∧
        (∀ g : Source, g ≠ f → t.faults.src[g] = s.faults.src[g]) ∧ t.core = s.core) ∧
      (s.handledDue f r = false → exec (.reactionHandled f) s = .next s) ∧
      -- graceExpiry (GRACE_EXPIRY, R408) completes
      (r.grace = 0 → s.core.dev ≠ .boot → s.core.dev ≠ .off → s.core.dev ≠ .latched →
        (blockCode f = none → ∃ t, exec (.graceExpiry f) s = .next t ∧ t.core.dev = .safe) ∧
        (blockCode f ≠ none → ∃ t, exec (.graceExpiry f) s = .next t ∧ (s.core.stopping = false → t.core.dev = s.core.dev) ∧
          ∃ x, t.faults.src[f].reaction = some x ∧ x.action = some s.core.lt ∧ x.checks = true)) ∧
      (0 < r.grace → exec (.graceExpiry f) s = .next s)) ∧
    (∀ f : Source, ∀ r a, s.faults.src[f].reaction = some r → r.action = some a →
      exec (.reactionHandled f) s = .next s ∧ exec (.graceExpiry f) s = .next s ∧
      -- actionCheck (ACTION_CHECK, R408) completes
      (r.checks = true → s.since a = 8 →
        (s.faults.src[f].det = true → s.core.dev ≠ .off → s.core.dev ≠ .latched →
          ∃ t, exec (.actionCheck f) s = .next t ∧ t.core.dev = .safe) ∧
        (s.faults.src[f].det = false → exec (.actionCheck f) s = .next
          (s.modSource f fun x => { x with reaction := some { r with checks := false } }))) ∧
      (r.checks = false ∨ s.since a ≠ 8 → exec (.actionCheck f) s = .next s) ∧
      -- reactionEnd (REACTION_END, R407) completes
      (3 ≤ r.boundaries → ∃ t, exec (.reactionEnd f) s = .next t ∧ t.faults.src[f].reaction = none ∧
        (∀ g : Source, g ≠ f → t.faults.src[g] = s.faults.src[g]) ∧ t.core = s.core) ∧
      (r.boundaries < 3 → exec (.reactionEnd f) s = .next s)) ∧
    (∀ f : Source, s.faults.src[f].reaction = none →
      exec (.reactionHandled f) s = .next s ∧ exec (.graceExpiry f) s = .next s ∧
      exec (.actionCheck f) s = .next s ∧ exec (.reactionEnd f) s = .next s)

/-- The first chunk of a BOLT.STAGE of 64 to 32768 bytes, a multiple of 4, erases the slot that is not
in force, its mark included, and programs the chunk there; the last chunk programs its bytes and
makes the slot a valid bolt only where the selvedge and the generation pass, otherwise it
completes with BOLT_INVALID. The other slot is never touched. BOLT.COMMIT of a staged generation
waits for its mark; of any other it is BOLT_INVALID. Writes held refuse both with NVM_HOT.
BOLT.INFO and BOX.INFO answer their objects. BOX.READ answers the record of the given age, whose
NVM words it reads, or nothing beyond the oldest. BOX.ERASE needs the lock open at factory level
and starts the erase. -/
def Obligations.BoltAndBoxCommands : Prop :=
  ∀ (s : State) (n : SlotId) (p : List Byte),
    -- boltStage (BOLT_STAGE, R371) completes
    (s.request n 0x0F01 p → u16 p 0 = 0 → u8 p 7 = 0 →
      (u8 p 6 = 1 → u16 p 2 = 0 → 64 ≤ u16 p 4 → u16 p 4 ≤ 32768 → u16 p 4 % 4 = 0 → (p.drop 8).length < u16 p 4 →
        (s.nvmAllowed = true → ∃ t, exec (.boltStage n) s = .next (post n .ok (p.drop 8).length [] t) ∧
          t.bolt.slot s.bolt.stageTarget = { bytes := p.drop 8, total := u16 p 4 } ∧
          t.bolt.slot (!s.bolt.stageTarget) = s.bolt.slot (!s.bolt.stageTarget) ∧ t.bolt.target = s.bolt.stageTarget ∧
          t.bolt.inForce = s.bolt.inForce ∧ t.rings = s.rings) ∧
        (s.nvmAllowed = false → exec (.boltStage n) s = .next (postStatus n .nvmHot s))) ∧
      (∀ g, u8 p 6 = 0 → s.stagingOf 0x0F01 0 = some g → g.sel = 0 → g.complete = false → g.data.length = u16 p 2 →
        g.total = u16 p 4 → g.data.length + (p.drop 8).length = g.total → s.nvmAllowed = true →
        ∃ t, exec (.boltStage n) s = .next t ∧
          (t.bolt.slot s.bolt.target).bytes = (s.bolt.slot s.bolt.target).bytes ++ p.drop 8 ∧
          (t.bolt.slot s.bolt.target).valid = ((s.bolt.slot s.bolt.target).valid ||
            (selvedgeOk (g.data ++ p.drop 8) &&
              Bolt.newer (boltGen (g.data ++ p.drop 8)) (Bolt.program (p.drop 8) s.bolt))) ∧
          t.bolt.slot (!s.bolt.target) = s.bolt.slot (!s.bolt.target) ∧ t.mbox.slots[n].st = .done)) ∧
    -- boltCommit (BOLT_COMMIT, R424, R371) completes
    (s.request n 0x0F02 p →
      (s.bolt.stagedSlot (BitVec.ofNat 32 (u32 p 0)) = none →
        exec (.boltCommit n) s = .next (postStatus n .boltInvalid s)) ∧
      (s.bolt.stagedSlot (BitVec.ofNat 32 (u32 p 0)) ≠ none →
        (s.nvmAllowed = false → exec (.boltCommit n) s = .next (postStatus n .nvmHot s)) ∧
        (s.nvmAllowed = true → exec (.boltCommit n) s = .next (pendOn n 0x0F02 p .boltCommit s.frame.number s)))) ∧
    -- boltInfo (BOLT_INFO, R371) completes
    (s.request n 0x0F03 p → exec (.boltInfo n) s = .next (postOk n
      ([BitVec.ofNat 8 (slotByte s.bolt.inForce), 0, 0, 0] ++ s.bolt.a.info false ++ s.bolt.b.info true) s)) ∧
    -- boxInfo (BOX_INFO, R373) completes
    (s.request n 0x1001 p → ∃ resp : List Byte, exec (.boxInfo n) s = .next (postOk n resp s) ∧ resp.length = 12 ∧
      slice resp 0 4 = toLE 4 s.box.number.toNat ∧ slice resp 4 2 = toLE 2 s.box.newest ∧
      u8 resp 7 = bits [s.box.ready, s.box.heat.isSome] ∧ slice resp 8 4 = toLE 4 s.box.eraseCount.toNat) ∧
    -- boxRead (BOX_READ, R434) completes
    (s.request n 0x1002 p → u16 p 0 < 1536 →
      (∀ x, s.box.recs[u16 p 0]? = some x → x.1 < 1536 → exec (.boxRead n) s =
        .next (postOk n (toLE 2 (u16 p 0) ++ toLE 2 x.1 ++ x.2) (readNvm (0x10000 + 32 * x.1) 32 s))) ∧
      (s.box.recs.length ≤ u16 p 0 → exec (.boxRead n) s = .next (postOk n [] s))) ∧
    -- boxErase (BOX_ERASE, R434) completes
    (s.request n 0x1003 p →
      (s.lock.level ≠ 2 → exec (.boxErase n) s = .next (postStatus n .locked s)) ∧
      (s.lock.level = 2 → u8 p 0 = 0xE5 →
        (s.nvmAllowed = false → exec (.boxErase n) s = .next (postStatus n .nvmHot s)) ∧
        (s.nvmAllowed = true → exec (.boxErase n) s = .next (pendOn n 0x1003 p .boxErase s.frame.number
          (s.modBox fun b => { b with erasing := true })))))

/-- A mark that is programmed and verified makes its slot committed and completes the command with OK;
one that fails is NVM_WORN and source 13 detects; a generation no longer staged is BOLT_INVALID. A
BOX.ERASE that is done, while writes are allowed, leaves one record, at position 0 or, where
positions fail verification, at the first that does not, under the next NUMBER, and counts the
erase. The oldest staged record that can be written is written; behind the last one the
STAGE_OVERFLOW record, if there is one, is written too, with its notice, and the drop count
returns to zero. A rising heat crossing opens an interval where none is open and sets the
comparator; outside OFF and BOOT the interval closes once the comparator has fallen and nothing is
staged. The end of a page erase makes the next page ready. Where nothing is due nothing happens. -/
def Obligations.BoltAndBoxEvents : Prop :=
  ∀ s : State,
    -- boltCommitMarkProgrammed (BOLT_COMMIT_MARK_PROGRAMMED, R424) completes
    (∀ x, s.mbox.pend.find? (·.wait == .boltCommit) = some x →
      (s.bolt.stagedSlot (BitVec.ofNat 32 (u32 x.payload 0)) = none →
        ∀ v, exec (.boltCommitMarkProgrammed v) s = .next (postStatus x.slot .boltInvalid s)) ∧
      (∀ k, s.bolt.stagedSlot (BitVec.ofNat 32 (u32 x.payload 0)) = some k →
        exec (.boltCommitMarkProgrammed false) s = .next (postStatus x.slot .nvmWorn (raise 13 s)) ∧
        ∃ t, exec (.boltCommitMarkProgrammed true) s = .next (postStatus x.slot .ok t) ∧
          (t.bolt.slot k).committed k = true ∧ (t.bolt.slot k).bytes = (s.bolt.slot k).bytes ∧
          t.bolt.slot (!k) = s.bolt.slot (!k) ∧ t.bolt.inForce = s.bolt.inForce ∧ t.rings = s.rings)) ∧
    (∀ v, s.mbox.pend.find? (·.wait == .boltCommit) = none → exec (.boltCommitMarkProgrammed v) s = .next s) ∧
    -- boxEraseDone (BOX_ERASE_DONE, R434) completes
    (s.box.erasing = true → s.nvmAllowed = true → ∃ t, exec .boxEraseDone s = .next t ∧ t.box.recs.length = 1 ∧
      t.box.newest = Config.recordVoids s.box.number.toNat % 1536 ∧
      t.box.eraseCount = countUp s.box.eraseCount 1 ∧ t.box.number = countUp s.box.number 1 ∧
      t.box.erasing = false ∧ t.box.staged = s.box.staged ∧
      (s.posts = true → ∀ x ∈ s.mbox.pend, x.wait = .boxErase → t.mbox.slots[x.slot].st = .done)) ∧
    (s.box.erasing = false ∨ s.nvmAllowed = false → exec .boxEraseDone s = .next s) ∧
    -- stagedRecordsWrite (STAGED_RECORDS_WRITE, R430) completes
    (s.stagedDue = true → ∃ t, exec .stagedRecordsWrite s = .next t ∧ t.box.staged = s.box.staged.tail ∧
      t.core = s.core ∧
      (s.box.staged.tail ≠ [] ∨ s.box.overflow = none → t.box.number = countUp s.box.number 1 ∧
        t.box.overflow = s.box.overflow ∧ t.box.dropped = s.box.dropped ∧ t.rings = s.rings) ∧
      (∀ r, s.box.staged.tail = [] → s.box.overflow = some r →
        t.box.number = countUp (countUp s.box.number 1) 1 ∧ t.box.overflow = none ∧ t.box.dropped = 0 ∧
        t.rings = (notice 0x0F04 .ordinary (argH 0 s.box.dropped) s).rings)) ∧
    (s.stagedDue = false → exec .stagedRecordsWrite s = .next s) ∧
    -- heatEntry (HEAT_ENTRY, R431) completes
    (s.heatEntryDue = true → ∃ t, exec .heatEntry s = .next t ∧ t.therm.heatHigh = true ∧
      (s.box.heat ≠ none → t.box = s.box) ∧
      (s.box.heat = none → t.box.heat ≠ none ∧ (s.nvmAllowed = true → s.box.erasing = false → s.box.staged = [] →
        t.box.number = countUp s.box.number 1 ∧ t.box.heat = some (some t.box.number, 0, 0)))) ∧
    (s.heatEntryDue = false → exec .heatEntry s = .next s) ∧
    -- heatClose (HEAT_CLOSE, R431) completes
    (s.heatCloseDue = true → ∃ t, exec .heatClose s = .next t ∧ t.box.heat = none ∧
      (s.nvmAllowed = true → s.box.erasing = false → t.box.number = countUp s.box.number 1) ∧ t.therm = s.therm) ∧
    (s.heatCloseDue = false → exec .heatClose s = .next s) ∧
    -- pageEraseComplete (PAGE_ERASE_COMPLETE, R429) completes
    (s.box.pageErase = true → exec .pageEraseComplete s = .next (s.modBox fun b =>
      { b with pageErase := false, ready := true })) ∧
    (s.box.pageErase = false → exec .pageEraseComplete s = .next s)

/-- TIME.SET waits for the next boundary or for the domain's next PPS edge, no edge before its
doorbell counting, and is BUSY while another of the domain waits. TIME.INCR sets the increment of
the next tick, but not of a domain the reeve servo holds. TIME.SERVO hands the increment to the
reeve or to the host and moves neither time nor increment. TIME.SELECT waits for the boundary
where the domain is valid. TIME.PPS answers the stamp of the last accepted edge, or nothing.
TIME.TRIGGER replaces or disarms the one trigger it names. TIME.STATUS answers its object. -/
def Obligations.TimeCommands : Prop :=
  ∀ (s : State) (n : SlotId) (p : List Byte) (d : Dom), domOf (u8 p 0) = d →
    -- timeSet (TIME_SET, R382) completes
    (s.request n 0x0D01 p → timeSetFault p = none →
      (s.timeSetPend d ≠ none → exec (.timeSet n) s = .next (postStatus n .busy s)) ∧
      (s.timeSetPend d = none →
        (u8 p 1 = 1 → exec (.timeSet n) s = .next
          (pendOn n 0x0D01 p (.timeEdge d) s.nextFrame (s.modDom d fun x => { x with setEdge := none }))) ∧
        (u8 p 1 = 0 → exec (.timeSet n) s = .next (pendBoundary n 0x0D01 p 1 s)))) ∧
    -- timeIncr (TIME_INCR, R383) completes
    (s.request n 0x0D02 p → timeIncrFault p = none →
      ((s.dom d).reeve = true → exec (.timeIncr n) s = .next (postStatus n .wrongState s)) ∧
      ((s.dom d).reeve = false → ∃ t, exec (.timeIncr n) s = .next (postStatus n .ok t) ∧
        t.dom d = { s.dom d with nextInc := some (u48 p 2) } ∧ (∀ e, e ≠ d → t.dom e = s.dom e) ∧
        t.time.o = s.time.o ∧ t.time.triggers = s.time.triggers ∧ t.rings = s.rings)) ∧
    -- timeServo (TIME_SERVO, R388) completes
    (s.request n 0x0D03 p → timeServoFault p = none → ∃ t, exec (.timeServo n) s = .next (postStatus n .ok t) ∧
      (t.dom d).reeve = decide (u8 p 1 = 1) ∧ (t.dom d).time = (s.dom d).time ∧ (t.dom d).inc = (s.dom d).inc ∧
      (t.dom d).valid = (s.dom d).valid ∧ (∀ e, e ≠ d → t.dom e = s.dom e) ∧ t.time.o = s.time.o ∧ t.rings = s.rings) ∧
    -- timeSelect (TIME_SELECT, R391) completes
    (s.request n 0x0D04 p → u8 p 0 < 2 →
      ((s.dom d).valid = true → exec (.timeSelect n) s = .next (pendBoundary n 0x0D04 p 1 s)) ∧
      ((s.dom d).valid = false → exec (.timeSelect n) s = .next (postStatus n .wrongState s))) ∧
    -- timePps (TIME_PPS, R384) completes
    (s.request n 0x0D05 p → u8 p 0 < 2 →
      ((s.dom d).stamp = none → exec (.timePps n) s = .next (postOk n [] s)) ∧
      (∀ x, (s.dom d).stamp = some x → ∃ resp : List Byte, exec (.timePps n) s = .next (postOk n resp s) ∧
        resp.length = 28 ∧ slice resp 0 4 = toLE 4 x.frame.toNat ∧ slice resp 4 2 = toLE 2 x.tick ∧
        slice resp 6 2 = toLE 2 x.clock ∧ slice resp 24 4 = toLE 4 (s.dom d).edges.toNat)) ∧
    -- timeTriggerCommand (TIME_TRIGGER_COMMAND, R393) completes
    (s.request n 0x0D06 p → timeTriggerFault p s = none → ∃ t, exec (.timeTriggerCommand n) s = .next (postStatus n .ok t) ∧
      (∀ k : Fin 16, t.time.triggers[k] =
        if k.val = u8 p 0 then (if u8 p 2 = 0 then none else some (parseTrigger p)) else s.time.triggers[k]) ∧
      t.time.ta = s.time.ta ∧ t.time.tb = s.time.tb ∧ t.rings = s.rings) ∧
    -- timeStatus (TIME_STATUS, R367) completes
    (s.request n 0x0D07 p → ∃ resp : List Byte, exec (.timeStatus n) s = .next (postOk n resp s) ∧ resp.length = 24 ∧
      u8 resp 0 = boolNat s.time.activeTb ∧ slice resp 4 6 = toLE 6 s.time.ta.inc ∧
      slice resp 10 6 = toLE 6 s.time.tb.inc ∧ slice resp 16 8 = toLEInt 8 (s.time.o.tdiv 256))

/-- An edge accepted by the window is stamped and becomes the reference of the next; no edge moves a
domain's time, its increment in force, or the other domain. A servo with its domain valid sets the
increment of the next tick by R388 where the phase error is at most 1 ms, and else keeps it. An
edge outside the window only counts as an outlier. An input absent for 2 s loses its lock, no
interval begins with its last edge, and it moves nothing else. A TIME.SET that is due sets the
time while the reeve runs, at its edge corrected by what has passed, makes the domain valid, keeps
the increment and is OK; 2 s without an edge make it BUSY. A slew that has ended is told once. A
trigger whose time has come disarms, or if it repeats moves to its first time not yet reached, and
acts: in DOZE only if it wakes. Where nothing is due nothing happens. -/
def Obligations.TimeEvents : Prop :=
  ∀ (s : State) (d : Dom),
    -- ppsEdge (PPS_EDGE, R384) completes
    (∀ (k : Nat) (c : Fin 960), s.stamps = true →
      ((s.dom d).accepts (s.core.lt - BitVec.ofNat 64 k) c.val = true →
        ∃ t, exec (.ppsEdge d k c) s = .next t ∧
          (t.dom d).edges = countUp (s.dom d).edges 1 ∧ (t.dom d).present = true ∧ (t.dom d).hasLast = true ∧
          (t.dom d).lastLt = s.core.lt - BitVec.ofNat 64 k ∧ (t.dom d).lastClock = c.val ∧
          (t.dom d).time = (s.dom d).time ∧ (t.dom d).inc = (s.dom d).inc ∧ (∀ e, e ≠ d → t.dom e = s.dom e) ∧
          ((s.dom d).reeve = true → (s.dom d).valid = true → ∀ e, e = phaseOf ((s.dom d).at k c.val) →
            ((e.natAbs : Int) * 1000 ≤ 2 ^ 48 →
              (t.dom d).nextInc = some (servoInc (freqError (s.dom d).inc (t.dom d).history) e)) ∧
            (2 ^ 48 < (e.natAbs : Int) * 1000 → (t.dom d).nextInc = (s.dom d).nextInc)) ∧
          ((s.dom d).reeve = false → (t.dom d).nextInc = (s.dom d).nextInc) ∧ t.time.o = s.time.o ∧ t.core = s.core) ∧
      ((s.dom d).accepts (s.core.lt - BitVec.ofNat 64 k) c.val = false →
        ∃ t m, exec (.ppsEdge d k c) s = .next t ∧
          t.dom d = { s.dom d with outlierAge := some 0, outliers := m } ∧ (∀ e, e ≠ d → t.dom e = s.dom e) ∧
          t.core = s.core)) ∧
    (∀ (k : Nat) (c : Fin 960), s.stamps = false → exec (.ppsEdge d k c) s = .next s) ∧
    -- ppsAbsent (PPS_ABSENT, R387) completes
    (s.ppsAbsentDue d = true → ∃ t, exec (.ppsAbsent d) s = .next t ∧ (t.dom d).present = false ∧
      (t.dom d).hasLast = false ∧ (t.dom d).locked = false ∧ (t.dom d).history = (s.dom d).history ∧ (t.dom d).time = (s.dom d).time ∧
      (t.dom d).inc = (s.dom d).inc ∧ (t.dom d).nextInc = (s.dom d).nextInc ∧ (∀ e, e ≠ d → t.dom e = s.dom e)) ∧
    (s.ppsAbsentDue d = false → exec (.ppsAbsent d) s = .next s) ∧
    -- timeSetApply (TIME_SET_APPLY, R382) completes
    (∀ x, s.timeSetPend d = some x →
      (s.timeSetDue x = false → exec (.timeSetApply d) s = .next s) ∧
      (∀ k, x.wait = .boundary k → s.timeSetDue x = true → s.reeveActive = true → ∃ t, exec (.timeSetApply d) s = .next (postStatus x.slot .ok t) ∧
        (t.dom d).time = timeSetValue x.payload % 2 ^ 112 ∧ (t.dom d).valid = true ∧ (t.dom d).history = [] ∧
        (t.dom d).inc = (s.dom d).inc ∧ (∀ e, e ≠ d → t.dom e = s.dom e) ∧ t.time.o = s.time.o) ∧
      (∀ lt c, x.wait = .timeEdge d → (s.dom d).setEdge = some (lt, c) → s.since lt = 2 → s.reeveActive = true →
        ∃ t, exec (.timeSetApply d) s = .next (postStatus x.slot .ok t) ∧
          (t.dom d).time = (timeSetValue x.payload + (1920 - c) * (s.dom d).inc / 960) % 2 ^ 112 ∧
          (t.dom d).valid = true ∧ (t.dom d).inc = (s.dom d).inc ∧ (∀ e, e ≠ d → t.dom e = s.dom e) ∧
          t.time.o = s.time.o) ∧
      -- timeSetEdgeTimeout (TIME_SET_EDGE_TIMEOUT, R367) completes
      (x.wait = .timeEdge d → (s.dom d).setEdge = none →
        (128000 ≤ s.since x.since → exec (.timeSetEdgeTimeout d) s = .next (postStatus x.slot .busy s)) ∧
        (s.since x.since < 128000 → exec (.timeSetEdgeTimeout d) s = .next s))) ∧
    (s.timeSetPend d = none → exec (.timeSetApply d) s = .next s ∧ exec (.timeSetEdgeTimeout d) s = .next s) ∧
    -- slewComplete (SLEW_COMPLETE, R391) completes
    (s.time.slewDone = true → ∃ t, exec .slewComplete s = .next t ∧ t.time = { s.time with slewDone := false } ∧
      t.core = s.core) ∧
    (s.time.slewDone = false → exec .slewComplete s = .next s) ∧
    -- timeTrigger (TIME_TRIGGER, R393) completes
    (∀ (k : Fin 16) tr, s.time.triggers[k] = some tr →
      (s.triggersRun = true → s.trigReached tr = true → ∃ t, exec (.timeTrigger k) s = .next t ∧
        (tr.repeats = false → t.time.triggers = s.time.triggers.set k none) ∧
        (tr.repeats = true → t.time.triggers = s.time.triggers.set k (some (tr.move (s.trigBehind tr + 1)))) ∧
        (s.core.doze = true → tr.wake = true → t.time.owed = s.time.owed ++ [(k, tr)]) ∧
        (s.core.doze = true → tr.wake = false → t.time.owed = s.time.owed ∧ t.core = s.core) ∧
        (s.measuring = true → tr.action = 4 → t.gas = { s.gas with oneShot := true }) ∧
        (s.measuring = true → tr.action = 1 → s.seq.running = false → s.refWarm = true → s.convHeld = false →
          t.seq = { s.seq with startAsked := true }) ∧
        (s.measuring = false → t.gas = s.gas ∧ t.seq = s.seq ∧ t.heat = s.heat ∧ t.gauze = s.gauze)) ∧
      (s.trigReached tr = false → exec (.timeTrigger k) s = .next s)) ∧
    (∀ k : Fin 16, s.time.triggers[k] = none → exec (.timeTrigger k) s = .next s)

/-- An attempt counts as it is dispatched, and is judged whatever has been held since (the model's
reading, log 72). One that did not begin there is NVM_HOT while writes are held and changes
nothing of the lock; during a lockout it is LOCKED by it and changes neither count nor lockout;
otherwise it counts now. The right one returns FAILS to zero and raises the level, never lowers
it; a wrong one leaves its failure counted, keeps the level, is LOCKED, and from the fourth on
starts a lockout of the stated length. A LOCK.RESPONSE uses up its nonce; one without a valid
nonce is wrong. A LOCK.CHALLENGE draws 16 fresh bytes, whatever they are. LOCK.SEAL seals,
releases every FORCE bit and disarms the ECC word. A lockout ends at a whole second once its time
has run out while writes are allowed, and a nonce lives 60 s. -/
def Obligations.LockCommandsAndEvents : Prop :=
  ∀ (s : State) (n : SlotId) (p : List Byte),
    (s.mbox.slots[n].early = false → s.nvmAllowed = false →
      (s.request n 0x1101 p → exec (.lockPassword n) s = .next (postStatus n .nvmHot s)) ∧
      (s.request n 0x1103 p → exec (.lockResponse n) s = .next (postStatus n .nvmHot s))) ∧
    (s.mbox.slots[n].early = false → s.nvmAllowed = true → s.lock.lockout ≠ none →
      (s.request n 0x1101 p → ∃ t resp, exec (.lockPassword n) s = .next (post n .locked 0 resp t) ∧
        u8 resp 1 = 1 ∧ t.lock = s.lock) ∧
      (s.request n 0x1103 p → ∃ t resp, exec (.lockResponse n) s = .next (post n .locked 0 resp t) ∧
        u8 resp 1 = 1 ∧ t.lock = s.lock)) ∧
    (s.mbox.slots[n].early = false → s.nvmAllowed = true → s.lock.lockout = none →
      -- lockPassword (LOCK_PASSWORD, R440) completes
      (s.request n 0x1101 p → p = password → ∃ t, exec (.lockPassword n) s = .next (postStatus n .ok t) ∧
        t.lock = { s.lock with attempts := satAdd s.lock.attempts 1, fails := 0,
                               level := if s.lock.level = 0 then 1 else s.lock.level }) ∧
      (s.request n 0x1101 p → p ≠ password → ∃ t resp, exec (.lockPassword n) s = .next (post n .locked 0 resp t) ∧
        u8 resp 1 = 0 ∧ t.lock = s.lock.failed s.core.lt) ∧
      -- lockResponse (LOCK_RESPONSE, R440, R442) completes
      (s.request n 0x1103 p → s.responseOk p = true → ∃ t, exec (.lockResponse n) s = .next (postStatus n .ok t) ∧
        t.lock = { s.lock with attempts := satAdd s.lock.attempts 1, fails := 0, level := 2, nonce := none }) ∧
      (s.request n 0x1103 p → s.responseOk p = false → ∃ t resp,
        exec (.lockResponse n) s = .next (post n .locked 0 resp t) ∧ u8 resp 1 = 0 ∧
        t.lock = { s.lock.failed s.core.lt with nonce := none })) ∧
    (s.mbox.slots[n].early = true → ∀ l, l = { s.lock with
        lockout := if 4 ≤ s.lock.fails then some (600 * 2 ^ min (s.lock.fails - 4) 10, s.core.lt) else s.lock.lockout } →
      (s.request n 0x1101 p → p = password → ∃ t, exec (.lockPassword n) s = .next (postStatus n .ok t) ∧
        t.lock = { s.lock with fails := 0, level := if s.lock.level = 0 then 1 else s.lock.level }) ∧
      (s.request n 0x1101 p → p ≠ password → ∃ t resp, exec (.lockPassword n) s = .next (post n .locked 0 resp t) ∧
        u8 resp 1 = 0 ∧ t.lock = l) ∧
      (s.request n 0x1103 p → s.responseOk p = true → ∃ t, exec (.lockResponse n) s = .next (postStatus n .ok t) ∧
        t.lock = { s.lock with fails := 0, level := 2, nonce := none }) ∧
      (s.request n 0x1103 p → s.responseOk p = false → ∃ t resp,
        exec (.lockResponse n) s = .next (post n .locked 0 resp t) ∧ u8 resp 1 = 0 ∧
        t.lock = { l with nonce := none })) ∧
    -- lockChallenge (LOCK_CHALLENGE, R442) completes
    (s.request n 0x1102 p → ∃ t nonce, exec (.lockChallenge n) s = .next (postOk n nonce t) ∧ nonce.length = 16 ∧
      t.lock = { s.lock with nonce := some (nonce, s.core.lt) } ∧ t.free = s.free + 1 ∧ t.box = s.box ∧
      t.rings = s.rings) ∧
    -- lockSeal (LOCK_SEAL, R445) completes
    (s.request n 0x1104 p →
      (s.lock.sealed = true → s.lock.level = 0 → exec (.lockSeal n) s = .next (postStatus n .ok s)) ∧
      (s.lock.sealed = false ∨ s.lock.level ≠ 0 →
        (s.nvmAllowed = false → exec (.lockSeal n) s = .next (postStatus n .nvmHot s)) ∧
        (s.nvmAllowed = true → ∃ t, exec (.lockSeal n) s = .next (postStatus n .ok t) ∧
          t.lock = { s.lock with sealed := true, level := 0 } ∧ t.faults.armed = none ∧
          (∀ f : Source, t.faults.src[f] = { s.faults.src[f] with
            force := false, nextForce := none, fresh := s.faults.src[f].fresh || s.faults.src[f].force }) ∧
          s.core.dev = t.core.dev))) ∧
    -- lockoutEnd (LOCKOUT_END, R444) completes
    (s.lockoutEndDue = true → exec .lockoutEnd s = .next (s.modLock fun l => { l with lockout := none })) ∧
    (s.lockoutEndDue = false → exec .lockoutEnd s = .next s) ∧
    -- nonceExpiry (NONCE_EXPIRY, R442) completes
    (∀ x t, s.lock.nonce = some (x, t) →
      (3840000 ≤ s.since t → exec .nonceExpiry s = .next (s.modLock fun l => { l with nonce := none })) ∧
      (s.since t < 3840000 → exec .nonceExpiry s = .next s)) ∧
    (s.lock.nonce = none → exec .nonceExpiry s = .next s)

/-- State.queueTick puts a tick and its events at the end of the queue and changes nothing else: first
TICK, then exactly the given events, each as often as given, a class of Table 2-2 before the next,
and within a class a lower source index before a higher. The events that Table 2-2 names have its
class and its source index: a port whose bias reaches its target and one that is stopped (class 0,
the port), a GRAVE fault (1, the source), thermal crossings (2, the sensor, then the level), any
other fault (3, the source), levees (4, the comparator), frame boundary, FSYNC, PPS, SYNC_N and
time triggers (5), a window completed on a lane (6, the lane), and doorbells (7, the lowest slot
rung). Where Table 2-2 does not name an event its class and index are the model's choice (log 7):
ahead of class 6 come what starts or resets lanes and the clips, and the host's transactions and
then its reads come behind class 7 (log 7, log 22). -/
def Obligations.TickEventsInOrder : Prop :=
  (∀ (i : TickIn) (evs : List Instr) (s : State), ∃ l : List Instr,
    s.queueTick i evs = { s with pending := s.pending ++ .tick i :: l } ∧ l.Perm evs ∧
    l.Pairwise fun a b =>
      (s.place a).1.rank < (s.place b).1.rank ∨
      ((s.place a).1.rank = (s.place b).1.rank ∧ (s.place a).2 ≤ (s.place b).2)) ∧
  (TickClass.start.rank < TickClass.scheduled.rank ∧ TickClass.scheduled.rank < TickClass.grave.rank ∧
    TickClass.grave.rank < TickClass.thermal.rank ∧ TickClass.thermal.rank < TickClass.faults.rank ∧
    TickClass.faults.rank < TickClass.levees.rank ∧ TickClass.levees.rank < TickClass.frame.rank ∧
    TickClass.frame.rank < TickClass.samples.rank ∧ TickClass.samples.rank < TickClass.doorbells.rank ∧
    TickClass.doorbells.rank < TickClass.bus.rank ∧ TickClass.bus.rank < TickClass.reads.rank) ∧
  ∀ s : State,
    (∀ i, s.place (.tick i) = (.start, 0)) ∧
    (∀ p, s.place (.biasTargetReached p) = (.scheduled, p.val) ∧ s.place (.portStopped p) = (.scheduled, p.val)) ∧
    (∀ f, s.faults.src[f].inForce = .grave → s.place (.faultEvent f) = (.grave, f.val)) ∧
    (∀ t l r, s.place (.thermalCrossing t l r) = (.thermal, 4 * t.val + l.val) ∧
      s.place (.thermalShutdown t) = (.thermal, 4 * t.val + 3)) ∧
    (∀ f, s.faults.src[f].inForce ≠ .grave → s.place (.faultEvent f) = (.faults, f.val)) ∧
    (∀ f, s.place (.graceExpiry f) = (.faults, f.val)) ∧
    (∀ k, s.place (.leveeOvertop k) = (.levees, k.val) ∧ s.place (.leveeSettle k) = (.levees, k.val)) ∧
    s.place .frameBoundary = (.frame, 0) ∧ s.place .fsyncEdge = (.frame, 1) ∧
    (∀ a c, s.place (.ppsEdge .ta a c) = (.frame, 2) ∧ s.place (.ppsEdge .tb a c) = (.frame, 3)) ∧
    s.place .syncNFall = (.frame, 4) ∧ (∀ k, s.place (.timeTrigger k) = (.frame, 6 + k.val)) ∧
    (∀ p i l, s.laneOfInput p i = some l → s.place (.windowComplete p i) = (.samples, l.val)) ∧
    (∀ x e l, s.convEntry x = some e → e.lane = some l → s.place (.conversionComplete x) = (.samples, l.val)) ∧
    (∀ (n : SlotId) v, v.getLsbD n.val = true → (∀ m : SlotId, m < n → v.getLsbD m.val = false) →
      s.place (.dbellWrite v) = (.doorbells, n.val)) ∧
    (∀ r, s.place (.stateRead r) = (.reads, 0))
end

