-- ==== Sys2Proof/Laws/State.lean ====
section
/-!
SUPPORT. What each update of the state leaves and changes: one lemma per field and update, true by
definition, so that no proof unfolds a record update.
-/

namespace Sys2Proof.Machine.State

/-! ## modCore -/

@[simp] theorem modCore_core (f) (s : State) : (s.modCore f).core = f s.core := rfl
@[simp] theorem modCore_pins (f) (s : State) : (s.modCore f).pins = s.pins := rfl
@[simp] theorem modCore_frame (f) (s : State) : (s.modCore f).frame = s.frame := rfl
@[simp] theorem modCore_plan (f) (s : State) : (s.modCore f).plan = s.plan := rfl
@[simp] theorem modCore_ports (f) (s : State) : (s.modCore f).ports = s.ports := rfl
@[simp] theorem modCore_heat (f) (s : State) : (s.modCore f).heat = s.heat := rfl
@[simp] theorem modCore_gauze (f) (s : State) : (s.modCore f).gauze = s.gauze := rfl
@[simp] theorem modCore_seq (f) (s : State) : (s.modCore f).seq = s.seq := rfl
@[simp] theorem modCore_lanes (f) (s : State) : (s.modCore f).lanes = s.lanes := rfl
@[simp] theorem modCore_gas (f) (s : State) : (s.modCore f).gas = s.gas := rfl
@[simp] theorem modCore_levees (f) (s : State) : (s.modCore f).levees = s.levees := rfl
@[simp] theorem modCore_cal (f) (s : State) : (s.modCore f).cal = s.cal := rfl
@[simp] theorem modCore_ledger (f) (s : State) : (s.modCore f).ledger = s.ledger := rfl
@[simp] theorem modCore_therm (f) (s : State) : (s.modCore f).therm = s.therm := rfl
@[simp] theorem modCore_rings (f) (s : State) : (s.modCore f).rings = s.rings := rfl
@[simp] theorem modCore_bus (f) (s : State) : (s.modCore f).bus = s.bus := rfl
@[simp] theorem modCore_mbox (f) (s : State) : (s.modCore f).mbox = s.mbox := rfl
@[simp] theorem modCore_time (f) (s : State) : (s.modCore f).time = s.time := rfl
@[simp] theorem modCore_faults (f) (s : State) : (s.modCore f).faults = s.faults := rfl
@[simp] theorem modCore_bolt (f) (s : State) : (s.modCore f).bolt = s.bolt := rfl
@[simp] theorem modCore_box (f) (s : State) : (s.modCore f).box = s.box := rfl
@[simp] theorem modCore_lock (f) (s : State) : (s.modCore f).lock = s.lock := rfl
@[simp] theorem modCore_free (f) (s : State) : (s.modCore f).free = s.free := rfl
@[simp] theorem modCore_pending (f) (s : State) : (s.modCore f).pending = s.pending := rfl

/-! ## modPins -/

@[simp] theorem modPins_core (f) (s : State) : (s.modPins f).core = s.core := rfl
@[simp] theorem modPins_pins (f) (s : State) : (s.modPins f).pins = f s.pins := rfl
@[simp] theorem modPins_frame (f) (s : State) : (s.modPins f).frame = s.frame := rfl
@[simp] theorem modPins_plan (f) (s : State) : (s.modPins f).plan = s.plan := rfl
@[simp] theorem modPins_ports (f) (s : State) : (s.modPins f).ports = s.ports := rfl
@[simp] theorem modPins_heat (f) (s : State) : (s.modPins f).heat = s.heat := rfl
@[simp] theorem modPins_gauze (f) (s : State) : (s.modPins f).gauze = s.gauze := rfl
@[simp] theorem modPins_seq (f) (s : State) : (s.modPins f).seq = s.seq := rfl
@[simp] theorem modPins_lanes (f) (s : State) : (s.modPins f).lanes = s.lanes := rfl
@[simp] theorem modPins_gas (f) (s : State) : (s.modPins f).gas = s.gas := rfl
@[simp] theorem modPins_levees (f) (s : State) : (s.modPins f).levees = s.levees := rfl
@[simp] theorem modPins_cal (f) (s : State) : (s.modPins f).cal = s.cal := rfl
@[simp] theorem modPins_ledger (f) (s : State) : (s.modPins f).ledger = s.ledger := rfl
@[simp] theorem modPins_therm (f) (s : State) : (s.modPins f).therm = s.therm := rfl
@[simp] theorem modPins_rings (f) (s : State) : (s.modPins f).rings = s.rings := rfl
@[simp] theorem modPins_bus (f) (s : State) : (s.modPins f).bus = s.bus := rfl
@[simp] theorem modPins_mbox (f) (s : State) : (s.modPins f).mbox = s.mbox := rfl
@[simp] theorem modPins_time (f) (s : State) : (s.modPins f).time = s.time := rfl
@[simp] theorem modPins_faults (f) (s : State) : (s.modPins f).faults = s.faults := rfl
@[simp] theorem modPins_bolt (f) (s : State) : (s.modPins f).bolt = s.bolt := rfl
@[simp] theorem modPins_box (f) (s : State) : (s.modPins f).box = s.box := rfl
@[simp] theorem modPins_lock (f) (s : State) : (s.modPins f).lock = s.lock := rfl
@[simp] theorem modPins_free (f) (s : State) : (s.modPins f).free = s.free := rfl
@[simp] theorem modPins_pending (f) (s : State) : (s.modPins f).pending = s.pending := rfl

/-! ## modFrame -/

@[simp] theorem modFrame_core (f) (s : State) : (s.modFrame f).core = s.core := rfl
@[simp] theorem modFrame_pins (f) (s : State) : (s.modFrame f).pins = s.pins := rfl
@[simp] theorem modFrame_frame (f) (s : State) : (s.modFrame f).frame = f s.frame := rfl
@[simp] theorem modFrame_plan (f) (s : State) : (s.modFrame f).plan = s.plan := rfl
@[simp] theorem modFrame_ports (f) (s : State) : (s.modFrame f).ports = s.ports := rfl
@[simp] theorem modFrame_heat (f) (s : State) : (s.modFrame f).heat = s.heat := rfl
@[simp] theorem modFrame_gauze (f) (s : State) : (s.modFrame f).gauze = s.gauze := rfl
@[simp] theorem modFrame_seq (f) (s : State) : (s.modFrame f).seq = s.seq := rfl
@[simp] theorem modFrame_lanes (f) (s : State) : (s.modFrame f).lanes = s.lanes := rfl
@[simp] theorem modFrame_gas (f) (s : State) : (s.modFrame f).gas = s.gas := rfl
@[simp] theorem modFrame_levees (f) (s : State) : (s.modFrame f).levees = s.levees := rfl
@[simp] theorem modFrame_cal (f) (s : State) : (s.modFrame f).cal = s.cal := rfl
@[simp] theorem modFrame_ledger (f) (s : State) : (s.modFrame f).ledger = s.ledger := rfl
@[simp] theorem modFrame_therm (f) (s : State) : (s.modFrame f).therm = s.therm := rfl
@[simp] theorem modFrame_rings (f) (s : State) : (s.modFrame f).rings = s.rings := rfl
@[simp] theorem modFrame_bus (f) (s : State) : (s.modFrame f).bus = s.bus := rfl
@[simp] theorem modFrame_mbox (f) (s : State) : (s.modFrame f).mbox = s.mbox := rfl
@[simp] theorem modFrame_time (f) (s : State) : (s.modFrame f).time = s.time := rfl
@[simp] theorem modFrame_faults (f) (s : State) : (s.modFrame f).faults = s.faults := rfl
@[simp] theorem modFrame_bolt (f) (s : State) : (s.modFrame f).bolt = s.bolt := rfl
@[simp] theorem modFrame_box (f) (s : State) : (s.modFrame f).box = s.box := rfl
@[simp] theorem modFrame_lock (f) (s : State) : (s.modFrame f).lock = s.lock := rfl
@[simp] theorem modFrame_free (f) (s : State) : (s.modFrame f).free = s.free := rfl
@[simp] theorem modFrame_pending (f) (s : State) : (s.modFrame f).pending = s.pending := rfl

/-! ## modPlan -/

@[simp] theorem modPlan_core (f) (s : State) : (s.modPlan f).core = s.core := rfl
@[simp] theorem modPlan_pins (f) (s : State) : (s.modPlan f).pins = s.pins := rfl
@[simp] theorem modPlan_frame (f) (s : State) : (s.modPlan f).frame = s.frame := rfl
@[simp] theorem modPlan_plan (f) (s : State) : (s.modPlan f).plan = f s.plan := rfl
@[simp] theorem modPlan_ports (f) (s : State) : (s.modPlan f).ports = s.ports := rfl
@[simp] theorem modPlan_heat (f) (s : State) : (s.modPlan f).heat = s.heat := rfl
@[simp] theorem modPlan_gauze (f) (s : State) : (s.modPlan f).gauze = s.gauze := rfl
@[simp] theorem modPlan_seq (f) (s : State) : (s.modPlan f).seq = s.seq := rfl
@[simp] theorem modPlan_lanes (f) (s : State) : (s.modPlan f).lanes = s.lanes := rfl
@[simp] theorem modPlan_gas (f) (s : State) : (s.modPlan f).gas = s.gas := rfl
@[simp] theorem modPlan_levees (f) (s : State) : (s.modPlan f).levees = s.levees := rfl
@[simp] theorem modPlan_cal (f) (s : State) : (s.modPlan f).cal = s.cal := rfl
@[simp] theorem modPlan_ledger (f) (s : State) : (s.modPlan f).ledger = s.ledger := rfl
@[simp] theorem modPlan_therm (f) (s : State) : (s.modPlan f).therm = s.therm := rfl
@[simp] theorem modPlan_rings (f) (s : State) : (s.modPlan f).rings = s.rings := rfl
@[simp] theorem modPlan_bus (f) (s : State) : (s.modPlan f).bus = s.bus := rfl
@[simp] theorem modPlan_mbox (f) (s : State) : (s.modPlan f).mbox = s.mbox := rfl
@[simp] theorem modPlan_time (f) (s : State) : (s.modPlan f).time = s.time := rfl
@[simp] theorem modPlan_faults (f) (s : State) : (s.modPlan f).faults = s.faults := rfl
@[simp] theorem modPlan_bolt (f) (s : State) : (s.modPlan f).bolt = s.bolt := rfl
@[simp] theorem modPlan_box (f) (s : State) : (s.modPlan f).box = s.box := rfl
@[simp] theorem modPlan_lock (f) (s : State) : (s.modPlan f).lock = s.lock := rfl
@[simp] theorem modPlan_free (f) (s : State) : (s.modPlan f).free = s.free := rfl
@[simp] theorem modPlan_pending (f) (s : State) : (s.modPlan f).pending = s.pending := rfl

/-! ## modPorts -/

@[simp] theorem modPorts_core (f) (s : State) : (s.modPorts f).core = s.core := rfl
@[simp] theorem modPorts_pins (f) (s : State) : (s.modPorts f).pins = s.pins := rfl
@[simp] theorem modPorts_frame (f) (s : State) : (s.modPorts f).frame = s.frame := rfl
@[simp] theorem modPorts_plan (f) (s : State) : (s.modPorts f).plan = s.plan := rfl
@[simp] theorem modPorts_ports (f) (s : State) : (s.modPorts f).ports = f s.ports := rfl
@[simp] theorem modPorts_heat (f) (s : State) : (s.modPorts f).heat = s.heat := rfl
@[simp] theorem modPorts_gauze (f) (s : State) : (s.modPorts f).gauze = s.gauze := rfl
@[simp] theorem modPorts_seq (f) (s : State) : (s.modPorts f).seq = s.seq := rfl
@[simp] theorem modPorts_lanes (f) (s : State) : (s.modPorts f).lanes = s.lanes := rfl
@[simp] theorem modPorts_gas (f) (s : State) : (s.modPorts f).gas = s.gas := rfl
@[simp] theorem modPorts_levees (f) (s : State) : (s.modPorts f).levees = s.levees := rfl
@[simp] theorem modPorts_cal (f) (s : State) : (s.modPorts f).cal = s.cal := rfl
@[simp] theorem modPorts_ledger (f) (s : State) : (s.modPorts f).ledger = s.ledger := rfl
@[simp] theorem modPorts_therm (f) (s : State) : (s.modPorts f).therm = s.therm := rfl
@[simp] theorem modPorts_rings (f) (s : State) : (s.modPorts f).rings = s.rings := rfl
@[simp] theorem modPorts_bus (f) (s : State) : (s.modPorts f).bus = s.bus := rfl
@[simp] theorem modPorts_mbox (f) (s : State) : (s.modPorts f).mbox = s.mbox := rfl
@[simp] theorem modPorts_time (f) (s : State) : (s.modPorts f).time = s.time := rfl
@[simp] theorem modPorts_faults (f) (s : State) : (s.modPorts f).faults = s.faults := rfl
@[simp] theorem modPorts_bolt (f) (s : State) : (s.modPorts f).bolt = s.bolt := rfl
@[simp] theorem modPorts_box (f) (s : State) : (s.modPorts f).box = s.box := rfl
@[simp] theorem modPorts_lock (f) (s : State) : (s.modPorts f).lock = s.lock := rfl
@[simp] theorem modPorts_free (f) (s : State) : (s.modPorts f).free = s.free := rfl
@[simp] theorem modPorts_pending (f) (s : State) : (s.modPorts f).pending = s.pending := rfl

/-! ## modHeat -/

@[simp] theorem modHeat_core (f) (s : State) : (s.modHeat f).core = s.core := rfl
@[simp] theorem modHeat_pins (f) (s : State) : (s.modHeat f).pins = s.pins := rfl
@[simp] theorem modHeat_frame (f) (s : State) : (s.modHeat f).frame = s.frame := rfl
@[simp] theorem modHeat_plan (f) (s : State) : (s.modHeat f).plan = s.plan := rfl
@[simp] theorem modHeat_ports (f) (s : State) : (s.modHeat f).ports = s.ports := rfl
@[simp] theorem modHeat_heat (f) (s : State) : (s.modHeat f).heat = f s.heat := rfl
@[simp] theorem modHeat_gauze (f) (s : State) : (s.modHeat f).gauze = s.gauze := rfl
@[simp] theorem modHeat_seq (f) (s : State) : (s.modHeat f).seq = s.seq := rfl
@[simp] theorem modHeat_lanes (f) (s : State) : (s.modHeat f).lanes = s.lanes := rfl
@[simp] theorem modHeat_gas (f) (s : State) : (s.modHeat f).gas = s.gas := rfl
@[simp] theorem modHeat_levees (f) (s : State) : (s.modHeat f).levees = s.levees := rfl
@[simp] theorem modHeat_cal (f) (s : State) : (s.modHeat f).cal = s.cal := rfl
@[simp] theorem modHeat_ledger (f) (s : State) : (s.modHeat f).ledger = s.ledger := rfl
@[simp] theorem modHeat_therm (f) (s : State) : (s.modHeat f).therm = s.therm := rfl
@[simp] theorem modHeat_rings (f) (s : State) : (s.modHeat f).rings = s.rings := rfl
@[simp] theorem modHeat_bus (f) (s : State) : (s.modHeat f).bus = s.bus := rfl
@[simp] theorem modHeat_mbox (f) (s : State) : (s.modHeat f).mbox = s.mbox := rfl
@[simp] theorem modHeat_time (f) (s : State) : (s.modHeat f).time = s.time := rfl
@[simp] theorem modHeat_faults (f) (s : State) : (s.modHeat f).faults = s.faults := rfl
@[simp] theorem modHeat_bolt (f) (s : State) : (s.modHeat f).bolt = s.bolt := rfl
@[simp] theorem modHeat_box (f) (s : State) : (s.modHeat f).box = s.box := rfl
@[simp] theorem modHeat_lock (f) (s : State) : (s.modHeat f).lock = s.lock := rfl
@[simp] theorem modHeat_free (f) (s : State) : (s.modHeat f).free = s.free := rfl
@[simp] theorem modHeat_pending (f) (s : State) : (s.modHeat f).pending = s.pending := rfl

/-! ## modGauze -/

@[simp] theorem modGauze_core (f) (s : State) : (s.modGauze f).core = s.core := rfl
@[simp] theorem modGauze_pins (f) (s : State) : (s.modGauze f).pins = s.pins := rfl
@[simp] theorem modGauze_frame (f) (s : State) : (s.modGauze f).frame = s.frame := rfl
@[simp] theorem modGauze_plan (f) (s : State) : (s.modGauze f).plan = s.plan := rfl
@[simp] theorem modGauze_ports (f) (s : State) : (s.modGauze f).ports = s.ports := rfl
@[simp] theorem modGauze_heat (f) (s : State) : (s.modGauze f).heat = s.heat := rfl
@[simp] theorem modGauze_gauze (f) (s : State) : (s.modGauze f).gauze = f s.gauze := rfl
@[simp] theorem modGauze_seq (f) (s : State) : (s.modGauze f).seq = s.seq := rfl
@[simp] theorem modGauze_lanes (f) (s : State) : (s.modGauze f).lanes = s.lanes := rfl
@[simp] theorem modGauze_gas (f) (s : State) : (s.modGauze f).gas = s.gas := rfl
@[simp] theorem modGauze_levees (f) (s : State) : (s.modGauze f).levees = s.levees := rfl
@[simp] theorem modGauze_cal (f) (s : State) : (s.modGauze f).cal = s.cal := rfl
@[simp] theorem modGauze_ledger (f) (s : State) : (s.modGauze f).ledger = s.ledger := rfl
@[simp] theorem modGauze_therm (f) (s : State) : (s.modGauze f).therm = s.therm := rfl
@[simp] theorem modGauze_rings (f) (s : State) : (s.modGauze f).rings = s.rings := rfl
@[simp] theorem modGauze_bus (f) (s : State) : (s.modGauze f).bus = s.bus := rfl
@[simp] theorem modGauze_mbox (f) (s : State) : (s.modGauze f).mbox = s.mbox := rfl
@[simp] theorem modGauze_time (f) (s : State) : (s.modGauze f).time = s.time := rfl
@[simp] theorem modGauze_faults (f) (s : State) : (s.modGauze f).faults = s.faults := rfl
@[simp] theorem modGauze_bolt (f) (s : State) : (s.modGauze f).bolt = s.bolt := rfl
@[simp] theorem modGauze_box (f) (s : State) : (s.modGauze f).box = s.box := rfl
@[simp] theorem modGauze_lock (f) (s : State) : (s.modGauze f).lock = s.lock := rfl
@[simp] theorem modGauze_free (f) (s : State) : (s.modGauze f).free = s.free := rfl
@[simp] theorem modGauze_pending (f) (s : State) : (s.modGauze f).pending = s.pending := rfl

/-! ## modSeq -/

@[simp] theorem modSeq_core (f) (s : State) : (s.modSeq f).core = s.core := rfl
@[simp] theorem modSeq_pins (f) (s : State) : (s.modSeq f).pins = s.pins := rfl
@[simp] theorem modSeq_frame (f) (s : State) : (s.modSeq f).frame = s.frame := rfl
@[simp] theorem modSeq_plan (f) (s : State) : (s.modSeq f).plan = s.plan := rfl
@[simp] theorem modSeq_ports (f) (s : State) : (s.modSeq f).ports = s.ports := rfl
@[simp] theorem modSeq_heat (f) (s : State) : (s.modSeq f).heat = s.heat := rfl
@[simp] theorem modSeq_gauze (f) (s : State) : (s.modSeq f).gauze = s.gauze := rfl
@[simp] theorem modSeq_seq (f) (s : State) : (s.modSeq f).seq = f s.seq := rfl
@[simp] theorem modSeq_lanes (f) (s : State) : (s.modSeq f).lanes = s.lanes := rfl
@[simp] theorem modSeq_gas (f) (s : State) : (s.modSeq f).gas = s.gas := rfl
@[simp] theorem modSeq_levees (f) (s : State) : (s.modSeq f).levees = s.levees := rfl
@[simp] theorem modSeq_cal (f) (s : State) : (s.modSeq f).cal = s.cal := rfl
@[simp] theorem modSeq_ledger (f) (s : State) : (s.modSeq f).ledger = s.ledger := rfl
@[simp] theorem modSeq_therm (f) (s : State) : (s.modSeq f).therm = s.therm := rfl
@[simp] theorem modSeq_rings (f) (s : State) : (s.modSeq f).rings = s.rings := rfl
@[simp] theorem modSeq_bus (f) (s : State) : (s.modSeq f).bus = s.bus := rfl
@[simp] theorem modSeq_mbox (f) (s : State) : (s.modSeq f).mbox = s.mbox := rfl
@[simp] theorem modSeq_time (f) (s : State) : (s.modSeq f).time = s.time := rfl
@[simp] theorem modSeq_faults (f) (s : State) : (s.modSeq f).faults = s.faults := rfl
@[simp] theorem modSeq_bolt (f) (s : State) : (s.modSeq f).bolt = s.bolt := rfl
@[simp] theorem modSeq_box (f) (s : State) : (s.modSeq f).box = s.box := rfl
@[simp] theorem modSeq_lock (f) (s : State) : (s.modSeq f).lock = s.lock := rfl
@[simp] theorem modSeq_free (f) (s : State) : (s.modSeq f).free = s.free := rfl
@[simp] theorem modSeq_pending (f) (s : State) : (s.modSeq f).pending = s.pending := rfl

/-! ## modLanes -/

@[simp] theorem modLanes_core (f) (s : State) : (s.modLanes f).core = s.core := rfl
@[simp] theorem modLanes_pins (f) (s : State) : (s.modLanes f).pins = s.pins := rfl
@[simp] theorem modLanes_frame (f) (s : State) : (s.modLanes f).frame = s.frame := rfl
@[simp] theorem modLanes_plan (f) (s : State) : (s.modLanes f).plan = s.plan := rfl
@[simp] theorem modLanes_ports (f) (s : State) : (s.modLanes f).ports = s.ports := rfl
@[simp] theorem modLanes_heat (f) (s : State) : (s.modLanes f).heat = s.heat := rfl
@[simp] theorem modLanes_gauze (f) (s : State) : (s.modLanes f).gauze = s.gauze := rfl
@[simp] theorem modLanes_seq (f) (s : State) : (s.modLanes f).seq = s.seq := rfl
@[simp] theorem modLanes_lanes (f) (s : State) : (s.modLanes f).lanes = f s.lanes := rfl
@[simp] theorem modLanes_gas (f) (s : State) : (s.modLanes f).gas = s.gas := rfl
@[simp] theorem modLanes_levees (f) (s : State) : (s.modLanes f).levees = s.levees := rfl
@[simp] theorem modLanes_cal (f) (s : State) : (s.modLanes f).cal = s.cal := rfl
@[simp] theorem modLanes_ledger (f) (s : State) : (s.modLanes f).ledger = s.ledger := rfl
@[simp] theorem modLanes_therm (f) (s : State) : (s.modLanes f).therm = s.therm := rfl
@[simp] theorem modLanes_rings (f) (s : State) : (s.modLanes f).rings = s.rings := rfl
@[simp] theorem modLanes_bus (f) (s : State) : (s.modLanes f).bus = s.bus := rfl
@[simp] theorem modLanes_mbox (f) (s : State) : (s.modLanes f).mbox = s.mbox := rfl
@[simp] theorem modLanes_time (f) (s : State) : (s.modLanes f).time = s.time := rfl
@[simp] theorem modLanes_faults (f) (s : State) : (s.modLanes f).faults = s.faults := rfl
@[simp] theorem modLanes_bolt (f) (s : State) : (s.modLanes f).bolt = s.bolt := rfl
@[simp] theorem modLanes_box (f) (s : State) : (s.modLanes f).box = s.box := rfl
@[simp] theorem modLanes_lock (f) (s : State) : (s.modLanes f).lock = s.lock := rfl
@[simp] theorem modLanes_free (f) (s : State) : (s.modLanes f).free = s.free := rfl
@[simp] theorem modLanes_pending (f) (s : State) : (s.modLanes f).pending = s.pending := rfl

/-! ## modGas -/

@[simp] theorem modGas_core (f) (s : State) : (s.modGas f).core = s.core := rfl
@[simp] theorem modGas_pins (f) (s : State) : (s.modGas f).pins = s.pins := rfl
@[simp] theorem modGas_frame (f) (s : State) : (s.modGas f).frame = s.frame := rfl
@[simp] theorem modGas_plan (f) (s : State) : (s.modGas f).plan = s.plan := rfl
@[simp] theorem modGas_ports (f) (s : State) : (s.modGas f).ports = s.ports := rfl
@[simp] theorem modGas_heat (f) (s : State) : (s.modGas f).heat = s.heat := rfl
@[simp] theorem modGas_gauze (f) (s : State) : (s.modGas f).gauze = s.gauze := rfl
@[simp] theorem modGas_seq (f) (s : State) : (s.modGas f).seq = s.seq := rfl
@[simp] theorem modGas_lanes (f) (s : State) : (s.modGas f).lanes = s.lanes := rfl
@[simp] theorem modGas_gas (f) (s : State) : (s.modGas f).gas = f s.gas := rfl
@[simp] theorem modGas_levees (f) (s : State) : (s.modGas f).levees = s.levees := rfl
@[simp] theorem modGas_cal (f) (s : State) : (s.modGas f).cal = s.cal := rfl
@[simp] theorem modGas_ledger (f) (s : State) : (s.modGas f).ledger = s.ledger := rfl
@[simp] theorem modGas_therm (f) (s : State) : (s.modGas f).therm = s.therm := rfl
@[simp] theorem modGas_rings (f) (s : State) : (s.modGas f).rings = s.rings := rfl
@[simp] theorem modGas_bus (f) (s : State) : (s.modGas f).bus = s.bus := rfl
@[simp] theorem modGas_mbox (f) (s : State) : (s.modGas f).mbox = s.mbox := rfl
@[simp] theorem modGas_time (f) (s : State) : (s.modGas f).time = s.time := rfl
@[simp] theorem modGas_faults (f) (s : State) : (s.modGas f).faults = s.faults := rfl
@[simp] theorem modGas_bolt (f) (s : State) : (s.modGas f).bolt = s.bolt := rfl
@[simp] theorem modGas_box (f) (s : State) : (s.modGas f).box = s.box := rfl
@[simp] theorem modGas_lock (f) (s : State) : (s.modGas f).lock = s.lock := rfl
@[simp] theorem modGas_free (f) (s : State) : (s.modGas f).free = s.free := rfl
@[simp] theorem modGas_pending (f) (s : State) : (s.modGas f).pending = s.pending := rfl

/-! ## modLevees -/

@[simp] theorem modLevees_core (f) (s : State) : (s.modLevees f).core = s.core := rfl
@[simp] theorem modLevees_pins (f) (s : State) : (s.modLevees f).pins = s.pins := rfl
@[simp] theorem modLevees_frame (f) (s : State) : (s.modLevees f).frame = s.frame := rfl
@[simp] theorem modLevees_plan (f) (s : State) : (s.modLevees f).plan = s.plan := rfl
@[simp] theorem modLevees_ports (f) (s : State) : (s.modLevees f).ports = s.ports := rfl
@[simp] theorem modLevees_heat (f) (s : State) : (s.modLevees f).heat = s.heat := rfl
@[simp] theorem modLevees_gauze (f) (s : State) : (s.modLevees f).gauze = s.gauze := rfl
@[simp] theorem modLevees_seq (f) (s : State) : (s.modLevees f).seq = s.seq := rfl
@[simp] theorem modLevees_lanes (f) (s : State) : (s.modLevees f).lanes = s.lanes := rfl
@[simp] theorem modLevees_gas (f) (s : State) : (s.modLevees f).gas = s.gas := rfl
@[simp] theorem modLevees_levees (f) (s : State) : (s.modLevees f).levees = f s.levees := rfl
@[simp] theorem modLevees_cal (f) (s : State) : (s.modLevees f).cal = s.cal := rfl
@[simp] theorem modLevees_ledger (f) (s : State) : (s.modLevees f).ledger = s.ledger := rfl
@[simp] theorem modLevees_therm (f) (s : State) : (s.modLevees f).therm = s.therm := rfl
@[simp] theorem modLevees_rings (f) (s : State) : (s.modLevees f).rings = s.rings := rfl
@[simp] theorem modLevees_bus (f) (s : State) : (s.modLevees f).bus = s.bus := rfl
@[simp] theorem modLevees_mbox (f) (s : State) : (s.modLevees f).mbox = s.mbox := rfl
@[simp] theorem modLevees_time (f) (s : State) : (s.modLevees f).time = s.time := rfl
@[simp] theorem modLevees_faults (f) (s : State) : (s.modLevees f).faults = s.faults := rfl
@[simp] theorem modLevees_bolt (f) (s : State) : (s.modLevees f).bolt = s.bolt := rfl
@[simp] theorem modLevees_box (f) (s : State) : (s.modLevees f).box = s.box := rfl
@[simp] theorem modLevees_lock (f) (s : State) : (s.modLevees f).lock = s.lock := rfl
@[simp] theorem modLevees_free (f) (s : State) : (s.modLevees f).free = s.free := rfl
@[simp] theorem modLevees_pending (f) (s : State) : (s.modLevees f).pending = s.pending := rfl

/-! ## modCal -/

@[simp] theorem modCal_core (f) (s : State) : (s.modCal f).core = s.core := rfl
@[simp] theorem modCal_pins (f) (s : State) : (s.modCal f).pins = s.pins := rfl
@[simp] theorem modCal_frame (f) (s : State) : (s.modCal f).frame = s.frame := rfl
@[simp] theorem modCal_plan (f) (s : State) : (s.modCal f).plan = s.plan := rfl
@[simp] theorem modCal_ports (f) (s : State) : (s.modCal f).ports = s.ports := rfl
@[simp] theorem modCal_heat (f) (s : State) : (s.modCal f).heat = s.heat := rfl
@[simp] theorem modCal_gauze (f) (s : State) : (s.modCal f).gauze = s.gauze := rfl
@[simp] theorem modCal_seq (f) (s : State) : (s.modCal f).seq = s.seq := rfl
@[simp] theorem modCal_lanes (f) (s : State) : (s.modCal f).lanes = s.lanes := rfl
@[simp] theorem modCal_gas (f) (s : State) : (s.modCal f).gas = s.gas := rfl
@[simp] theorem modCal_levees (f) (s : State) : (s.modCal f).levees = s.levees := rfl
@[simp] theorem modCal_cal (f) (s : State) : (s.modCal f).cal = f s.cal := rfl
@[simp] theorem modCal_ledger (f) (s : State) : (s.modCal f).ledger = s.ledger := rfl
@[simp] theorem modCal_therm (f) (s : State) : (s.modCal f).therm = s.therm := rfl
@[simp] theorem modCal_rings (f) (s : State) : (s.modCal f).rings = s.rings := rfl
@[simp] theorem modCal_bus (f) (s : State) : (s.modCal f).bus = s.bus := rfl
@[simp] theorem modCal_mbox (f) (s : State) : (s.modCal f).mbox = s.mbox := rfl
@[simp] theorem modCal_time (f) (s : State) : (s.modCal f).time = s.time := rfl
@[simp] theorem modCal_faults (f) (s : State) : (s.modCal f).faults = s.faults := rfl
@[simp] theorem modCal_bolt (f) (s : State) : (s.modCal f).bolt = s.bolt := rfl
@[simp] theorem modCal_box (f) (s : State) : (s.modCal f).box = s.box := rfl
@[simp] theorem modCal_lock (f) (s : State) : (s.modCal f).lock = s.lock := rfl
@[simp] theorem modCal_free (f) (s : State) : (s.modCal f).free = s.free := rfl
@[simp] theorem modCal_pending (f) (s : State) : (s.modCal f).pending = s.pending := rfl

/-! ## modLedger -/

@[simp] theorem modLedger_core (f) (s : State) : (s.modLedger f).core = s.core := rfl
@[simp] theorem modLedger_pins (f) (s : State) : (s.modLedger f).pins = s.pins := rfl
@[simp] theorem modLedger_frame (f) (s : State) : (s.modLedger f).frame = s.frame := rfl
@[simp] theorem modLedger_plan (f) (s : State) : (s.modLedger f).plan = s.plan := rfl
@[simp] theorem modLedger_ports (f) (s : State) : (s.modLedger f).ports = s.ports := rfl
@[simp] theorem modLedger_heat (f) (s : State) : (s.modLedger f).heat = s.heat := rfl
@[simp] theorem modLedger_gauze (f) (s : State) : (s.modLedger f).gauze = s.gauze := rfl
@[simp] theorem modLedger_seq (f) (s : State) : (s.modLedger f).seq = s.seq := rfl
@[simp] theorem modLedger_lanes (f) (s : State) : (s.modLedger f).lanes = s.lanes := rfl
@[simp] theorem modLedger_gas (f) (s : State) : (s.modLedger f).gas = s.gas := rfl
@[simp] theorem modLedger_levees (f) (s : State) : (s.modLedger f).levees = s.levees := rfl
@[simp] theorem modLedger_cal (f) (s : State) : (s.modLedger f).cal = s.cal := rfl
@[simp] theorem modLedger_ledger (f) (s : State) : (s.modLedger f).ledger = f s.ledger := rfl
@[simp] theorem modLedger_therm (f) (s : State) : (s.modLedger f).therm = s.therm := rfl
@[simp] theorem modLedger_rings (f) (s : State) : (s.modLedger f).rings = s.rings := rfl
@[simp] theorem modLedger_bus (f) (s : State) : (s.modLedger f).bus = s.bus := rfl
@[simp] theorem modLedger_mbox (f) (s : State) : (s.modLedger f).mbox = s.mbox := rfl
@[simp] theorem modLedger_time (f) (s : State) : (s.modLedger f).time = s.time := rfl
@[simp] theorem modLedger_faults (f) (s : State) : (s.modLedger f).faults = s.faults := rfl
@[simp] theorem modLedger_bolt (f) (s : State) : (s.modLedger f).bolt = s.bolt := rfl
@[simp] theorem modLedger_box (f) (s : State) : (s.modLedger f).box = s.box := rfl
@[simp] theorem modLedger_lock (f) (s : State) : (s.modLedger f).lock = s.lock := rfl
@[simp] theorem modLedger_free (f) (s : State) : (s.modLedger f).free = s.free := rfl
@[simp] theorem modLedger_pending (f) (s : State) : (s.modLedger f).pending = s.pending := rfl

/-! ## modTherm -/

@[simp] theorem modTherm_core (f) (s : State) : (s.modTherm f).core = s.core := rfl
@[simp] theorem modTherm_pins (f) (s : State) : (s.modTherm f).pins = s.pins := rfl
@[simp] theorem modTherm_frame (f) (s : State) : (s.modTherm f).frame = s.frame := rfl
@[simp] theorem modTherm_plan (f) (s : State) : (s.modTherm f).plan = s.plan := rfl
@[simp] theorem modTherm_ports (f) (s : State) : (s.modTherm f).ports = s.ports := rfl
@[simp] theorem modTherm_heat (f) (s : State) : (s.modTherm f).heat = s.heat := rfl
@[simp] theorem modTherm_gauze (f) (s : State) : (s.modTherm f).gauze = s.gauze := rfl
@[simp] theorem modTherm_seq (f) (s : State) : (s.modTherm f).seq = s.seq := rfl
@[simp] theorem modTherm_lanes (f) (s : State) : (s.modTherm f).lanes = s.lanes := rfl
@[simp] theorem modTherm_gas (f) (s : State) : (s.modTherm f).gas = s.gas := rfl
@[simp] theorem modTherm_levees (f) (s : State) : (s.modTherm f).levees = s.levees := rfl
@[simp] theorem modTherm_cal (f) (s : State) : (s.modTherm f).cal = s.cal := rfl
@[simp] theorem modTherm_ledger (f) (s : State) : (s.modTherm f).ledger = s.ledger := rfl
@[simp] theorem modTherm_therm (f) (s : State) : (s.modTherm f).therm = f s.therm := rfl
@[simp] theorem modTherm_rings (f) (s : State) : (s.modTherm f).rings = s.rings := rfl
@[simp] theorem modTherm_bus (f) (s : State) : (s.modTherm f).bus = s.bus := rfl
@[simp] theorem modTherm_mbox (f) (s : State) : (s.modTherm f).mbox = s.mbox := rfl
@[simp] theorem modTherm_time (f) (s : State) : (s.modTherm f).time = s.time := rfl
@[simp] theorem modTherm_faults (f) (s : State) : (s.modTherm f).faults = s.faults := rfl
@[simp] theorem modTherm_bolt (f) (s : State) : (s.modTherm f).bolt = s.bolt := rfl
@[simp] theorem modTherm_box (f) (s : State) : (s.modTherm f).box = s.box := rfl
@[simp] theorem modTherm_lock (f) (s : State) : (s.modTherm f).lock = s.lock := rfl
@[simp] theorem modTherm_free (f) (s : State) : (s.modTherm f).free = s.free := rfl
@[simp] theorem modTherm_pending (f) (s : State) : (s.modTherm f).pending = s.pending := rfl

/-! ## modRings -/

@[simp] theorem modRings_core (f) (s : State) : (s.modRings f).core = s.core := rfl
@[simp] theorem modRings_pins (f) (s : State) : (s.modRings f).pins = s.pins := rfl
@[simp] theorem modRings_frame (f) (s : State) : (s.modRings f).frame = s.frame := rfl
@[simp] theorem modRings_plan (f) (s : State) : (s.modRings f).plan = s.plan := rfl
@[simp] theorem modRings_ports (f) (s : State) : (s.modRings f).ports = s.ports := rfl
@[simp] theorem modRings_heat (f) (s : State) : (s.modRings f).heat = s.heat := rfl
@[simp] theorem modRings_gauze (f) (s : State) : (s.modRings f).gauze = s.gauze := rfl
@[simp] theorem modRings_seq (f) (s : State) : (s.modRings f).seq = s.seq := rfl
@[simp] theorem modRings_lanes (f) (s : State) : (s.modRings f).lanes = s.lanes := rfl
@[simp] theorem modRings_gas (f) (s : State) : (s.modRings f).gas = s.gas := rfl
@[simp] theorem modRings_levees (f) (s : State) : (s.modRings f).levees = s.levees := rfl
@[simp] theorem modRings_cal (f) (s : State) : (s.modRings f).cal = s.cal := rfl
@[simp] theorem modRings_ledger (f) (s : State) : (s.modRings f).ledger = s.ledger := rfl
@[simp] theorem modRings_therm (f) (s : State) : (s.modRings f).therm = s.therm := rfl
@[simp] theorem modRings_rings (f) (s : State) : (s.modRings f).rings = f s.rings := rfl
@[simp] theorem modRings_bus (f) (s : State) : (s.modRings f).bus = s.bus := rfl
@[simp] theorem modRings_mbox (f) (s : State) : (s.modRings f).mbox = s.mbox := rfl
@[simp] theorem modRings_time (f) (s : State) : (s.modRings f).time = s.time := rfl
@[simp] theorem modRings_faults (f) (s : State) : (s.modRings f).faults = s.faults := rfl
@[simp] theorem modRings_bolt (f) (s : State) : (s.modRings f).bolt = s.bolt := rfl
@[simp] theorem modRings_box (f) (s : State) : (s.modRings f).box = s.box := rfl
@[simp] theorem modRings_lock (f) (s : State) : (s.modRings f).lock = s.lock := rfl
@[simp] theorem modRings_free (f) (s : State) : (s.modRings f).free = s.free := rfl
@[simp] theorem modRings_pending (f) (s : State) : (s.modRings f).pending = s.pending := rfl

/-! ## modBus -/

@[simp] theorem modBus_core (f) (s : State) : (s.modBus f).core = s.core := rfl
@[simp] theorem modBus_pins (f) (s : State) : (s.modBus f).pins = s.pins := rfl
@[simp] theorem modBus_frame (f) (s : State) : (s.modBus f).frame = s.frame := rfl
@[simp] theorem modBus_plan (f) (s : State) : (s.modBus f).plan = s.plan := rfl
@[simp] theorem modBus_ports (f) (s : State) : (s.modBus f).ports = s.ports := rfl
@[simp] theorem modBus_heat (f) (s : State) : (s.modBus f).heat = s.heat := rfl
@[simp] theorem modBus_gauze (f) (s : State) : (s.modBus f).gauze = s.gauze := rfl
@[simp] theorem modBus_seq (f) (s : State) : (s.modBus f).seq = s.seq := rfl
@[simp] theorem modBus_lanes (f) (s : State) : (s.modBus f).lanes = s.lanes := rfl
@[simp] theorem modBus_gas (f) (s : State) : (s.modBus f).gas = s.gas := rfl
@[simp] theorem modBus_levees (f) (s : State) : (s.modBus f).levees = s.levees := rfl
@[simp] theorem modBus_cal (f) (s : State) : (s.modBus f).cal = s.cal := rfl
@[simp] theorem modBus_ledger (f) (s : State) : (s.modBus f).ledger = s.ledger := rfl
@[simp] theorem modBus_therm (f) (s : State) : (s.modBus f).therm = s.therm := rfl
@[simp] theorem modBus_rings (f) (s : State) : (s.modBus f).rings = s.rings := rfl
@[simp] theorem modBus_bus (f) (s : State) : (s.modBus f).bus = f s.bus := rfl
@[simp] theorem modBus_mbox (f) (s : State) : (s.modBus f).mbox = s.mbox := rfl
@[simp] theorem modBus_time (f) (s : State) : (s.modBus f).time = s.time := rfl
@[simp] theorem modBus_faults (f) (s : State) : (s.modBus f).faults = s.faults := rfl
@[simp] theorem modBus_bolt (f) (s : State) : (s.modBus f).bolt = s.bolt := rfl
@[simp] theorem modBus_box (f) (s : State) : (s.modBus f).box = s.box := rfl
@[simp] theorem modBus_lock (f) (s : State) : (s.modBus f).lock = s.lock := rfl
@[simp] theorem modBus_free (f) (s : State) : (s.modBus f).free = s.free := rfl
@[simp] theorem modBus_pending (f) (s : State) : (s.modBus f).pending = s.pending := rfl

/-! ## modMbox -/

@[simp] theorem modMbox_core (f) (s : State) : (s.modMbox f).core = s.core := rfl
@[simp] theorem modMbox_pins (f) (s : State) : (s.modMbox f).pins = s.pins := rfl
@[simp] theorem modMbox_frame (f) (s : State) : (s.modMbox f).frame = s.frame := rfl
@[simp] theorem modMbox_plan (f) (s : State) : (s.modMbox f).plan = s.plan := rfl
@[simp] theorem modMbox_ports (f) (s : State) : (s.modMbox f).ports = s.ports := rfl
@[simp] theorem modMbox_heat (f) (s : State) : (s.modMbox f).heat = s.heat := rfl
@[simp] theorem modMbox_gauze (f) (s : State) : (s.modMbox f).gauze = s.gauze := rfl
@[simp] theorem modMbox_seq (f) (s : State) : (s.modMbox f).seq = s.seq := rfl
@[simp] theorem modMbox_lanes (f) (s : State) : (s.modMbox f).lanes = s.lanes := rfl
@[simp] theorem modMbox_gas (f) (s : State) : (s.modMbox f).gas = s.gas := rfl
@[simp] theorem modMbox_levees (f) (s : State) : (s.modMbox f).levees = s.levees := rfl
@[simp] theorem modMbox_cal (f) (s : State) : (s.modMbox f).cal = s.cal := rfl
@[simp] theorem modMbox_ledger (f) (s : State) : (s.modMbox f).ledger = s.ledger := rfl
@[simp] theorem modMbox_therm (f) (s : State) : (s.modMbox f).therm = s.therm := rfl
@[simp] theorem modMbox_rings (f) (s : State) : (s.modMbox f).rings = s.rings := rfl
@[simp] theorem modMbox_bus (f) (s : State) : (s.modMbox f).bus = s.bus := rfl
@[simp] theorem modMbox_mbox (f) (s : State) : (s.modMbox f).mbox = f s.mbox := rfl
@[simp] theorem modMbox_time (f) (s : State) : (s.modMbox f).time = s.time := rfl
@[simp] theorem modMbox_faults (f) (s : State) : (s.modMbox f).faults = s.faults := rfl
@[simp] theorem modMbox_bolt (f) (s : State) : (s.modMbox f).bolt = s.bolt := rfl
@[simp] theorem modMbox_box (f) (s : State) : (s.modMbox f).box = s.box := rfl
@[simp] theorem modMbox_lock (f) (s : State) : (s.modMbox f).lock = s.lock := rfl
@[simp] theorem modMbox_free (f) (s : State) : (s.modMbox f).free = s.free := rfl
@[simp] theorem modMbox_pending (f) (s : State) : (s.modMbox f).pending = s.pending := rfl

/-! ## modTime -/

@[simp] theorem modTime_core (f) (s : State) : (s.modTime f).core = s.core := rfl
@[simp] theorem modTime_pins (f) (s : State) : (s.modTime f).pins = s.pins := rfl
@[simp] theorem modTime_frame (f) (s : State) : (s.modTime f).frame = s.frame := rfl
@[simp] theorem modTime_plan (f) (s : State) : (s.modTime f).plan = s.plan := rfl
@[simp] theorem modTime_ports (f) (s : State) : (s.modTime f).ports = s.ports := rfl
@[simp] theorem modTime_heat (f) (s : State) : (s.modTime f).heat = s.heat := rfl
@[simp] theorem modTime_gauze (f) (s : State) : (s.modTime f).gauze = s.gauze := rfl
@[simp] theorem modTime_seq (f) (s : State) : (s.modTime f).seq = s.seq := rfl
@[simp] theorem modTime_lanes (f) (s : State) : (s.modTime f).lanes = s.lanes := rfl
@[simp] theorem modTime_gas (f) (s : State) : (s.modTime f).gas = s.gas := rfl
@[simp] theorem modTime_levees (f) (s : State) : (s.modTime f).levees = s.levees := rfl
@[simp] theorem modTime_cal (f) (s : State) : (s.modTime f).cal = s.cal := rfl
@[simp] theorem modTime_ledger (f) (s : State) : (s.modTime f).ledger = s.ledger := rfl
@[simp] theorem modTime_therm (f) (s : State) : (s.modTime f).therm = s.therm := rfl
@[simp] theorem modTime_rings (f) (s : State) : (s.modTime f).rings = s.rings := rfl
@[simp] theorem modTime_bus (f) (s : State) : (s.modTime f).bus = s.bus := rfl
@[simp] theorem modTime_mbox (f) (s : State) : (s.modTime f).mbox = s.mbox := rfl
@[simp] theorem modTime_time (f) (s : State) : (s.modTime f).time = f s.time := rfl
@[simp] theorem modTime_faults (f) (s : State) : (s.modTime f).faults = s.faults := rfl
@[simp] theorem modTime_bolt (f) (s : State) : (s.modTime f).bolt = s.bolt := rfl
@[simp] theorem modTime_box (f) (s : State) : (s.modTime f).box = s.box := rfl
@[simp] theorem modTime_lock (f) (s : State) : (s.modTime f).lock = s.lock := rfl
@[simp] theorem modTime_free (f) (s : State) : (s.modTime f).free = s.free := rfl
@[simp] theorem modTime_pending (f) (s : State) : (s.modTime f).pending = s.pending := rfl

/-! ## modFaults -/

@[simp] theorem modFaults_core (f) (s : State) : (s.modFaults f).core = s.core := rfl
@[simp] theorem modFaults_pins (f) (s : State) : (s.modFaults f).pins = s.pins := rfl
@[simp] theorem modFaults_frame (f) (s : State) : (s.modFaults f).frame = s.frame := rfl
@[simp] theorem modFaults_plan (f) (s : State) : (s.modFaults f).plan = s.plan := rfl
@[simp] theorem modFaults_ports (f) (s : State) : (s.modFaults f).ports = s.ports := rfl
@[simp] theorem modFaults_heat (f) (s : State) : (s.modFaults f).heat = s.heat := rfl
@[simp] theorem modFaults_gauze (f) (s : State) : (s.modFaults f).gauze = s.gauze := rfl
@[simp] theorem modFaults_seq (f) (s : State) : (s.modFaults f).seq = s.seq := rfl
@[simp] theorem modFaults_lanes (f) (s : State) : (s.modFaults f).lanes = s.lanes := rfl
@[simp] theorem modFaults_gas (f) (s : State) : (s.modFaults f).gas = s.gas := rfl
@[simp] theorem modFaults_levees (f) (s : State) : (s.modFaults f).levees = s.levees := rfl
@[simp] theorem modFaults_cal (f) (s : State) : (s.modFaults f).cal = s.cal := rfl
@[simp] theorem modFaults_ledger (f) (s : State) : (s.modFaults f).ledger = s.ledger := rfl
@[simp] theorem modFaults_therm (f) (s : State) : (s.modFaults f).therm = s.therm := rfl
@[simp] theorem modFaults_rings (f) (s : State) : (s.modFaults f).rings = s.rings := rfl
@[simp] theorem modFaults_bus (f) (s : State) : (s.modFaults f).bus = s.bus := rfl
@[simp] theorem modFaults_mbox (f) (s : State) : (s.modFaults f).mbox = s.mbox := rfl
@[simp] theorem modFaults_time (f) (s : State) : (s.modFaults f).time = s.time := rfl
@[simp] theorem modFaults_faults (f) (s : State) : (s.modFaults f).faults = f s.faults := rfl
@[simp] theorem modFaults_bolt (f) (s : State) : (s.modFaults f).bolt = s.bolt := rfl
@[simp] theorem modFaults_box (f) (s : State) : (s.modFaults f).box = s.box := rfl
@[simp] theorem modFaults_lock (f) (s : State) : (s.modFaults f).lock = s.lock := rfl
@[simp] theorem modFaults_free (f) (s : State) : (s.modFaults f).free = s.free := rfl
@[simp] theorem modFaults_pending (f) (s : State) : (s.modFaults f).pending = s.pending := rfl

/-! ## modBolt -/

@[simp] theorem modBolt_core (f) (s : State) : (s.modBolt f).core = s.core := rfl
@[simp] theorem modBolt_pins (f) (s : State) : (s.modBolt f).pins = s.pins := rfl
@[simp] theorem modBolt_frame (f) (s : State) : (s.modBolt f).frame = s.frame := rfl
@[simp] theorem modBolt_plan (f) (s : State) : (s.modBolt f).plan = s.plan := rfl
@[simp] theorem modBolt_ports (f) (s : State) : (s.modBolt f).ports = s.ports := rfl
@[simp] theorem modBolt_heat (f) (s : State) : (s.modBolt f).heat = s.heat := rfl
@[simp] theorem modBolt_gauze (f) (s : State) : (s.modBolt f).gauze = s.gauze := rfl
@[simp] theorem modBolt_seq (f) (s : State) : (s.modBolt f).seq = s.seq := rfl
@[simp] theorem modBolt_lanes (f) (s : State) : (s.modBolt f).lanes = s.lanes := rfl
@[simp] theorem modBolt_gas (f) (s : State) : (s.modBolt f).gas = s.gas := rfl
@[simp] theorem modBolt_levees (f) (s : State) : (s.modBolt f).levees = s.levees := rfl
@[simp] theorem modBolt_cal (f) (s : State) : (s.modBolt f).cal = s.cal := rfl
@[simp] theorem modBolt_ledger (f) (s : State) : (s.modBolt f).ledger = s.ledger := rfl
@[simp] theorem modBolt_therm (f) (s : State) : (s.modBolt f).therm = s.therm := rfl
@[simp] theorem modBolt_rings (f) (s : State) : (s.modBolt f).rings = s.rings := rfl
@[simp] theorem modBolt_bus (f) (s : State) : (s.modBolt f).bus = s.bus := rfl
@[simp] theorem modBolt_mbox (f) (s : State) : (s.modBolt f).mbox = s.mbox := rfl
@[simp] theorem modBolt_time (f) (s : State) : (s.modBolt f).time = s.time := rfl
@[simp] theorem modBolt_faults (f) (s : State) : (s.modBolt f).faults = s.faults := rfl
@[simp] theorem modBolt_bolt (f) (s : State) : (s.modBolt f).bolt = f s.bolt := rfl
@[simp] theorem modBolt_box (f) (s : State) : (s.modBolt f).box = s.box := rfl
@[simp] theorem modBolt_lock (f) (s : State) : (s.modBolt f).lock = s.lock := rfl
@[simp] theorem modBolt_free (f) (s : State) : (s.modBolt f).free = s.free := rfl
@[simp] theorem modBolt_pending (f) (s : State) : (s.modBolt f).pending = s.pending := rfl

/-! ## modBox -/

@[simp] theorem modBox_core (f) (s : State) : (s.modBox f).core = s.core := rfl
@[simp] theorem modBox_pins (f) (s : State) : (s.modBox f).pins = s.pins := rfl
@[simp] theorem modBox_frame (f) (s : State) : (s.modBox f).frame = s.frame := rfl
@[simp] theorem modBox_plan (f) (s : State) : (s.modBox f).plan = s.plan := rfl
@[simp] theorem modBox_ports (f) (s : State) : (s.modBox f).ports = s.ports := rfl
@[simp] theorem modBox_heat (f) (s : State) : (s.modBox f).heat = s.heat := rfl
@[simp] theorem modBox_gauze (f) (s : State) : (s.modBox f).gauze = s.gauze := rfl
@[simp] theorem modBox_seq (f) (s : State) : (s.modBox f).seq = s.seq := rfl
@[simp] theorem modBox_lanes (f) (s : State) : (s.modBox f).lanes = s.lanes := rfl
@[simp] theorem modBox_gas (f) (s : State) : (s.modBox f).gas = s.gas := rfl
@[simp] theorem modBox_levees (f) (s : State) : (s.modBox f).levees = s.levees := rfl
@[simp] theorem modBox_cal (f) (s : State) : (s.modBox f).cal = s.cal := rfl
@[simp] theorem modBox_ledger (f) (s : State) : (s.modBox f).ledger = s.ledger := rfl
@[simp] theorem modBox_therm (f) (s : State) : (s.modBox f).therm = s.therm := rfl
@[simp] theorem modBox_rings (f) (s : State) : (s.modBox f).rings = s.rings := rfl
@[simp] theorem modBox_bus (f) (s : State) : (s.modBox f).bus = s.bus := rfl
@[simp] theorem modBox_mbox (f) (s : State) : (s.modBox f).mbox = s.mbox := rfl
@[simp] theorem modBox_time (f) (s : State) : (s.modBox f).time = s.time := rfl
@[simp] theorem modBox_faults (f) (s : State) : (s.modBox f).faults = s.faults := rfl
@[simp] theorem modBox_bolt (f) (s : State) : (s.modBox f).bolt = s.bolt := rfl
@[simp] theorem modBox_box (f) (s : State) : (s.modBox f).box = f s.box := rfl
@[simp] theorem modBox_lock (f) (s : State) : (s.modBox f).lock = s.lock := rfl
@[simp] theorem modBox_free (f) (s : State) : (s.modBox f).free = s.free := rfl
@[simp] theorem modBox_pending (f) (s : State) : (s.modBox f).pending = s.pending := rfl

/-! ## modLock -/

@[simp] theorem modLock_core (f) (s : State) : (s.modLock f).core = s.core := rfl
@[simp] theorem modLock_pins (f) (s : State) : (s.modLock f).pins = s.pins := rfl
@[simp] theorem modLock_frame (f) (s : State) : (s.modLock f).frame = s.frame := rfl
@[simp] theorem modLock_plan (f) (s : State) : (s.modLock f).plan = s.plan := rfl
@[simp] theorem modLock_ports (f) (s : State) : (s.modLock f).ports = s.ports := rfl
@[simp] theorem modLock_heat (f) (s : State) : (s.modLock f).heat = s.heat := rfl
@[simp] theorem modLock_gauze (f) (s : State) : (s.modLock f).gauze = s.gauze := rfl
@[simp] theorem modLock_seq (f) (s : State) : (s.modLock f).seq = s.seq := rfl
@[simp] theorem modLock_lanes (f) (s : State) : (s.modLock f).lanes = s.lanes := rfl
@[simp] theorem modLock_gas (f) (s : State) : (s.modLock f).gas = s.gas := rfl
@[simp] theorem modLock_levees (f) (s : State) : (s.modLock f).levees = s.levees := rfl
@[simp] theorem modLock_cal (f) (s : State) : (s.modLock f).cal = s.cal := rfl
@[simp] theorem modLock_ledger (f) (s : State) : (s.modLock f).ledger = s.ledger := rfl
@[simp] theorem modLock_therm (f) (s : State) : (s.modLock f).therm = s.therm := rfl
@[simp] theorem modLock_rings (f) (s : State) : (s.modLock f).rings = s.rings := rfl
@[simp] theorem modLock_bus (f) (s : State) : (s.modLock f).bus = s.bus := rfl
@[simp] theorem modLock_mbox (f) (s : State) : (s.modLock f).mbox = s.mbox := rfl
@[simp] theorem modLock_time (f) (s : State) : (s.modLock f).time = s.time := rfl
@[simp] theorem modLock_faults (f) (s : State) : (s.modLock f).faults = s.faults := rfl
@[simp] theorem modLock_bolt (f) (s : State) : (s.modLock f).bolt = s.bolt := rfl
@[simp] theorem modLock_box (f) (s : State) : (s.modLock f).box = s.box := rfl
@[simp] theorem modLock_lock (f) (s : State) : (s.modLock f).lock = f s.lock := rfl
@[simp] theorem modLock_free (f) (s : State) : (s.modLock f).free = s.free := rfl
@[simp] theorem modLock_pending (f) (s : State) : (s.modLock f).pending = s.pending := rfl

/-! ## modPort -/

@[simp] theorem modPort_core (p : PortId) (f) (s : State) : (s.modPort p f).core = s.core := rfl
@[simp] theorem modPort_pins (p : PortId) (f) (s : State) : (s.modPort p f).pins = s.pins := rfl
@[simp] theorem modPort_frame (p : PortId) (f) (s : State) : (s.modPort p f).frame = s.frame := rfl
@[simp] theorem modPort_plan (p : PortId) (f) (s : State) : (s.modPort p f).plan = s.plan := rfl
@[simp] theorem modPort_ports (p : PortId) (f) (s : State) :
    (s.modPort p f).ports = s.ports.set p (f s.ports[p]) := rfl
@[simp] theorem modPort_heat (p : PortId) (f) (s : State) : (s.modPort p f).heat = s.heat := rfl
@[simp] theorem modPort_gauze (p : PortId) (f) (s : State) : (s.modPort p f).gauze = s.gauze := rfl
@[simp] theorem modPort_seq (p : PortId) (f) (s : State) : (s.modPort p f).seq = s.seq := rfl
@[simp] theorem modPort_lanes (p : PortId) (f) (s : State) : (s.modPort p f).lanes = s.lanes := rfl
@[simp] theorem modPort_gas (p : PortId) (f) (s : State) : (s.modPort p f).gas = s.gas := rfl
@[simp] theorem modPort_levees (p : PortId) (f) (s : State) : (s.modPort p f).levees = s.levees := rfl
@[simp] theorem modPort_cal (p : PortId) (f) (s : State) : (s.modPort p f).cal = s.cal := rfl
@[simp] theorem modPort_ledger (p : PortId) (f) (s : State) : (s.modPort p f).ledger = s.ledger := rfl
@[simp] theorem modPort_therm (p : PortId) (f) (s : State) : (s.modPort p f).therm = s.therm := rfl
@[simp] theorem modPort_rings (p : PortId) (f) (s : State) : (s.modPort p f).rings = s.rings := rfl
@[simp] theorem modPort_bus (p : PortId) (f) (s : State) : (s.modPort p f).bus = s.bus := rfl
@[simp] theorem modPort_mbox (p : PortId) (f) (s : State) : (s.modPort p f).mbox = s.mbox := rfl
@[simp] theorem modPort_time (p : PortId) (f) (s : State) : (s.modPort p f).time = s.time := rfl
@[simp] theorem modPort_faults (p : PortId) (f) (s : State) : (s.modPort p f).faults = s.faults := rfl
@[simp] theorem modPort_bolt (p : PortId) (f) (s : State) : (s.modPort p f).bolt = s.bolt := rfl
@[simp] theorem modPort_box (p : PortId) (f) (s : State) : (s.modPort p f).box = s.box := rfl
@[simp] theorem modPort_lock (p : PortId) (f) (s : State) : (s.modPort p f).lock = s.lock := rfl
@[simp] theorem modPort_free (p : PortId) (f) (s : State) : (s.modPort p f).free = s.free := rfl
@[simp] theorem modPort_pending (p : PortId) (f) (s : State) : (s.modPort p f).pending = s.pending := rfl

/-! ## modHeater -/

@[simp] theorem modHeater_core (p : PortId) (f) (s : State) : (s.modHeater p f).core = s.core := rfl
@[simp] theorem modHeater_pins (p : PortId) (f) (s : State) : (s.modHeater p f).pins = s.pins := rfl
@[simp] theorem modHeater_frame (p : PortId) (f) (s : State) : (s.modHeater p f).frame = s.frame := rfl
@[simp] theorem modHeater_plan (p : PortId) (f) (s : State) : (s.modHeater p f).plan = s.plan := rfl
@[simp] theorem modHeater_ports (p : PortId) (f) (s : State) : (s.modHeater p f).ports = s.ports := rfl
@[simp] theorem modHeater_heat (p : PortId) (f) (s : State) :
    (s.modHeater p f).heat = s.heat.set p (f s.heat[p]) := rfl
@[simp] theorem modHeater_gauze (p : PortId) (f) (s : State) : (s.modHeater p f).gauze = s.gauze := rfl
@[simp] theorem modHeater_seq (p : PortId) (f) (s : State) : (s.modHeater p f).seq = s.seq := rfl
@[simp] theorem modHeater_lanes (p : PortId) (f) (s : State) : (s.modHeater p f).lanes = s.lanes := rfl
@[simp] theorem modHeater_gas (p : PortId) (f) (s : State) : (s.modHeater p f).gas = s.gas := rfl
@[simp] theorem modHeater_levees (p : PortId) (f) (s : State) : (s.modHeater p f).levees = s.levees := rfl
@[simp] theorem modHeater_cal (p : PortId) (f) (s : State) : (s.modHeater p f).cal = s.cal := rfl
@[simp] theorem modHeater_ledger (p : PortId) (f) (s : State) : (s.modHeater p f).ledger = s.ledger := rfl
@[simp] theorem modHeater_therm (p : PortId) (f) (s : State) : (s.modHeater p f).therm = s.therm := rfl
@[simp] theorem modHeater_rings (p : PortId) (f) (s : State) : (s.modHeater p f).rings = s.rings := rfl
@[simp] theorem modHeater_bus (p : PortId) (f) (s : State) : (s.modHeater p f).bus = s.bus := rfl
@[simp] theorem modHeater_mbox (p : PortId) (f) (s : State) : (s.modHeater p f).mbox = s.mbox := rfl
@[simp] theorem modHeater_time (p : PortId) (f) (s : State) : (s.modHeater p f).time = s.time := rfl
@[simp] theorem modHeater_faults (p : PortId) (f) (s : State) : (s.modHeater p f).faults = s.faults := rfl
@[simp] theorem modHeater_bolt (p : PortId) (f) (s : State) : (s.modHeater p f).bolt = s.bolt := rfl
@[simp] theorem modHeater_box (p : PortId) (f) (s : State) : (s.modHeater p f).box = s.box := rfl
@[simp] theorem modHeater_lock (p : PortId) (f) (s : State) : (s.modHeater p f).lock = s.lock := rfl
@[simp] theorem modHeater_free (p : PortId) (f) (s : State) : (s.modHeater p f).free = s.free := rfl
@[simp] theorem modHeater_pending (p : PortId) (f) (s : State) : (s.modHeater p f).pending = s.pending := rfl

/-! ## modGauzeAt -/

@[simp] theorem modGauzeAt_core (p : PortId) (f) (s : State) : (s.modGauzeAt p f).core = s.core := rfl
@[simp] theorem modGauzeAt_pins (p : PortId) (f) (s : State) : (s.modGauzeAt p f).pins = s.pins := rfl
@[simp] theorem modGauzeAt_frame (p : PortId) (f) (s : State) : (s.modGauzeAt p f).frame = s.frame := rfl
@[simp] theorem modGauzeAt_plan (p : PortId) (f) (s : State) : (s.modGauzeAt p f).plan = s.plan := rfl
@[simp] theorem modGauzeAt_ports (p : PortId) (f) (s : State) : (s.modGauzeAt p f).ports = s.ports := rfl
@[simp] theorem modGauzeAt_heat (p : PortId) (f) (s : State) : (s.modGauzeAt p f).heat = s.heat := rfl
@[simp] theorem modGauzeAt_gauze (p : PortId) (f) (s : State) :
    (s.modGauzeAt p f).gauze = s.gauze.set p (f s.gauze[p]) := rfl
@[simp] theorem modGauzeAt_seq (p : PortId) (f) (s : State) : (s.modGauzeAt p f).seq = s.seq := rfl
@[simp] theorem modGauzeAt_lanes (p : PortId) (f) (s : State) : (s.modGauzeAt p f).lanes = s.lanes := rfl
@[simp] theorem modGauzeAt_gas (p : PortId) (f) (s : State) : (s.modGauzeAt p f).gas = s.gas := rfl
@[simp] theorem modGauzeAt_levees (p : PortId) (f) (s : State) : (s.modGauzeAt p f).levees = s.levees := rfl
@[simp] theorem modGauzeAt_cal (p : PortId) (f) (s : State) : (s.modGauzeAt p f).cal = s.cal := rfl
@[simp] theorem modGauzeAt_ledger (p : PortId) (f) (s : State) : (s.modGauzeAt p f).ledger = s.ledger := rfl
@[simp] theorem modGauzeAt_therm (p : PortId) (f) (s : State) : (s.modGauzeAt p f).therm = s.therm := rfl
@[simp] theorem modGauzeAt_rings (p : PortId) (f) (s : State) : (s.modGauzeAt p f).rings = s.rings := rfl
@[simp] theorem modGauzeAt_bus (p : PortId) (f) (s : State) : (s.modGauzeAt p f).bus = s.bus := rfl
@[simp] theorem modGauzeAt_mbox (p : PortId) (f) (s : State) : (s.modGauzeAt p f).mbox = s.mbox := rfl
@[simp] theorem modGauzeAt_time (p : PortId) (f) (s : State) : (s.modGauzeAt p f).time = s.time := rfl
@[simp] theorem modGauzeAt_faults (p : PortId) (f) (s : State) : (s.modGauzeAt p f).faults = s.faults := rfl
@[simp] theorem modGauzeAt_bolt (p : PortId) (f) (s : State) : (s.modGauzeAt p f).bolt = s.bolt := rfl
@[simp] theorem modGauzeAt_box (p : PortId) (f) (s : State) : (s.modGauzeAt p f).box = s.box := rfl
@[simp] theorem modGauzeAt_lock (p : PortId) (f) (s : State) : (s.modGauzeAt p f).lock = s.lock := rfl
@[simp] theorem modGauzeAt_free (p : PortId) (f) (s : State) : (s.modGauzeAt p f).free = s.free := rfl
@[simp] theorem modGauzeAt_pending (p : PortId) (f) (s : State) : (s.modGauzeAt p f).pending = s.pending := rfl

/-! ## modLane -/

@[simp] theorem modLane_core (l : LaneId) (f) (s : State) : (s.modLane l f).core = s.core := rfl
@[simp] theorem modLane_pins (l : LaneId) (f) (s : State) : (s.modLane l f).pins = s.pins := rfl
@[simp] theorem modLane_frame (l : LaneId) (f) (s : State) : (s.modLane l f).frame = s.frame := rfl
@[simp] theorem modLane_plan (l : LaneId) (f) (s : State) : (s.modLane l f).plan = s.plan := rfl
@[simp] theorem modLane_ports (l : LaneId) (f) (s : State) : (s.modLane l f).ports = s.ports := rfl
@[simp] theorem modLane_heat (l : LaneId) (f) (s : State) : (s.modLane l f).heat = s.heat := rfl
@[simp] theorem modLane_gauze (l : LaneId) (f) (s : State) : (s.modLane l f).gauze = s.gauze := rfl
@[simp] theorem modLane_seq (l : LaneId) (f) (s : State) : (s.modLane l f).seq = s.seq := rfl
@[simp] theorem modLane_lanes (l : LaneId) (f) (s : State) :
    (s.modLane l f).lanes = s.lanes.set l (f s.lanes[l]) := rfl
@[simp] theorem modLane_gas (l : LaneId) (f) (s : State) : (s.modLane l f).gas = s.gas := rfl
@[simp] theorem modLane_levees (l : LaneId) (f) (s : State) : (s.modLane l f).levees = s.levees := rfl
@[simp] theorem modLane_cal (l : LaneId) (f) (s : State) : (s.modLane l f).cal = s.cal := rfl
@[simp] theorem modLane_ledger (l : LaneId) (f) (s : State) : (s.modLane l f).ledger = s.ledger := rfl
@[simp] theorem modLane_therm (l : LaneId) (f) (s : State) : (s.modLane l f).therm = s.therm := rfl
@[simp] theorem modLane_rings (l : LaneId) (f) (s : State) : (s.modLane l f).rings = s.rings := rfl
@[simp] theorem modLane_bus (l : LaneId) (f) (s : State) : (s.modLane l f).bus = s.bus := rfl
@[simp] theorem modLane_mbox (l : LaneId) (f) (s : State) : (s.modLane l f).mbox = s.mbox := rfl
@[simp] theorem modLane_time (l : LaneId) (f) (s : State) : (s.modLane l f).time = s.time := rfl
@[simp] theorem modLane_faults (l : LaneId) (f) (s : State) : (s.modLane l f).faults = s.faults := rfl
@[simp] theorem modLane_bolt (l : LaneId) (f) (s : State) : (s.modLane l f).bolt = s.bolt := rfl
@[simp] theorem modLane_box (l : LaneId) (f) (s : State) : (s.modLane l f).box = s.box := rfl
@[simp] theorem modLane_lock (l : LaneId) (f) (s : State) : (s.modLane l f).lock = s.lock := rfl
@[simp] theorem modLane_free (l : LaneId) (f) (s : State) : (s.modLane l f).free = s.free := rfl
@[simp] theorem modLane_pending (l : LaneId) (f) (s : State) : (s.modLane l f).pending = s.pending := rfl

/-! ## modLevee -/

@[simp] theorem modLevee_core (k : Fin 48) (f) (s : State) : (s.modLevee k f).core = s.core := rfl
@[simp] theorem modLevee_pins (k : Fin 48) (f) (s : State) : (s.modLevee k f).pins = s.pins := rfl
@[simp] theorem modLevee_frame (k : Fin 48) (f) (s : State) : (s.modLevee k f).frame = s.frame := rfl
@[simp] theorem modLevee_plan (k : Fin 48) (f) (s : State) : (s.modLevee k f).plan = s.plan := rfl
@[simp] theorem modLevee_ports (k : Fin 48) (f) (s : State) : (s.modLevee k f).ports = s.ports := rfl
@[simp] theorem modLevee_heat (k : Fin 48) (f) (s : State) : (s.modLevee k f).heat = s.heat := rfl
@[simp] theorem modLevee_gauze (k : Fin 48) (f) (s : State) : (s.modLevee k f).gauze = s.gauze := rfl
@[simp] theorem modLevee_seq (k : Fin 48) (f) (s : State) : (s.modLevee k f).seq = s.seq := rfl
@[simp] theorem modLevee_lanes (k : Fin 48) (f) (s : State) : (s.modLevee k f).lanes = s.lanes := rfl
@[simp] theorem modLevee_gas (k : Fin 48) (f) (s : State) : (s.modLevee k f).gas = s.gas := rfl
@[simp] theorem modLevee_levees (k : Fin 48) (f) (s : State) :
    (s.modLevee k f).levees = s.levees.set k (f s.levees[k]) := rfl
@[simp] theorem modLevee_cal (k : Fin 48) (f) (s : State) : (s.modLevee k f).cal = s.cal := rfl
@[simp] theorem modLevee_ledger (k : Fin 48) (f) (s : State) : (s.modLevee k f).ledger = s.ledger := rfl
@[simp] theorem modLevee_therm (k : Fin 48) (f) (s : State) : (s.modLevee k f).therm = s.therm := rfl
@[simp] theorem modLevee_rings (k : Fin 48) (f) (s : State) : (s.modLevee k f).rings = s.rings := rfl
@[simp] theorem modLevee_bus (k : Fin 48) (f) (s : State) : (s.modLevee k f).bus = s.bus := rfl
@[simp] theorem modLevee_mbox (k : Fin 48) (f) (s : State) : (s.modLevee k f).mbox = s.mbox := rfl
@[simp] theorem modLevee_time (k : Fin 48) (f) (s : State) : (s.modLevee k f).time = s.time := rfl
@[simp] theorem modLevee_faults (k : Fin 48) (f) (s : State) : (s.modLevee k f).faults = s.faults := rfl
@[simp] theorem modLevee_bolt (k : Fin 48) (f) (s : State) : (s.modLevee k f).bolt = s.bolt := rfl
@[simp] theorem modLevee_box (k : Fin 48) (f) (s : State) : (s.modLevee k f).box = s.box := rfl
@[simp] theorem modLevee_lock (k : Fin 48) (f) (s : State) : (s.modLevee k f).lock = s.lock := rfl
@[simp] theorem modLevee_free (k : Fin 48) (f) (s : State) : (s.modLevee k f).free = s.free := rfl
@[simp] theorem modLevee_pending (k : Fin 48) (f) (s : State) : (s.modLevee k f).pending = s.pending := rfl

/-! ## modInput -/

@[simp] theorem modInput_core (p : PortId) (i : Fin 2) (f) (s : State) : (s.modInput p i f).core = s.core := rfl
@[simp] theorem modInput_pins (p : PortId) (i : Fin 2) (f) (s : State) : (s.modInput p i f).pins = s.pins := rfl
@[simp] theorem modInput_frame (p : PortId) (i : Fin 2) (f) (s : State) : (s.modInput p i f).frame = s.frame := rfl
@[simp] theorem modInput_plan (p : PortId) (i : Fin 2) (f) (s : State) : (s.modInput p i f).plan = s.plan := rfl
@[simp] theorem modInput_ports (p : PortId) (i : Fin 2) (f) (s : State) :
    (s.modInput p i f).ports = s.ports.set p { s.ports[p] with inputs := s.ports[p].inputs.set i (f s.ports[p].inputs[i]) } := rfl
@[simp] theorem modInput_heat (p : PortId) (i : Fin 2) (f) (s : State) : (s.modInput p i f).heat = s.heat := rfl
@[simp] theorem modInput_gauze (p : PortId) (i : Fin 2) (f) (s : State) : (s.modInput p i f).gauze = s.gauze := rfl
@[simp] theorem modInput_seq (p : PortId) (i : Fin 2) (f) (s : State) : (s.modInput p i f).seq = s.seq := rfl
@[simp] theorem modInput_lanes (p : PortId) (i : Fin 2) (f) (s : State) : (s.modInput p i f).lanes = s.lanes := rfl
@[simp] theorem modInput_gas (p : PortId) (i : Fin 2) (f) (s : State) : (s.modInput p i f).gas = s.gas := rfl
@[simp] theorem modInput_levees (p : PortId) (i : Fin 2) (f) (s : State) : (s.modInput p i f).levees = s.levees := rfl
@[simp] theorem modInput_cal (p : PortId) (i : Fin 2) (f) (s : State) : (s.modInput p i f).cal = s.cal := rfl
@[simp] theorem modInput_ledger (p : PortId) (i : Fin 2) (f) (s : State) : (s.modInput p i f).ledger = s.ledger := rfl
@[simp] theorem modInput_therm (p : PortId) (i : Fin 2) (f) (s : State) : (s.modInput p i f).therm = s.therm := rfl
@[simp] theorem modInput_rings (p : PortId) (i : Fin 2) (f) (s : State) : (s.modInput p i f).rings = s.rings := rfl
@[simp] theorem modInput_bus (p : PortId) (i : Fin 2) (f) (s : State) : (s.modInput p i f).bus = s.bus := rfl
@[simp] theorem modInput_mbox (p : PortId) (i : Fin 2) (f) (s : State) : (s.modInput p i f).mbox = s.mbox := rfl
@[simp] theorem modInput_time (p : PortId) (i : Fin 2) (f) (s : State) : (s.modInput p i f).time = s.time := rfl
@[simp] theorem modInput_faults (p : PortId) (i : Fin 2) (f) (s : State) : (s.modInput p i f).faults = s.faults := rfl
@[simp] theorem modInput_bolt (p : PortId) (i : Fin 2) (f) (s : State) : (s.modInput p i f).bolt = s.bolt := rfl
@[simp] theorem modInput_box (p : PortId) (i : Fin 2) (f) (s : State) : (s.modInput p i f).box = s.box := rfl
@[simp] theorem modInput_lock (p : PortId) (i : Fin 2) (f) (s : State) : (s.modInput p i f).lock = s.lock := rfl
@[simp] theorem modInput_free (p : PortId) (i : Fin 2) (f) (s : State) : (s.modInput p i f).free = s.free := rfl
@[simp] theorem modInput_pending (p : PortId) (i : Fin 2) (f) (s : State) : (s.modInput p i f).pending = s.pending := rfl

/-! ## modSource -/

@[simp] theorem modSource_core (n : Source) (f) (s : State) : (s.modSource n f).core = s.core := rfl
@[simp] theorem modSource_pins (n : Source) (f) (s : State) : (s.modSource n f).pins = s.pins := rfl
@[simp] theorem modSource_frame (n : Source) (f) (s : State) : (s.modSource n f).frame = s.frame := rfl
@[simp] theorem modSource_plan (n : Source) (f) (s : State) : (s.modSource n f).plan = s.plan := rfl
@[simp] theorem modSource_ports (n : Source) (f) (s : State) : (s.modSource n f).ports = s.ports := rfl
@[simp] theorem modSource_heat (n : Source) (f) (s : State) : (s.modSource n f).heat = s.heat := rfl
@[simp] theorem modSource_gauze (n : Source) (f) (s : State) : (s.modSource n f).gauze = s.gauze := rfl
@[simp] theorem modSource_seq (n : Source) (f) (s : State) : (s.modSource n f).seq = s.seq := rfl
@[simp] theorem modSource_lanes (n : Source) (f) (s : State) : (s.modSource n f).lanes = s.lanes := rfl
@[simp] theorem modSource_gas (n : Source) (f) (s : State) : (s.modSource n f).gas = s.gas := rfl
@[simp] theorem modSource_levees (n : Source) (f) (s : State) : (s.modSource n f).levees = s.levees := rfl
@[simp] theorem modSource_cal (n : Source) (f) (s : State) : (s.modSource n f).cal = s.cal := rfl
@[simp] theorem modSource_ledger (n : Source) (f) (s : State) : (s.modSource n f).ledger = s.ledger := rfl
@[simp] theorem modSource_therm (n : Source) (f) (s : State) : (s.modSource n f).therm = s.therm := rfl
@[simp] theorem modSource_rings (n : Source) (f) (s : State) : (s.modSource n f).rings = s.rings := rfl
@[simp] theorem modSource_bus (n : Source) (f) (s : State) : (s.modSource n f).bus = s.bus := rfl
@[simp] theorem modSource_mbox (n : Source) (f) (s : State) : (s.modSource n f).mbox = s.mbox := rfl
@[simp] theorem modSource_time (n : Source) (f) (s : State) : (s.modSource n f).time = s.time := rfl
@[simp] theorem modSource_faults (n : Source) (f) (s : State) :
    (s.modSource n f).faults = { s.faults with src := s.faults.src.set n (f s.faults.src[n]) } := rfl
@[simp] theorem modSource_bolt (n : Source) (f) (s : State) : (s.modSource n f).bolt = s.bolt := rfl
@[simp] theorem modSource_box (n : Source) (f) (s : State) : (s.modSource n f).box = s.box := rfl
@[simp] theorem modSource_lock (n : Source) (f) (s : State) : (s.modSource n f).lock = s.lock := rfl
@[simp] theorem modSource_free (n : Source) (f) (s : State) : (s.modSource n f).free = s.free := rfl
@[simp] theorem modSource_pending (n : Source) (f) (s : State) : (s.modSource n f).pending = s.pending := rfl

/-! ## modSlot -/

@[simp] theorem modSlot_core (n : SlotId) (f) (s : State) : (s.modSlot n f).core = s.core := rfl
@[simp] theorem modSlot_pins (n : SlotId) (f) (s : State) : (s.modSlot n f).pins = s.pins := rfl
@[simp] theorem modSlot_frame (n : SlotId) (f) (s : State) : (s.modSlot n f).frame = s.frame := rfl
@[simp] theorem modSlot_plan (n : SlotId) (f) (s : State) : (s.modSlot n f).plan = s.plan := rfl
@[simp] theorem modSlot_ports (n : SlotId) (f) (s : State) : (s.modSlot n f).ports = s.ports := rfl
@[simp] theorem modSlot_heat (n : SlotId) (f) (s : State) : (s.modSlot n f).heat = s.heat := rfl
@[simp] theorem modSlot_gauze (n : SlotId) (f) (s : State) : (s.modSlot n f).gauze = s.gauze := rfl
@[simp] theorem modSlot_seq (n : SlotId) (f) (s : State) : (s.modSlot n f).seq = s.seq := rfl
@[simp] theorem modSlot_lanes (n : SlotId) (f) (s : State) : (s.modSlot n f).lanes = s.lanes := rfl
@[simp] theorem modSlot_gas (n : SlotId) (f) (s : State) : (s.modSlot n f).gas = s.gas := rfl
@[simp] theorem modSlot_levees (n : SlotId) (f) (s : State) : (s.modSlot n f).levees = s.levees := rfl
@[simp] theorem modSlot_cal (n : SlotId) (f) (s : State) : (s.modSlot n f).cal = s.cal := rfl
@[simp] theorem modSlot_ledger (n : SlotId) (f) (s : State) : (s.modSlot n f).ledger = s.ledger := rfl
@[simp] theorem modSlot_therm (n : SlotId) (f) (s : State) : (s.modSlot n f).therm = s.therm := rfl
@[simp] theorem modSlot_rings (n : SlotId) (f) (s : State) : (s.modSlot n f).rings = s.rings := rfl
@[simp] theorem modSlot_bus (n : SlotId) (f) (s : State) : (s.modSlot n f).bus = s.bus := rfl
@[simp] theorem modSlot_mbox (n : SlotId) (f) (s : State) :
    (s.modSlot n f).mbox = { s.mbox with slots := s.mbox.slots.set n (f s.mbox.slots[n]) } := rfl
@[simp] theorem modSlot_time (n : SlotId) (f) (s : State) : (s.modSlot n f).time = s.time := rfl
@[simp] theorem modSlot_faults (n : SlotId) (f) (s : State) : (s.modSlot n f).faults = s.faults := rfl
@[simp] theorem modSlot_bolt (n : SlotId) (f) (s : State) : (s.modSlot n f).bolt = s.bolt := rfl
@[simp] theorem modSlot_box (n : SlotId) (f) (s : State) : (s.modSlot n f).box = s.box := rfl
@[simp] theorem modSlot_lock (n : SlotId) (f) (s : State) : (s.modSlot n f).lock = s.lock := rfl
@[simp] theorem modSlot_free (n : SlotId) (f) (s : State) : (s.modSlot n f).free = s.free := rfl
@[simp] theorem modSlot_pending (n : SlotId) (f) (s : State) : (s.modSlot n f).pending = s.pending := rfl

/-! ## modSensor -/

@[simp] theorem modSensor_core (t : Fin 9) (f) (s : State) : (s.modSensor t f).core = s.core := rfl
@[simp] theorem modSensor_pins (t : Fin 9) (f) (s : State) : (s.modSensor t f).pins = s.pins := rfl
@[simp] theorem modSensor_frame (t : Fin 9) (f) (s : State) : (s.modSensor t f).frame = s.frame := rfl
@[simp] theorem modSensor_plan (t : Fin 9) (f) (s : State) : (s.modSensor t f).plan = s.plan := rfl
@[simp] theorem modSensor_ports (t : Fin 9) (f) (s : State) : (s.modSensor t f).ports = s.ports := rfl
@[simp] theorem modSensor_heat (t : Fin 9) (f) (s : State) : (s.modSensor t f).heat = s.heat := rfl
@[simp] theorem modSensor_gauze (t : Fin 9) (f) (s : State) : (s.modSensor t f).gauze = s.gauze := rfl
@[simp] theorem modSensor_seq (t : Fin 9) (f) (s : State) : (s.modSensor t f).seq = s.seq := rfl
@[simp] theorem modSensor_lanes (t : Fin 9) (f) (s : State) : (s.modSensor t f).lanes = s.lanes := rfl
@[simp] theorem modSensor_gas (t : Fin 9) (f) (s : State) : (s.modSensor t f).gas = s.gas := rfl
@[simp] theorem modSensor_levees (t : Fin 9) (f) (s : State) : (s.modSensor t f).levees = s.levees := rfl
@[simp] theorem modSensor_cal (t : Fin 9) (f) (s : State) : (s.modSensor t f).cal = s.cal := rfl
@[simp] theorem modSensor_ledger (t : Fin 9) (f) (s : State) : (s.modSensor t f).ledger = s.ledger := rfl
@[simp] theorem modSensor_therm (t : Fin 9) (f) (s : State) :
    (s.modSensor t f).therm = { s.therm with sensors := s.therm.sensors.set t (f s.therm.sensors[t]) } := rfl
@[simp] theorem modSensor_rings (t : Fin 9) (f) (s : State) : (s.modSensor t f).rings = s.rings := rfl
@[simp] theorem modSensor_bus (t : Fin 9) (f) (s : State) : (s.modSensor t f).bus = s.bus := rfl
@[simp] theorem modSensor_mbox (t : Fin 9) (f) (s : State) : (s.modSensor t f).mbox = s.mbox := rfl
@[simp] theorem modSensor_time (t : Fin 9) (f) (s : State) : (s.modSensor t f).time = s.time := rfl
@[simp] theorem modSensor_faults (t : Fin 9) (f) (s : State) : (s.modSensor t f).faults = s.faults := rfl
@[simp] theorem modSensor_bolt (t : Fin 9) (f) (s : State) : (s.modSensor t f).bolt = s.bolt := rfl
@[simp] theorem modSensor_box (t : Fin 9) (f) (s : State) : (s.modSensor t f).box = s.box := rfl
@[simp] theorem modSensor_lock (t : Fin 9) (f) (s : State) : (s.modSensor t f).lock = s.lock := rfl
@[simp] theorem modSensor_free (t : Fin 9) (f) (s : State) : (s.modSensor t f).free = s.free := rfl
@[simp] theorem modSensor_pending (t : Fin 9) (f) (s : State) : (s.modSensor t f).pending = s.pending := rfl

/-! ## A free value -/

@[simp] theorem drawFree_core (s : State) : s.drawFree.core = s.core := rfl
@[simp] theorem drawFree_pins (s : State) : s.drawFree.pins = s.pins := rfl
@[simp] theorem drawFree_frame (s : State) : s.drawFree.frame = s.frame := rfl
@[simp] theorem drawFree_plan (s : State) : s.drawFree.plan = s.plan := rfl
@[simp] theorem drawFree_ports (s : State) : s.drawFree.ports = s.ports := rfl
@[simp] theorem drawFree_heat (s : State) : s.drawFree.heat = s.heat := rfl
@[simp] theorem drawFree_gauze (s : State) : s.drawFree.gauze = s.gauze := rfl
@[simp] theorem drawFree_seq (s : State) : s.drawFree.seq = s.seq := rfl
@[simp] theorem drawFree_lanes (s : State) : s.drawFree.lanes = s.lanes := rfl
@[simp] theorem drawFree_gas (s : State) : s.drawFree.gas = s.gas := rfl
@[simp] theorem drawFree_levees (s : State) : s.drawFree.levees = s.levees := rfl
@[simp] theorem drawFree_cal (s : State) : s.drawFree.cal = s.cal := rfl
@[simp] theorem drawFree_ledger (s : State) : s.drawFree.ledger = s.ledger := rfl
@[simp] theorem drawFree_therm (s : State) : s.drawFree.therm = s.therm := rfl
@[simp] theorem drawFree_rings (s : State) : s.drawFree.rings = s.rings := rfl
@[simp] theorem drawFree_bus (s : State) : s.drawFree.bus = s.bus := rfl
@[simp] theorem drawFree_mbox (s : State) : s.drawFree.mbox = s.mbox := rfl
@[simp] theorem drawFree_time (s : State) : s.drawFree.time = s.time := rfl
@[simp] theorem drawFree_faults (s : State) : s.drawFree.faults = s.faults := rfl
@[simp] theorem drawFree_bolt (s : State) : s.drawFree.bolt = s.bolt := rfl
@[simp] theorem drawFree_box (s : State) : s.drawFree.box = s.box := rfl
@[simp] theorem drawFree_lock (s : State) : s.drawFree.lock = s.lock := rfl
@[simp] theorem drawFree_free (s : State) : s.drawFree.free = s.free + 1 := rfl
@[simp] theorem drawFree_pending (s : State) : s.drawFree.pending = s.pending := rfl

/-! ## Reads of what was just written -/

theorem modPort_same (p : PortId) (f : Port → Port) (s : State) : (s.modPort p f).ports[p] = f s.ports[p] := by
  simp [modPort_ports]
theorem modPort_other {p q : PortId} (h : q ≠ p) (f : Port → Port) (s : State) :
    (s.modPort p f).ports[q] = s.ports[q] := by
  have : p.val ≠ q.val := fun e => h (Fin.ext e.symm)
  simp [modPort_ports, this]
theorem modLane_same (l : LaneId) (f : Lane → Lane) (s : State) : (s.modLane l f).lanes[l] = f s.lanes[l] := by
  simp [modLane_lanes]
theorem modLane_other {l k : LaneId} (h : k ≠ l) (f : Lane → Lane) (s : State) :
    (s.modLane l f).lanes[k] = s.lanes[k] := by
  have : l.val ≠ k.val := fun e => h (Fin.ext e.symm)
  simp [modLane_lanes, this]
theorem modSource_same (n : Source) (f : FSource → FSource) (s : State) :
    (s.modSource n f).faults.src[n] = f s.faults.src[n] := by
  simp [modSource_faults]
theorem modSource_other {n k : Source} (h : k ≠ n) (f : FSource → FSource) (s : State) :
    (s.modSource n f).faults.src[k] = s.faults.src[k] := by
  have : n.val ≠ k.val := fun e => h (Fin.ext e.symm)
  simp [modSource_faults, this]
theorem modSlot_same (n : SlotId) (f : Slot → Slot) (s : State) :
    (s.modSlot n f).mbox.slots[n] = f s.mbox.slots[n] := by
  simp [modSlot_mbox]
theorem modSlot_other {n k : SlotId} (h : k ≠ n) (f : Slot → Slot) (s : State) :
    (s.modSlot n f).mbox.slots[k] = s.mbox.slots[k] := by
  have : n.val ≠ k.val := fun e => h (Fin.ext e.symm)
  simp [modSlot_mbox, this]

end Sys2Proof.Machine.State
end

