-- ==== Sys2Proof/Laws/Steady.lean ====
section
/-!
SUPPORT. What an operation leaves alone, at four strengths, with the lemmas that chain operations:
Keeps (the queue, and the capacities of the rings and of the box's staging), Guard (besides, the lock),
Quiet (besides, LT), Calm (besides, the entries held in the rings, FT and the boot count).
-/

namespace Sys2Proof.Machine

/-- From r to t the queue of commands stays, and no bounded buffer outgrows its capacity. -/
structure Keeps (r t : State) : Prop where
  pending : t.pending = r.pending
  sample : r.rings.sample.length ≤ 8192 → t.rings.sample.length ≤ 8192
  notice : r.rings.notice.length ≤ 512 → t.rings.notice.length ≤ 512
  staged : r.box.staged.length ≤ 63 → t.box.staged.length ≤ 63

/-- Besides, the lock stays. -/
structure Guard (r t : State) : Prop extends Keeps r t where
  lock : t.lock = r.lock

/-- Besides, LT stays. -/
structure Quiet (r t : State) : Prop extends Guard r t where
  lt : t.core.lt = r.core.lt

/-- Besides, no entry held in a ring is lost, and FT and the boot count stay. -/
structure Calm (r t : State) : Prop extends Quiet r t where
  samples : r.rings.sample <+: t.rings.sample
  notices : r.rings.notice <+: t.rings.notice
  number : t.frame.number = r.frame.number
  tick : t.frame.tick = r.frame.tick
  boots : t.core.bootCount = r.core.bootCount

theorem Calm.quiet {r t : State} (h : Calm r t) : Quiet r t := h.toQuiet
theorem Calm.guard {r t : State} (h : Calm r t) : Guard r t := h.toQuiet.toGuard
theorem Calm.keeps {r t : State} (h : Calm r t) : Keeps r t := h.toQuiet.toGuard.toKeeps
theorem Quiet.guard {r t : State} (h : Quiet r t) : Guard r t := h.toGuard
theorem Quiet.keeps {r t : State} (h : Quiet r t) : Keeps r t := h.toGuard.toKeeps
theorem Guard.keeps {r t : State} (h : Guard r t) : Keeps r t := h.toKeeps
theorem Guard.guard {r t : State} (h : Guard r t) : Guard r t := h
theorem Quiet.quiet {r t : State} (h : Quiet r t) : Quiet r t := h
theorem Keeps.keeps {r t : State} (h : Keeps r t) : Keeps r t := h
theorem Calm.calm {r t : State} (h : Calm r t) : Calm r t := h

theorem Keeps.refl (s : State) : Keeps s s := ⟨rfl, id, id, id⟩
theorem Guard.refl (s : State) : Guard s s := ⟨Keeps.refl s, rfl⟩
theorem Quiet.refl (s : State) : Quiet s s := ⟨Guard.refl s, rfl⟩
theorem Calm.refl (s : State) : Calm s s :=
  ⟨Quiet.refl s, List.prefix_rfl, List.prefix_rfl, rfl, rfl, rfl⟩

theorem Keeps.trans {r s t : State} (h : Keeps r s) (k : Keeps s t) : Keeps r t :=
  ⟨k.pending.trans h.pending, k.sample ∘ h.sample, k.notice ∘ h.notice, k.staged ∘ h.staged⟩
theorem Guard.trans {r s t : State} (h : Guard r s) (k : Guard s t) : Guard r t :=
  ⟨h.keeps.trans k.keeps, k.lock.trans h.lock⟩
theorem Quiet.trans {r s t : State} (h : Quiet r s) (k : Quiet s t) : Quiet r t :=
  ⟨h.guard.trans k.guard, k.lt.trans h.lt⟩
theorem Calm.trans {r s t : State} (h : Calm r s) (k : Calm s t) : Calm r t :=
  ⟨h.quiet.trans k.quiet, h.samples.trans k.samples, h.notices.trans k.notices,
    k.number.trans h.number, k.tick.trans h.tick, k.boots.trans h.boots⟩

theorem Keeps.step {r x t : State} (h : Keeps r x) (k : Keeps r x → Keeps r t) : Keeps r t := k h
theorem Guard.step {r x t : State} (h : Guard r x) (k : Guard r x → Guard r t) : Guard r t := k h
theorem Quiet.step {r x t : State} (h : Quiet r x) (k : Quiet r x → Quiet r t) : Quiet r t := k h
theorem Calm.step {r x t : State} (h : Calm r x) (k : Calm r x → Calm r t) : Calm r t := k h

/-- A state that differs in none of the fields the relation reads. -/
theorem Calm.of_eq {r t : State} (h1 : t.pending = r.pending) (h2 : t.rings = r.rings)
    (h3 : t.box = r.box) (h4 : t.lock = r.lock) (h5 : t.core = r.core) (h6 : t.frame = r.frame) :
    Calm r t :=
  ⟨⟨⟨⟨h1, by rw [h2]; exact id, by rw [h2]; exact id, by rw [h3]; exact id⟩, h4⟩, by rw [h5]⟩,
    by rw [h2], by rw [h2], by rw [h6], by rw [h6], by rw [h5]⟩

/-! ## The fields they do not -/

theorem modPins_calm (f : Pins → Pins) (s : State) : Calm s (s.modPins f) :=
  .of_eq rfl rfl rfl rfl rfl rfl
theorem modPlan_calm (f : PlanSt → PlanSt) (s : State) : Calm s (s.modPlan f) :=
  .of_eq rfl rfl rfl rfl rfl rfl
theorem modPorts_calm (f : Vector Port 16 → Vector Port 16) (s : State) : Calm s (s.modPorts f) :=
  .of_eq rfl rfl rfl rfl rfl rfl
theorem modHeat_calm (f : Vector Heater 16 → Vector Heater 16) (s : State) : Calm s (s.modHeat f) :=
  .of_eq rfl rfl rfl rfl rfl rfl
theorem modGauze_calm (f : Vector Gauze 16 → Vector Gauze 16) (s : State) : Calm s (s.modGauze f) :=
  .of_eq rfl rfl rfl rfl rfl rfl
theorem modSeq_calm (f : Seq → Seq) (s : State) : Calm s (s.modSeq f) :=
  .of_eq rfl rfl rfl rfl rfl rfl
theorem modLanes_calm (f : Vector Lane 64 → Vector Lane 64) (s : State) : Calm s (s.modLanes f) :=
  .of_eq rfl rfl rfl rfl rfl rfl
theorem modGas_calm (f : Gas → Gas) (s : State) : Calm s (s.modGas f) :=
  .of_eq rfl rfl rfl rfl rfl rfl
theorem modLevees_calm (f : Vector Levee 48 → Vector Levee 48) (s : State) : Calm s (s.modLevees f) :=
  .of_eq rfl rfl rfl rfl rfl rfl
theorem modCal_calm (f : Cal → Cal) (s : State) : Calm s (s.modCal f) :=
  .of_eq rfl rfl rfl rfl rfl rfl
theorem modLedger_calm (f : Ledger → Ledger) (s : State) : Calm s (s.modLedger f) :=
  .of_eq rfl rfl rfl rfl rfl rfl
theorem modTherm_calm (f : Therm → Therm) (s : State) : Calm s (s.modTherm f) :=
  .of_eq rfl rfl rfl rfl rfl rfl
theorem modBus_calm (f : Bus → Bus) (s : State) : Calm s (s.modBus f) :=
  .of_eq rfl rfl rfl rfl rfl rfl
theorem modMbox_calm (f : Mbox → Mbox) (s : State) : Calm s (s.modMbox f) :=
  .of_eq rfl rfl rfl rfl rfl rfl
theorem modTime_calm (f : Time → Time) (s : State) : Calm s (s.modTime f) :=
  .of_eq rfl rfl rfl rfl rfl rfl
theorem modFaults_calm (f : Faults → Faults) (s : State) : Calm s (s.modFaults f) :=
  .of_eq rfl rfl rfl rfl rfl rfl
theorem modBolt_calm (f : Bolt → Bolt) (s : State) : Calm s (s.modBolt f) :=
  .of_eq rfl rfl rfl rfl rfl rfl
theorem modPort_calm (p : PortId) (f : Port → Port) (s : State) : Calm s (s.modPort p f) :=
  .of_eq rfl rfl rfl rfl rfl rfl
theorem modHeater_calm (p : PortId) (f : Heater → Heater) (s : State) : Calm s (s.modHeater p f) :=
  .of_eq rfl rfl rfl rfl rfl rfl
theorem modGauzeAt_calm (p : PortId) (f : Gauze → Gauze) (s : State) : Calm s (s.modGauzeAt p f) :=
  .of_eq rfl rfl rfl rfl rfl rfl
theorem modLane_calm (p : LaneId) (f : Lane → Lane) (s : State) : Calm s (s.modLane p f) :=
  .of_eq rfl rfl rfl rfl rfl rfl
theorem modLevee_calm (p : Fin 48) (f : Levee → Levee) (s : State) : Calm s (s.modLevee p f) :=
  .of_eq rfl rfl rfl rfl rfl rfl
theorem modSource_calm (p : Source) (f : FSource → FSource) (s : State) : Calm s (s.modSource p f) :=
  .of_eq rfl rfl rfl rfl rfl rfl
theorem modSlot_calm (p : SlotId) (f : Slot → Slot) (s : State) : Calm s (s.modSlot p f) :=
  .of_eq rfl rfl rfl rfl rfl rfl
theorem modSensor_calm (p : Fin 9) (f : Sensor → Sensor) (s : State) : Calm s (s.modSensor p f) :=
  .of_eq rfl rfl rfl rfl rfl rfl
theorem modInput_calm (p : PortId) (i : Fin 2) (f : Input → Input) (s : State) :
    Calm s (s.modInput p i f) := .of_eq rfl rfl rfl rfl rfl rfl
theorem drawFree_calm (s : State) : Calm s s.drawFree := .of_eq rfl rfl rfl rfl rfl rfl

/-! ## The fields the relations read -/

theorem modCore_calm (f : Core → Core) (s : State) (h : (f s.core).lt = s.core.lt)
    (k : (f s.core).bootCount = s.core.bootCount) : Calm s (s.modCore f) :=
  ⟨⟨⟨⟨rfl, id, id, id⟩, rfl⟩, h⟩, List.prefix_rfl, List.prefix_rfl, rfl, rfl, k⟩

theorem modCore_keeps (f : Core → Core) (s : State) : Keeps s (s.modCore f) := ⟨rfl, id, id, id⟩

theorem modCore_guard (f : Core → Core) (s : State) : Guard s (s.modCore f) := ⟨⟨rfl, id, id, id⟩, rfl⟩

theorem modFrame_calm (f : Frame → Frame) (s : State) (h : (f s.frame).number = s.frame.number)
    (k : (f s.frame).tick = s.frame.tick) : Calm s (s.modFrame f) :=
  ⟨⟨⟨⟨rfl, id, id, id⟩, rfl⟩, rfl⟩, List.prefix_rfl, List.prefix_rfl, h, k, rfl⟩

theorem modFrame_quiet (f : Frame → Frame) (s : State) : Quiet s (s.modFrame f) :=
  ⟨⟨⟨rfl, id, id, id⟩, rfl⟩, rfl⟩

theorem modRings_calm (f : Rings → Rings) (s : State) (h : (f s.rings).sample = s.rings.sample)
    (k : (f s.rings).notice = s.rings.notice) : Calm s (s.modRings f) :=
  ⟨⟨⟨⟨rfl, by simp [State.modRings, h], by simp [State.modRings, k], id⟩, rfl⟩, rfl⟩,
    by simp [State.modRings, h], by simp [State.modRings, k], rfl, rfl, rfl⟩

theorem modRings_quiet (f : Rings → Rings) (s : State)
    (h : (f s.rings).sample.length ≤ s.rings.sample.length)
    (k : (f s.rings).notice.length ≤ s.rings.notice.length) : Quiet s (s.modRings f) :=
  ⟨⟨⟨rfl, fun x => Nat.le_trans h x, fun x => Nat.le_trans k x, id⟩, rfl⟩, rfl⟩

theorem modBox_calm (f : Box → Box) (s : State)
    (h : s.box.staged.length ≤ 63 → (f s.box).staged.length ≤ 63) : Calm s (s.modBox f) :=
  ⟨⟨⟨⟨rfl, id, id, h⟩, rfl⟩, rfl⟩, List.prefix_rfl, List.prefix_rfl, rfl, rfl, rfl⟩

theorem modLock_keeps (f : Lock → Lock) (s : State) : Keeps s (s.modLock f) := ⟨rfl, id, id, id⟩

/-! ## Folds -/

theorem foldl_calm {α : Type} (f : State → α → State) (l : List α) (s : State)
    (h : ∀ s x, Calm s (f s x)) : Calm s (l.foldl f s) := by
  induction l generalizing s with
  | nil => exact Calm.refl s
  | cons x l ih => exact (h s x).trans (ih _)

theorem foldl_quiet {α : Type} (f : State → α → State) (l : List α) (s : State)
    (h : ∀ s x, Quiet s (f s x)) : Quiet s (l.foldl f s) := by
  induction l generalizing s with
  | nil => exact Quiet.refl s
  | cons x l ih => exact (h s x).trans (ih _)

theorem foldl_guard {α : Type} (f : State → α → State) (l : List α) (s : State)
    (h : ∀ s x, Guard s (f s x)) : Guard s (l.foldl f s) := by
  induction l generalizing s with
  | nil => exact Guard.refl s
  | cons x l ih => exact (h s x).trans (ih _)

theorem foldl_keeps {α : Type} (f : State → α → State) (l : List α) (s : State)
    (h : ∀ s x, Keeps s (f s x)) : Keeps s (l.foldl f s) := by
  induction l generalizing s with
  | nil => exact Keeps.refl s
  | cons x l ih => exact (h s x).trans (ih _)

end Sys2Proof.Machine
end

