-- ==== Sys2Proof/Laws/Ops.lean ====
section
/-!
SUPPORT. What the operations of Ops.lean leave alone (Laws/Steady.lean), one lemma for each.
-/

set_option linter.unusedTactic false
set_option linter.unreachableTactic false
set_option linter.tactic.unusedName false

namespace Sys2Proof.Machine

theorem attn_calm {c : Cause} {s : State} : Calm s (attn c s) := by
  unfold attn
  repeat' (first
    | exact rfl
    | with_reducible assumption
    | with_reducible exact Calm.refl _
    | intro _
    | (extract_lets +onlyGivenNames y; try clear_value y; revert y; intro _)
    | with_reducible apply Calm.trans _ (modBus_calm ..).calm)

/-- An entry that fits enters behind those held. -/
theorem pushNotice_calm {code : W16} {kind : Nat} {args : W64} {s : State}
    (h : s.rings.notice.length < 512) : Calm s (pushNotice code kind args s) := by
  have k : Calm s ((s.modFaults fun f => (f.wordWritten 3 (2 * s.rings.nwr)).wordWritten 3 (2 * s.rings.nwr + 1)).modRings
      fun r => { r with notice := r.notice ++ [noticeEntry s code kind args], nseq := r.nseq + 1,
                        nwr := (r.nwr + 1) % 512 }) :=
    ⟨⟨⟨⟨rfl, id, fun _ => by simp [State.modRings, State.modFaults]; omega, id⟩, rfl⟩, rfl⟩,
      List.prefix_rfl, List.prefix_append _ _, rfl, rfl, rfl⟩
  unfold pushNotice
  dsimp only
  split
  · exact k.trans (modBus_calm ..)
  · exact k

theorem pushNoticeGap_calm {n : Nat} {s : State} (h : s.rings.notice.length < 512) :
    Calm s (pushNoticeGap n s) :=
  Calm.trans (modRings_calm (fun r => { r with ngap := none }) s rfl rfl) (pushNotice_calm h)

theorem noticeGap_calm {s : State} : Calm s (noticeGap s) := by
  unfold noticeGap
  split
  · split
    · exact pushNoticeGap_calm (by omega)
    · exact Calm.refl _
  · exact Calm.refl _

theorem emitNotice_calm {code : W16} {kind : Kind} {args : W64} {s : State} :
    Calm s (emitNotice code kind args s) := by
  unfold emitNotice
  split
  · refine Calm.trans noticeGap_calm ?_
    dsimp only
    split
    · exact pushNotice_calm (by omega)
    · exact modRings_calm _ _ rfl rfl
  all_goals
    split
    · exact (pushNotice_calm (by assumption)).trans attn_calm
    · exact modRings_calm _ _ rfl rfl

theorem notice_calm {code : W16} {kind : Kind} {args : W64} {s : State} : Calm s (notice code kind args s) := by
  unfold notice
  repeat' (first
    | exact rfl
    | with_reducible assumption
    | with_reducible exact Calm.refl _
    | intro _
    | (extract_lets +onlyGivenNames y; try clear_value y; revert y; intro _)
    | with_reducible apply Calm.trans _ (modRings_calm _ _ _ _).calm
    | with_reducible apply Calm.trans _ emitNotice_calm.calm
    | with_reducible apply Calm.trans _ (foldl_calm _ _ _ _)
    | split)

theorem flushHeld_calm {s : State} : Calm s (flushHeld s) := by
  unfold flushHeld
  repeat' (first
    | exact rfl
    | with_reducible assumption
    | with_reducible exact Calm.refl _
    | intro _
    | (extract_lets +onlyGivenNames y; try clear_value y; revert y; intro _)
    | with_reducible apply Calm.trans _ emitNotice_calm.calm
    | with_reducible apply Calm.trans _ (modRings_calm _ _ _ _).calm
    | with_reducible apply Calm.trans _ (foldl_calm _ _ _ _))

theorem setDev_calm {d : Dev} {s : State} : Calm s (setDev d s) := by
  unfold setDev
  repeat' (first
    | exact rfl
    | with_reducible assumption
    | with_reducible exact Calm.refl _
    | intro _
    | (extract_lets +onlyGivenNames y; try clear_value y; revert y; intro _)
    | with_reducible apply Calm.trans _ attn_calm.calm
    | with_reducible apply Calm.trans _ (modCore_calm _ _ _ _).calm
    | with_reducible apply Calm.trans _ (foldl_calm _ _ _ _)
    | split)

theorem postNow_calm {n : SlotId} {st : Status} {detail : Nat} {resp : List Byte} {s : State} : Calm s (postNow n st detail resp s) := by
  unfold postNow
  repeat' (first
    | exact rfl
    | with_reducible assumption
    | with_reducible exact Calm.refl _
    | intro _
    | (extract_lets +onlyGivenNames y; try clear_value y; revert y; intro _)
    | with_reducible apply Calm.trans _ attn_calm.calm
    | with_reducible apply Calm.trans _ (modFaults_calm ..).calm
    | with_reducible apply Calm.trans _ (modMbox_calm ..).calm
    | with_reducible apply Calm.trans _ (modSlot_calm ..).calm)

theorem post_calm {n : SlotId} {st : Status} {detail : Nat} {resp : List Byte} {s : State} : Calm s (post n st detail resp s) := by
  unfold post
  repeat' (first
    | exact rfl
    | with_reducible assumption
    | with_reducible exact Calm.refl _
    | intro _
    | (extract_lets +onlyGivenNames y; try clear_value y; revert y; intro _)
    | with_reducible apply Calm.trans _ postNow_calm.calm
    | with_reducible apply Calm.trans _ (modMbox_calm ..).calm
    | with_reducible apply Calm.trans _ (foldl_calm _ _ _ _)
    | split)

theorem postOwed_calm {s : State} : Calm s (postOwed s) := by
  unfold postOwed
  repeat' (first
    | exact rfl
    | with_reducible assumption
    | with_reducible exact Calm.refl _
    | intro _
    | (extract_lets +onlyGivenNames y; try clear_value y; revert y; intro _)
    | with_reducible apply Calm.trans _ postNow_calm.calm
    | with_reducible apply Calm.trans _ (modMbox_calm ..).calm
    | with_reducible apply Calm.trans _ (foldl_calm _ _ _ _)
    | split)

theorem postStatus_calm {n : SlotId} {st : Status} {s : State} : Calm s (postStatus n st s) := by
  unfold postStatus
  repeat' (first
    | exact rfl
    | with_reducible assumption
    | with_reducible exact Calm.refl _
    | intro _
    | (extract_lets +onlyGivenNames y; try clear_value y; revert y; intro _)
    | with_reducible apply Calm.trans _ post_calm.calm)

theorem postOk_calm {n : SlotId} {resp : List Byte} {s : State} : Calm s (postOk n resp s) := by
  unfold postOk
  repeat' (first
    | exact rfl
    | with_reducible assumption
    | with_reducible exact Calm.refl _
    | intro _
    | (extract_lets +onlyGivenNames y; try clear_value y; revert y; intro _)
    | with_reducible apply Calm.trans _ post_calm.calm)

theorem postPending_calm {n : SlotId} {frame : W32} {s : State} : Calm s (postPending n frame s) := by
  unfold postPending
  repeat' (first
    | exact rfl
    | with_reducible assumption
    | with_reducible exact Calm.refl _
    | intro _
    | (extract_lets +onlyGivenNames y; try clear_value y; revert y; intro _)
    | with_reducible apply Calm.trans _ (modFaults_calm ..).calm
    | with_reducible apply Calm.trans _ (modSlot_calm ..).calm)

theorem pendOn_calm {n : SlotId} {op : W16} {payload : List Byte} {w : Wait} {frame : W32} {s : State} : Calm s (pendOn n op payload w frame s) := by
  unfold pendOn
  repeat' (first
    | exact rfl
    | with_reducible assumption
    | with_reducible exact Calm.refl _
    | intro _
    | (extract_lets +onlyGivenNames y; try clear_value y; revert y; intro _)
    | with_reducible apply Calm.trans _ (modMbox_calm ..).calm
    | with_reducible apply Calm.trans _ postPending_calm.calm)

theorem completeWhere_calm {p : Pend → Bool} {st : Status} {s : State} : Calm s (completeWhere p st s) := by
  unfold completeWhere
  repeat' (first
    | exact rfl
    | with_reducible assumption
    | with_reducible exact Calm.refl _
    | intro _
    | (extract_lets +onlyGivenNames y; try clear_value y; revert y; intro _)
    | with_reducible apply Calm.trans _ postStatus_calm.calm
    | with_reducible apply Calm.trans _ (foldl_calm _ _ _ _))

theorem Box.write_staged (r : Rec) (b : Box) : (b.write r).staged = b.staged := rfl

theorem programRecord_calm {r : Rec} {s : State} : Calm s (programRecord r s) :=
  (modBox_calm _ _ id).trans (modFaults_calm ..)

theorem Box.stage_bound (r : Rec) (b : Box) (h : b.staged.length ≤ 63) : (b.stage r).staged.length ≤ 63 := by
  unfold Box.stage
  split
  · simp; omega
  · exact h

theorem boxRecord_calm {type : Byte} {args : W64} {s : State} : Calm s (boxRecord type args s) := by
  unfold boxRecord
  dsimp only
  split
  · exact modBox_calm _ _ (Box.stage_bound _ _)
  · exact programRecord_calm

theorem raise_calm {n : Source} {s : State} : Calm s (raise n s) := by
  unfold raise
  repeat' (first
    | exact rfl
    | with_reducible assumption
    | with_reducible exact Calm.refl _
    | intro _
    | (extract_lets +onlyGivenNames y; try clear_value y; revert y; intro _)
    | with_reducible apply Calm.trans _ (modSource_calm ..).calm
    | with_reducible apply Calm.trans _ (foldl_calm _ _ _ _)
    | split)

theorem raiseInjected_calm {n : Source} {s : State} : Calm s (raiseInjected n s) := by
  unfold raiseInjected
  repeat' (first
    | exact rfl
    | with_reducible assumption
    | with_reducible exact Calm.refl _
    | intro _
    | (extract_lets +onlyGivenNames y; try clear_value y; revert y; intro _)
    | with_reducible apply Calm.trans _ (modSource_calm ..).calm)

theorem readWords_calm {c : Fin 5} {at_ : Nat → Bool} {ue ce : Source} {s : State} :
    Calm s (readWords c at_ ue ce s).2 := by
  unfold readWords
  dsimp only
  refine Calm.trans ?_ (modFaults_calm ..)
  repeat' split
  all_goals
    first
    | exact raiseInjected_calm.trans raiseInjected_calm
    | exact raiseInjected_calm
    | exact Calm.refl _

theorem readNvm_calm {off : Nat} {len : Nat} {s : State} : Calm s (readNvm off len s) := by
  unfold readNvm
  repeat' (first
    | exact rfl
    | with_reducible assumption
    | with_reducible exact Calm.refl _
    | intro _
    | (extract_lets +onlyGivenNames y; try clear_value y; revert y; intro _)
    | with_reducible apply Calm.trans _ readWords_calm.calm)

end Sys2Proof.Machine
end

