-- ==== Sys2Proof/Laws/Porch.lean ====
section
/-!
SUPPORT. What the operations of Porch.lean leave alone (Laws/Steady.lean), one lemma for each.
-/

set_option linter.unusedTactic false
set_option linter.unreachableTactic false
set_option linter.tactic.unusedName false

namespace Sys2Proof.Machine

theorem readClears_calm {a0 : Nat} {first : Bool} {s : State} : Calm s (readClears a0 first s) := by
  unfold readClears
  repeat' (first
    | exact rfl
    | with_reducible assumption
    | with_reducible exact Calm.refl _
    | intro _
    | (extract_lets +onlyGivenNames y; try clear_value y; revert y; intro _)
    | with_reducible apply Calm.trans _ (modCore_calm _ _ _ _).calm
    | with_reducible apply Calm.trans _ (modBus_calm ..).calm
    | with_reducible apply Calm.trans _ (foldl_calm _ _ _ _)
    | split)

theorem latchSample_calm {s : State} : Calm s (latchSample s) := by
  unfold latchSample
  split
  · exact modRings_calm _ _ rfl rfl
  · exact readWords_calm.trans (modRings_calm _ _ rfl rfl)

theorem latchNotice_calm {s : State} : Calm s (latchNotice s) := by
  unfold latchNotice
  split
  · exact modRings_calm _ _ rfl rfl
  · exact readWords_calm.trans (modRings_calm _ _ rfl rfl)

theorem popSample_quiet {s : State} : Quiet s (popSample s) :=
  modRings_quiet _ _ (by simp [Rings.rearm]) (by simp [Rings.rearm])

theorem popNotice_quiet {s : State} : Quiet s (popNotice s) :=
  modRings_quiet _ _ (by simp) (by simp)

theorem wakeEvent_calm {byBus : Bool} {s : State} : Calm s (wakeEvent byBus s) := by
  unfold wakeEvent
  repeat' (first
    | exact rfl
    | with_reducible assumption
    | with_reducible exact Calm.refl _
    | intro _
    | (extract_lets +onlyGivenNames x; with_reducible refine Calm.step (x := x) ?_ ?_; (on_goal 1 => (unfold x; clear x)); on_goal 2 => (try clear_value x; revert x; intro _ _))
    | (extract_lets +onlyGivenNames y; try clear_value y; revert y; intro _)
    | with_reducible apply Calm.trans _ (modCore_calm _ _ _ _).calm
    | with_reducible apply Calm.trans _ (foldl_calm _ _ _ _)
    | split)

theorem refuse_calm {s : State} : Calm s (refuse s) := by
  unfold refuse
  repeat' (first
    | exact rfl
    | with_reducible assumption
    | with_reducible exact Calm.refl _
    | intro _
    | (extract_lets +onlyGivenNames x; with_reducible refine Calm.step (x := x) ?_ ?_; (on_goal 1 => (unfold x; clear x)); on_goal 2 => (try clear_value x; revert x; intro _ _))
    | (extract_lets +onlyGivenNames y; try clear_value y; revert y; intro _)
    | with_reducible apply Calm.trans _ (modBus_calm ..).calm
    | with_reducible apply Calm.trans _ wakeEvent_calm.calm
    | with_reducible apply Calm.trans _ (foldl_calm _ _ _ _)
    | split)

theorem Rd.register_quiet {x : Rd} {base : Nat} {present : List Byte} : Quiet x.s (x.register base present).s := by
  unfold Rd.register
  dsimp only
  split
  all_goals exact readClears_calm.quiet

theorem Rd.sluice_quiet {x : Rd} {base n : Nat} {latch pop : State → State} {entry : State → List Byte}
    (hl : ∀ s, Quiet s (latch s)) (hp : ∀ s, Quiet s (pop s)) :
    Quiet x.s (x.sluice base n latch pop entry).s := by
  unfold Rd.sluice
  dsimp only
  split
  all_goals
    split
    · dsimp only
      split
      · first
        | exact (hl _).trans (hp _)
        | exact hp _
      · first
        | exact hl _
        | exact Quiet.refl _
    · first
      | exact hl _
      | exact Quiet.refl _

theorem Rd.live_quiet {x : Rd} {t : Nat} : Quiet x.s (x.live t).s := by
  unfold Rd.live
  dsimp only
  split
  · exact Quiet.refl _
  · exact (modRings_calm (fun r => { r with
        lvFlags := (x.s.liveOf t).flags, lvTag := BitVec.ofNat 8 t, lvGen := (x.s.liveOf t).gen })
        x.s rfl rfl).quiet

theorem Rd.step_quiet {x : Rd} : Quiet x.s x.step.s := by
  unfold Rd.step
  dsimp only
  split
  · exact Rd.register_quiet (x := { x with addr := x.addr % 65536 })
  · split
    · exact Rd.sluice_quiet (x := { x with addr := x.addr % 65536 }) (fun _ => latchSample_calm.quiet) (fun _ => popSample_quiet)
    · split
      · exact Rd.sluice_quiet (x := { x with addr := x.addr % 65536 })
          (fun _ => latchNotice_calm.quiet) (fun _ => popNotice_quiet)
      · split
        · exact Rd.live_quiet (x := { x with addr := x.addr % 65536 })
        · exact Quiet.refl _

theorem Rd.run_quiet (n : Nat) (x : Rd) : Quiet x.s (Rd.run n x).s := by
  induction n generalizing x with
  | zero => exact Quiet.refl _
  | succ n ih => exact Rd.step_quiet.trans (ih _)

theorem readAt_quiet {a : Option Nat} {n : Nat} {s : State} : Quiet s (readAt a n s) := by
  unfold readAt
  split
  · exact (Rd.run_quiet n { s := s, addr := a.getD s.bus.pointer.toNat }).trans (modBus_calm ..).quiet
  · exact refuse_calm.quiet

end Sys2Proof.Machine
end

