-- ==== Sys2Proof/Laws/Rings.lean ====
section
/-!
SUPPORT. What the operations of Rings.lean leave alone (Laws/Steady.lean), one lemma for each.
-/

set_option linter.unusedTactic false
set_option linter.unreachableTactic false
set_option linter.tactic.unusedName false

namespace Sys2Proof.Machine

/-- An entry that fits enters behind those held. -/
theorem pushSample_calm {value : W24} {tag flags : Byte} {s : State}
    (h : s.rings.sample.length < 8192) : Calm s (pushSample value tag flags s) := by
  have k : Calm s ((s.modFaults fun f => f.wordWritten 2 s.rings.swr).modRings fun r =>
      { r with sample := r.sample ++ [sampleEntry s value tag flags], sseq := r.sseq + 1,
               swr := (r.swr + 1) % 8192 }) :=
    ⟨⟨⟨⟨rfl, fun _ => by simp [State.modRings, State.modFaults]; omega, id, id⟩, rfl⟩, rfl⟩,
      List.prefix_append _ _, List.prefix_rfl, rfl, rfl, rfl⟩
  unfold pushSample
  dsimp only
  split
  · exact (k.trans (modRings_calm _ _ rfl rfl)).trans attn_calm
  · exact k

theorem pushSample_length {value : W24} {tag flags : Byte} {s : State} :
    (pushSample value tag flags s).rings.sample.length = s.rings.sample.length + 1 := by
  unfold pushSample
  dsimp only
  split <;> simp [attn, State.modBus, State.modRings, State.modFaults]

theorem sampleGap_calm {s : State} : Calm s (sampleGap s) := by
  unfold sampleGap
  split
  · split
    · rename_i h
      simp only [Bool.and_eq_true, decide_eq_true_eq] at h
      refine Calm.trans (modRings_calm _ _ rfl rfl) (pushSample_calm h.2)
    · exact Calm.refl _
  · exact Calm.refl _

theorem emitSample_calm {tag : Byte} {o : Out} {s : State} : Calm s (emitSample tag o s) := by
  unfold emitSample
  split
  · exact Calm.refl _
  · refine Calm.trans sampleGap_calm ?_
    generalize sampleGap s = s
    dsimp only
    split
    · split
      · rename_i h
        exact (pushSample_calm (by omega)).trans (pushSample_calm (by rw [pushSample_length]; omega))
      · exact modRings_calm _ _ rfl rfl
    · split
      · rename_i h
        exact pushSample_calm (by omega)
      · exact modRings_calm _ _ rfl rfl

theorem execSampleGapMarker_calm {s : State} {t : State} (h : execSampleGapMarker s = .next t) : Calm s t := by
  unfold execSampleGapMarker at h
  cases h
  repeat' (first
    | exact rfl
    | with_reducible assumption
    | with_reducible exact Calm.refl _
    | intro _
    | (extract_lets +onlyGivenNames y; try clear_value y; revert y; intro _)
    | with_reducible apply Calm.trans _ sampleGap_calm.calm)

theorem execNoticeGapMarker_calm {s : State} {t : State} (h : execNoticeGapMarker s = .next t) : Calm s t := by
  unfold execNoticeGapMarker at h
  cases h
  repeat' (first
    | exact rfl
    | with_reducible assumption
    | with_reducible exact Calm.refl _
    | intro _
    | (extract_lets +onlyGivenNames y; try clear_value y; revert y; intro _)
    | with_reducible apply Calm.trans _ noticeGap_calm.calm
    | with_reducible apply Calm.trans _ (foldl_calm _ _ _ _)
    | split)

theorem execSampleSluiceRead_quiet {first : Option (Fin 8)} {n : Nat} {s : State} {t : State} (h : execSampleSluiceRead first n s = .next t) : Quiet s t := by
  unfold execSampleSluiceRead at h
  cases h
  repeat' (first
    | exact rfl
    | with_reducible assumption
    | with_reducible exact Quiet.refl _
    | intro _
    | (extract_lets +onlyGivenNames y; try clear_value y; revert y; intro _)
    | with_reducible apply Quiet.trans _ readAt_quiet.quiet)

theorem execNoticeSluiceRead_quiet {first : Option (Fin 16)} {n : Nat} {s : State} {t : State} (h : execNoticeSluiceRead first n s = .next t) : Quiet s t := by
  unfold execNoticeSluiceRead at h
  cases h
  repeat' (first
    | exact rfl
    | with_reducible assumption
    | with_reducible exact Quiet.refl _
    | intro _
    | (extract_lets +onlyGivenNames y; try clear_value y; revert y; intro _)
    | with_reducible apply Quiet.trans _ readAt_quiet.quiet)

theorem execLiveValueRead_quiet {first : Option (Fin 320)} {n : Nat} {s : State} {t : State} (h : execLiveValueRead first n s = .next t) : Quiet s t := by
  unfold execLiveValueRead at h
  cases h
  repeat' (first
    | exact rfl
    | with_reducible assumption
    | with_reducible exact Quiet.refl _
    | intro _
    | (extract_lets +onlyGivenNames y; try clear_value y; revert y; intro _)
    | with_reducible apply Quiet.trans _ readAt_quiet.quiet)

end Sys2Proof.Machine
end

