-- ==== Sys2Proof/Laws/Mailbox.lean ====
section
/-!
SUPPORT. What the operations of Mailbox.lean leave alone (Laws/Steady.lean), one lemma for each.
-/

set_option linter.unusedTactic false
set_option linter.unreachableTactic false
set_option linter.tactic.unusedName false

namespace Sys2Proof.Machine

theorem dispatchSlot_calm {n : SlotId} {s : State} : Calm s (dispatchSlot n s) := by
  unfold dispatchSlot
  repeat' (first
    | exact rfl
    | with_reducible assumption
    | with_reducible exact Calm.refl _
    | intro _
    | (extract_lets +onlyGivenNames x; with_reducible refine Calm.step (x := x) ?_ ?_; (on_goal 1 => (unfold x; clear x)); on_goal 2 => (try clear_value x; revert x; intro _ _))
    | (extract_lets +onlyGivenNames y; try clear_value y; revert y; intro _)
    | with_reducible apply Calm.trans _ (modSlot_calm ..).calm
    | with_reducible apply Calm.trans _ post_calm.calm
    | with_reducible apply Calm.trans _ (foldl_calm _ _ _ _)
    | split)

theorem mboxDetect_calm {n : SlotId} {s : State} : Calm s (mboxDetect n s) := by
  unfold mboxDetect
  dsimp only
  split
  · exact (readWords_calm.trans (drawFree_calm _)).trans (modSlot_calm ..)
  · exact readWords_calm.trans (modSlot_calm ..)

theorem beginAttempt_keeps {n : SlotId} {s : State} : Keeps s (beginAttempt n s) := by
  unfold beginAttempt
  repeat' (first
    | exact rfl
    | with_reducible assumption
    | with_reducible exact Keeps.refl _
    | intro _
    | (extract_lets +onlyGivenNames y; try clear_value y; revert y; intro _)
    | with_reducible apply Keeps.trans _ (modSlot_calm ..).keeps
    | with_reducible apply Keeps.trans _ (modLock_keeps ..)
    | with_reducible apply Keeps.trans _ (foldl_keeps _ _ _ _)
    | split)

theorem execCommandDispatch_keeps {s : State} {t : State} (h : execCommandDispatch s = .next t) : Keeps s t := by
  unfold execCommandDispatch at h
  cases h
  repeat' (first
    | exact rfl
    | with_reducible assumption
    | with_reducible exact Keeps.refl _
    | intro _
    | (extract_lets +onlyGivenNames y; try clear_value y; revert y; intro _)
    | with_reducible apply Keeps.trans _ beginAttempt_keeps.keeps
    | with_reducible apply Keeps.trans _ dispatchSlot_calm.keeps
    | with_reducible apply Keeps.trans _ (modMbox_calm ..).keeps
    | with_reducible apply Keeps.trans _ (foldl_keeps _ _ _ _)
    | split)

theorem onSlot_calm {n : SlotId} {op : Nat} {f : List Byte → State → State} {s : State} (h_f : ∀ x0 s, Calm s (f x0 s)) : Calm s (onSlot n op f s) := by
  unfold onSlot
  repeat' (first
    | exact rfl
    | with_reducible assumption
    | with_reducible exact Calm.refl _
    | intro _
    | (extract_lets +onlyGivenNames y; try clear_value y; revert y; intro _)
    | with_reducible apply Calm.trans _ (foldl_calm _ _ _ _)
    | with_reducible apply Calm.trans _ (h_f _ _)
    | split)

theorem onSlot_quiet {n : SlotId} {op : Nat} {f : List Byte → State → State} {s : State} (h_f : ∀ x0 s, Quiet s (f x0 s)) : Quiet s (onSlot n op f s) := by
  unfold onSlot
  repeat' (first
    | exact rfl
    | with_reducible assumption
    | with_reducible exact Quiet.refl _
    | intro _
    | (extract_lets +onlyGivenNames y; try clear_value y; revert y; intro _)
    | with_reducible apply Quiet.trans _ (foldl_quiet _ _ _ _)
    | with_reducible apply Quiet.trans _ (h_f _ _)
    | split)

theorem onSlot_guard {n : SlotId} {op : Nat} {f : List Byte → State → State} {s : State} (h_f : ∀ x0 s, Guard s (f x0 s)) : Guard s (onSlot n op f s) := by
  unfold onSlot
  repeat' (first
    | exact rfl
    | with_reducible assumption
    | with_reducible exact Guard.refl _
    | intro _
    | (extract_lets +onlyGivenNames y; try clear_value y; revert y; intro _)
    | with_reducible apply Guard.trans _ (foldl_guard _ _ _ _)
    | with_reducible apply Guard.trans _ (h_f _ _)
    | split)

theorem onSlot_keeps {n : SlotId} {op : Nat} {f : List Byte → State → State} {s : State} (h_f : ∀ x0 s, Keeps s (f x0 s)) : Keeps s (onSlot n op f s) := by
  unfold onSlot
  repeat' (first
    | exact rfl
    | with_reducible assumption
    | with_reducible exact Keeps.refl _
    | intro _
    | (extract_lets +onlyGivenNames y; try clear_value y; revert y; intro _)
    | with_reducible apply Keeps.trans _ (foldl_keeps _ _ _ _)
    | with_reducible apply Keeps.trans _ (h_f _ _)
    | split)

theorem badArg_calm {n : SlotId} {d : Nat} {s : State} : Calm s (badArg n d s) := by
  unfold badArg
  repeat' (first
    | exact rfl
    | with_reducible assumption
    | with_reducible exact Calm.refl _
    | intro _
    | (extract_lets +onlyGivenNames y; try clear_value y; revert y; intro _)
    | with_reducible apply Calm.trans _ post_calm.calm)

theorem orRefuse_calm {n : SlotId} {r : Option (Status × Nat)} {k : State → State} {s : State} (h_k : ∀ s, Calm s (k s)) : Calm s (orRefuse n r k s) := by
  unfold orRefuse
  repeat' (first
    | exact rfl
    | with_reducible assumption
    | with_reducible exact Calm.refl _
    | intro _
    | (extract_lets +onlyGivenNames y; try clear_value y; revert y; intro _)
    | with_reducible apply Calm.trans _ post_calm.calm
    | with_reducible apply Calm.trans _ (foldl_calm _ _ _ _)
    | with_reducible apply Calm.trans _ (h_k _)
    | split)

theorem orRefuse_quiet {n : SlotId} {r : Option (Status × Nat)} {k : State → State} {s : State} (h_k : ∀ s, Quiet s (k s)) : Quiet s (orRefuse n r k s) := by
  unfold orRefuse
  repeat' (first
    | exact rfl
    | with_reducible assumption
    | with_reducible exact Quiet.refl _
    | intro _
    | (extract_lets +onlyGivenNames y; try clear_value y; revert y; intro _)
    | with_reducible apply Quiet.trans _ post_calm.quiet
    | with_reducible apply Quiet.trans _ (foldl_quiet _ _ _ _)
    | with_reducible apply Quiet.trans _ (h_k _)
    | split)

theorem orRefuse_guard {n : SlotId} {r : Option (Status × Nat)} {k : State → State} {s : State} (h_k : ∀ s, Guard s (k s)) : Guard s (orRefuse n r k s) := by
  unfold orRefuse
  repeat' (first
    | exact rfl
    | with_reducible assumption
    | with_reducible exact Guard.refl _
    | intro _
    | (extract_lets +onlyGivenNames y; try clear_value y; revert y; intro _)
    | with_reducible apply Guard.trans _ post_calm.guard
    | with_reducible apply Guard.trans _ (foldl_guard _ _ _ _)
    | with_reducible apply Guard.trans _ (h_k _)
    | split)

theorem orRefuse_keeps {n : SlotId} {r : Option (Status × Nat)} {k : State → State} {s : State} (h_k : ∀ s, Keeps s (k s)) : Keeps s (orRefuse n r k s) := by
  unfold orRefuse
  repeat' (first
    | exact rfl
    | with_reducible assumption
    | with_reducible exact Keeps.refl _
    | intro _
    | (extract_lets +onlyGivenNames y; try clear_value y; revert y; intro _)
    | with_reducible apply Keeps.trans _ post_calm.keeps
    | with_reducible apply Keeps.trans _ (foldl_keeps _ _ _ _)
    | with_reducible apply Keeps.trans _ (h_k _)
    | split)

theorem pendBoundary_calm {n : SlotId} {op : Nat} {p : List Byte} {k : Nat} {s : State} : Calm s (pendBoundary n op p k s) := by
  unfold pendBoundary
  repeat' (first
    | exact rfl
    | with_reducible assumption
    | with_reducible exact Calm.refl _
    | intro _
    | (extract_lets +onlyGivenNames y; try clear_value y; revert y; intro _)
    | with_reducible apply Calm.trans _ pendOn_calm.calm)

theorem dropStaging_calm {op : W16} {sel : Nat} {s : State} : Calm s (dropStaging op sel s) := by
  unfold dropStaging
  repeat' (first
    | exact rfl
    | with_reducible assumption
    | with_reducible exact Calm.refl _
    | intro _
    | (extract_lets +onlyGivenNames y; try clear_value y; revert y; intro _)
    | with_reducible apply Calm.trans _ (modMbox_calm ..).calm)

theorem chunk_calm {c : ChunkCmd} {n : SlotId} {p : List Byte} {s : State}
    (hf : ∀ k s, Calm s (c.onFirst k s)) (hc : ∀ d s, Calm s (c.onChunk d s))
    (hd : ∀ n k o s, Calm s (c.done n k o s)) : Calm s (chunk c n p s) := by
  unfold chunk
  repeat' (first
    | with_reducible exact Calm.refl _
    | (extract_lets +onlyGivenNames x; with_reducible refine Calm.step (x := x) ?_ ?_; (on_goal 1 => (unfold x; clear x)); on_goal 2 => (clear_value x; revert x; intro _ _))
    | (extract_lets +onlyGivenNames y; revert y; intro _)
    | with_reducible assumption
    | with_reducible apply Calm.trans _ postStatus_calm
    | with_reducible apply Calm.trans _ badArg_calm
    | with_reducible apply Calm.trans _ dropStaging_calm
    | with_reducible apply Calm.trans _ (hc _ _)
    | with_reducible apply Calm.trans _ (hf _ _)
    | with_reducible apply Calm.trans _ (hd _ _ _ _)
    | with_reducible apply Calm.trans _ post_calm
    | with_reducible apply Calm.trans _ (modMbox_calm ..)
    | split)

theorem execChunkStagingTimeout_calm {op : W16} {sel : Fin 3} {s : State} {t : State} (h : execChunkStagingTimeout op sel s = .next t) : Calm s t := by
  unfold execChunkStagingTimeout at h
  cases h
  repeat' (first
    | exact rfl
    | with_reducible assumption
    | with_reducible exact Calm.refl _
    | intro _
    | (extract_lets +onlyGivenNames y; try clear_value y; revert y; intro _)
    | with_reducible apply Calm.trans _ dropStaging_calm.calm
    | with_reducible apply Calm.trans _ (foldl_calm _ _ _ _)
    | split)

theorem takeSnap_calm {op : W16} {sel : Nat} {data : List Byte} {s : State} : Calm s (takeSnap op sel data s) := by
  unfold takeSnap
  repeat' (first
    | exact rfl
    | with_reducible assumption
    | with_reducible exact Calm.refl _
    | intro _
    | (extract_lets +onlyGivenNames y; try clear_value y; revert y; intro _)
    | with_reducible apply Calm.trans _ (modMbox_calm ..).calm)

theorem readObject_calm {c : ReadCmd} {n : SlotId} {p : List Byte} {s : State}
    (hc : ∀ k s, Calm s (c.clear k s)) : Calm s (readObject c n p s) := by
  unfold readObject
  repeat' (first
    | with_reducible exact Calm.refl _
    | (extract_lets +onlyGivenNames x; with_reducible refine Calm.step (x := x) ?_ ?_; (on_goal 1 => (unfold x; clear x)); on_goal 2 => (clear_value x; revert x; intro _ _))
    | (extract_lets +onlyGivenNames y; try clear_value y; revert y; intro _)
    | with_reducible assumption
    | with_reducible apply Calm.trans _ badArg_calm
    | with_reducible apply Calm.trans _ takeSnap_calm
    | with_reducible apply Calm.trans _ (hc _ _)
    | with_reducible apply Calm.trans _ postOk_calm
    | split)

theorem Rings.clear_sample (b : Nat) (r : Rings) : (r.clear b).sample.length ≤ r.sample.length := by
  unfold Rings.clear Rings.rearm
  dsimp only
  repeat' split
  all_goals simp

theorem Rings.clear_notice (b : Nat) (r : Rings) : (r.clear b).notice.length ≤ r.notice.length := by
  unfold Rings.clear Rings.rearm
  dsimp only
  repeat' split
  all_goals simp

theorem execRingClear_quiet {n : SlotId} {s t : State} (h : execRingClear n s = .next t) : Quiet s t := by
  unfold execRingClear at h
  cases h
  refine onSlot_quiet fun p s => ?_
  split
  · exact badArg_calm.quiet
  · exact (modRings_quiet _ _ (Rings.clear_sample ..) (Rings.clear_notice ..)).trans postStatus_calm.quiet

theorem applyRingWater_calm {p : List Byte} {s : State} : Calm s (applyRingWater p s) := by
  unfold applyRingWater
  repeat' (first
    | exact rfl
    | with_reducible assumption
    | with_reducible exact Calm.refl _
    | intro _
    | (extract_lets +onlyGivenNames y; try clear_value y; revert y; intro _)
    | with_reducible apply Calm.trans _ attn_calm.calm
    | with_reducible apply Calm.trans _ (modRings_calm _ _ _ _).calm
    | with_reducible apply Calm.trans _ (foldl_calm _ _ _ _)
    | split)

theorem execRingWater_calm {n : SlotId} {s : State} {t : State} (h : execRingWater n s = .next t) : Calm s t := by
  unfold execRingWater at h
  cases h
  repeat' (first
    | exact rfl
    | with_reducible assumption
    | with_reducible exact Calm.refl _
    | intro _
    | (extract_lets +onlyGivenNames y; try clear_value y; revert y; intro _)
    | with_reducible apply Calm.trans _ (onSlot_calm _).calm
    | with_reducible apply Calm.trans _ (orRefuse_calm _).calm
    | with_reducible apply Calm.trans _ postStatus_calm.calm
    | with_reducible apply Calm.trans _ applyRingWater_calm.calm)

end Sys2Proof.Machine
end

