-- ==== Sys2Proof/Laws/Lanes.lean ====
section
/-!
SUPPORT. What the operations of Lanes.lean leave alone (Laws/Steady.lean), one lemma for each.
-/

set_option linter.unusedTactic false
set_option linter.unreachableTactic false
set_option linter.tactic.unusedName false

namespace Sys2Proof.Machine

theorem resetLane_calm {kind : ResetKind} {l : LaneId} {s : State} : Calm s (resetLane kind l s) := by
  unfold resetLane
  repeat' (first
    | exact rfl
    | with_reducible assumption
    | with_reducible exact Calm.refl _
    | intro _
    | (extract_lets +onlyGivenNames y; try clear_value y; revert y; intro _)
    | with_reducible apply Calm.trans _ (modLane_calm ..).calm)

theorem resetLanes_calm {kind : ResetKind} {ls : List LaneId} {s : State} : Calm s (resetLanes kind ls s) := by
  unfold resetLanes
  repeat' (first
    | exact rfl
    | with_reducible assumption
    | with_reducible exact Calm.refl _
    | intro _
    | (extract_lets +onlyGivenNames y; try clear_value y; revert y; intro _)
    | with_reducible apply Calm.trans _ resetLane_calm.calm
    | with_reducible apply Calm.trans _ (foldl_calm _ _ _ _))

theorem resetAllLanes_calm {kind : ResetKind} {s : State} : Calm s (resetAllLanes kind s) := by
  unfold resetAllLanes
  repeat' (first
    | exact rfl
    | with_reducible assumption
    | with_reducible exact Calm.refl _
    | intro _
    | (extract_lets +onlyGivenNames y; try clear_value y; revert y; intro _)
    | with_reducible apply Calm.trans _ (modLanes_calm ..).calm)

theorem laneSync_calm {s : State} : Calm s (laneSync s) := by
  unfold laneSync
  repeat' (first
    | exact rfl
    | with_reducible assumption
    | with_reducible exact Calm.refl _
    | intro _
    | (extract_lets +onlyGivenNames y; try clear_value y; revert y; intro _)
    | with_reducible apply Calm.trans _ resetAllLanes_calm.calm
    | with_reducible apply Calm.trans _ (foldl_calm _ _ _ _)
    | split)

theorem execSyncNFall_calm {s : State} {t : State} (h : execSyncNFall s = .next t) : Calm s t := by
  unfold execSyncNFall at h
  cases h
  repeat' (first
    | exact rfl
    | with_reducible assumption
    | with_reducible exact Calm.refl _
    | intro _
    | (extract_lets +onlyGivenNames y; try clear_value y; revert y; intro _)
    | with_reducible apply Calm.trans _ laneSync_calm.calm
    | with_reducible apply Calm.trans _ (foldl_calm _ _ _ _)
    | split)

theorem execGeneralCallSync_calm {s : State} {t : State} (h : execGeneralCallSync s = .next t) : Calm s t := by
  unfold execGeneralCallSync at h
  cases h
  repeat' (first
    | exact rfl
    | with_reducible assumption
    | with_reducible exact Calm.refl _
    | intro _
    | (extract_lets +onlyGivenNames y; try clear_value y; revert y; intro _)
    | with_reducible apply Calm.trans _ laneSync_calm.calm
    | with_reducible apply Calm.trans _ (foldl_calm _ _ _ _)
    | split)

theorem stageCoef_calm {l : LaneId} {obj : List Byte} {s : State} : Calm s (stageCoef l obj s) := by
  unfold stageCoef
  repeat' (first
    | exact rfl
    | with_reducible assumption
    | with_reducible exact Calm.refl _
    | intro _
    | (extract_lets +onlyGivenNames y; try clear_value y; revert y; intro _)
    | with_reducible apply Calm.trans _ (modLane_calm ..).calm)

theorem execWeaveCoef_calm {n : SlotId} {s : State} {t : State} (h : execWeaveCoef n s = .next t) : Calm s t := by
  unfold execWeaveCoef at h
  cases h
  repeat' (first
    | exact rfl
    | with_reducible assumption
    | with_reducible exact Calm.refl _
    | intro _
    | (extract_lets +onlyGivenNames y; try clear_value y; revert y; intro _)
    | with_reducible apply Calm.trans _ (onSlot_calm _).calm
    | with_reducible apply Calm.trans _ (chunk_calm _ _ _).calm
    | with_reducible apply Calm.trans _ badArg_calm.calm
    | with_reducible apply Calm.trans _ postStatus_calm.calm
    | with_reducible apply Calm.trans _ stageCoef_calm.calm
    | with_reducible apply Calm.trans _ (foldl_calm _ _ _ _)
    | split
    | dsimp only [weaveCoefCmd])

theorem execWeaveDelay_calm {n : SlotId} {s : State} {t : State} (h : execWeaveDelay n s = .next t) : Calm s t := by
  unfold execWeaveDelay at h
  cases h
  repeat' (first
    | exact rfl
    | with_reducible assumption
    | with_reducible exact Calm.refl _
    | intro _
    | (extract_lets +onlyGivenNames y; try clear_value y; revert y; intro _)
    | with_reducible apply Calm.trans _ (onSlot_calm _).calm
    | with_reducible apply Calm.trans _ (orRefuse_calm _).calm
    | with_reducible apply Calm.trans _ postOk_calm.calm)

theorem pullSync_calm {s : State} : Calm s (pullSync s) := by
  unfold pullSync
  repeat' (first
    | exact rfl
    | with_reducible assumption
    | with_reducible exact Calm.refl _
    | intro _
    | (extract_lets +onlyGivenNames y; try clear_value y; revert y; intro _)
    | with_reducible apply Calm.trans _ (modPins_calm ..).calm)

theorem execWeaveSync_calm {n : SlotId} {s : State} {t : State} (h : execWeaveSync n s = .next t) : Calm s t := by
  unfold execWeaveSync at h
  cases h
  repeat' (first
    | exact rfl
    | with_reducible assumption
    | with_reducible exact Calm.refl _
    | intro _
    | (extract_lets +onlyGivenNames x; with_reducible refine Calm.step (x := x) ?_ ?_; (on_goal 1 => (unfold x; clear x)); on_goal 2 => (try clear_value x; revert x; intro _ _))
    | (extract_lets +onlyGivenNames y; try clear_value y; revert y; intro _)
    | with_reducible apply Calm.trans _ (onSlot_calm _).calm
    | with_reducible apply Calm.trans _ pullSync_calm.calm
    | with_reducible apply Calm.trans _ postStatus_calm.calm
    | with_reducible apply Calm.trans _ (modMbox_calm ..).calm
    | with_reducible apply Calm.trans _ badArg_calm.calm
    | with_reducible apply Calm.trans _ (foldl_calm _ _ _ _)
    | split)

theorem execWeaveSyncRelease_calm {s : State} {t : State} (h : execWeaveSyncRelease s = .next t) : Calm s t := by
  unfold execWeaveSyncRelease at h
  cases h
  repeat' (first
    | exact rfl
    | with_reducible assumption
    | with_reducible exact Calm.refl _
    | intro _
    | (extract_lets +onlyGivenNames y; try clear_value y; revert y; intro _)
    | with_reducible apply Calm.trans _ completeWhere_calm.calm
    | with_reducible apply Calm.trans _ (modPins_calm ..).calm
    | with_reducible apply Calm.trans _ (foldl_calm _ _ _ _)
    | split)

theorem applySyncResponse_calm {p : List Byte} {s : State} : Calm s (applySyncResponse p s) := by
  unfold applySyncResponse
  repeat' (first
    | exact rfl
    | with_reducible assumption
    | with_reducible exact Calm.refl _
    | intro _
    | (extract_lets +onlyGivenNames y; try clear_value y; revert y; intro _)
    | with_reducible apply Calm.trans _ (modPins_calm ..).calm)

theorem execWeaveSyncResponse_calm {n : SlotId} {s : State} {t : State} (h : execWeaveSyncResponse n s = .next t) : Calm s t := by
  unfold execWeaveSyncResponse at h
  cases h
  repeat' (first
    | exact rfl
    | with_reducible assumption
    | with_reducible exact Calm.refl _
    | intro _
    | (extract_lets +onlyGivenNames y; try clear_value y; revert y; intro _)
    | with_reducible apply Calm.trans _ (onSlot_calm _).calm
    | with_reducible apply Calm.trans _ postStatus_calm.calm
    | with_reducible apply Calm.trans _ applySyncResponse_calm.calm
    | with_reducible apply Calm.trans _ (foldl_calm _ _ _ _)
    | split)

theorem applyWeavePhase_calm {p : List Byte} {s : State} : Calm s (applyWeavePhase p s) := by
  unfold applyWeavePhase
  repeat' (first
    | exact rfl
    | with_reducible assumption
    | with_reducible exact Calm.refl _
    | intro _
    | (extract_lets +onlyGivenNames y; try clear_value y; revert y; intro _)
    | with_reducible apply Calm.trans _ (modLane_calm ..).calm)

theorem execWeavePhase_calm {n : SlotId} {s : State} {t : State} (h : execWeavePhase n s = .next t) : Calm s t := by
  unfold execWeavePhase at h
  cases h
  repeat' (first
    | exact rfl
    | with_reducible assumption
    | with_reducible exact Calm.refl _
    | intro _
    | (extract_lets +onlyGivenNames y; try clear_value y; revert y; intro _)
    | with_reducible apply Calm.trans _ (onSlot_calm _).calm
    | with_reducible apply Calm.trans _ (orRefuse_calm _).calm
    | with_reducible apply Calm.trans _ postStatus_calm.calm
    | with_reducible apply Calm.trans _ applyWeavePhase_calm.calm)

theorem execWeaveRead_calm {n : SlotId} {s : State} {t : State} (h : execWeaveRead n s = .next t) : Calm s t := by
  unfold execWeaveRead at h
  cases h
  repeat' (first
    | exact rfl
    | with_reducible assumption
    | with_reducible exact Calm.refl _
    | intro _
    | (extract_lets +onlyGivenNames y; try clear_value y; revert y; intro _)
    | with_reducible apply Calm.trans _ (onSlot_calm _).calm
    | with_reducible apply Calm.trans _ (readObject_calm _).calm
    | with_reducible apply Calm.trans _ (foldl_calm _ _ _ _)
    | split
    | dsimp only [weaveReadCmd])

end Sys2Proof.Machine
end

