-- ==== Sys2Proof/Laws/Box.lean ====
section
/-!
SUPPORT. What the operations of Box.lean leave alone (Laws/Steady.lean), one lemma for each.
-/

set_option linter.unusedTactic false
set_option linter.unreachableTactic false
set_option linter.tactic.unusedName false

namespace Sys2Proof.Machine

theorem writeStaged_calm {s : State} : Calm s (writeStaged s) := by
  unfold writeStaged
  repeat' (first
    | exact rfl
    | with_reducible assumption
    | with_reducible exact Calm.refl _
    | intro _
    | (extract_lets +onlyGivenNames x; with_reducible refine Calm.step (x := x) ?_ ?_; (on_goal 1 => (unfold x; clear x)); on_goal 2 => (try clear_value x; revert x; intro _ _))
    | (extract_lets +onlyGivenNames y; revert y; intro _)
    | with_reducible apply Calm.trans _ programRecord_calm.calm
    | with_reducible apply Calm.trans _ (modBox_calm _ _ _).calm
    | with_reducible apply Calm.trans _ notice_calm.calm
    | with_reducible apply Calm.trans _ (foldl_calm _ _ _ _)
    | split
    | assumption
    | (simp [Box.foldl_write_staged, Box.write_staged]; done)
    | (simp_all; done)
    | (simp_all; omega))

theorem execStagedRecordsWrite_calm {s : State} {t : State} (h : execStagedRecordsWrite s = .next t) : Calm s t := by
  unfold execStagedRecordsWrite at h
  cases h
  repeat' (first
    | exact rfl
    | with_reducible assumption
    | with_reducible exact Calm.refl _
    | intro _
    | (extract_lets +onlyGivenNames y; try clear_value y; revert y; intro _)
    | with_reducible apply Calm.trans _ writeStaged_calm.calm
    | with_reducible apply Calm.trans _ (foldl_calm _ _ _ _)
    | split)

theorem heatEntry_calm {s : State} : Calm s (heatEntry s) := by
  unfold heatEntry
  repeat' (first
    | exact rfl
    | with_reducible assumption
    | with_reducible exact Calm.refl _
    | intro _
    | (extract_lets +onlyGivenNames x; with_reducible refine Calm.step (x := x) ?_ ?_; (on_goal 1 => (unfold x; clear x)); on_goal 2 => (try clear_value x; revert x; intro _ _))
    | (extract_lets +onlyGivenNames y; try clear_value y; revert y; intro _)
    | with_reducible apply Calm.trans _ (modBox_calm _ _ _).calm
    | with_reducible apply Calm.trans _ programRecord_calm.calm
    | with_reducible apply Calm.trans _ boxRecord_calm.calm
    | with_reducible apply Calm.trans _ (foldl_calm _ _ _ _)
    | split
    | (simp [Box.foldl_write_staged, Box.write_staged]; done))

theorem execHeatEntry_calm {s : State} {t : State} (h : execHeatEntry s = .next t) : Calm s t := by
  unfold execHeatEntry at h
  cases h
  repeat' (first
    | exact rfl
    | with_reducible assumption
    | with_reducible exact Calm.refl _
    | intro _
    | (extract_lets +onlyGivenNames x; with_reducible refine Calm.step (x := x) ?_ ?_; (on_goal 1 => (unfold x; clear x)); on_goal 2 => (try clear_value x; revert x; intro _ _))
    | (extract_lets +onlyGivenNames y; try clear_value y; revert y; intro _)
    | with_reducible apply Calm.trans _ (modTherm_calm ..).calm
    | with_reducible apply Calm.trans _ heatEntry_calm.calm
    | with_reducible apply Calm.trans _ (foldl_calm _ _ _ _)
    | split)

theorem execHeatClose_calm {s : State} {t : State} (h : execHeatClose s = .next t) : Calm s t := by
  unfold execHeatClose at h
  cases h
  repeat' (first
    | exact rfl
    | with_reducible assumption
    | with_reducible exact Calm.refl _
    | intro _
    | (extract_lets +onlyGivenNames y; try clear_value y; revert y; intro _)
    | with_reducible apply Calm.trans _ boxRecord_calm.calm
    | with_reducible apply Calm.trans _ (modBox_calm _ _ _).calm
    | with_reducible apply Calm.trans _ (foldl_calm _ _ _ _)
    | split
    | (simp [Box.foldl_write_staged, Box.write_staged]; done))

theorem execPageEraseComplete_calm {s : State} {t : State} (h : execPageEraseComplete s = .next t) : Calm s t := by
  unfold execPageEraseComplete at h
  cases h
  repeat' (first
    | exact rfl
    | with_reducible assumption
    | with_reducible exact Calm.refl _
    | intro _
    | (extract_lets +onlyGivenNames y; try clear_value y; revert y; intro _)
    | with_reducible apply Calm.trans _ (modBox_calm _ _ _).calm
    | with_reducible apply Calm.trans _ (foldl_calm _ _ _ _)
    | split
    | (simp [Box.foldl_write_staged, Box.write_staged]; done))

theorem execBoxInfo_calm {n : SlotId} {s : State} {t : State} (h : execBoxInfo n s = .next t) : Calm s t := by
  unfold execBoxInfo at h
  cases h
  repeat' (first
    | exact rfl
    | with_reducible assumption
    | with_reducible exact Calm.refl _
    | intro _
    | (extract_lets +onlyGivenNames y; try clear_value y; revert y; intro _)
    | with_reducible apply Calm.trans _ (onSlot_calm _).calm
    | with_reducible apply Calm.trans _ postOk_calm.calm)

theorem execBoxRead_calm {n : SlotId} {s : State} {t : State} (h : execBoxRead n s = .next t) : Calm s t := by
  unfold execBoxRead at h
  cases h
  repeat' (first
    | exact rfl
    | with_reducible assumption
    | with_reducible exact Calm.refl _
    | intro _
    | (extract_lets +onlyGivenNames x; with_reducible refine Calm.step (x := x) ?_ ?_; (on_goal 1 => (unfold x; clear x)); on_goal 2 => (try clear_value x; revert x; intro _ _))
    | (extract_lets +onlyGivenNames y; try clear_value y; revert y; intro _)
    | with_reducible apply Calm.trans _ (onSlot_calm _).calm
    | with_reducible apply Calm.trans _ badArg_calm.calm
    | with_reducible apply Calm.trans _ readNvm_calm.calm
    | with_reducible apply Calm.trans _ postOk_calm.calm
    | with_reducible apply Calm.trans _ (foldl_calm _ _ _ _)
    | split)

theorem execBoxErase_calm {n : SlotId} {s : State} {t : State} (h : execBoxErase n s = .next t) : Calm s t := by
  unfold execBoxErase at h
  cases h
  repeat' (first
    | exact rfl
    | with_reducible assumption
    | with_reducible exact Calm.refl _
    | intro _
    | (extract_lets +onlyGivenNames y; try clear_value y; revert y; intro _)
    | with_reducible apply Calm.trans _ (onSlot_calm _).calm
    | with_reducible apply Calm.trans _ postStatus_calm.calm
    | with_reducible apply Calm.trans _ badArg_calm.calm
    | with_reducible apply Calm.trans _ pendOn_calm.calm
    | with_reducible apply Calm.trans _ (modBox_calm _ _ _).calm
    | with_reducible apply Calm.trans _ (foldl_calm _ _ _ _)
    | split
    | (simp [Box.foldl_write_staged, Box.write_staged]; done))

theorem eraseBox_calm {s : State} : Calm s (eraseBox s) := by
  unfold eraseBox
  repeat' (first
    | exact rfl
    | with_reducible assumption
    | with_reducible exact Calm.refl _
    | intro _
    | (extract_lets +onlyGivenNames y; revert y; intro _)
    | with_reducible apply Calm.trans _ programRecord_calm.calm
    | with_reducible apply Calm.trans _ (modBox_calm _ _ _).calm
    | (simp [Box.foldl_write_staged, Box.write_staged]; done))

theorem execBoxEraseDone_calm {s : State} {t : State} (h : execBoxEraseDone s = .next t) : Calm s t := by
  unfold execBoxEraseDone at h
  cases h
  repeat' (first
    | exact rfl
    | with_reducible assumption
    | with_reducible exact Calm.refl _
    | intro _
    | (extract_lets +onlyGivenNames y; try clear_value y; revert y; intro _)
    | with_reducible apply Calm.trans _ completeWhere_calm.calm
    | with_reducible apply Calm.trans _ eraseBox_calm.calm
    | with_reducible apply Calm.trans _ (foldl_calm _ _ _ _)
    | split)

end Sys2Proof.Machine
end

