-- ==== Sys2Proof/Laws/Therm.lean ====
section
/-!
SUPPORT. What the operations of Therm.lean leave alone (Laws/Steady.lean), one lemma for each.
-/

set_option linter.unusedTactic false
set_option linter.unreachableTactic false
set_option linter.tactic.unusedName false

namespace Sys2Proof.Machine

theorem setTherm_calm {new : Fin 5} {cause : Nat} {s : State} : Calm s (setTherm new cause s) := by
  unfold setTherm
  repeat' (first
    | exact rfl
    | with_reducible assumption
    | with_reducible exact Calm.refl _
    | intro _
    | (extract_lets +onlyGivenNames x; with_reducible refine Calm.step (x := x) ?_ ?_; (on_goal 1 => (unfold x; clear x)); on_goal 2 => (try clear_value x; revert x; intro _ _))
    | (extract_lets +onlyGivenNames y; try clear_value y; revert y; intro _)
    | with_reducible apply Calm.trans _ (modTherm_calm ..).calm
    | with_reducible apply Calm.trans _ notice_calm.calm
    | with_reducible apply Calm.trans _ boxRecord_calm.calm
    | with_reducible apply Calm.trans _ (foldl_calm _ _ _ _)
    | split)

theorem thermUpdate_calm {cause : Nat} {s : State} : Calm s (thermUpdate cause s) := by
  unfold thermUpdate
  repeat' (first
    | exact rfl
    | with_reducible assumption
    | with_reducible exact Calm.refl _
    | intro _
    | (extract_lets +onlyGivenNames y; try clear_value y; revert y; intro _)
    | with_reducible apply Calm.trans _ setTherm_calm.calm
    | with_reducible apply Calm.trans _ (modTherm_calm ..).calm)

theorem declareFailed_calm {t : Fin 9} {noReading : Bool} {s : State} : Calm s (declareFailed t noReading s) := by
  unfold declareFailed
  repeat' (first
    | exact rfl
    | with_reducible assumption
    | with_reducible exact Calm.refl _
    | intro _
    | (extract_lets +onlyGivenNames x; with_reducible refine Calm.step (x := x) ?_ ?_; (on_goal 1 => (unfold x; clear x)); on_goal 2 => (try clear_value x; revert x; intro _ _))
    | (extract_lets +onlyGivenNames y; try clear_value y; revert y; intro _)
    | with_reducible apply Calm.trans _ (modSensor_calm ..).calm
    | with_reducible apply Calm.trans _ (modTherm_calm ..).calm
    | with_reducible apply Calm.trans _ raise_calm.calm
    | with_reducible apply Calm.trans _ notice_calm.calm)

theorem crossCheck_calm {s : State} : Calm s (crossCheck s) := by
  unfold crossCheck
  repeat' (first
    | exact rfl
    | with_reducible assumption
    | with_reducible exact Calm.refl _
    | intro _
    | (extract_lets +onlyGivenNames x; with_reducible refine Calm.step (x := x) ?_ ?_; (on_goal 1 => (unfold x; clear x)); on_goal 2 => (try clear_value x; revert x; intro _ _))
    | (extract_lets +onlyGivenNames y; try clear_value y; revert y; intro _)
    | with_reducible apply Calm.trans _ declareFailed_calm.calm
    | with_reducible apply Calm.trans _ (modTherm_calm ..).calm
    | with_reducible apply Calm.trans _ thermUpdate_calm.calm
    | with_reducible apply Calm.trans _ setTherm_calm.calm
    | with_reducible apply Calm.trans _ (foldl_calm _ _ _ _)
    | split)

theorem compensate_calm (block : Nat) (row used : Fin 9) (comp : Option Int) (s : State) :
    Calm s (compensate block row used comp s).2 := by
  unfold compensate
  dsimp only
  split
  · exact Calm.refl _
  · exact notice_calm

theorem execOscRefCompensation_calm {s t : State} (h : execOscRefCompensation s = .next t) : Calm s t := by
  unfold execOscRefCompensation at h
  cases h
  split
  · exact ((compensate_calm ..).trans (compensate_calm ..)).trans (modCore_calm _ _ rfl rfl)
  · exact Calm.refl _

theorem execThermRead_calm {n : SlotId} {s : State} {t : State} (h : execThermRead n s = .next t) : Calm s t := by
  unfold execThermRead at h
  cases h
  repeat' (first
    | exact rfl
    | with_reducible assumption
    | with_reducible exact Calm.refl _
    | intro _
    | (extract_lets +onlyGivenNames y; try clear_value y; revert y; intro _)
    | with_reducible apply Calm.trans _ (onSlot_calm _).calm
    | with_reducible apply Calm.trans _ postOk_calm.calm)

theorem execThermStatus_calm {n : SlotId} {s : State} {t : State} (h : execThermStatus n s = .next t) : Calm s t := by
  unfold execThermStatus at h
  cases h
  repeat' (first
    | exact rfl
    | with_reducible assumption
    | with_reducible exact Calm.refl _
    | intro _
    | (extract_lets +onlyGivenNames y; try clear_value y; revert y; intro _)
    | with_reducible apply Calm.trans _ (onSlot_calm _).calm
    | with_reducible apply Calm.trans _ postOk_calm.calm)

theorem applyThermPolicy_calm {p : List Byte} {s : State} : Calm s (applyThermPolicy p s) := by
  unfold applyThermPolicy
  repeat' (first
    | exact rfl
    | with_reducible assumption
    | with_reducible exact Calm.refl _
    | intro _
    | (extract_lets +onlyGivenNames y; try clear_value y; revert y; intro _)
    | with_reducible apply Calm.trans _ (modPorts_calm ..).calm)

theorem execThermPolicy_calm {n : SlotId} {s : State} {t : State} (h : execThermPolicy n s = .next t) : Calm s t := by
  unfold execThermPolicy at h
  cases h
  repeat' (first
    | exact rfl
    | with_reducible assumption
    | with_reducible exact Calm.refl _
    | intro _
    | (extract_lets +onlyGivenNames y; try clear_value y; revert y; intro _)
    | with_reducible apply Calm.trans _ (onSlot_calm _).calm
    | with_reducible apply Calm.trans _ postStatus_calm.calm
    | with_reducible apply Calm.trans _ applyThermPolicy_calm.calm)

theorem execThermAck_calm {n : SlotId} {s : State} {t : State} (h : execThermAck n s = .next t) : Calm s t := by
  unfold execThermAck at h
  cases h
  repeat' (first
    | exact rfl
    | with_reducible assumption
    | with_reducible exact Calm.refl _
    | intro _
    | (extract_lets +onlyGivenNames y; try clear_value y; revert y; intro _)
    | with_reducible apply Calm.trans _ (onSlot_calm _).calm
    | with_reducible apply Calm.trans _ (modTherm_calm ..).calm
    | with_reducible apply Calm.trans _ pendOn_calm.calm
    | with_reducible apply Calm.trans _ postStatus_calm.calm
    | with_reducible apply Calm.trans _ (foldl_calm _ _ _ _)
    | split)

end Sys2Proof.Machine
end

