-- ==== Sys2Proof/Laws/Levees.lean ====
section
/-!
SUPPORT. What the operations of Levees.lean leave alone (Laws/Steady.lean), one lemma for each.
-/

set_option linter.unusedTactic false
set_option linter.unreachableTactic false
set_option linter.tactic.unusedName false

namespace Sys2Proof.Machine

theorem leveeFeed_calm {kind : Nat} {index : Nat} {series : Nat} {v : Int} {fl : W16} {s : State} : Calm s (leveeFeed kind index series v fl s) := by
  unfold leveeFeed
  repeat' (first
    | exact rfl
    | with_reducible assumption
    | with_reducible exact Calm.refl _
    | intro _
    | (extract_lets +onlyGivenNames y; try clear_value y; revert y; intro _)
    | with_reducible apply Calm.trans _ (modLevees_calm ..).calm
    | with_reducible apply Calm.trans _ (foldl_calm _ _ _ _)
    | split)

theorem leveeTemps_calm {s : State} : Calm s (leveeTemps s) := by
  unfold leveeTemps
  repeat' (first
    | exact rfl
    | with_reducible assumption
    | with_reducible exact Calm.refl _
    | intro _
    | (extract_lets +onlyGivenNames x; with_reducible refine Calm.step (x := x) ?_ ?_; (on_goal 1 => (unfold x; clear x)); on_goal 2 => (try clear_value x; revert x; intro _ _))
    | (extract_lets +onlyGivenNames y; try clear_value y; revert y; intro _)
    | with_reducible apply Calm.trans _ leveeFeed_calm.calm
    | with_reducible apply Calm.trans _ (foldl_calm _ _ _ _)
    | split)

theorem leveeNotice_calm {k : Fin 48} {x : Levee} {ev : Nat} {above : Bool} {v : Int} {fl : W16} {s : State} : Calm s (leveeNotice k x ev above v fl s) := by
  unfold leveeNotice
  repeat' (first
    | exact rfl
    | with_reducible assumption
    | with_reducible exact Calm.refl _
    | intro _
    | (extract_lets +onlyGivenNames y; try clear_value y; revert y; intro _)
    | with_reducible apply Calm.trans _ notice_calm.calm
    | with_reducible apply Calm.trans _ (foldl_calm _ _ _ _)
    | split)

theorem takeLevee_calm {k : Fin 48} {e : LeveeEvent} {s : State} : Calm s (takeLevee k e s) := by
  unfold takeLevee
  repeat' (first
    | exact rfl
    | with_reducible assumption
    | with_reducible exact Calm.refl _
    | intro _
    | (extract_lets +onlyGivenNames x; with_reducible refine Calm.step (x := x) ?_ ?_; (on_goal 1 => (unfold x; clear x)); on_goal 2 => (try clear_value x; revert x; intro _ _))
    | (extract_lets +onlyGivenNames y; try clear_value y; revert y; intro _)
    | with_reducible apply Calm.trans _ (modLevee_calm ..).calm
    | with_reducible apply Calm.trans _ leveeNotice_calm.calm
    | with_reducible apply Calm.trans _ attn_calm.calm
    | with_reducible apply Calm.trans _ (foldl_calm _ _ _ _)
    | split)

theorem execLeveeOvertop_calm {k : Fin 48} {s : State} {t : State} (h : execLeveeOvertop k s = .next t) : Calm s t := by
  unfold execLeveeOvertop at h
  cases h
  repeat' (first
    | exact rfl
    | with_reducible assumption
    | with_reducible exact Calm.refl _
    | intro _
    | (extract_lets +onlyGivenNames y; try clear_value y; revert y; intro _)
    | with_reducible apply Calm.trans _ takeLevee_calm.calm
    | with_reducible apply Calm.trans _ (foldl_calm _ _ _ _)
    | split)

theorem execLeveeSettle_calm {k : Fin 48} {s : State} {t : State} (h : execLeveeSettle k s = .next t) : Calm s t := by
  unfold execLeveeSettle at h
  cases h
  repeat' (first
    | exact rfl
    | with_reducible assumption
    | with_reducible exact Calm.refl _
    | intro _
    | (extract_lets +onlyGivenNames y; try clear_value y; revert y; intro _)
    | with_reducible apply Calm.trans _ takeLevee_calm.calm
    | with_reducible apply Calm.trans _ (foldl_calm _ _ _ _)
    | split)

theorem leveesEnter_calm {s : State} : Calm s (leveesEnter s) := by
  unfold leveesEnter
  repeat' (first
    | exact rfl
    | with_reducible assumption
    | with_reducible exact Calm.refl _
    | intro _
    | (extract_lets +onlyGivenNames y; try clear_value y; revert y; intro _)
    | with_reducible apply Calm.trans _ (modLevees_calm ..).calm)

theorem leveesLeave_calm {s : State} : Calm s (leveesLeave s) := by
  unfold leveesLeave
  repeat' (first
    | exact rfl
    | with_reducible assumption
    | with_reducible exact Calm.refl _
    | intro _
    | (extract_lets +onlyGivenNames y; try clear_value y; revert y; intro _)
    | with_reducible apply Calm.trans _ notice_calm.calm
    | with_reducible apply Calm.trans _ leveesEnter_calm.calm)

theorem applyLevee_calm {k : Fin 48} {r : List Byte} {s : State} : Calm s (applyLevee k r s) := by
  unfold applyLevee
  repeat' (first
    | exact rfl
    | with_reducible assumption
    | with_reducible exact Calm.refl _
    | intro _
    | (extract_lets +onlyGivenNames x; with_reducible refine Calm.step (x := x) ?_ ?_; (on_goal 1 => (unfold x; clear x)); on_goal 2 => (try clear_value x; revert x; intro _ _))
    | (extract_lets +onlyGivenNames y; try clear_value y; revert y; intro _)
    | with_reducible apply Calm.trans _ (modLevee_calm ..).calm
    | with_reducible apply Calm.trans _ leveeNotice_calm.calm
    | with_reducible apply Calm.trans _ (foldl_calm _ _ _ _)
    | split)

theorem applyLeveeSet_calm {p : List Byte} {s : State} : Calm s (applyLeveeSet p s) := by
  unfold applyLeveeSet
  repeat' (first
    | exact rfl
    | with_reducible assumption
    | with_reducible exact Calm.refl _
    | intro _
    | (extract_lets +onlyGivenNames y; try clear_value y; revert y; intro _)
    | with_reducible apply Calm.trans _ applyLevee_calm.calm)

theorem execLeveeSet_calm {n : SlotId} {s : State} {t : State} (h : execLeveeSet n s = .next t) : Calm s t := by
  unfold execLeveeSet at h
  cases h
  repeat' (first
    | exact rfl
    | with_reducible assumption
    | with_reducible exact Calm.refl _
    | intro _
    | (extract_lets +onlyGivenNames y; try clear_value y; revert y; intro _)
    | with_reducible apply Calm.trans _ (onSlot_calm _).calm
    | with_reducible apply Calm.trans _ (orRefuse_calm _).calm
    | with_reducible apply Calm.trans _ pendBoundary_calm.calm
    | with_reducible apply Calm.trans _ postStatus_calm.calm
    | with_reducible apply Calm.trans _ applyLeveeSet_calm.calm
    | with_reducible apply Calm.trans _ (foldl_calm _ _ _ _)
    | split)

theorem execLeveeAck_calm {n : SlotId} {s : State} {t : State} (h : execLeveeAck n s = .next t) : Calm s t := by
  unfold execLeveeAck at h
  cases h
  repeat' (first
    | exact rfl
    | with_reducible assumption
    | with_reducible exact Calm.refl _
    | intro _
    | (extract_lets +onlyGivenNames y; try clear_value y; revert y; intro _)
    | with_reducible apply Calm.trans _ (onSlot_calm _).calm
    | with_reducible apply Calm.trans _ badArg_calm.calm
    | with_reducible apply Calm.trans _ postStatus_calm.calm
    | with_reducible apply Calm.trans _ (modLevees_calm ..).calm
    | with_reducible apply Calm.trans _ (foldl_calm _ _ _ _)
    | split)

theorem execLeveeStatus_calm {n : SlotId} {s : State} {t : State} (h : execLeveeStatus n s = .next t) : Calm s t := by
  unfold execLeveeStatus at h
  cases h
  repeat' (first
    | exact rfl
    | with_reducible assumption
    | with_reducible exact Calm.refl _
    | intro _
    | (extract_lets +onlyGivenNames y; try clear_value y; revert y; intro _)
    | with_reducible apply Calm.trans _ (onSlot_calm _).calm
    | with_reducible apply Calm.trans _ (orRefuse_calm _).calm
    | with_reducible apply Calm.trans _ postOk_calm.calm)

end Sys2Proof.Machine
end

