-- ==== Sys2Proof/Laws/Emit.lean ====
section
/-!
SUPPORT. What the operations of Emit.lean leave alone (Laws/Steady.lean), one lemma for each.
-/

set_option linter.unusedTactic false
set_option linter.unreachableTactic false
set_option linter.tactic.unusedName false

namespace Sys2Proof.Machine

theorem irtOutput_calm {l : LaneId} {o : Out} {s : State} : Calm s (irtOutput l o s) := by
  unfold irtOutput
  repeat' (first
    | exact rfl
    | with_reducible assumption
    | with_reducible exact Calm.refl _
    | intro _
    | (extract_lets +onlyGivenNames y; try clear_value y; revert y; intro _)
    | with_reducible apply Calm.trans _ (modHeater_calm ..).calm
    | with_reducible apply Calm.trans _ (foldl_calm _ _ _ _))

theorem emitLane_calm {l : LaneId} {o : Out} {s : State} : Calm s (emitLane l o s) := by
  unfold emitLane
  repeat' (first
    | exact rfl
    | with_reducible assumption
    | with_reducible exact Calm.refl _
    | intro _
    | (extract_lets +onlyGivenNames x; with_reducible refine Calm.step (x := x) ?_ ?_; (on_goal 1 => (unfold x; clear x)); on_goal 2 => (try clear_value x; revert x; intro _ _))
    | (extract_lets +onlyGivenNames y; try clear_value y; revert y; intro _)
    | with_reducible apply Calm.trans _ (modLane_calm ..).calm
    | with_reducible apply Calm.trans _ leveeFeed_calm.calm
    | with_reducible apply Calm.trans _ irtOutput_calm.calm
    | with_reducible apply Calm.trans _ emitSample_calm.calm
    | with_reducible apply Calm.trans _ (foldl_calm _ _ _ _)
    | split)

theorem laneInput_calm {l : LaneId} {v : Int} {fl : W16} {s : State} : Calm s (laneInput l v fl s) := by
  unfold laneInput
  repeat' (first
    | exact rfl
    | with_reducible assumption
    | with_reducible exact Calm.refl _
    | intro _
    | (extract_lets +onlyGivenNames x; with_reducible refine Calm.step (x := x) ?_ ?_; (on_goal 1 => (unfold x; clear x)); on_goal 2 => (try clear_value x; revert x; intro _ _))
    | (extract_lets +onlyGivenNames y; try clear_value y; revert y; intro _)
    | with_reducible apply Calm.trans _ (modLane_calm ..).calm
    | with_reducible apply Calm.trans _ emitLane_calm.calm
    | with_reducible apply Calm.trans _ (foldl_calm _ _ _ _)
    | split)

end Sys2Proof.Machine
end

