-- ==== Sys2Proof/Laws/Time.lean ====
section
/-!
SUPPORT. What the operations of Time.lean leave alone (Laws/Steady.lean), one lemma for each.
-/

set_option linter.unusedTactic false
set_option linter.unreachableTactic false
set_option linter.tactic.unusedName false

namespace Sys2Proof.Machine

theorem modDom_calm {d : Dom} {f : Domain → Domain} {s : State} : Calm s (State.modDom d f s) := by
  unfold State.modDom
  repeat' (first
    | exact rfl
    | with_reducible assumption
    | with_reducible exact Calm.refl _
    | intro _
    | (extract_lets +onlyGivenNames y; try clear_value y; revert y; intro _)
    | with_reducible apply Calm.trans _ (modTime_calm ..).calm
    | with_reducible apply Calm.trans _ (foldl_calm _ _ _ _)
    | split)

theorem lockNotice_calm {d : Dom} {e : Int} {r : Option Bool} {s : State} : Calm s (lockNotice d e r s) := by
  unfold lockNotice
  repeat' (first
    | exact rfl
    | with_reducible assumption
    | with_reducible exact Calm.refl _
    | intro _
    | (extract_lets +onlyGivenNames y; try clear_value y; revert y; intro _)
    | with_reducible apply Calm.trans _ notice_calm.calm
    | with_reducible apply Calm.trans _ (foldl_calm _ _ _ _)
    | split)

theorem servo_calm {d : Dom} {e : Int} {s : State} : Calm s (servo d e s) := by
  unfold servo
  repeat' (first
    | exact rfl
    | with_reducible assumption
    | with_reducible exact Calm.refl _
    | intro _
    | (extract_lets +onlyGivenNames x; with_reducible refine Calm.step (x := x) ?_ ?_; (on_goal 1 => (unfold x; clear x)); on_goal 2 => (try clear_value x; revert x; intro _ _))
    | (extract_lets +onlyGivenNames y; try clear_value y; revert y; intro _)
    | with_reducible apply Calm.trans _ lockNotice_calm.calm
    | with_reducible apply Calm.trans _ modDom_calm.calm
    | with_reducible apply Calm.trans _ notice_calm.calm
    | with_reducible apply Calm.trans _ (foldl_calm _ _ _ _)
    | split)

theorem outlier_calm {d : Dom} {s : State} : Calm s (outlier d s) := by
  unfold outlier
  repeat' (first
    | exact rfl
    | with_reducible assumption
    | with_reducible exact Calm.refl _
    | intro _
    | (extract_lets +onlyGivenNames x; with_reducible refine Calm.step (x := x) ?_ ?_; (on_goal 1 => (unfold x; clear x)); on_goal 2 => (try clear_value x; revert x; intro _ _))
    | (extract_lets +onlyGivenNames y; try clear_value y; revert y; intro _)
    | with_reducible apply Calm.trans _ notice_calm.calm
    | with_reducible apply Calm.trans _ modDom_calm.calm
    | with_reducible apply Calm.trans _ (foldl_calm _ _ _ _)
    | split)

theorem ppsEdge_calm {d : Dom} {ticksBack : Nat} {clock : Fin 960} {s : State} : Calm s (ppsEdge d ticksBack clock s) := by
  unfold ppsEdge
  repeat' (first
    | exact rfl
    | with_reducible assumption
    | with_reducible exact Calm.refl _
    | intro _
    | (extract_lets +onlyGivenNames x; with_reducible refine Calm.step (x := x) ?_ ?_; (on_goal 1 => (unfold x; clear x)); on_goal 2 => (try clear_value x; revert x; intro _ _))
    | (extract_lets +onlyGivenNames y; try clear_value y; revert y; intro _)
    | with_reducible apply Calm.trans _ outlier_calm.calm
    | with_reducible apply Calm.trans _ modDom_calm.calm
    | with_reducible apply Calm.trans _ notice_calm.calm
    | with_reducible apply Calm.trans _ servo_calm.calm
    | with_reducible apply Calm.trans _ (foldl_calm _ _ _ _)
    | split)

theorem execPpsEdge_calm {d : Dom} {ticksBack : Nat} {clock : Fin 960} {s : State} {t : State} (h : execPpsEdge d ticksBack clock s = .next t) : Calm s t := by
  unfold execPpsEdge at h
  cases h
  repeat' (first
    | exact rfl
    | with_reducible assumption
    | with_reducible exact Calm.refl _
    | intro _
    | (extract_lets +onlyGivenNames y; try clear_value y; revert y; intro _)
    | with_reducible apply Calm.trans _ ppsEdge_calm.calm)

theorem execPpsAbsent_calm {d : Dom} {s : State} {t : State} (h : execPpsAbsent d s = .next t) : Calm s t := by
  unfold execPpsAbsent at h
  cases h
  repeat' (first
    | exact rfl
    | with_reducible assumption
    | with_reducible exact Calm.refl _
    | intro _
    | (extract_lets +onlyGivenNames x; with_reducible refine Calm.step (x := x) ?_ ?_; (on_goal 1 => (unfold x; clear x)); on_goal 2 => (try clear_value x; revert x; intro _ _))
    | (extract_lets +onlyGivenNames y; try clear_value y; revert y; intro _)
    | with_reducible apply Calm.trans _ modDom_calm.calm
    | with_reducible apply Calm.trans _ notice_calm.calm
    | with_reducible apply Calm.trans _ lockNotice_calm.calm
    | with_reducible apply Calm.trans _ (foldl_calm _ _ _ _)
    | split)

theorem loadDomain_calm {d : Dom} {v : Nat} {atEdge : Bool} {s : State} : Calm s (loadDomain d v atEdge s) := by
  unfold loadDomain
  repeat' (first
    | exact rfl
    | with_reducible assumption
    | with_reducible exact Calm.refl _
    | intro _
    | (extract_lets +onlyGivenNames x; with_reducible refine Calm.step (x := x) ?_ ?_; (on_goal 1 => (unfold x; clear x)); on_goal 2 => (try clear_value x; revert x; intro _ _))
    | (extract_lets +onlyGivenNames y; try clear_value y; revert y; intro _)
    | with_reducible apply Calm.trans _ modDom_calm.calm
    | with_reducible apply Calm.trans _ notice_calm.calm)

theorem applyTimeSet_calm {x : Pend} {s : State} : Calm s (applyTimeSet x s) := by
  unfold applyTimeSet
  repeat' (first
    | exact rfl
    | with_reducible assumption
    | with_reducible exact Calm.refl _
    | intro _
    | (extract_lets +onlyGivenNames y; try clear_value y; revert y; intro _)
    | with_reducible apply Calm.trans _ postStatus_calm.calm
    | with_reducible apply Calm.trans _ loadDomain_calm.calm
    | with_reducible apply Calm.trans _ (foldl_calm _ _ _ _)
    | split)

theorem execTimeSetApply_calm {d : Dom} {s : State} {t : State} (h : execTimeSetApply d s = .next t) : Calm s t := by
  unfold execTimeSetApply at h
  cases h
  repeat' (first
    | exact rfl
    | with_reducible assumption
    | with_reducible exact Calm.refl _
    | intro _
    | (extract_lets +onlyGivenNames y; try clear_value y; revert y; intro _)
    | with_reducible apply Calm.trans _ applyTimeSet_calm.calm
    | with_reducible apply Calm.trans _ (foldl_calm _ _ _ _)
    | split)

theorem execTimeSetEdgeTimeout_calm {d : Dom} {s : State} {t : State} (h : execTimeSetEdgeTimeout d s = .next t) : Calm s t := by
  unfold execTimeSetEdgeTimeout at h
  cases h
  repeat' (first
    | exact rfl
    | with_reducible assumption
    | with_reducible exact Calm.refl _
    | intro _
    | (extract_lets +onlyGivenNames y; try clear_value y; revert y; intro _)
    | with_reducible apply Calm.trans _ postStatus_calm.calm
    | with_reducible apply Calm.trans _ (foldl_calm _ _ _ _)
    | split)

theorem stepFirst_calm {d : Dom} {s : State} : Calm s (stepFirst d s) := by
  unfold stepFirst
  repeat' (first
    | exact rfl
    | with_reducible assumption
    | with_reducible exact Calm.refl _
    | intro _
    | (extract_lets +onlyGivenNames y; try clear_value y; revert y; intro _)
    | with_reducible apply Calm.trans _ applyTimeSet_calm.calm
    | with_reducible apply Calm.trans _ (foldl_calm _ _ _ _)
    | split)

theorem applyTimeSelect_calm {d : Dom} {s : State} : Calm s (applyTimeSelect d s) := by
  unfold applyTimeSelect
  repeat' (first
    | exact rfl
    | with_reducible assumption
    | with_reducible exact Calm.refl _
    | intro _
    | (extract_lets +onlyGivenNames x; with_reducible refine Calm.step (x := x) ?_ ?_; (on_goal 1 => (unfold x; clear x)); on_goal 2 => (try clear_value x; revert x; intro _ _))
    | (extract_lets +onlyGivenNames y; try clear_value y; revert y; intro _)
    | with_reducible apply Calm.trans _ stepFirst_calm.calm
    | with_reducible apply Calm.trans _ (modTime_calm ..).calm
    | with_reducible apply Calm.trans _ boxRecord_calm.calm
    | with_reducible apply Calm.trans _ (foldl_calm _ _ _ _)
    | split)

theorem execSlewComplete_calm {s : State} {t : State} (h : execSlewComplete s = .next t) : Calm s t := by
  unfold execSlewComplete at h
  cases h
  repeat' (first
    | exact rfl
    | with_reducible assumption
    | with_reducible exact Calm.refl _
    | intro _
    | (extract_lets +onlyGivenNames y; try clear_value y; revert y; intro _)
    | with_reducible apply Calm.trans _ notice_calm.calm
    | with_reducible apply Calm.trans _ (modTime_calm ..).calm
    | with_reducible apply Calm.trans _ (foldl_calm _ _ _ _)
    | split)

theorem execTimeSet_calm {n : SlotId} {s : State} {t : State} (h : execTimeSet n s = .next t) : Calm s t := by
  unfold execTimeSet at h
  cases h
  repeat' (first
    | exact rfl
    | with_reducible assumption
    | with_reducible exact Calm.refl _
    | intro _
    | (extract_lets +onlyGivenNames y; try clear_value y; revert y; intro _)
    | with_reducible apply Calm.trans _ (onSlot_calm _).calm
    | with_reducible apply Calm.trans _ (orRefuse_calm _).calm
    | with_reducible apply Calm.trans _ postStatus_calm.calm
    | with_reducible apply Calm.trans _ pendOn_calm.calm
    | with_reducible apply Calm.trans _ modDom_calm.calm
    | with_reducible apply Calm.trans _ pendBoundary_calm.calm
    | with_reducible apply Calm.trans _ (foldl_calm _ _ _ _)
    | split)

theorem execTimeIncr_calm {n : SlotId} {s : State} {t : State} (h : execTimeIncr n s = .next t) : Calm s t := by
  unfold execTimeIncr at h
  cases h
  repeat' (first
    | exact rfl
    | with_reducible assumption
    | with_reducible exact Calm.refl _
    | intro _
    | (extract_lets +onlyGivenNames y; try clear_value y; revert y; intro _)
    | with_reducible apply Calm.trans _ (onSlot_calm _).calm
    | with_reducible apply Calm.trans _ (orRefuse_calm _).calm
    | with_reducible apply Calm.trans _ postStatus_calm.calm
    | with_reducible apply Calm.trans _ modDom_calm.calm
    | with_reducible apply Calm.trans _ (foldl_calm _ _ _ _)
    | split)

theorem applyTimeServo_calm {p : List Byte} {s : State} : Calm s (applyTimeServo p s) := by
  unfold applyTimeServo
  repeat' (first
    | exact rfl
    | with_reducible assumption
    | with_reducible exact Calm.refl _
    | intro _
    | (extract_lets +onlyGivenNames y; try clear_value y; revert y; intro _)
    | with_reducible apply Calm.trans _ modDom_calm.calm)

theorem execTimeServo_calm {n : SlotId} {s : State} {t : State} (h : execTimeServo n s = .next t) : Calm s t := by
  unfold execTimeServo at h
  cases h
  repeat' (first
    | exact rfl
    | with_reducible assumption
    | with_reducible exact Calm.refl _
    | intro _
    | (extract_lets +onlyGivenNames y; try clear_value y; revert y; intro _)
    | with_reducible apply Calm.trans _ (onSlot_calm _).calm
    | with_reducible apply Calm.trans _ (orRefuse_calm _).calm
    | with_reducible apply Calm.trans _ postStatus_calm.calm
    | with_reducible apply Calm.trans _ applyTimeServo_calm.calm)

theorem execTimeSelect_calm {n : SlotId} {s : State} {t : State} (h : execTimeSelect n s = .next t) : Calm s t := by
  unfold execTimeSelect at h
  cases h
  repeat' (first
    | exact rfl
    | with_reducible assumption
    | with_reducible exact Calm.refl _
    | intro _
    | (extract_lets +onlyGivenNames y; try clear_value y; revert y; intro _)
    | with_reducible apply Calm.trans _ (onSlot_calm _).calm
    | with_reducible apply Calm.trans _ (orRefuse_calm _).calm
    | with_reducible apply Calm.trans _ pendBoundary_calm.calm
    | with_reducible apply Calm.trans _ postStatus_calm.calm
    | with_reducible apply Calm.trans _ (foldl_calm _ _ _ _)
    | split)

theorem execTimePps_calm {n : SlotId} {s : State} {t : State} (h : execTimePps n s = .next t) : Calm s t := by
  unfold execTimePps at h
  cases h
  repeat' (first
    | exact rfl
    | with_reducible assumption
    | with_reducible exact Calm.refl _
    | intro _
    | (extract_lets +onlyGivenNames y; try clear_value y; revert y; intro _)
    | with_reducible apply Calm.trans _ (onSlot_calm _).calm
    | with_reducible apply Calm.trans _ (orRefuse_calm _).calm
    | with_reducible apply Calm.trans _ postOk_calm.calm)

theorem execTimeStatus_calm {n : SlotId} {s : State} {t : State} (h : execTimeStatus n s = .next t) : Calm s t := by
  unfold execTimeStatus at h
  cases h
  repeat' (first
    | exact rfl
    | with_reducible assumption
    | with_reducible exact Calm.refl _
    | intro _
    | (extract_lets +onlyGivenNames y; try clear_value y; revert y; intro _)
    | with_reducible apply Calm.trans _ (onSlot_calm _).calm
    | with_reducible apply Calm.trans _ postOk_calm.calm)

end Sys2Proof.Machine
end

