-- ==== Sys2Proof/Laws/Seq.lean ====
section
/-!
SUPPORT. What the operations of Seq.lean leave alone (Laws/Steady.lean), one lemma for each.
-/

set_option linter.unusedTactic false
set_option linter.unreachableTactic false
set_option linter.tactic.unusedName false

namespace Sys2Proof.Machine

theorem queueSwatches_calm {c : Conv} {s : State} : Calm s (queueSwatches c s) := by
  unfold queueSwatches
  repeat' (first
    | exact rfl
    | with_reducible assumption
    | with_reducible exact Calm.refl _
    | intro _
    | (extract_lets +onlyGivenNames y; try clear_value y; revert y; intro _)
    | with_reducible apply Calm.trans _ (modSeq_calm ..).calm)

theorem startWarp_calm {s : State} : Calm s (startWarp s) := by
  unfold startWarp
  repeat' (first
    | exact rfl
    | with_reducible assumption
    | with_reducible exact Calm.refl _
    | intro _
    | (extract_lets +onlyGivenNames y; try clear_value y; revert y; intro _)
    | with_reducible apply Calm.trans _ (modSeq_calm ..).calm)

theorem dropOne_calm {n : SlotId} {st : Status} {s : State} : Calm s (dropOne n st s) := by
  unfold dropOne
  repeat' (first
    | exact rfl
    | with_reducible assumption
    | with_reducible exact Calm.refl _
    | intro _
    | (extract_lets +onlyGivenNames y; try clear_value y; revert y; intro _)
    | with_reducible apply Calm.trans _ postStatus_calm.calm
    | with_reducible apply Calm.trans _ (modSeq_calm ..).calm)

theorem reassignUrgent_calm {s : State} : Calm s (reassignUrgent s) := by
  unfold reassignUrgent
  repeat' (first
    | exact rfl
    | with_reducible assumption
    | with_reducible exact Calm.refl _
    | intro _
    | (extract_lets +onlyGivenNames x; with_reducible refine Calm.step (x := x) ?_ ?_; (on_goal 1 => (unfold x; clear x)); on_goal 2 => (try clear_value x; revert x; intro _ _))
    | (extract_lets +onlyGivenNames y; try clear_value y; revert y; intro _)
    | with_reducible apply Calm.trans _ (modSeq_calm ..).calm
    | with_reducible apply Calm.trans _ dropOne_calm.calm
    | with_reducible apply Calm.trans _ (foldl_calm _ _ _ _))

theorem startWeft_calm {s : State} : Calm s (startWeft s) := by
  unfold startWeft
  repeat' (first
    | exact rfl
    | with_reducible assumption
    | with_reducible exact Calm.refl _
    | intro _
    | (extract_lets +onlyGivenNames y; try clear_value y; revert y; intro _)
    | with_reducible apply Calm.trans _ reassignUrgent_calm.calm
    | with_reducible apply Calm.trans _ (modSeq_calm ..).calm)

theorem startTests_calm {s : State} : Calm s (startTests s) := by
  unfold startTests
  repeat' (first
    | exact rfl
    | with_reducible assumption
    | with_reducible exact Calm.refl _
    | intro _
    | (extract_lets +onlyGivenNames y; try clear_value y; revert y; intro _)
    | with_reducible apply Calm.trans _ queueSwatches_calm.calm
    | with_reducible apply Calm.trans _ (foldl_calm _ _ _ _)
    | split)

theorem startConverters_calm {s : State} : Calm s (startConverters s) := by
  unfold startConverters
  repeat' (first
    | exact rfl
    | with_reducible assumption
    | with_reducible exact Calm.refl _
    | intro _
    | (extract_lets +onlyGivenNames y; try clear_value y; revert y; intro _)
    | with_reducible apply Calm.trans _ startTests_calm.calm
    | with_reducible apply Calm.trans _ startWeft_calm.calm
    | with_reducible apply Calm.trans _ startWarp_calm.calm
    | with_reducible apply Calm.trans _ (modSeq_calm ..).calm)

theorem stopConverters_calm {s : State} : Calm s (stopConverters s) := by
  unfold stopConverters
  repeat' (first
    | exact rfl
    | with_reducible assumption
    | with_reducible exact Calm.refl _
    | intro _
    | (extract_lets +onlyGivenNames y; try clear_value y; revert y; intro _)
    | with_reducible apply Calm.trans _ (modSeq_calm ..).calm)

theorem applyTables_calm {x : Tables} {s : State} : Calm s (applyTables x s) := by
  unfold applyTables
  repeat' (first
    | exact rfl
    | with_reducible assumption
    | with_reducible exact Calm.refl _
    | intro _
    | (extract_lets +onlyGivenNames x; with_reducible refine Calm.step (x := x) ?_ ?_; (on_goal 1 => (unfold x; clear x)); on_goal 2 => (try clear_value x; revert x; intro _ _))
    | (extract_lets +onlyGivenNames y; try clear_value y; revert y; intro _)
    | with_reducible apply Calm.trans _ (modSeq_calm ..).calm
    | with_reducible apply Calm.trans _ resetLanes_calm.calm
    | with_reducible apply Calm.trans _ startConverters_calm.calm
    | with_reducible apply Calm.trans _ startWarp_calm.calm
    | with_reducible apply Calm.trans _ startWeft_calm.calm
    | with_reducible apply Calm.trans _ (foldl_calm _ _ _ _)
    | split)

theorem enterMode_calm {s : State} : Calm s (enterMode s) := by
  unfold enterMode
  repeat' (first
    | exact rfl
    | with_reducible assumption
    | with_reducible exact Calm.refl _
    | intro _
    | (extract_lets +onlyGivenNames y; try clear_value y; revert y; intro _)
    | with_reducible apply Calm.trans _ (modSeq_calm ..).calm)

theorem leaveTwill_calm {s : State} : Calm s (leaveTwill s) := by
  unfold leaveTwill
  repeat' (first
    | exact rfl
    | with_reducible assumption
    | with_reducible exact Calm.refl _
    | intro _
    | (extract_lets +onlyGivenNames y; try clear_value y; revert y; intro _)
    | with_reducible apply Calm.trans _ (modSeq_calm ..).calm)

theorem applyMode_calm {twill : Bool} {s : State} : Calm s (applyMode twill s) := by
  unfold applyMode
  repeat' (first
    | exact rfl
    | with_reducible assumption
    | with_reducible exact Calm.refl _
    | intro _
    | (extract_lets +onlyGivenNames x; with_reducible refine Calm.step (x := x) ?_ ?_; (on_goal 1 => (unfold x; clear x)); on_goal 2 => (try clear_value x; revert x; intro _ _))
    | (extract_lets +onlyGivenNames y; try clear_value y; revert y; intro _)
    | with_reducible apply Calm.trans _ (modSeq_calm ..).calm
    | with_reducible apply Calm.trans _ enterMode_calm.calm
    | with_reducible apply Calm.trans _ resetLanes_calm.calm
    | with_reducible apply Calm.trans _ startConverters_calm.calm
    | with_reducible apply Calm.trans _ (foldl_calm _ _ _ _)
    | split)

theorem applySeqLoad_calm {p : List Byte} {s : State} : Calm s (applySeqLoad p s) := by
  unfold applySeqLoad
  repeat' (first
    | exact rfl
    | with_reducible assumption
    | with_reducible exact Calm.refl _
    | intro _
    | (extract_lets +onlyGivenNames y; try clear_value y; revert y; intro _)
    | with_reducible apply Calm.trans _ applyTables_calm.calm)

theorem seqLoadDone_calm {n : SlotId} {sel : Nat} {obj : List Byte} {s : State} : Calm s (seqLoadDone n sel obj s) := by
  unfold seqLoadDone
  repeat' (first
    | exact rfl
    | with_reducible assumption
    | with_reducible exact Calm.refl _
    | intro _
    | (extract_lets +onlyGivenNames x; with_reducible refine Calm.step (x := x) ?_ ?_; (on_goal 1 => (unfold x; clear x)); on_goal 2 => (try clear_value x; revert x; intro _ _))
    | (extract_lets +onlyGivenNames y; try clear_value y; revert y; intro _)
    | with_reducible apply Calm.trans _ badArg_calm.calm
    | with_reducible apply Calm.trans _ (modMbox_calm ..).calm
    | with_reducible apply Calm.trans _ postStatus_calm.calm
    | with_reducible apply Calm.trans _ pendBoundary_calm.calm
    | with_reducible apply Calm.trans _ applySeqLoad_calm.calm
    | with_reducible apply Calm.trans _ (foldl_calm _ _ _ _)
    | split)

theorem execSeqLoad_calm {n : SlotId} {s : State} {t : State} (h : execSeqLoad n s = .next t) : Calm s t := by
  unfold execSeqLoad at h
  cases h
  repeat' (first
    | exact rfl
    | with_reducible assumption
    | with_reducible exact Calm.refl _
    | intro _
    | (extract_lets +onlyGivenNames y; try clear_value y; revert y; intro _)
    | with_reducible apply Calm.trans _ (onSlot_calm _).calm
    | with_reducible apply Calm.trans _ (chunk_calm _ _ _).calm
    | with_reducible apply Calm.trans _ seqLoadDone_calm.calm
    | with_reducible apply Calm.trans _ (foldl_calm _ _ _ _)
    | split
    | dsimp only [seqLoadCmd])

theorem execSeqMode_calm {n : SlotId} {s : State} {t : State} (h : execSeqMode n s = .next t) : Calm s t := by
  unfold execSeqMode at h
  cases h
  repeat' (first
    | exact rfl
    | with_reducible assumption
    | with_reducible exact Calm.refl _
    | intro _
    | (extract_lets +onlyGivenNames y; try clear_value y; revert y; intro _)
    | with_reducible apply Calm.trans _ (onSlot_calm _).calm
    | with_reducible apply Calm.trans _ (orRefuse_calm _).calm
    | with_reducible apply Calm.trans _ pendBoundary_calm.calm
    | with_reducible apply Calm.trans _ postStatus_calm.calm
    | with_reducible apply Calm.trans _ applyMode_calm.calm
    | with_reducible apply Calm.trans _ (foldl_calm _ _ _ _)
    | split)

theorem execSeqUrgent_calm {n : SlotId} {s : State} {t : State} (h : execSeqUrgent n s = .next t) : Calm s t := by
  unfold execSeqUrgent at h
  cases h
  dsimp only
  repeat' (first
    | exact rfl
    | with_reducible assumption
    | with_reducible exact Calm.refl _
    | intro _
    | (extract_lets +onlyGivenNames y; try clear_value y; revert y; intro _)
    | with_reducible apply Calm.trans _ (onSlot_calm _).calm
    | with_reducible apply Calm.trans _ dropOne_calm.calm
    | with_reducible apply Calm.trans _ badArg_calm.calm
    | with_reducible apply Calm.trans _ postStatus_calm.calm
    | with_reducible apply Calm.trans _ (modMbox_calm ..).calm
    | with_reducible apply Calm.trans _ (modSeq_calm ..).calm
    | with_reducible apply Calm.trans _ (foldl_calm _ _ _ _)
    | split)

theorem drawTone_calm {e : Entry} {s : State} : Calm s (drawTone e s) := by
  unfold drawTone
  repeat' (first
    | exact rfl
    | with_reducible assumption
    | with_reducible exact Calm.refl _
    | intro _
    | (extract_lets +onlyGivenNames y; try clear_value y; revert y; intro _)
    | with_reducible apply Calm.trans _ (drawFree_calm ..).calm
    | with_reducible apply Calm.trans _ (foldl_calm _ _ _ _)
    | split)

theorem execUrgentConversionDone_calm {n : SlotId} {v : Rat} {err : Rat} {s : State} {t : State} (h : execUrgentConversionDone n v err s = .next t) : Calm s t := by
  unfold execUrgentConversionDone at h
  cases h
  repeat' (first
    | exact rfl
    | with_reducible assumption
    | with_reducible exact Calm.refl _
    | intro _
    | (extract_lets +onlyGivenNames y; try clear_value y; revert y; intro _)
    | with_reducible apply Calm.trans _ postOk_calm.calm
    | with_reducible apply Calm.trans _ drawTone_calm.calm
    | with_reducible apply Calm.trans _ (modSeq_calm ..).calm
    | with_reducible apply Calm.trans _ (foldl_calm _ _ _ _)
    | split)

theorem keepSwatch_calm {c : Conv} {g : Fin 5} {w : Fin 3} {code : Int} {s : State} : Calm s (keepSwatch c g w code s) := by
  unfold keepSwatch
  repeat' (first
    | exact rfl
    | with_reducible assumption
    | with_reducible exact Calm.refl _
    | intro _
    | (extract_lets +onlyGivenNames x; with_reducible refine Calm.step (x := x) ?_ ?_; (on_goal 1 => (unfold x; clear x)); on_goal 2 => (try clear_value x; revert x; intro _ _))
    | (extract_lets +onlyGivenNames y; try clear_value y; revert y; intro _)
    | with_reducible apply Calm.trans _ (modSeq_calm ..).calm
    | with_reducible apply Calm.trans _ (modCal_calm ..).calm
    | with_reducible apply Calm.trans _ (foldl_calm _ _ _ _)
    | split)

theorem serveSwatch_calm {c : Conv} {err : Rat} {s : State} : Calm s (serveSwatch c err s) := by
  unfold serveSwatch
  repeat' (first
    | exact rfl
    | with_reducible assumption
    | with_reducible exact Calm.refl _
    | intro _
    | (extract_lets +onlyGivenNames y; try clear_value y; revert y; intro _)
    | with_reducible apply Calm.trans _ keepSwatch_calm.calm
    | with_reducible apply Calm.trans _ (foldl_calm _ _ _ _)
    | split)

theorem serveWarp_calm {err : Rat} {s : State} : Calm s (serveWarp err s) := by
  unfold serveWarp
  repeat' (first
    | exact rfl
    | with_reducible assumption
    | with_reducible exact Calm.refl _
    | intro _
    | (extract_lets +onlyGivenNames y; try clear_value y; revert y; intro _)
    | with_reducible apply Calm.trans _ serveSwatch_calm.calm
    | with_reducible apply Calm.trans _ queueSwatches_calm.calm
    | with_reducible apply Calm.trans _ (foldl_calm _ _ _ _)
    | split)

theorem serveOpen_calm {began : W64} {clk : Nat} {err : Rat} {s : State} : Calm s (serveOpen began clk err s) := by
  unfold serveOpen
  repeat' (first
    | exact rfl
    | with_reducible assumption
    | with_reducible exact Calm.refl _
    | intro _
    | (extract_lets +onlyGivenNames x; with_reducible refine Calm.step (x := x) ?_ ?_; (on_goal 1 => (unfold x; clear x)); on_goal 2 => (try clear_value x; revert x; intro _ _))
    | (extract_lets +onlyGivenNames y; try clear_value y; revert y; intro _)
    | with_reducible apply Calm.trans _ serveSwatch_calm.calm
    | with_reducible apply Calm.trans _ queueSwatches_calm.calm
    | with_reducible apply Calm.trans _ (foldl_calm _ _ _ _)
    | split)

theorem weftCycle_calm {s : State} : Calm s (weftCycle s) := by
  unfold weftCycle
  repeat' (first
    | exact rfl
    | with_reducible assumption
    | with_reducible exact Calm.refl _
    | intro _
    | (extract_lets +onlyGivenNames x; with_reducible refine Calm.step (x := x) ?_ ?_; (on_goal 1 => (unfold x; clear x)); on_goal 2 => (try clear_value x; revert x; intro _ _))
    | (extract_lets +onlyGivenNames y; try clear_value y; revert y; intro _)
    | with_reducible apply Calm.trans _ (modSeq_calm ..).calm
    | with_reducible apply Calm.trans _ queueSwatches_calm.calm
    | with_reducible apply Calm.trans _ (foldl_calm _ _ _ _)
    | split)

theorem execConverterSelfTest_calm {c : Conv} {g : Fin 5} {s : State} {t : State} (h : execConverterSelfTest c g s = .next t) : Calm s t := by
  unfold execConverterSelfTest at h
  cases h
  repeat' (first
    | exact rfl
    | with_reducible assumption
    | with_reducible exact Calm.refl _
    | intro _
    | (extract_lets +onlyGivenNames x; with_reducible refine Calm.step (x := x) ?_ ?_; (on_goal 1 => (unfold x; clear x)); on_goal 2 => (try clear_value x; revert x; intro _ _))
    | (extract_lets +onlyGivenNames y; try clear_value y; revert y; intro _)
    | with_reducible apply Calm.trans _ (modSeq_calm ..).calm
    | with_reducible apply Calm.trans _ raise_calm.calm
    | with_reducible apply Calm.trans _ (foldl_calm _ _ _ _)
    | split)

theorem execSeamConverged_calm {s : State} {t : State} (h : execSeamConverged s = .next t) : Calm s t := by
  unfold execSeamConverged at h
  cases h
  repeat' (first
    | exact rfl
    | with_reducible assumption
    | with_reducible exact Calm.refl _
    | intro _
    | (extract_lets +onlyGivenNames y; try clear_value y; revert y; intro _)
    | with_reducible apply Calm.trans _ notice_calm.calm
    | with_reducible apply Calm.trans _ (modSeq_calm ..).calm
    | with_reducible apply Calm.trans _ (foldl_calm _ _ _ _)
    | split)

theorem execSeamStaleTimeout_calm {s : State} {t : State} (h : execSeamStaleTimeout s = .next t) : Calm s t := by
  unfold execSeamStaleTimeout at h
  cases h
  repeat' (first
    | exact rfl
    | with_reducible assumption
    | with_reducible exact Calm.refl _
    | intro _
    | (extract_lets +onlyGivenNames x; with_reducible refine Calm.step (x := x) ?_ ?_; (on_goal 1 => (unfold x; clear x)); on_goal 2 => (try clear_value x; revert x; intro _ _))
    | (extract_lets +onlyGivenNames y; try clear_value y; revert y; intro _)
    | with_reducible apply Calm.trans _ (modSeq_calm ..).calm
    | with_reducible apply Calm.trans _ notice_calm.calm
    | with_reducible apply Calm.trans _ (foldl_calm _ _ _ _)
    | split)

theorem execSeamTrainingEnd_calm {spursMet : Bool} {s : State} {t : State} (h : execSeamTrainingEnd spursMet s = .next t) : Calm s t := by
  unfold execSeamTrainingEnd at h
  cases h
  repeat' (first
    | exact rfl
    | with_reducible assumption
    | with_reducible exact Calm.refl _
    | intro _
    | (extract_lets +onlyGivenNames x; with_reducible refine Calm.step (x := x) ?_ ?_; (on_goal 1 => (unfold x; clear x)); on_goal 2 => (try clear_value x; revert x; intro _ _))
    | (extract_lets +onlyGivenNames y; try clear_value y; revert y; intro _)
    | with_reducible apply Calm.trans _ (modSeq_calm ..).calm
    | with_reducible apply Calm.trans _ notice_calm.calm
    | with_reducible apply Calm.trans _ raise_calm.calm
    | with_reducible apply Calm.trans _ (foldl_calm _ _ _ _)
    | split)

theorem refEnable_calm {s : State} : Calm s (refEnable s) := by
  unfold refEnable
  repeat' (first
    | exact rfl
    | with_reducible assumption
    | with_reducible exact Calm.refl _
    | intro _
    | (extract_lets +onlyGivenNames y; try clear_value y; revert y; intro _)
    | with_reducible apply Calm.trans _ (modCore_calm _ _ _ _).calm
    | with_reducible apply Calm.trans _ (foldl_calm _ _ _ _)
    | split)

theorem refDisable_calm {s : State} : Calm s (refDisable s) := by
  unfold refDisable
  repeat' (first
    | exact rfl
    | with_reducible assumption
    | with_reducible exact Calm.refl _
    | intro _
    | (extract_lets +onlyGivenNames y; try clear_value y; revert y; intro _)
    | with_reducible apply Calm.trans _ (modCore_calm _ _ _ _).calm)

theorem execSeqRef_calm {n : SlotId} {s : State} {t : State} (h : execSeqRef n s = .next t) : Calm s t := by
  unfold execSeqRef at h
  cases h
  repeat' (first
    | exact rfl
    | with_reducible assumption
    | with_reducible exact Calm.refl _
    | intro _
    | (extract_lets +onlyGivenNames y; try clear_value y; revert y; intro _)
    | with_reducible apply Calm.trans _ (onSlot_calm _).calm
    | with_reducible apply Calm.trans _ badArg_calm.calm
    | with_reducible apply Calm.trans _ postStatus_calm.calm
    | with_reducible apply Calm.trans _ refEnable_calm.calm
    | with_reducible apply Calm.trans _ refDisable_calm.calm
    | with_reducible apply Calm.trans _ (foldl_calm _ _ _ _)
    | split)

theorem execSeqStart_calm {n : SlotId} {s : State} {t : State} (h : execSeqStart n s = .next t) : Calm s t := by
  unfold execSeqStart at h
  cases h
  repeat' (first
    | exact rfl
    | with_reducible assumption
    | with_reducible exact Calm.refl _
    | intro _
    | (extract_lets +onlyGivenNames y; try clear_value y; revert y; intro _)
    | with_reducible apply Calm.trans _ (onSlot_calm _).calm
    | with_reducible apply Calm.trans _ postStatus_calm.calm
    | with_reducible apply Calm.trans _ pendBoundary_calm.calm
    | with_reducible apply Calm.trans _ (modSeq_calm ..).calm
    | with_reducible apply Calm.trans _ (foldl_calm _ _ _ _)
    | split)

theorem applySeqStart_calm {n : SlotId} {s : State} : Calm s (applySeqStart n s) := by
  unfold applySeqStart
  repeat' (first
    | exact rfl
    | with_reducible assumption
    | with_reducible exact Calm.refl _
    | intro _
    | (extract_lets +onlyGivenNames y; try clear_value y; revert y; intro _)
    | with_reducible apply Calm.trans _ postStatus_calm.calm
    | with_reducible apply Calm.trans _ (modSeq_calm ..).calm
    | with_reducible apply Calm.trans _ (foldl_calm _ _ _ _)
    | split)

theorem resumeConversion_calm {s : State} : Calm s (resumeConversion s) := by
  unfold resumeConversion
  repeat' (first
    | exact rfl
    | with_reducible assumption
    | with_reducible exact Calm.refl _
    | intro _
    | (extract_lets +onlyGivenNames y; try clear_value y; revert y; intro _)
    | with_reducible apply Calm.trans _ resetAllLanes_calm.calm
    | with_reducible apply Calm.trans _ startConverters_calm.calm)

theorem execReferenceResume_calm {s : State} {t : State} (h : execReferenceResume s = .next t) : Calm s t := by
  unfold execReferenceResume at h
  cases h
  repeat' (first
    | exact rfl
    | with_reducible assumption
    | with_reducible exact Calm.refl _
    | intro _
    | (extract_lets +onlyGivenNames y; try clear_value y; revert y; intro _)
    | with_reducible apply Calm.trans _ resumeConversion_calm.calm
    | with_reducible apply Calm.trans _ (foldl_calm _ _ _ _)
    | split)

theorem execSeqStatus_calm {n : SlotId} {s : State} {t : State} (h : execSeqStatus n s = .next t) : Calm s t := by
  unfold execSeqStatus at h
  cases h
  repeat' (first
    | exact rfl
    | with_reducible assumption
    | with_reducible exact Calm.refl _
    | intro _
    | (extract_lets +onlyGivenNames x; with_reducible refine Calm.step (x := x) ?_ ?_; (on_goal 1 => (unfold x; clear x)); on_goal 2 => (try clear_value x; revert x; intro _ _))
    | (extract_lets +onlyGivenNames y; try clear_value y; revert y; intro _)
    | with_reducible apply Calm.trans _ (onSlot_calm _).calm
    | with_reducible apply Calm.trans _ badArg_calm.calm
    | with_reducible apply Calm.trans _ postOk_calm.calm
    | with_reducible apply Calm.trans _ (modSeq_calm ..).calm
    | with_reducible apply Calm.trans _ (foldl_calm _ _ _ _)
    | split)

theorem applyWeaveSet_calm {n : SlotId} {p : List Byte} {s : State} : Calm s (applyWeaveSet n p s) := by
  unfold applyWeaveSet
  repeat' (first
    | exact rfl
    | with_reducible assumption
    | with_reducible exact Calm.refl _
    | intro _
    | (extract_lets +onlyGivenNames y; try clear_value y; revert y; intro _)
    | with_reducible apply Calm.trans _ resetLane_calm.calm
    | with_reducible apply Calm.trans _ (modLane_calm ..).calm
    | with_reducible apply Calm.trans _ (foldl_calm _ _ _ _)
    | split)

theorem applyWeaveSetAt_calm {n : SlotId} {p : List Byte} {s : State} : Calm s (applyWeaveSetAt n p s) := by
  unfold applyWeaveSetAt
  repeat' (first
    | exact rfl
    | with_reducible assumption
    | with_reducible exact Calm.refl _
    | intro _
    | (extract_lets +onlyGivenNames y; try clear_value y; revert y; intro _)
    | with_reducible apply Calm.trans _ postStatus_calm.calm
    | with_reducible apply Calm.trans _ (modLane_calm ..).calm
    | with_reducible apply Calm.trans _ applyWeaveSet_calm.calm
    | with_reducible apply Calm.trans _ (foldl_calm _ _ _ _)
    | split)

theorem execWeaveSet_calm {n : SlotId} {s : State} {t : State} (h : execWeaveSet n s = .next t) : Calm s t := by
  unfold execWeaveSet at h
  cases h
  repeat' (first
    | exact rfl
    | with_reducible assumption
    | with_reducible exact Calm.refl _
    | intro _
    | (extract_lets +onlyGivenNames x; with_reducible refine Calm.step (x := x) ?_ ?_; (on_goal 1 => (unfold x; clear x)); on_goal 2 => (try clear_value x; revert x; intro _ _))
    | (extract_lets +onlyGivenNames y; try clear_value y; revert y; intro _)
    | with_reducible apply Calm.trans _ (onSlot_calm _).calm
    | with_reducible apply Calm.trans _ badArg_calm.calm
    | with_reducible apply Calm.trans _ postStatus_calm.calm
    | with_reducible apply Calm.trans _ (modLane_calm ..).calm
    | with_reducible apply Calm.trans _ pendBoundary_calm.calm
    | with_reducible apply Calm.trans _ applyWeaveSet_calm.calm
    | with_reducible apply Calm.trans _ (foldl_calm _ _ _ _)
    | split)

theorem execWeaveStatus_calm {n : SlotId} {s : State} {t : State} (h : execWeaveStatus n s = .next t) : Calm s t := by
  unfold execWeaveStatus at h
  cases h
  repeat' (first
    | exact rfl
    | with_reducible assumption
    | with_reducible exact Calm.refl _
    | intro _
    | (extract_lets +onlyGivenNames x; with_reducible refine Calm.step (x := x) ?_ ?_; (on_goal 1 => (unfold x; clear x)); on_goal 2 => (try clear_value x; revert x; intro _ _))
    | (extract_lets +onlyGivenNames y; try clear_value y; revert y; intro _)
    | with_reducible apply Calm.trans _ (onSlot_calm _).calm
    | with_reducible apply Calm.trans _ badArg_calm.calm
    | with_reducible apply Calm.trans _ postOk_calm.calm
    | with_reducible apply Calm.trans _ (modLane_calm ..).calm
    | with_reducible apply Calm.trans _ (foldl_calm _ _ _ _)
    | split)

end Sys2Proof.Machine
end

