-- ==== Sys2Proof/Laws/Heat.lean ====
section
/-!
SUPPORT. What the operations of Heat.lean leave alone (Laws/Steady.lean), one lemma for each.
-/

set_option linter.unusedTactic false
set_option linter.unreachableTactic false
set_option linter.tactic.unusedName false

namespace Sys2Proof.Machine

theorem drive_calm {p : PortId} {s : State} : Calm s (drive p s) := by
  unfold drive
  repeat' (first
    | exact rfl
    | with_reducible assumption
    | with_reducible exact Calm.refl _
    | intro _
    | (extract_lets +onlyGivenNames y; try clear_value y; revert y; intro _)
    | with_reducible apply Calm.trans _ (modHeater_calm ..).calm)

theorem startProfile_calm {p : PortId} {s : State} : Calm s (startProfile p s) := by
  unfold startProfile
  repeat' (first
    | exact rfl
    | with_reducible assumption
    | with_reducible exact Calm.refl _
    | intro _
    | (extract_lets +onlyGivenNames y; try clear_value y; revert y; intro _)
    | with_reducible apply Calm.trans _ (modHeater_calm ..).calm
    | with_reducible apply Calm.trans _ (foldl_calm _ _ _ _)
    | split)

theorem stopProfile_calm {p : PortId} {s : State} : Calm s (stopProfile p s) := by
  unfold stopProfile
  repeat' (first
    | exact rfl
    | with_reducible assumption
    | with_reducible exact Calm.refl _
    | intro _
    | (extract_lets +onlyGivenNames y; try clear_value y; revert y; intro _)
    | with_reducible apply Calm.trans _ (modHeater_calm ..).calm)

theorem newStart_calm {p : PortId} {s : State} : Calm s (newStart p s) := by
  unfold newStart
  repeat' (first
    | exact rfl
    | with_reducible assumption
    | with_reducible exact Calm.refl _
    | intro _
    | (extract_lets +onlyGivenNames y; try clear_value y; revert y; intro _)
    | with_reducible apply Calm.trans _ (modHeater_calm ..).calm)

theorem heatPortStart_calm {p : PortId} {s : State} : Calm s (heatPortStart p s) := by
  unfold heatPortStart
  repeat' (first
    | exact rfl
    | with_reducible assumption
    | with_reducible exact Calm.refl _
    | intro _
    | (extract_lets +onlyGivenNames x; with_reducible refine Calm.step (x := x) ?_ ?_; (on_goal 1 => (unfold x; clear x)); on_goal 2 => (try clear_value x; revert x; intro _ _))
    | (extract_lets +onlyGivenNames y; try clear_value y; revert y; intro _)
    | with_reducible apply Calm.trans _ newStart_calm.calm
    | with_reducible apply Calm.trans _ startProfile_calm.calm
    | with_reducible apply Calm.trans _ (foldl_calm _ _ _ _)
    | split)

theorem deferralNotice_calm {p : PortId} {kind : Nat} {cause : Nat} {s : State} : Calm s (deferralNotice p kind cause s) := by
  unfold deferralNotice
  repeat' (first
    | exact rfl
    | with_reducible assumption
    | with_reducible exact Calm.refl _
    | intro _
    | (extract_lets +onlyGivenNames x; with_reducible refine Calm.step (x := x) ?_ ?_; (on_goal 1 => (unfold x; clear x)); on_goal 2 => (try clear_value x; revert x; intro _ _))
    | (extract_lets +onlyGivenNames y; try clear_value y; revert y; intro _)
    | with_reducible apply Calm.trans _ (modLedger_calm ..).calm
    | with_reducible apply Calm.trans _ notice_calm.calm
    | with_reducible apply Calm.trans _ (foldl_calm _ _ _ _)
    | split)

theorem countCut_calm {p : PortId} {s : State} : Calm s (countCut p s) := by
  unfold countCut
  repeat' (first
    | exact rfl
    | with_reducible assumption
    | with_reducible exact Calm.refl _
    | intro _
    | (extract_lets +onlyGivenNames y; try clear_value y; revert y; intro _)
    | with_reducible apply Calm.trans _ deferralNotice_calm.calm
    | with_reducible apply Calm.trans _ (modLedger_calm ..).calm
    | with_reducible apply Calm.trans _ (foldl_calm _ _ _ _)
    | split)

theorem beginDue_calm {p : PortId} {s : State} : Calm s (beginDue p s) := by
  unfold beginDue
  repeat' (first
    | exact rfl
    | with_reducible assumption
    | with_reducible exact Calm.refl _
    | intro _
    | (extract_lets +onlyGivenNames y; try clear_value y; revert y; intro _)
    | with_reducible apply Calm.trans _ countCut_calm.calm
    | with_reducible apply Calm.trans _ drive_calm.calm
    | with_reducible apply Calm.trans _ (modHeater_calm ..).calm
    | with_reducible apply Calm.trans _ (foldl_calm _ _ _ _)
    | split)

theorem startNow_calm {p : PortId} {s : State} : Calm s (startNow p s) := by
  unfold startNow
  repeat' (first
    | exact rfl
    | with_reducible assumption
    | with_reducible exact Calm.refl _
    | intro _
    | (extract_lets +onlyGivenNames y; try clear_value y; revert y; intro _)
    | with_reducible apply Calm.trans _ beginDue_calm.calm
    | with_reducible apply Calm.trans _ startProfile_calm.calm)

theorem execHeaterStepStart_calm {p : PortId} {s : State} {t : State} (h : execHeaterStepStart p s = .next t) : Calm s t := by
  unfold execHeaterStepStart at h
  cases h
  repeat' (first
    | exact rfl
    | with_reducible assumption
    | with_reducible exact Calm.refl _
    | intro _
    | (extract_lets +onlyGivenNames y; try clear_value y; revert y; intro _)
    | with_reducible apply Calm.trans _ beginDue_calm.calm)

theorem iterate_calm {p : PortId} {s : State} : Calm s (iterate p s) := by
  unfold iterate
  repeat' (first
    | exact rfl
    | with_reducible assumption
    | with_reducible exact Calm.refl _
    | intro _
    | (extract_lets +onlyGivenNames x; with_reducible refine Calm.step (x := x) ?_ ?_; (on_goal 1 => (unfold x; clear x)); on_goal 2 => (try clear_value x; revert x; intro _ _))
    | (extract_lets +onlyGivenNames y; try clear_value y; revert y; intro _)
    | with_reducible apply Calm.trans _ (modHeater_calm ..).calm
    | with_reducible apply Calm.trans _ startNow_calm.calm
    | with_reducible apply Calm.trans _ beginDue_calm.calm
    | with_reducible apply Calm.trans _ (foldl_calm _ _ _ _)
    | split)

theorem execProfileIterationEnd_calm {p : PortId} {s : State} {t : State} (h : execProfileIterationEnd p s = .next t) : Calm s t := by
  unfold execProfileIterationEnd at h
  cases h
  repeat' (first
    | exact rfl
    | with_reducible assumption
    | with_reducible exact Calm.refl _
    | intro _
    | (extract_lets +onlyGivenNames y; try clear_value y; revert y; intro _)
    | with_reducible apply Calm.trans _ iterate_calm.calm
    | with_reducible apply Calm.trans _ (foldl_calm _ _ _ _)
    | split)

theorem heatBoundary_calm {p : PortId} {s : State} : Calm s (heatBoundary p s) := by
  unfold heatBoundary
  repeat' (first
    | exact rfl
    | with_reducible assumption
    | with_reducible exact Calm.refl _
    | intro _
    | (extract_lets +onlyGivenNames x; with_reducible refine Calm.step (x := x) ?_ ?_; (on_goal 1 => (unfold x; clear x)); on_goal 2 => (try clear_value x; revert x; intro _ _))
    | (extract_lets +onlyGivenNames y; try clear_value y; revert y; intro _)
    | with_reducible apply Calm.trans _ (modHeater_calm ..).calm
    | with_reducible apply Calm.trans _ startProfile_calm.calm
    | with_reducible apply Calm.trans _ (foldl_calm _ _ _ _)
    | split)

theorem execHeaterTrip_calm {p : PortId} {s : State} {t : State} (h : execHeaterTrip p s = .next t) : Calm s t := by
  unfold execHeaterTrip at h
  cases h
  repeat' (first
    | exact rfl
    | with_reducible assumption
    | with_reducible exact Calm.refl _
    | intro _
    | (extract_lets +onlyGivenNames x; with_reducible refine Calm.step (x := x) ?_ ?_; (on_goal 1 => (unfold x; clear x)); on_goal 2 => (try clear_value x; revert x; intro _ _))
    | (extract_lets +onlyGivenNames y; try clear_value y; revert y; intro _)
    | with_reducible apply Calm.trans _ (modHeater_calm ..).calm
    | with_reducible apply Calm.trans _ raise_calm.calm
    | with_reducible apply Calm.trans _ notice_calm.calm
    | with_reducible apply Calm.trans _ (foldl_calm _ _ _ _)
    | split)

theorem execHeaterLimitNotice_calm {p : PortId} {s : State} {t : State} (h : execHeaterLimitNotice p s = .next t) : Calm s t := by
  unfold execHeaterLimitNotice at h
  cases h
  repeat' (first
    | exact rfl
    | with_reducible assumption
    | with_reducible exact Calm.refl _
    | intro _
    | (extract_lets +onlyGivenNames y; try clear_value y; revert y; intro _)
    | with_reducible apply Calm.trans _ notice_calm.calm
    | with_reducible apply Calm.trans _ (modHeater_calm ..).calm
    | with_reducible apply Calm.trans _ (foldl_calm _ _ _ _)
    | split)

theorem execFeatureCapture_calm {p : PortId} {s : State} {t : State} (h : execFeatureCapture p s = .next t) : Calm s t := by
  unfold execFeatureCapture at h
  cases h
  repeat' (first
    | exact rfl
    | with_reducible assumption
    | with_reducible exact Calm.refl _
    | intro _
    | (extract_lets +onlyGivenNames x; with_reducible refine Calm.step (x := x) ?_ ?_; (on_goal 1 => (unfold x; clear x)); on_goal 2 => (try clear_value x; revert x; intro _ _))
    | (extract_lets +onlyGivenNames y; try clear_value y; revert y; intro _)
    | with_reducible apply Calm.trans _ (modHeater_calm ..).calm
    | with_reducible apply Calm.trans _ (modGas_calm ..).calm
    | with_reducible apply Calm.trans _ (foldl_calm _ _ _ _)
    | split)

theorem applyHeatPlate_calm {p : List Byte} {s : State} : Calm s (applyHeatPlate p s) := by
  unfold applyHeatPlate
  repeat' (first
    | exact rfl
    | with_reducible assumption
    | with_reducible exact Calm.refl _
    | intro _
    | (extract_lets +onlyGivenNames y; try clear_value y; revert y; intro _)
    | with_reducible apply Calm.trans _ (modHeater_calm ..).calm)

theorem execHeatPlate_calm {n : SlotId} {s : State} {t : State} (h : execHeatPlate n s = .next t) : Calm s t := by
  unfold execHeatPlate at h
  cases h
  repeat' (first
    | exact rfl
    | with_reducible assumption
    | with_reducible exact Calm.refl _
    | intro _
    | (extract_lets +onlyGivenNames y; try clear_value y; revert y; intro _)
    | with_reducible apply Calm.trans _ (onSlot_calm _).calm
    | with_reducible apply Calm.trans _ (orRefuse_calm _).calm
    | with_reducible apply Calm.trans _ postStatus_calm.calm
    | with_reducible apply Calm.trans _ applyHeatPlate_calm.calm
    | with_reducible apply Calm.trans _ (foldl_calm _ _ _ _)
    | split)

theorem applyProfile_calm {p : PortId} {pr : Profile} {s : State} : Calm s (applyProfile p pr s) := by
  unfold applyProfile
  repeat' (first
    | exact rfl
    | with_reducible assumption
    | with_reducible exact Calm.refl _
    | intro _
    | (extract_lets +onlyGivenNames y; try clear_value y; revert y; intro _)
    | with_reducible apply Calm.trans _ (modHeater_calm ..).calm)

theorem heatProfileDone_calm {n : SlotId} {sel : Nat} {o : List Byte} {s : State} : Calm s (heatProfileDone n sel o s) := by
  unfold heatProfileDone
  repeat' (first
    | exact rfl
    | with_reducible assumption
    | with_reducible exact Calm.refl _
    | intro _
    | (extract_lets +onlyGivenNames y; try clear_value y; revert y; intro _)
    | with_reducible apply Calm.trans _ badArg_calm.calm
    | with_reducible apply Calm.trans _ postStatus_calm.calm
    | with_reducible apply Calm.trans _ applyProfile_calm.calm
    | with_reducible apply Calm.trans _ (foldl_calm _ _ _ _)
    | split)

theorem execHeatProfile_calm {n : SlotId} {s : State} {t : State} (h : execHeatProfile n s = .next t) : Calm s t := by
  unfold execHeatProfile at h
  cases h
  repeat' (first
    | exact rfl
    | with_reducible assumption
    | with_reducible exact Calm.refl _
    | intro _
    | (extract_lets +onlyGivenNames y; try clear_value y; revert y; intro _)
    | with_reducible apply Calm.trans _ (onSlot_calm _).calm
    | with_reducible apply Calm.trans _ (chunk_calm _ _ _).calm
    | with_reducible apply Calm.trans _ heatProfileDone_calm.calm
    | with_reducible apply Calm.trans _ (foldl_calm _ _ _ _)
    | split
    | dsimp only [heatProfileCmd])

theorem execHeatStart_calm {n : SlotId} {s : State} {t : State} (h : execHeatStart n s = .next t) : Calm s t := by
  unfold execHeatStart at h
  cases h
  repeat' (first
    | exact rfl
    | with_reducible assumption
    | with_reducible exact Calm.refl _
    | intro _
    | (extract_lets +onlyGivenNames y; try clear_value y; revert y; intro _)
    | with_reducible apply Calm.trans _ (onSlot_calm _).calm
    | with_reducible apply Calm.trans _ (orRefuse_calm _).calm
    | with_reducible apply Calm.trans _ pendBoundary_calm.calm
    | with_reducible apply Calm.trans _ postStatus_calm.calm
    | with_reducible apply Calm.trans _ (foldl_calm _ _ _ _)
    | split)

theorem applyHeatStart_calm {n : SlotId} {p : List Byte} {s : State} : Calm s (applyHeatStart n p s) := by
  unfold applyHeatStart
  repeat' (first
    | exact rfl
    | with_reducible assumption
    | with_reducible exact Calm.refl _
    | intro _
    | (extract_lets +onlyGivenNames y; try clear_value y; revert y; intro _)
    | with_reducible apply Calm.trans _ postStatus_calm.calm
    | with_reducible apply Calm.trans _ startProfile_calm.calm
    | with_reducible apply Calm.trans _ newStart_calm.calm
    | with_reducible apply Calm.trans _ (foldl_calm _ _ _ _)
    | split)

theorem execHeatStop_calm {n : SlotId} {s : State} {t : State} (h : execHeatStop n s = .next t) : Calm s t := by
  unfold execHeatStop at h
  cases h
  repeat' (first
    | exact rfl
    | with_reducible assumption
    | with_reducible exact Calm.refl _
    | intro _
    | (extract_lets +onlyGivenNames y; try clear_value y; revert y; intro _)
    | with_reducible apply Calm.trans _ (onSlot_calm _).calm
    | with_reducible apply Calm.trans _ (orRefuse_calm _).calm
    | with_reducible apply Calm.trans _ pendBoundary_calm.calm
    | with_reducible apply Calm.trans _ postStatus_calm.calm
    | with_reducible apply Calm.trans _ (foldl_calm _ _ _ _)
    | split)

theorem execHeatStatus_calm {n : SlotId} {s : State} {t : State} (h : execHeatStatus n s = .next t) : Calm s t := by
  unfold execHeatStatus at h
  cases h
  repeat' (first
    | exact rfl
    | with_reducible assumption
    | with_reducible exact Calm.refl _
    | intro _
    | (extract_lets +onlyGivenNames y; try clear_value y; revert y; intro _)
    | with_reducible apply Calm.trans _ (onSlot_calm _).calm
    | with_reducible apply Calm.trans _ (orRefuse_calm _).calm
    | with_reducible apply Calm.trans _ postOk_calm.calm)

end Sys2Proof.Machine
end

