-- ==== Sys2Proof/Laws/Gauze.lean ====
section
/-!
SUPPORT. What the operations of Gauze.lean leave alone (Laws/Steady.lean), one lemma for each.
-/

set_option linter.unusedTactic false
set_option linter.unreachableTactic false
set_option linter.tactic.unusedName false

namespace Sys2Proof.Machine

theorem gauzeDiscardFor_calm {k : Nat} {p : PortId} {s : State} : Calm s (gauzeDiscardFor k p s) := by
  unfold gauzeDiscardFor
  repeat' (first
    | exact rfl
    | with_reducible assumption
    | with_reducible exact Calm.refl _
    | intro _
    | (extract_lets +onlyGivenNames y; try clear_value y; revert y; intro _)
    | with_reducible apply Calm.trans _ (modGauzeAt_calm ..).calm
    | with_reducible apply Calm.trans _ (foldl_calm _ _ _ _)
    | split)

theorem gauzeDiscard_calm {p : PortId} {s : State} : Calm s (gauzeDiscard p s) := by
  unfold gauzeDiscard
  repeat' (first
    | exact rfl
    | with_reducible assumption
    | with_reducible exact Calm.refl _
    | intro _
    | (extract_lets +onlyGivenNames y; try clear_value y; revert y; intro _)
    | with_reducible apply Calm.trans _ gauzeDiscardFor_calm.calm)

theorem closeRun_calm {p : PortId} {s : State} : Calm s (closeRun p s) := by
  unfold closeRun
  repeat' (first
    | exact rfl
    | with_reducible assumption
    | with_reducible exact Calm.refl _
    | intro _
    | (extract_lets +onlyGivenNames y; try clear_value y; revert y; intro _)
    | with_reducible apply Calm.trans _ (modGauzeAt_calm ..).calm
    | with_reducible apply Calm.trans _ gauzeDiscard_calm.calm
    | with_reducible apply Calm.trans _ (foldl_calm _ _ _ _)
    | split)

theorem beginGauze_calm {p : PortId} {s : State} : Calm s (beginGauze p s) := by
  unfold beginGauze
  repeat' (first
    | exact rfl
    | with_reducible assumption
    | with_reducible exact Calm.refl _
    | intro _
    | (extract_lets +onlyGivenNames x; with_reducible refine Calm.step (x := x) ?_ ?_; (on_goal 1 => (unfold x; clear x)); on_goal 2 => (try clear_value x; revert x; intro _ _))
    | (extract_lets +onlyGivenNames y; try clear_value y; revert y; intro _)
    | with_reducible apply Calm.trans _ (modGauzeAt_calm ..).calm
    | with_reducible apply Calm.trans _ closeRun_calm.calm
    | with_reducible apply Calm.trans _ completeWhere_calm.calm)

theorem skipGauze_calm {p : PortId} {cause : Nat} {s : State} : Calm s (skipGauze p cause s) := by
  unfold skipGauze
  repeat' (first
    | exact rfl
    | with_reducible assumption
    | with_reducible exact Calm.refl _
    | intro _
    | (extract_lets +onlyGivenNames y; try clear_value y; revert y; intro _)
    | with_reducible apply Calm.trans _ notice_calm.calm
    | with_reducible apply Calm.trans _ (modGauzeAt_calm ..).calm)

theorem tryGauze_calm {p : PortId} {s : State} : Calm s (tryGauze p s) := by
  unfold tryGauze
  repeat' (first
    | exact rfl
    | with_reducible assumption
    | with_reducible exact Calm.refl _
    | intro _
    | (extract_lets +onlyGivenNames y; try clear_value y; revert y; intro _)
    | with_reducible apply Calm.trans _ skipGauze_calm.calm
    | with_reducible apply Calm.trans _ beginGauze_calm.calm
    | with_reducible apply Calm.trans _ (foldl_calm _ _ _ _)
    | split)

theorem gauzePortStart_calm {p : PortId} {s : State} : Calm s (gauzePortStart p s) := by
  unfold gauzePortStart
  repeat' (first
    | exact rfl
    | with_reducible assumption
    | with_reducible exact Calm.refl _
    | intro _
    | (extract_lets +onlyGivenNames y; try clear_value y; revert y; intro _)
    | with_reducible apply Calm.trans _ tryGauze_calm.calm
    | with_reducible apply Calm.trans _ (foldl_calm _ _ _ _)
    | split)

theorem endGauze_calm {p : PortId} {s : State} : Calm s (endGauze p s) := by
  unfold endGauze
  repeat' (first
    | exact rfl
    | with_reducible assumption
    | with_reducible exact Calm.refl _
    | intro _
    | (extract_lets +onlyGivenNames x; with_reducible refine Calm.step (x := x) ?_ ?_; (on_goal 1 => (unfold x; clear x)); on_goal 2 => (try clear_value x; revert x; intro _ _))
    | (extract_lets +onlyGivenNames y; try clear_value y; revert y; intro _)
    | with_reducible apply Calm.trans _ (modGauzeAt_calm ..).calm
    | with_reducible apply Calm.trans _ closeRun_calm.calm
    | with_reducible apply Calm.trans _ completeWhere_calm.calm)

theorem execGauzeLeadInEnd_calm {p : PortId} {s : State} {t : State} (h : execGauzeLeadInEnd p s = .next t) : Calm s t := by
  unfold execGauzeLeadInEnd at h
  cases h
  repeat' (first
    | exact rfl
    | with_reducible assumption
    | with_reducible exact Calm.refl _
    | intro _
    | (extract_lets +onlyGivenNames y; try clear_value y; revert y; intro _)
    | with_reducible apply Calm.trans _ (modGauzeAt_calm ..).calm
    | with_reducible apply Calm.trans _ (foldl_calm _ _ _ _)
    | split)

theorem demodulate_calm {s : State} {p : PortId} {ref : Bool} {x : Demod} : Calm s (State.demodulate s p ref x) := by
  unfold State.demodulate
  repeat' (first
    | exact rfl
    | with_reducible assumption
    | with_reducible exact Calm.refl _
    | intro _
    | (extract_lets +onlyGivenNames x; with_reducible refine Calm.step (x := x) ?_ ?_; (on_goal 1 => (unfold x; clear x)); on_goal 2 => (try clear_value x; revert x; intro _ _))
    | (extract_lets +onlyGivenNames y; try clear_value y; revert y; intro _)
    | with_reducible apply Calm.trans _ (modGauzeAt_calm ..).calm
    | with_reducible apply Calm.trans _ (foldl_calm _ _ _ _)
    | split)

theorem takeResults_calm {p : PortId} {r : GauzeRun} {s : State} : Calm s (takeResults p r s) := by
  unfold takeResults
  repeat' (first
    | exact rfl
    | with_reducible assumption
    | with_reducible exact Calm.refl _
    | intro _
    | (extract_lets +onlyGivenNames y; try clear_value y; revert y; intro _)
    | with_reducible apply Calm.trans _ (modGauzeAt_calm ..).calm)

theorem completeIntegration_calm {p : PortId} {s : State} : Calm s (completeIntegration p s) := by
  unfold completeIntegration
  repeat' (first
    | exact rfl
    | with_reducible assumption
    | with_reducible exact Calm.refl _
    | intro _
    | (extract_lets +onlyGivenNames y; try clear_value y; revert y; intro _)
    | with_reducible apply Calm.trans _ (modGauzeAt_calm ..).calm
    | with_reducible apply Calm.trans _ takeResults_calm.calm)

theorem execGauzeIntegrationEnd_calm {p : PortId} {s : State} {t : State} (h : execGauzeIntegrationEnd p s = .next t) : Calm s t := by
  unfold execGauzeIntegrationEnd at h
  cases h
  repeat' (first
    | exact rfl
    | with_reducible assumption
    | with_reducible exact Calm.refl _
    | intro _
    | (extract_lets +onlyGivenNames x; with_reducible refine Calm.step (x := x) ?_ ?_; (on_goal 1 => (unfold x; clear x)); on_goal 2 => (try clear_value x; revert x; intro _ _))
    | (extract_lets +onlyGivenNames y; try clear_value y; revert y; intro _)
    | with_reducible apply Calm.trans _ (modGauzeAt_calm ..).calm
    | with_reducible apply Calm.trans _ takeResults_calm.calm
    | with_reducible apply Calm.trans _ completeIntegration_calm.calm
    | with_reducible apply Calm.trans _ (foldl_calm _ _ _ _)
    | split)

theorem execGauzePlanEnd_calm {p : PortId} {s : State} {t : State} (h : execGauzePlanEnd p s = .next t) : Calm s t := by
  unfold execGauzePlanEnd at h
  cases h
  repeat' (first
    | exact rfl
    | with_reducible assumption
    | with_reducible exact Calm.refl _
    | intro _
    | (extract_lets +onlyGivenNames y; try clear_value y; revert y; intro _)
    | with_reducible apply Calm.trans _ (modGauzeAt_calm ..).calm
    | with_reducible apply Calm.trans _ (foldl_calm _ _ _ _)
    | split)

theorem execGauzeFallEnd_calm {p : PortId} {s : State} {t : State} (h : execGauzeFallEnd p s = .next t) : Calm s t := by
  unfold execGauzeFallEnd at h
  cases h
  repeat' (first
    | exact rfl
    | with_reducible assumption
    | with_reducible exact Calm.refl _
    | intro _
    | (extract_lets +onlyGivenNames y; try clear_value y; revert y; intro _)
    | with_reducible apply Calm.trans _ endGauze_calm.calm
    | with_reducible apply Calm.trans _ (foldl_calm _ _ _ _)
    | split)

theorem gauzePlanDone_calm {n : SlotId} {sel : Nat} {o : List Byte} {s : State} : Calm s (gauzePlanDone n sel o s) := by
  unfold gauzePlanDone
  repeat' (first
    | exact rfl
    | with_reducible assumption
    | with_reducible exact Calm.refl _
    | intro _
    | (extract_lets +onlyGivenNames y; try clear_value y; revert y; intro _)
    | with_reducible apply Calm.trans _ badArg_calm.calm
    | with_reducible apply Calm.trans _ postStatus_calm.calm
    | with_reducible apply Calm.trans _ (modGauzeAt_calm ..).calm
    | with_reducible apply Calm.trans _ (foldl_calm _ _ _ _)
    | split)

theorem execGauzePlan_calm {n : SlotId} {s : State} {t : State} (h : execGauzePlan n s = .next t) : Calm s t := by
  unfold execGauzePlan at h
  cases h
  repeat' (first
    | exact rfl
    | with_reducible assumption
    | with_reducible exact Calm.refl _
    | intro _
    | (extract_lets +onlyGivenNames y; try clear_value y; revert y; intro _)
    | with_reducible apply Calm.trans _ (onSlot_calm _).calm
    | with_reducible apply Calm.trans _ (chunk_calm _ _ _).calm
    | with_reducible apply Calm.trans _ gauzePlanDone_calm.calm
    | with_reducible apply Calm.trans _ (foldl_calm _ _ _ _)
    | split
    | dsimp only [gauzePlanCmd])

theorem execGauzeStart_calm {n : SlotId} {s : State} {t : State} (h : execGauzeStart n s = .next t) : Calm s t := by
  unfold execGauzeStart at h
  cases h
  repeat' (first
    | exact rfl
    | with_reducible assumption
    | with_reducible exact Calm.refl _
    | intro _
    | (extract_lets +onlyGivenNames y; try clear_value y; revert y; intro _)
    | with_reducible apply Calm.trans _ (onSlot_calm _).calm
    | with_reducible apply Calm.trans _ (orRefuse_calm _).calm
    | with_reducible apply Calm.trans _ pendBoundary_calm.calm)

theorem applyGauzeStart_calm {n : SlotId} {p : List Byte} {s : State} : Calm s (applyGauzeStart n p s) := by
  unfold applyGauzeStart
  repeat' (first
    | exact rfl
    | with_reducible assumption
    | with_reducible exact Calm.refl _
    | intro _
    | (extract_lets +onlyGivenNames y; try clear_value y; revert y; intro _)
    | with_reducible apply Calm.trans _ (orRefuse_calm _).calm
    | with_reducible apply Calm.trans _ postStatus_calm.calm
    | with_reducible apply Calm.trans _ beginGauze_calm.calm)

theorem execGauzeStop_calm {n : SlotId} {s : State} {t : State} (h : execGauzeStop n s = .next t) : Calm s t := by
  unfold execGauzeStop at h
  cases h
  repeat' (first
    | exact rfl
    | with_reducible assumption
    | with_reducible exact Calm.refl _
    | intro _
    | (extract_lets +onlyGivenNames y; try clear_value y; revert y; intro _)
    | with_reducible apply Calm.trans _ (onSlot_calm _).calm
    | with_reducible apply Calm.trans _ (orRefuse_calm _).calm
    | with_reducible apply Calm.trans _ pendBoundary_calm.calm
    | with_reducible apply Calm.trans _ postStatus_calm.calm
    | with_reducible apply Calm.trans _ (foldl_calm _ _ _ _)
    | split)

theorem applyGauzeStop_calm {n : SlotId} {p : List Byte} {s : State} : Calm s (applyGauzeStop n p s) := by
  unfold applyGauzeStop
  repeat' (first
    | exact rfl
    | with_reducible assumption
    | with_reducible exact Calm.refl _
    | intro _
    | (extract_lets +onlyGivenNames x; with_reducible refine Calm.step (x := x) ?_ ?_; (on_goal 1 => (unfold x; clear x)); on_goal 2 => (try clear_value x; revert x; intro _ _))
    | (extract_lets +onlyGivenNames y; try clear_value y; revert y; intro _)
    | with_reducible apply Calm.trans _ closeRun_calm.calm
    | with_reducible apply Calm.trans _ (modMbox_calm ..).calm
    | with_reducible apply Calm.trans _ (modGauzeAt_calm ..).calm
    | with_reducible apply Calm.trans _ postStatus_calm.calm
    | with_reducible apply Calm.trans _ (foldl_calm _ _ _ _)
    | split)

theorem execGauzeRead_calm {n : SlotId} {s : State} {t : State} (h : execGauzeRead n s = .next t) : Calm s t := by
  unfold execGauzeRead at h
  cases h
  repeat' (first
    | exact rfl
    | with_reducible assumption
    | with_reducible exact Calm.refl _
    | intro _
    | (extract_lets +onlyGivenNames y; try clear_value y; revert y; intro _)
    | with_reducible apply Calm.trans _ (onSlot_calm _).calm
    | with_reducible apply Calm.trans _ (orRefuse_calm _).calm
    | with_reducible apply Calm.trans _ postOk_calm.calm
    | with_reducible apply Calm.trans _ (foldl_calm _ _ _ _)
    | split)

theorem execGauzeHealth_calm {n : SlotId} {s : State} {t : State} (h : execGauzeHealth n s = .next t) : Calm s t := by
  unfold execGauzeHealth at h
  cases h
  repeat' (first
    | exact rfl
    | with_reducible assumption
    | with_reducible exact Calm.refl _
    | intro _
    | (extract_lets +onlyGivenNames y; try clear_value y; revert y; intro _)
    | with_reducible apply Calm.trans _ (onSlot_calm _).calm
    | with_reducible apply Calm.trans _ badArg_calm.calm
    | with_reducible apply Calm.trans _ postOk_calm.calm
    | with_reducible apply Calm.trans _ (foldl_calm _ _ _ _)
    | split)

theorem execGauzeHealthSetReferences_calm {n : SlotId} {s : State} {t : State} (h : execGauzeHealthSetReferences n s = .next t) : Calm s t := by
  unfold execGauzeHealthSetReferences at h
  cases h
  repeat' (first
    | exact rfl
    | with_reducible assumption
    | with_reducible exact Calm.refl _
    | intro _
    | (extract_lets +onlyGivenNames y; try clear_value y; revert y; intro _)
    | with_reducible apply Calm.trans _ (onSlot_calm _).calm
    | with_reducible apply Calm.trans _ badArg_calm.calm
    | with_reducible apply Calm.trans _ postStatus_calm.calm
    | with_reducible apply Calm.trans _ (modGauzeAt_calm ..).calm
    | with_reducible apply Calm.trans _ (foldl_calm _ _ _ _)
    | split)

theorem execGauzeHealthSetSpreads_calm {n : SlotId} {s : State} {t : State} (h : execGauzeHealthSetSpreads n s = .next t) : Calm s t := by
  unfold execGauzeHealthSetSpreads at h
  cases h
  repeat' (first
    | exact rfl
    | with_reducible assumption
    | with_reducible exact Calm.refl _
    | intro _
    | (extract_lets +onlyGivenNames y; try clear_value y; revert y; intro _)
    | with_reducible apply Calm.trans _ (onSlot_calm _).calm
    | with_reducible apply Calm.trans _ badArg_calm.calm
    | with_reducible apply Calm.trans _ postStatus_calm.calm
    | with_reducible apply Calm.trans _ (modGauzeAt_calm ..).calm
    | with_reducible apply Calm.trans _ (foldl_calm _ _ _ _)
    | split)

theorem execGauzeStatus_calm {n : SlotId} {s : State} {t : State} (h : execGauzeStatus n s = .next t) : Calm s t := by
  unfold execGauzeStatus at h
  cases h
  repeat' (first
    | exact rfl
    | with_reducible assumption
    | with_reducible exact Calm.refl _
    | intro _
    | (extract_lets +onlyGivenNames y; try clear_value y; revert y; intro _)
    | with_reducible apply Calm.trans _ (onSlot_calm _).calm
    | with_reducible apply Calm.trans _ (orRefuse_calm _).calm
    | with_reducible apply Calm.trans _ postOk_calm.calm)

theorem applyGauzeCap_calm {p : List Byte} {s : State} : Calm s (applyGauzeCap p s) := by
  unfold applyGauzeCap
  repeat' (first
    | exact rfl
    | with_reducible assumption
    | with_reducible exact Calm.refl _
    | intro _
    | (extract_lets +onlyGivenNames y; try clear_value y; revert y; intro _)
    | with_reducible apply Calm.trans _ (modGauzeAt_calm ..).calm)

theorem execGauzeCap_calm {n : SlotId} {s : State} {t : State} (h : execGauzeCap n s = .next t) : Calm s t := by
  unfold execGauzeCap at h
  cases h
  repeat' (first
    | exact rfl
    | with_reducible assumption
    | with_reducible exact Calm.refl _
    | intro _
    | (extract_lets +onlyGivenNames y; try clear_value y; revert y; intro _)
    | with_reducible apply Calm.trans _ (onSlot_calm _).calm
    | with_reducible apply Calm.trans _ badArg_calm.calm
    | with_reducible apply Calm.trans _ pendBoundary_calm.calm
    | with_reducible apply Calm.trans _ postStatus_calm.calm
    | with_reducible apply Calm.trans _ applyGauzeCap_calm.calm
    | with_reducible apply Calm.trans _ (foldl_calm _ _ _ _)
    | split)

end Sys2Proof.Machine
end

