-- ==== Sys2Proof/Laws/Hold.lean ====
section
/-!
SUPPORT. What the operations of Hold.lean leave alone (Laws/Steady.lean), one lemma for each.
-/

set_option linter.unusedTactic false
set_option linter.unreachableTactic false
set_option linter.tactic.unusedName false

namespace Sys2Proof.Machine

theorem holdOver_calm {p : PortId} {s : State} : Calm s (holdOver p s) := by
  unfold holdOver
  repeat' (first
    | exact rfl
    | with_reducible assumption
    | with_reducible exact Calm.refl _
    | intro _
    | (extract_lets +onlyGivenNames x; with_reducible refine Calm.step (x := x) ?_ ?_; (on_goal 1 => (unfold x; clear x)); on_goal 2 => (try clear_value x; revert x; intro _ _))
    | (extract_lets +onlyGivenNames y; try clear_value y; revert y; intro _)
    | with_reducible apply Calm.trans _ (modPort_calm ..).calm
    | with_reducible apply Calm.trans _ (modGas_calm ..).calm)

theorem dropSession_calm {p : PortId} {s : State} : Calm s (dropSession p s) := by
  unfold dropSession
  repeat' (first
    | exact rfl
    | with_reducible assumption
    | with_reducible exact Calm.refl _
    | intro _
    | (extract_lets +onlyGivenNames y; try clear_value y; revert y; intro _)
    | with_reducible apply Calm.trans _ completeWhere_calm.calm
    | with_reducible apply Calm.trans _ holdOver_calm.calm
    | with_reducible apply Calm.trans _ (modCal_calm ..).calm)

theorem calNotice_calm {p : PortId} {cause : Nat} {s : State} : Calm s (calNotice p cause s) := by
  unfold calNotice
  repeat' (first
    | exact rfl
    | with_reducible assumption
    | with_reducible exact Calm.refl _
    | intro _
    | (extract_lets +onlyGivenNames y; try clear_value y; revert y; intro _)
    | with_reducible apply Calm.trans _ notice_calm.calm)

theorem endSession_calm {p : PortId} {cause : Nat} {s : State} : Calm s (endSession p cause s) := by
  unfold endSession
  repeat' (first
    | exact rfl
    | with_reducible assumption
    | with_reducible exact Calm.refl _
    | intro _
    | (extract_lets +onlyGivenNames y; try clear_value y; revert y; intro _)
    | with_reducible apply Calm.trans _ dropSession_calm.calm
    | with_reducible apply Calm.trans _ calNotice_calm.calm
    | with_reducible apply Calm.trans _ (foldl_calm _ _ _ _)
    | split)

theorem endElec_calm {t : CalTarget} {s : State} : Calm s (endElec t s) := by
  unfold endElec
  repeat' (first
    | exact rfl
    | with_reducible assumption
    | with_reducible exact Calm.refl _
    | intro _
    | (extract_lets +onlyGivenNames x; with_reducible refine Calm.step (x := x) ?_ ?_; (on_goal 1 => (unfold x; clear x)); on_goal 2 => (try clear_value x; revert x; intro _ _))
    | (extract_lets +onlyGivenNames y; try clear_value y; revert y; intro _)
    | with_reducible apply Calm.trans _ (modCal_calm ..).calm
    | with_reducible apply Calm.trans _ holdOver_calm.calm
    | with_reducible apply Calm.trans _ completeWhere_calm.calm
    | with_reducible apply Calm.trans _ (foldl_calm _ _ _ _)
    | split)

theorem portLeaves_calm {p : PortId} {s : State} : Calm s (portLeaves p s) := by
  unfold portLeaves
  repeat' (first
    | exact rfl
    | with_reducible assumption
    | with_reducible exact Calm.refl _
    | intro _
    | (extract_lets +onlyGivenNames x; with_reducible refine Calm.step (x := x) ?_ ?_; (on_goal 1 => (unfold x; clear x)); on_goal 2 => (try clear_value x; revert x; intro _ _))
    | (extract_lets +onlyGivenNames y; try clear_value y; revert y; intro _)
    | with_reducible apply Calm.trans _ endSession_calm.calm
    | with_reducible apply Calm.trans _ endElec_calm.calm
    | with_reducible apply Calm.trans _ (foldl_calm _ _ _ _)
    | split)

theorem calLeaves_calm {s : State} : Calm s (calLeaves s) := by
  unfold calLeaves
  repeat' (first
    | exact rfl
    | with_reducible assumption
    | with_reducible exact Calm.refl _
    | intro _
    | (extract_lets +onlyGivenNames x; with_reducible refine Calm.step (x := x) ?_ ?_; (on_goal 1 => (unfold x; clear x)); on_goal 2 => (try clear_value x; revert x; intro _ _))
    | (extract_lets +onlyGivenNames y; try clear_value y; revert y; intro _)
    | with_reducible apply Calm.trans _ endSession_calm.calm
    | with_reducible apply Calm.trans _ endElec_calm.calm
    | with_reducible apply Calm.trans _ (foldl_calm _ _ _ _)
    | split)

theorem elecLeaves_calm {s : State} : Calm s (elecLeaves s) := by
  unfold elecLeaves
  repeat' (first
    | exact rfl
    | with_reducible assumption
    | with_reducible exact Calm.refl _
    | intro _
    | (extract_lets +onlyGivenNames y; try clear_value y; revert y; intro _)
    | with_reducible apply Calm.trans _ endElec_calm.calm
    | with_reducible apply Calm.trans _ (foldl_calm _ _ _ _))

end Sys2Proof.Machine
end

