-- ==== Sys2Proof/Laws/Ports.lean ====
section
/-!
SUPPORT. What the operations of Ports.lean leave alone (Laws/Steady.lean), one lemma for each.
-/

set_option linter.unusedTactic false
set_option linter.unreachableTactic false
set_option linter.tactic.unusedName false

namespace Sys2Proof.Machine

theorem execBiasTargetReached_calm {p : PortId} {s : State} {t : State} (h : execBiasTargetReached p s = .next t) : Calm s t := by
  unfold execBiasTargetReached at h
  cases h
  repeat' (first
    | exact rfl
    | with_reducible assumption
    | with_reducible exact Calm.refl _
    | intro _
    | (extract_lets +onlyGivenNames y; try clear_value y; revert y; intro _)
    | with_reducible apply Calm.trans _ (modPort_calm ..).calm
    | with_reducible apply Calm.trans _ (foldl_calm _ _ _ _)
    | split)

theorem execCellSettlingEnd_calm {p : PortId} {s : State} {t : State} (h : execCellSettlingEnd p s = .next t) : Calm s t := by
  unfold execCellSettlingEnd at h
  cases h
  repeat' (first
    | exact rfl
    | with_reducible assumption
    | with_reducible exact Calm.refl _
    | intro _
    | (extract_lets +onlyGivenNames y; try clear_value y; revert y; intro _)
    | with_reducible apply Calm.trans _ (modPort_calm ..).calm
    | with_reducible apply Calm.trans _ (foldl_calm _ _ _ _)
    | split)

theorem startPort_calm {p : PortId} {s : State} : Calm s (startPort p s) := by
  unfold startPort
  repeat' (first
    | exact rfl
    | with_reducible assumption
    | with_reducible exact Calm.refl _
    | intro _
    | (extract_lets +onlyGivenNames x; with_reducible refine Calm.step (x := x) ?_ ?_; (on_goal 1 => (unfold x; clear x)); on_goal 2 => (try clear_value x; revert x; intro _ _))
    | (extract_lets +onlyGivenNames y; try clear_value y; revert y; intro _)
    | with_reducible apply Calm.trans _ (modPort_calm ..).calm
    | with_reducible apply Calm.trans _ resetLanes_calm.calm
    | with_reducible apply Calm.trans _ notice_calm.calm
    | with_reducible apply Calm.trans _ gauzePortStart_calm.calm
    | with_reducible apply Calm.trans _ heatPortStart_calm.calm
    | with_reducible apply Calm.trans _ (foldl_calm _ _ _ _))

theorem dropPort_calm {p : PortId} {st : PortState} {s : State} : Calm s (dropPort p st s) := by
  unfold dropPort
  repeat' (first
    | exact rfl
    | with_reducible assumption
    | with_reducible exact Calm.refl _
    | intro _
    | (extract_lets +onlyGivenNames y; try clear_value y; revert y; intro _)
    | with_reducible apply Calm.trans _ (modPort_calm ..).calm
    | with_reducible apply Calm.trans _ endGauze_calm.calm
    | with_reducible apply Calm.trans _ stopProfile_calm.calm
    | with_reducible apply Calm.trans _ portLeaves_calm.calm)

theorem forcePort_calm {p : PortId} {st : PortState} {s : State} : Calm s (forcePort p st s) := by
  unfold forcePort
  repeat' (first
    | exact rfl
    | with_reducible assumption
    | with_reducible exact Calm.refl _
    | intro _
    | (extract_lets +onlyGivenNames x; with_reducible refine Calm.step (x := x) ?_ ?_; (on_goal 1 => (unfold x; clear x)); on_goal 2 => (try clear_value x; revert x; intro _ _))
    | (extract_lets +onlyGivenNames y; try clear_value y; revert y; intro _)
    | with_reducible apply Calm.trans _ dropPort_calm.calm
    | with_reducible apply Calm.trans _ completeWhere_calm.calm)

theorem stopPort_calm {p : PortId} {s : State} : Calm s (stopPort p s) := by
  unfold stopPort
  repeat' (first
    | exact rfl
    | with_reducible assumption
    | with_reducible exact Calm.refl _
    | intro _
    | (extract_lets +onlyGivenNames y; try clear_value y; revert y; intro _)
    | with_reducible apply Calm.trans _ (modPort_calm ..).calm
    | with_reducible apply Calm.trans _ endGauze_calm.calm
    | with_reducible apply Calm.trans _ portLeaves_calm.calm
    | with_reducible apply Calm.trans _ dropPort_calm.calm
    | with_reducible apply Calm.trans _ (foldl_calm _ _ _ _)
    | split)

theorem execRingDriverLimit_calm {p : PortId} {s : State} {t : State} (h : execRingDriverLimit p s = .next t) : Calm s t := by
  unfold execRingDriverLimit at h
  cases h
  repeat' (first
    | exact rfl
    | with_reducible assumption
    | with_reducible exact Calm.refl _
    | intro _
    | (extract_lets +onlyGivenNames x; with_reducible refine Calm.step (x := x) ?_ ?_; (on_goal 1 => (unfold x; clear x)); on_goal 2 => (try clear_value x; revert x; intro _ _))
    | (extract_lets +onlyGivenNames y; try clear_value y; revert y; intro _)
    | with_reducible apply Calm.trans _ raise_calm.calm
    | with_reducible apply Calm.trans _ notice_calm.calm
    | with_reducible apply Calm.trans _ (modPort_calm ..).calm
    | with_reducible apply Calm.trans _ (foldl_calm _ _ _ _)
    | split)

theorem execCeCompliance_calm {p : PortId} {s : State} {t : State} (h : execCeCompliance p s = .next t) : Calm s t := by
  unfold execCeCompliance at h
  cases h
  repeat' (first
    | exact rfl
    | with_reducible assumption
    | with_reducible exact Calm.refl _
    | intro _
    | (extract_lets +onlyGivenNames x; with_reducible refine Calm.step (x := x) ?_ ?_; (on_goal 1 => (unfold x; clear x)); on_goal 2 => (try clear_value x; revert x; intro _ _))
    | (extract_lets +onlyGivenNames y; try clear_value y; revert y; intro _)
    | with_reducible apply Calm.trans _ raise_calm.calm
    | with_reducible apply Calm.trans _ notice_calm.calm
    | with_reducible apply Calm.trans _ (modPort_calm ..).calm
    | with_reducible apply Calm.trans _ (foldl_calm _ _ _ _)
    | split)

theorem execVreError_calm {p : PortId} {uv : Int} {s : State} {t : State} (h : execVreError p uv s = .next t) : Calm s t := by
  unfold execVreError at h
  cases h
  repeat' (first
    | exact rfl
    | with_reducible assumption
    | with_reducible exact Calm.refl _
    | intro _
    | (extract_lets +onlyGivenNames x; with_reducible refine Calm.step (x := x) ?_ ?_; (on_goal 1 => (unfold x; clear x)); on_goal 2 => (try clear_value x; revert x; intro _ _))
    | (extract_lets +onlyGivenNames y; try clear_value y; revert y; intro _)
    | with_reducible apply Calm.trans _ (modPort_calm ..).calm
    | with_reducible apply Calm.trans _ notice_calm.calm
    | with_reducible apply Calm.trans _ (foldl_calm _ _ _ _)
    | split)

theorem execPortMode_calm {n : SlotId} {s : State} {t : State} (h : execPortMode n s = .next t) : Calm s t := by
  unfold execPortMode at h
  cases h
  repeat' (first
    | exact rfl
    | with_reducible assumption
    | with_reducible exact Calm.refl _
    | intro _
    | (extract_lets +onlyGivenNames y; try clear_value y; revert y; intro _)
    | with_reducible apply Calm.trans _ (onSlot_calm _).calm
    | with_reducible apply Calm.trans _ (orRefuse_calm _).calm
    | with_reducible apply Calm.trans _ pendBoundary_calm.calm
    | with_reducible apply Calm.trans _ postStatus_calm.calm
    | with_reducible apply Calm.trans _ (foldl_calm _ _ _ _)
    | split)

theorem applyPortBias_calm {p : List Byte} {s : State} : Calm s (applyPortBias p s) := by
  unfold applyPortBias
  repeat' (first
    | exact rfl
    | with_reducible assumption
    | with_reducible exact Calm.refl _
    | intro _
    | (extract_lets +onlyGivenNames y; try clear_value y; revert y; intro _)
    | with_reducible apply Calm.trans _ (modPort_calm ..).calm)

theorem execPortBias_calm {n : SlotId} {s : State} {t : State} (h : execPortBias n s = .next t) : Calm s t := by
  unfold execPortBias at h
  cases h
  repeat' (first
    | exact rfl
    | with_reducible assumption
    | with_reducible exact Calm.refl _
    | intro _
    | (extract_lets +onlyGivenNames y; try clear_value y; revert y; intro _)
    | with_reducible apply Calm.trans _ (onSlot_calm _).calm
    | with_reducible apply Calm.trans _ badArg_calm.calm
    | with_reducible apply Calm.trans _ pendBoundary_calm.calm
    | with_reducible apply Calm.trans _ postStatus_calm.calm
    | with_reducible apply Calm.trans _ applyPortBias_calm.calm
    | with_reducible apply Calm.trans _ (foldl_calm _ _ _ _)
    | split)

theorem applyPortRange_calm {p : List Byte} {s : State} : Calm s (applyPortRange p s) := by
  unfold applyPortRange
  repeat' (first
    | exact rfl
    | with_reducible assumption
    | with_reducible exact Calm.refl _
    | intro _
    | (extract_lets +onlyGivenNames y; try clear_value y; revert y; intro _)
    | with_reducible apply Calm.trans _ (modInput_calm ..).calm)

theorem planCommand_calm {n : SlotId} {op : Nat} {apply : List Byte → State → State} {p : List Byte} {s : State} (h_apply : ∀ x0 s, Calm s (apply x0 s)) : Calm s (planCommand n op apply p s) := by
  unfold planCommand
  repeat' (first
    | exact rfl
    | with_reducible assumption
    | with_reducible exact Calm.refl _
    | intro _
    | (extract_lets +onlyGivenNames y; try clear_value y; revert y; intro _)
    | with_reducible apply Calm.trans _ pendBoundary_calm.calm
    | with_reducible apply Calm.trans _ postStatus_calm.calm
    | with_reducible apply Calm.trans _ (foldl_calm _ _ _ _)
    | with_reducible apply Calm.trans _ (h_apply _ _)
    | split)

theorem planCommand_quiet {n : SlotId} {op : Nat} {apply : List Byte → State → State} {p : List Byte} {s : State} (h_apply : ∀ x0 s, Quiet s (apply x0 s)) : Quiet s (planCommand n op apply p s) := by
  unfold planCommand
  repeat' (first
    | exact rfl
    | with_reducible assumption
    | with_reducible exact Quiet.refl _
    | intro _
    | (extract_lets +onlyGivenNames y; try clear_value y; revert y; intro _)
    | with_reducible apply Quiet.trans _ pendBoundary_calm.quiet
    | with_reducible apply Quiet.trans _ postStatus_calm.quiet
    | with_reducible apply Quiet.trans _ (foldl_quiet _ _ _ _)
    | with_reducible apply Quiet.trans _ (h_apply _ _)
    | split)

theorem planCommand_guard {n : SlotId} {op : Nat} {apply : List Byte → State → State} {p : List Byte} {s : State} (h_apply : ∀ x0 s, Guard s (apply x0 s)) : Guard s (planCommand n op apply p s) := by
  unfold planCommand
  repeat' (first
    | exact rfl
    | with_reducible assumption
    | with_reducible exact Guard.refl _
    | intro _
    | (extract_lets +onlyGivenNames y; try clear_value y; revert y; intro _)
    | with_reducible apply Guard.trans _ pendBoundary_calm.guard
    | with_reducible apply Guard.trans _ postStatus_calm.guard
    | with_reducible apply Guard.trans _ (foldl_guard _ _ _ _)
    | with_reducible apply Guard.trans _ (h_apply _ _)
    | split)

theorem planCommand_keeps {n : SlotId} {op : Nat} {apply : List Byte → State → State} {p : List Byte} {s : State} (h_apply : ∀ x0 s, Keeps s (apply x0 s)) : Keeps s (planCommand n op apply p s) := by
  unfold planCommand
  repeat' (first
    | exact rfl
    | with_reducible assumption
    | with_reducible exact Keeps.refl _
    | intro _
    | (extract_lets +onlyGivenNames y; try clear_value y; revert y; intro _)
    | with_reducible apply Keeps.trans _ pendBoundary_calm.keeps
    | with_reducible apply Keeps.trans _ postStatus_calm.keeps
    | with_reducible apply Keeps.trans _ (foldl_keeps _ _ _ _)
    | with_reducible apply Keeps.trans _ (h_apply _ _)
    | split)

theorem execPortRange_calm {n : SlotId} {s : State} {t : State} (h : execPortRange n s = .next t) : Calm s t := by
  unfold execPortRange at h
  cases h
  repeat' (first
    | exact rfl
    | with_reducible assumption
    | with_reducible exact Calm.refl _
    | intro _
    | (extract_lets +onlyGivenNames y; try clear_value y; revert y; intro _)
    | with_reducible apply Calm.trans _ (onSlot_calm _).calm
    | with_reducible apply Calm.trans _ (orRefuse_calm _).calm
    | with_reducible apply Calm.trans _ (planCommand_calm _).calm
    | with_reducible apply Calm.trans _ applyPortRange_calm.calm)

theorem applyPortWindow_calm {p : List Byte} {s : State} : Calm s (applyPortWindow p s) := by
  unfold applyPortWindow
  repeat' (first
    | exact rfl
    | with_reducible assumption
    | with_reducible exact Calm.refl _
    | intro _
    | (extract_lets +onlyGivenNames y; try clear_value y; revert y; intro _)
    | with_reducible apply Calm.trans _ (modPort_calm ..).calm)

theorem execPortWindow_calm {n : SlotId} {s : State} {t : State} (h : execPortWindow n s = .next t) : Calm s t := by
  unfold execPortWindow at h
  cases h
  repeat' (first
    | exact rfl
    | with_reducible assumption
    | with_reducible exact Calm.refl _
    | intro _
    | (extract_lets +onlyGivenNames y; try clear_value y; revert y; intro _)
    | with_reducible apply Calm.trans _ (onSlot_calm _).calm
    | with_reducible apply Calm.trans _ (orRefuse_calm _).calm
    | with_reducible apply Calm.trans _ (planCommand_calm _).calm
    | with_reducible apply Calm.trans _ applyPortWindow_calm.calm)

theorem applyPortSettle_calm {p : List Byte} {s : State} : Calm s (applyPortSettle p s) := by
  unfold applyPortSettle
  repeat' (first
    | exact rfl
    | with_reducible assumption
    | with_reducible exact Calm.refl _
    | intro _
    | (extract_lets +onlyGivenNames y; try clear_value y; revert y; intro _)
    | with_reducible apply Calm.trans _ (modPort_calm ..).calm)

theorem execPortSettle_calm {n : SlotId} {s : State} {t : State} (h : execPortSettle n s = .next t) : Calm s t := by
  unfold execPortSettle at h
  cases h
  repeat' (first
    | exact rfl
    | with_reducible assumption
    | with_reducible exact Calm.refl _
    | intro _
    | (extract_lets +onlyGivenNames y; try clear_value y; revert y; intro _)
    | with_reducible apply Calm.trans _ (onSlot_calm _).calm
    | with_reducible apply Calm.trans _ (orRefuse_calm _).calm
    | with_reducible apply Calm.trans _ postStatus_calm.calm
    | with_reducible apply Calm.trans _ applyPortSettle_calm.calm)

theorem unlessRunning_calm {n : SlotId} {op : Nat} {apply : List Byte → State → State} {p : List Byte} {s : State} (h_apply : ∀ x0 s, Calm s (apply x0 s)) : Calm s (unlessRunning n op apply p s) := by
  unfold unlessRunning
  repeat' (first
    | exact rfl
    | with_reducible assumption
    | with_reducible exact Calm.refl _
    | intro _
    | (extract_lets +onlyGivenNames y; try clear_value y; revert y; intro _)
    | with_reducible apply Calm.trans _ pendBoundary_calm.calm
    | with_reducible apply Calm.trans _ postStatus_calm.calm
    | with_reducible apply Calm.trans _ (foldl_calm _ _ _ _)
    | with_reducible apply Calm.trans _ (h_apply _ _)
    | split)

theorem unlessRunning_quiet {n : SlotId} {op : Nat} {apply : List Byte → State → State} {p : List Byte} {s : State} (h_apply : ∀ x0 s, Quiet s (apply x0 s)) : Quiet s (unlessRunning n op apply p s) := by
  unfold unlessRunning
  repeat' (first
    | exact rfl
    | with_reducible assumption
    | with_reducible exact Quiet.refl _
    | intro _
    | (extract_lets +onlyGivenNames y; try clear_value y; revert y; intro _)
    | with_reducible apply Quiet.trans _ pendBoundary_calm.quiet
    | with_reducible apply Quiet.trans _ postStatus_calm.quiet
    | with_reducible apply Quiet.trans _ (foldl_quiet _ _ _ _)
    | with_reducible apply Quiet.trans _ (h_apply _ _)
    | split)

theorem unlessRunning_guard {n : SlotId} {op : Nat} {apply : List Byte → State → State} {p : List Byte} {s : State} (h_apply : ∀ x0 s, Guard s (apply x0 s)) : Guard s (unlessRunning n op apply p s) := by
  unfold unlessRunning
  repeat' (first
    | exact rfl
    | with_reducible assumption
    | with_reducible exact Guard.refl _
    | intro _
    | (extract_lets +onlyGivenNames y; try clear_value y; revert y; intro _)
    | with_reducible apply Guard.trans _ pendBoundary_calm.guard
    | with_reducible apply Guard.trans _ postStatus_calm.guard
    | with_reducible apply Guard.trans _ (foldl_guard _ _ _ _)
    | with_reducible apply Guard.trans _ (h_apply _ _)
    | split)

theorem unlessRunning_keeps {n : SlotId} {op : Nat} {apply : List Byte → State → State} {p : List Byte} {s : State} (h_apply : ∀ x0 s, Keeps s (apply x0 s)) : Keeps s (unlessRunning n op apply p s) := by
  unfold unlessRunning
  repeat' (first
    | exact rfl
    | with_reducible assumption
    | with_reducible exact Keeps.refl _
    | intro _
    | (extract_lets +onlyGivenNames y; try clear_value y; revert y; intro _)
    | with_reducible apply Keeps.trans _ pendBoundary_calm.keeps
    | with_reducible apply Keeps.trans _ postStatus_calm.keeps
    | with_reducible apply Keeps.trans _ (foldl_keeps _ _ _ _)
    | with_reducible apply Keeps.trans _ (h_apply _ _)
    | split)

theorem applyPortAux_calm {p : List Byte} {s : State} : Calm s (applyPortAux p s) := by
  unfold applyPortAux
  repeat' (first
    | exact rfl
    | with_reducible assumption
    | with_reducible exact Calm.refl _
    | intro _
    | (extract_lets +onlyGivenNames y; try clear_value y; revert y; intro _)
    | with_reducible apply Calm.trans _ (modPort_calm ..).calm)

theorem execPortAux_calm {n : SlotId} {s : State} {t : State} (h : execPortAux n s = .next t) : Calm s t := by
  unfold execPortAux at h
  cases h
  repeat' (first
    | exact rfl
    | with_reducible assumption
    | with_reducible exact Calm.refl _
    | intro _
    | (extract_lets +onlyGivenNames y; try clear_value y; revert y; intro _)
    | with_reducible apply Calm.trans _ (onSlot_calm _).calm
    | with_reducible apply Calm.trans _ badArg_calm.calm
    | with_reducible apply Calm.trans _ (unlessRunning_calm _).calm
    | with_reducible apply Calm.trans _ applyPortAux_calm.calm
    | with_reducible apply Calm.trans _ (foldl_calm _ _ _ _)
    | split)

theorem applyPortRing_calm {p : List Byte} {s : State} : Calm s (applyPortRing p s) := by
  unfold applyPortRing
  repeat' (first
    | exact rfl
    | with_reducible assumption
    | with_reducible exact Calm.refl _
    | intro _
    | (extract_lets +onlyGivenNames y; try clear_value y; revert y; intro _)
    | with_reducible apply Calm.trans _ (modPort_calm ..).calm)

theorem execPortRing_calm {n : SlotId} {s : State} {t : State} (h : execPortRing n s = .next t) : Calm s t := by
  unfold execPortRing at h
  cases h
  repeat' (first
    | exact rfl
    | with_reducible assumption
    | with_reducible exact Calm.refl _
    | intro _
    | (extract_lets +onlyGivenNames y; try clear_value y; revert y; intro _)
    | with_reducible apply Calm.trans _ (onSlot_calm _).calm
    | with_reducible apply Calm.trans _ badArg_calm.calm
    | with_reducible apply Calm.trans _ (unlessRunning_calm _).calm
    | with_reducible apply Calm.trans _ applyPortRing_calm.calm
    | with_reducible apply Calm.trans _ (foldl_calm _ _ _ _)
    | split)

theorem applyPortLayer_calm {p : List Byte} {s : State} : Calm s (applyPortLayer p s) := by
  unfold applyPortLayer
  repeat' (first
    | exact rfl
    | with_reducible assumption
    | with_reducible exact Calm.refl _
    | intro _
    | (extract_lets +onlyGivenNames y; try clear_value y; revert y; intro _)
    | with_reducible apply Calm.trans _ (modPort_calm ..).calm)

theorem execPortLayer_calm {n : SlotId} {s : State} {t : State} (h : execPortLayer n s = .next t) : Calm s t := by
  unfold execPortLayer at h
  cases h
  repeat' (first
    | exact rfl
    | with_reducible assumption
    | with_reducible exact Calm.refl _
    | intro _
    | (extract_lets +onlyGivenNames y; try clear_value y; revert y; intro _)
    | with_reducible apply Calm.trans _ (onSlot_calm _).calm
    | with_reducible apply Calm.trans _ badArg_calm.calm
    | with_reducible apply Calm.trans _ (unlessRunning_calm _).calm
    | with_reducible apply Calm.trans _ applyPortLayer_calm.calm
    | with_reducible apply Calm.trans _ (foldl_calm _ _ _ _)
    | split)

theorem execPortStartCommand_calm {n : SlotId} {s : State} {t : State} (h : execPortStartCommand n s = .next t) : Calm s t := by
  unfold execPortStartCommand at h
  cases h
  repeat' (first
    | exact rfl
    | with_reducible assumption
    | with_reducible exact Calm.refl _
    | intro _
    | (extract_lets +onlyGivenNames y; try clear_value y; revert y; intro _)
    | with_reducible apply Calm.trans _ (onSlot_calm _).calm
    | with_reducible apply Calm.trans _ (orRefuse_calm _).calm
    | with_reducible apply Calm.trans _ pendBoundary_calm.calm
    | with_reducible apply Calm.trans _ postStatus_calm.calm
    | with_reducible apply Calm.trans _ (foldl_calm _ _ _ _)
    | split)

theorem applyPortStart_calm {n : SlotId} {p : List Byte} {s : State} : Calm s (applyPortStart n p s) := by
  unfold applyPortStart
  repeat' (first
    | exact rfl
    | with_reducible assumption
    | with_reducible exact Calm.refl _
    | intro _
    | (extract_lets +onlyGivenNames y; try clear_value y; revert y; intro _)
    | with_reducible apply Calm.trans _ postStatus_calm.calm
    | with_reducible apply Calm.trans _ startPort_calm.calm
    | with_reducible apply Calm.trans _ (foldl_calm _ _ _ _)
    | split)

theorem execPortStop_calm {n : SlotId} {s : State} {t : State} (h : execPortStop n s = .next t) : Calm s t := by
  unfold execPortStop at h
  cases h
  repeat' (first
    | exact rfl
    | with_reducible assumption
    | with_reducible exact Calm.refl _
    | intro _
    | (extract_lets +onlyGivenNames y; try clear_value y; revert y; intro _)
    | with_reducible apply Calm.trans _ (onSlot_calm _).calm
    | with_reducible apply Calm.trans _ (orRefuse_calm _).calm
    | with_reducible apply Calm.trans _ pendBoundary_calm.calm
    | with_reducible apply Calm.trans _ postStatus_calm.calm
    | with_reducible apply Calm.trans _ (foldl_calm _ _ _ _)
    | split)

theorem applyPortStop_calm {n : SlotId} {p : List Byte} {s : State} : Calm s (applyPortStop n p s) := by
  unfold applyPortStop
  repeat' (first
    | exact rfl
    | with_reducible assumption
    | with_reducible exact Calm.refl _
    | intro _
    | (extract_lets +onlyGivenNames x; with_reducible refine Calm.step (x := x) ?_ ?_; (on_goal 1 => (unfold x; clear x)); on_goal 2 => (try clear_value x; revert x; intro _ _))
    | (extract_lets +onlyGivenNames y; try clear_value y; revert y; intro _)
    | with_reducible apply Calm.trans _ stopPort_calm.calm
    | with_reducible apply Calm.trans _ postStatus_calm.calm
    | with_reducible apply Calm.trans _ (modMbox_calm ..).calm
    | with_reducible apply Calm.trans _ (foldl_calm _ _ _ _)
    | split)

theorem execPortStatus_calm {n : SlotId} {s : State} {t : State} (h : execPortStatus n s = .next t) : Calm s t := by
  unfold execPortStatus at h
  cases h
  repeat' (first
    | exact rfl
    | with_reducible assumption
    | with_reducible exact Calm.refl _
    | intro _
    | (extract_lets +onlyGivenNames y; try clear_value y; revert y; intro _)
    | with_reducible apply Calm.trans _ (onSlot_calm _).calm
    | with_reducible apply Calm.trans _ (orRefuse_calm _).calm
    | with_reducible apply Calm.trans _ postOk_calm.calm)

end Sys2Proof.Machine
end

