-- ==== Sys2Proof/Laws/Windows.lean ====
section
/-!
SUPPORT. What the operations of Windows.lean leave alone (Laws/Steady.lean), one lemma for each.
-/

set_option linter.unusedTactic false
set_option linter.unreachableTactic false
set_option linter.tactic.unusedName false

namespace Sys2Proof.Machine

theorem overInputs_calm {f : PortId → Fin 2 → State → State} {s : State} (h_f : ∀ x0 x1 s, Calm s (f x0 x1 s)) : Calm s (overInputs f s) := by
  unfold overInputs
  repeat' (first
    | exact rfl
    | with_reducible assumption
    | with_reducible exact Calm.refl _
    | intro _
    | (extract_lets +onlyGivenNames y; try clear_value y; revert y; intro _)
    | with_reducible apply Calm.trans _ (foldl_calm _ _ _ _)
    | with_reducible apply Calm.trans _ (h_f _ _ _))

theorem overInputs_quiet {f : PortId → Fin 2 → State → State} {s : State} (h_f : ∀ x0 x1 s, Quiet s (f x0 x1 s)) : Quiet s (overInputs f s) := by
  unfold overInputs
  repeat' (first
    | exact rfl
    | with_reducible assumption
    | with_reducible exact Quiet.refl _
    | intro _
    | (extract_lets +onlyGivenNames y; try clear_value y; revert y; intro _)
    | with_reducible apply Quiet.trans _ (foldl_quiet _ _ _ _)
    | with_reducible apply Quiet.trans _ (h_f _ _ _))

theorem overInputs_guard {f : PortId → Fin 2 → State → State} {s : State} (h_f : ∀ x0 x1 s, Guard s (f x0 x1 s)) : Guard s (overInputs f s) := by
  unfold overInputs
  repeat' (first
    | exact rfl
    | with_reducible assumption
    | with_reducible exact Guard.refl _
    | intro _
    | (extract_lets +onlyGivenNames y; try clear_value y; revert y; intro _)
    | with_reducible apply Guard.trans _ (foldl_guard _ _ _ _)
    | with_reducible apply Guard.trans _ (h_f _ _ _))

theorem overInputs_keeps {f : PortId → Fin 2 → State → State} {s : State} (h_f : ∀ x0 x1 s, Keeps s (f x0 x1 s)) : Keeps s (overInputs f s) := by
  unfold overInputs
  repeat' (first
    | exact rfl
    | with_reducible assumption
    | with_reducible exact Keeps.refl _
    | intro _
    | (extract_lets +onlyGivenNames y; try clear_value y; revert y; intro _)
    | with_reducible apply Keeps.trans _ (foldl_keeps _ _ _ _)
    | with_reducible apply Keeps.trans _ (h_f _ _ _))

theorem changeRange_calm {p : PortId} {i : Fin 2} {r : Fin 8} {s : State} : Calm s (changeRange p i r s) := by
  unfold changeRange
  repeat' (first
    | exact rfl
    | with_reducible assumption
    | with_reducible exact Calm.refl _
    | intro _
    | (extract_lets +onlyGivenNames x; with_reducible refine Calm.step (x := x) ?_ ?_; (on_goal 1 => (unfold x; clear x)); on_goal 2 => (try clear_value x; revert x; intro _ _))
    | (extract_lets +onlyGivenNames y; try clear_value y; revert y; intro _)
    | with_reducible apply Calm.trans _ gauzeDiscard_calm.calm
    | with_reducible apply Calm.trans _ (modInput_calm ..).calm
    | with_reducible apply Calm.trans _ (foldl_calm _ _ _ _)
    | split)

theorem putWitness_calm {v : Int} {s : State} : Calm s (putWitness v s) := by
  unfold putWitness
  repeat' (first
    | exact rfl
    | with_reducible assumption
    | with_reducible exact Calm.refl _
    | intro _
    | (extract_lets +onlyGivenNames y; try clear_value y; revert y; intro _)
    | with_reducible apply Calm.trans _ (modFrame_calm _ _ _ _).calm
    | with_reducible apply Calm.trans _ (foldl_calm _ _ _ _)
    | split)

theorem witnessSample_calm {lane : Option LaneId} {x : Sample} {s : State} : Calm s (witnessSample lane x s) := by
  unfold witnessSample
  repeat' (first
    | exact rfl
    | with_reducible assumption
    | with_reducible exact Calm.refl _
    | intro _
    | (extract_lets +onlyGivenNames x; with_reducible refine Calm.step (x := x) ?_ ?_; (on_goal 1 => (unfold x; clear x)); on_goal 2 => (try clear_value x; revert x; intro _ _))
    | (extract_lets +onlyGivenNames y; try clear_value y; revert y; intro _)
    | with_reducible apply Calm.trans _ (modSeq_calm ..).calm
    | with_reducible apply Calm.trans _ putWitness_calm.calm
    | with_reducible apply Calm.trans _ laneInput_calm.calm
    | with_reducible apply Calm.trans _ (foldl_calm _ _ _ _)
    | split)

theorem ceilingNotice_calm {p : PortId} {i : Fin 2} {s : State} : Calm s (ceilingNotice p i s) := by
  unfold ceilingNotice
  repeat' (first
    | exact rfl
    | with_reducible assumption
    | with_reducible exact Calm.refl _
    | intro _
    | (extract_lets +onlyGivenNames y; try clear_value y; revert y; intro _)
    | with_reducible apply Calm.trans _ notice_calm.calm
    | with_reducible apply Calm.trans _ (modInput_calm ..).calm
    | with_reducible apply Calm.trans _ (foldl_calm _ _ _ _)
    | split)

theorem takeStep_calm {p : PortId} {i : Fin 2} {s : State} : Calm s (takeStep p i s) := by
  unfold takeStep
  repeat' (first
    | exact rfl
    | with_reducible assumption
    | with_reducible exact Calm.refl _
    | intro _
    | (extract_lets +onlyGivenNames y; try clear_value y; revert y; intro _)
    | with_reducible apply Calm.trans _ changeRange_calm.calm
    | with_reducible apply Calm.trans _ ceilingNotice_calm.calm
    | with_reducible apply Calm.trans _ (modInput_calm ..).calm
    | with_reducible apply Calm.trans _ (foldl_calm _ _ _ _)
    | split)

theorem openInput_calm {p : PortId} {i : Fin 2} {w : Win} {s : State} : Calm s (openInput p i w s) := by
  unfold openInput
  repeat' (first
    | exact rfl
    | with_reducible assumption
    | with_reducible exact Calm.refl _
    | intro _
    | (extract_lets +onlyGivenNames x; with_reducible refine Calm.step (x := x) ?_ ?_; (on_goal 1 => (unfold x; clear x)); on_goal 2 => (try clear_value x; revert x; intro _ _))
    | (extract_lets +onlyGivenNames y; try clear_value y; revert y; intro _)
    | with_reducible apply Calm.trans _ takeStep_calm.calm
    | with_reducible apply Calm.trans _ (modInput_calm ..).calm)

theorem openWindows_calm {s : State} : Calm s (openWindows s) := by
  unfold openWindows
  repeat' (first
    | exact rfl
    | with_reducible assumption
    | with_reducible exact Calm.refl _
    | intro _
    | (extract_lets +onlyGivenNames y; try clear_value y; revert y; intro _)
    | with_reducible apply Calm.trans _ (overInputs_calm _).calm
    | with_reducible apply Calm.trans _ openInput_calm.calm
    | with_reducible apply Calm.trans _ (foldl_calm _ _ _ _)
    | split)

theorem coverInput_calm {p : PortId} {i : Fin 2} {s : State} : Calm s (coverInput p i s) := by
  unfold coverInput
  repeat' (first
    | exact rfl
    | with_reducible assumption
    | with_reducible exact Calm.refl _
    | intro _
    | (extract_lets +onlyGivenNames y; try clear_value y; revert y; intro _)
    | with_reducible apply Calm.trans _ (modInput_calm ..).calm)

theorem closeInput_calm {p : PortId} {i : Fin 2} {s : State} : Calm s (closeInput p i s) := by
  unfold closeInput
  repeat' (first
    | exact rfl
    | with_reducible assumption
    | with_reducible exact Calm.refl _
    | intro _
    | (extract_lets +onlyGivenNames x; with_reducible refine Calm.step (x := x) ?_ ?_; (on_goal 1 => (unfold x; clear x)); on_goal 2 => (try clear_value x; revert x; intro _ _))
    | (extract_lets +onlyGivenNames y; try clear_value y; revert y; intro _)
    | with_reducible apply Calm.trans _ (modSeq_calm ..).calm
    | with_reducible apply Calm.trans _ (modInput_calm ..).calm
    | with_reducible apply Calm.trans _ (modFrame_calm _ _ _ _).calm
    | with_reducible apply Calm.trans _ (foldl_calm _ _ _ _)
    | split)

theorem breachTick_calm {s : State} : Calm s (breachTick s) := by
  unfold breachTick
  repeat' (first
    | exact rfl
    | with_reducible assumption
    | with_reducible exact Calm.refl _
    | intro _
    | (extract_lets +onlyGivenNames x; with_reducible refine Calm.step (x := x) ?_ ?_; (on_goal 1 => (unfold x; clear x)); on_goal 2 => (try clear_value x; revert x; intro _ _))
    | (extract_lets +onlyGivenNames y; try clear_value y; revert y; intro _)
    | with_reducible apply Calm.trans _ (modFrame_calm _ _ _ _).calm
    | with_reducible apply Calm.trans _ (overInputs_calm _).calm
    | with_reducible apply Calm.trans _ (modInput_calm ..).calm
    | with_reducible apply Calm.trans _ (foldl_calm _ _ _ _)
    | split)

theorem windowsTick_calm {quiet : Bool} {s : State} : Calm s (windowsTick quiet s) := by
  unfold windowsTick
  repeat' (first
    | exact rfl
    | with_reducible assumption
    | with_reducible exact Calm.refl _
    | intro _
    | (extract_lets +onlyGivenNames x; with_reducible refine Calm.step (x := x) ?_ ?_; (on_goal 1 => (unfold x; clear x)); on_goal 2 => (try clear_value x; revert x; intro _ _))
    | (extract_lets +onlyGivenNames y; try clear_value y; revert y; intro _)
    | with_reducible apply Calm.trans _ breachTick_calm.calm
    | with_reducible apply Calm.trans _ (overInputs_calm _).calm
    | with_reducible apply Calm.trans _ coverInput_calm.calm
    | with_reducible apply Calm.trans _ closeInput_calm.calm
    | with_reducible apply Calm.trans _ openWindows_calm.calm
    | with_reducible apply Calm.trans _ (foldl_calm _ _ _ _)
    | split)

theorem rollRecords_calm {s : State} : Calm s (rollRecords s) := by
  unfold rollRecords
  repeat' (first
    | exact rfl
    | with_reducible assumption
    | with_reducible exact Calm.refl _
    | intro _
    | (extract_lets +onlyGivenNames y; try clear_value y; revert y; intro _)
    | with_reducible apply Calm.trans _ (overInputs_calm _).calm
    | with_reducible apply Calm.trans _ (modInput_calm ..).calm)

theorem gauzeConversion_calm {e : Entry} {y : Sample} {fl : W16} {s : State} : Calm s (gauzeConversion e y fl s) := by
  unfold gauzeConversion
  repeat' (first
    | exact rfl
    | with_reducible assumption
    | with_reducible exact Calm.refl _
    | intro _
    | (extract_lets +onlyGivenNames y; try clear_value y; revert y; intro _)
    | with_reducible apply Calm.trans _ demodulate_calm.calm
    | with_reducible apply Calm.trans _ (foldl_calm _ _ _ _)
    | split)

theorem currentConversion_calm {e : Entry} {c : ConvIn} {s : State} : Calm s (currentConversion e c s) := by
  unfold currentConversion
  repeat' (first
    | exact rfl
    | with_reducible assumption
    | with_reducible exact Calm.refl _
    | intro _
    | (extract_lets +onlyGivenNames y; try clear_value y; revert y; intro _)
    | with_reducible apply Calm.trans _ gauzeConversion_calm.calm
    | with_reducible apply Calm.trans _ (modInput_calm ..).calm)

theorem otherConversion_calm {e : Entry} {c : ConvIn} {s : State} : Calm s (otherConversion e c s) := by
  unfold otherConversion
  repeat' (first
    | exact rfl
    | with_reducible assumption
    | with_reducible exact Calm.refl _
    | intro _
    | (extract_lets +onlyGivenNames x; with_reducible refine Calm.step (x := x) ?_ ?_; (on_goal 1 => (unfold x; clear x)); on_goal 2 => (try clear_value x; revert x; intro _ _))
    | (extract_lets +onlyGivenNames y; try clear_value y; revert y; intro _)
    | with_reducible apply Calm.trans _ drawTone_calm.calm
    | with_reducible apply Calm.trans _ gauzeConversion_calm.calm
    | with_reducible apply Calm.trans _ laneInput_calm.calm
    | with_reducible apply Calm.trans _ (foldl_calm _ _ _ _)
    | split)

theorem afterTraining_calm {e : Entry} {s : State} : Calm s (afterTraining e s) := by
  unfold afterTraining
  repeat' (first
    | exact rfl
    | with_reducible assumption
    | with_reducible exact Calm.refl _
    | intro _
    | (extract_lets +onlyGivenNames x; with_reducible refine Calm.step (x := x) ?_ ?_; (on_goal 1 => (unfold x; clear x)); on_goal 2 => (try clear_value x; revert x; intro _ _))
    | (extract_lets +onlyGivenNames y; try clear_value y; revert y; intro _)
    | with_reducible apply Calm.trans _ (modSeq_calm ..).calm
    | with_reducible apply Calm.trans _ resetLane_calm.calm
    | with_reducible apply Calm.trans _ (foldl_calm _ _ _ _)
    | split)

theorem solveConversion_calm {e : Entry} {y : Sample} {s : State} : Calm s (solveConversion e y s) := by
  unfold solveConversion
  repeat' (first
    | exact rfl
    | with_reducible assumption
    | with_reducible exact Calm.refl _
    | intro _
    | (extract_lets +onlyGivenNames y; try clear_value y; revert y; intro _)
    | with_reducible apply Calm.trans _ (modCal_calm ..).calm)

theorem takeConversion_calm {e : Entry} {c : ConvIn} {s : State} : Calm s (takeConversion e c s) := by
  unfold takeConversion
  repeat' (first
    | exact rfl
    | with_reducible assumption
    | with_reducible exact Calm.refl _
    | intro _
    | (extract_lets +onlyGivenNames x; with_reducible refine Calm.step (x := x) ?_ ?_; (on_goal 1 => (unfold x; clear x)); on_goal 2 => (try clear_value x; revert x; intro _ _))
    | (extract_lets +onlyGivenNames y; try clear_value y; revert y; intro _)
    | with_reducible apply Calm.trans _ afterTraining_calm.calm
    | with_reducible apply Calm.trans _ (modSeq_calm ..).calm
    | with_reducible apply Calm.trans _ serveOpen_calm.calm
    | with_reducible apply Calm.trans _ witnessSample_calm.calm
    | with_reducible apply Calm.trans _ serveWarp_calm.calm
    | with_reducible apply Calm.trans _ otherConversion_calm.calm
    | with_reducible apply Calm.trans _ solveConversion_calm.calm
    | with_reducible apply Calm.trans _ currentConversion_calm.calm
    | with_reducible apply Calm.trans _ (foldl_calm _ _ _ _)
    | split)

theorem readyConversion_calm {e : Entry} {c : ConvIn} {s : State} : Calm s (readyConversion e c s) := by
  unfold readyConversion
  repeat' (first
    | exact rfl
    | with_reducible assumption
    | with_reducible exact Calm.refl _
    | intro _
    | (extract_lets +onlyGivenNames y; try clear_value y; revert y; intro _)
    | with_reducible apply Calm.trans _ serveSwatch_calm.calm
    | with_reducible apply Calm.trans _ queueSwatches_calm.calm
    | with_reducible apply Calm.trans _ serveWarp_calm.calm
    | with_reducible apply Calm.trans _ solveConversion_calm.calm
    | with_reducible apply Calm.trans _ (foldl_calm _ _ _ _)
    | split)

theorem execConversionComplete_calm {c : ConvIn} {s : State} {t : State} (h : execConversionComplete c s = .next t) : Calm s t := by
  unfold execConversionComplete at h
  cases h
  repeat' (first
    | exact rfl
    | with_reducible assumption
    | with_reducible exact Calm.refl _
    | intro _
    | (extract_lets +onlyGivenNames y; try clear_value y; revert y; intro _)
    | with_reducible apply Calm.trans _ takeConversion_calm.calm
    | with_reducible apply Calm.trans _ readyConversion_calm.calm
    | with_reducible apply Calm.trans _ (foldl_calm _ _ _ _)
    | split)

theorem moxResult_calm {p : PortId} {o : OpenWin} {code : Int} {fl : W16} {s : State} : Calm s (moxResult p o code fl s) := by
  unfold moxResult
  repeat' (first
    | exact rfl
    | with_reducible assumption
    | with_reducible exact Calm.refl _
    | intro _
    | (extract_lets +onlyGivenNames y; try clear_value y; revert y; intro _)
    | with_reducible apply Calm.trans _ (modHeater_calm ..).calm
    | with_reducible apply Calm.trans _ (foldl_calm _ _ _ _)
    | split)

theorem rangedResult_calm {p : PortId} {i : Fin 2} {o : OpenWin} {s : State} : Calm s (rangedResult p i o s) := by
  unfold rangedResult
  repeat' (first
    | exact rfl
    | with_reducible assumption
    | with_reducible exact Calm.refl _
    | intro _
    | (extract_lets +onlyGivenNames x; with_reducible refine Calm.step (x := x) ?_ ?_; (on_goal 1 => (unfold x; clear x)); on_goal 2 => (try clear_value x; revert x; intro _ _))
    | (extract_lets +onlyGivenNames y; try clear_value y; revert y; intro _)
    | with_reducible apply Calm.trans _ (modInput_calm ..).calm
    | with_reducible apply Calm.trans _ resetLane_calm.calm
    | with_reducible apply Calm.trans _ notice_calm.calm
    | with_reducible apply Calm.trans _ (foldl_calm _ _ _ _)
    | split)

theorem enterResult_calm {p : PortId} {i : Fin 2} {o : OpenWin} {code : Int} {fl : W16} {s : State} : Calm s (enterResult p i o code fl s) := by
  unfold enterResult
  repeat' (first
    | exact rfl
    | with_reducible assumption
    | with_reducible exact Calm.refl _
    | intro _
    | (extract_lets +onlyGivenNames y; try clear_value y; revert y; intro _)
    | with_reducible apply Calm.trans _ laneInput_calm.calm
    | with_reducible apply Calm.trans _ (modLane_calm ..).calm
    | with_reducible apply Calm.trans _ (foldl_calm _ _ _ _)
    | split)

theorem overloadStep_calm {p : PortId} {i : Fin 2} {s : State} : Calm s (overloadStep p i s) := by
  unfold overloadStep
  repeat' (first
    | exact rfl
    | with_reducible assumption
    | with_reducible exact Calm.refl _
    | intro _
    | (extract_lets +onlyGivenNames x; with_reducible refine Calm.step (x := x) ?_ ?_; (on_goal 1 => (unfold x; clear x)); on_goal 2 => (try clear_value x; revert x; intro _ _))
    | (extract_lets +onlyGivenNames y; try clear_value y; revert y; intro _)
    | with_reducible apply Calm.trans _ changeRange_calm.calm
    | with_reducible apply Calm.trans _ (modInput_calm ..).calm
    | with_reducible apply Calm.trans _ (foldl_calm _ _ _ _)
    | split)

theorem autoRange_calm {p : PortId} {i : Fin 2} {o : OpenWin} {code : Int} {s : State} : Calm s (autoRange p i o code s) := by
  unfold autoRange
  repeat' (first
    | exact rfl
    | with_reducible assumption
    | with_reducible exact Calm.refl _
    | intro _
    | (extract_lets +onlyGivenNames x; with_reducible refine Calm.step (x := x) ?_ ?_; (on_goal 1 => (unfold x; clear x)); on_goal 2 => (try clear_value x; revert x; intro _ _))
    | (extract_lets +onlyGivenNames y; try clear_value y; revert y; intro _)
    | with_reducible apply Calm.trans _ (modInput_calm ..).calm
    | with_reducible apply Calm.trans _ overloadStep_calm.calm
    | with_reducible apply Calm.trans _ ceilingNotice_calm.calm
    | with_reducible apply Calm.trans _ (foldl_calm _ _ _ _)
    | split)

theorem completeWindow_calm {p : PortId} {i : Fin 2} {o : OpenWin} {code : Int} {s : State} : Calm s (completeWindow p i o code s) := by
  unfold completeWindow
  repeat' (first
    | exact rfl
    | with_reducible assumption
    | with_reducible exact Calm.refl _
    | intro _
    | (extract_lets +onlyGivenNames x; with_reducible refine Calm.step (x := x) ?_ ?_; (on_goal 1 => (unfold x; clear x)); on_goal 2 => (try clear_value x; revert x; intro _ _))
    | (extract_lets +onlyGivenNames y; try clear_value y; revert y; intro _)
    | with_reducible apply Calm.trans _ (modInput_calm ..).calm
    | with_reducible apply Calm.trans _ (modPort_calm ..).calm
    | with_reducible apply Calm.trans _ enterResult_calm.calm
    | with_reducible apply Calm.trans _ rangedResult_calm.calm
    | with_reducible apply Calm.trans _ autoRange_calm.calm
    | with_reducible apply Calm.trans _ moxResult_calm.calm)

theorem execWindowComplete_calm {p : PortId} {i : Fin 2} {s : State} {t : State} (h : execWindowComplete p i s = .next t) : Calm s t := by
  unfold execWindowComplete at h
  cases h
  repeat' (first
    | exact rfl
    | with_reducible assumption
    | with_reducible exact Calm.refl _
    | intro _
    | (extract_lets +onlyGivenNames y; try clear_value y; revert y; intro _)
    | with_reducible apply Calm.trans _ completeWindow_calm.calm
    | with_reducible apply Calm.trans _ (foldl_calm _ _ _ _)
    | split)

theorem execLowSignalStepDown_calm {p : PortId} {i : Fin 2} {s : State} {t : State} (h : execLowSignalStepDown p i s = .next t) : Calm s t := by
  unfold execLowSignalStepDown at h
  cases h
  repeat' (first
    | exact rfl
    | with_reducible assumption
    | with_reducible exact Calm.refl _
    | intro _
    | (extract_lets +onlyGivenNames y; try clear_value y; revert y; intro _)
    | with_reducible apply Calm.trans _ (modInput_calm ..).calm
    | with_reducible apply Calm.trans _ (foldl_calm _ _ _ _)
    | split)

theorem clip_calm {p : PortId} {i : Fin 2} {positive : Bool} {s : State} : Calm s (clip p i positive s) := by
  unfold clip
  repeat' (first
    | exact rfl
    | with_reducible assumption
    | with_reducible exact Calm.refl _
    | intro _
    | (extract_lets +onlyGivenNames x; with_reducible refine Calm.step (x := x) ?_ ?_; (on_goal 1 => (unfold x; clear x)); on_goal 2 => (try clear_value x; revert x; intro _ _))
    | (extract_lets +onlyGivenNames y; try clear_value y; revert y; intro _)
    | with_reducible apply Calm.trans _ (modInput_calm ..).calm
    | with_reducible apply Calm.trans _ gauzeDiscardFor_calm.calm
    | with_reducible apply Calm.trans _ (overInputs_calm _).calm
    | with_reducible apply Calm.trans _ (modSeq_calm ..).calm
    | with_reducible apply Calm.trans _ (foldl_calm _ _ _ _)
    | split)

theorem execClipDetected_calm {p : PortId} {i : Fin 2} {positive : Bool} {s : State} {t : State} (h : execClipDetected p i positive s = .next t) : Calm s t := by
  unfold execClipDetected at h
  cases h
  repeat' (first
    | exact rfl
    | with_reducible assumption
    | with_reducible exact Calm.refl _
    | intro _
    | (extract_lets +onlyGivenNames y; try clear_value y; revert y; intro _)
    | with_reducible apply Calm.trans _ clip_calm.calm
    | with_reducible apply Calm.trans _ (foldl_calm _ _ _ _)
    | split)

end Sys2Proof.Machine
end

