-- ==== Sys2Proof/Laws/Gas.lean ====
section
/-!
SUPPORT. What the operations of Gas.lean leave alone (Laws/Steady.lean), one lemma for each.
-/

set_option linter.unusedTactic false
set_option linter.unreachableTactic false
set_option linter.tactic.unusedName false

namespace Sys2Proof.Machine

theorem envNotice_calm {p : PortId} {q : Nat} {c : Option Bool} {s : State} : Calm s (envNotice p q c s) := by
  unfold envNotice
  repeat' (first
    | exact rfl
    | with_reducible assumption
    | with_reducible exact Calm.refl _
    | intro _
    | (extract_lets +onlyGivenNames y; try clear_value y; revert y; intro _)
    | with_reducible apply Calm.trans _ notice_calm.calm
    | with_reducible apply Calm.trans _ (foldl_calm _ _ _ _)
    | split)

theorem computePort_calm {p : PortId} {s : State} : Calm s (computePort p s) := by
  unfold computePort
  repeat' (first
    | exact rfl
    | with_reducible assumption
    | with_reducible exact Calm.refl _
    | intro _
    | (extract_lets +onlyGivenNames x; with_reducible refine Calm.step (x := x) ?_ ?_; (on_goal 1 => (unfold x; clear x)); on_goal 2 => (try clear_value x; revert x; intro _ _))
    | (extract_lets +onlyGivenNames y; try clear_value y; revert y; intro _)
    | with_reducible apply Calm.trans _ (modGas_calm ..).calm
    | with_reducible apply Calm.trans _ envNotice_calm.calm
    | with_reducible apply Calm.trans _ notice_calm.calm
    | with_reducible apply Calm.trans _ (foldl_calm _ _ _ _)
    | split)

theorem emitGas_calm {j : Fin 16} {k : Fin 5} {v : Int} {exact24 : Int} {fl : W16} {cov : Nat} {chg : Nat} {s : State} : Calm s (emitGas j k v exact24 fl cov chg s) := by
  unfold emitGas
  repeat' (first
    | exact rfl
    | with_reducible assumption
    | with_reducible exact Calm.refl _
    | intro _
    | (extract_lets +onlyGivenNames x; with_reducible refine Calm.step (x := x) ?_ ?_; (on_goal 1 => (unfold x; clear x)); on_goal 2 => (try clear_value x; revert x; intro _ _))
    | (extract_lets +onlyGivenNames y; try clear_value y; revert y; intro _)
    | with_reducible apply Calm.trans _ (modGas_calm ..).calm
    | with_reducible apply Calm.trans _ leveeFeed_calm.calm
    | with_reducible apply Calm.trans _ emitSample_calm.calm
    | with_reducible apply Calm.trans _ (foldl_calm _ _ _ _)
    | split)

theorem emitBlock_calm {j : Fin 16} {k : Fin 4} {b : Block} {s : State} : Calm s (emitBlock j k b s) := by
  unfold emitBlock
  repeat' (first
    | exact rfl
    | with_reducible assumption
    | with_reducible exact Calm.refl _
    | intro _
    | (extract_lets +onlyGivenNames y; try clear_value y; revert y; intro _)
    | with_reducible apply Calm.trans _ emitGas_calm.calm)

theorem addBlock_calm {j : Fin 16} {f : Nat} {v : Int} {fl : W16} {k : Fin 4} {s : State} : Calm s (addBlock j f v fl k s) := by
  unfold addBlock
  repeat' (first
    | exact rfl
    | with_reducible assumption
    | with_reducible exact Calm.refl _
    | intro _
    | (extract_lets +onlyGivenNames x; with_reducible refine Calm.step (x := x) ?_ ?_; (on_goal 1 => (unfold x; clear x)); on_goal 2 => (try clear_value x; revert x; intro _ _))
    | (extract_lets +onlyGivenNames y; try clear_value y; revert y; intro _)
    | with_reducible apply Calm.trans _ emitBlock_calm.calm
    | with_reducible apply Calm.trans _ (modGas_calm ..).calm
    | with_reducible apply Calm.trans _ (foldl_calm _ _ _ _)
    | split)

theorem computeChannel_calm {f : Nat} {j : Fin 16} {s : State} : Calm s (computeChannel f j s) := by
  unfold computeChannel
  repeat' (first
    | exact rfl
    | with_reducible assumption
    | with_reducible exact Calm.refl _
    | intro _
    | (extract_lets +onlyGivenNames x; with_reducible refine Calm.step (x := x) ?_ ?_; (on_goal 1 => (unfold x; clear x)); on_goal 2 => (try clear_value x; revert x; intro _ _))
    | (extract_lets +onlyGivenNames y; try clear_value y; revert y; intro _)
    | with_reducible apply Calm.trans _ emitGas_calm.calm
    | with_reducible apply Calm.trans _ addBlock_calm.calm
    | with_reducible apply Calm.trans _ (foldl_calm _ _ _ _)
    | split)

theorem applyAdapt_calm {p : PortId} {s : State} : Calm s (applyAdapt p s) := by
  unfold applyAdapt
  repeat' (first
    | exact rfl
    | with_reducible assumption
    | with_reducible exact Calm.refl _
    | intro _
    | (extract_lets +onlyGivenNames x; with_reducible refine Calm.step (x := x) ?_ ?_; (on_goal 1 => (unfold x; clear x)); on_goal 2 => (try clear_value x; revert x; intro _ _))
    | (extract_lets +onlyGivenNames y; try clear_value y; revert y; intro _)
    | with_reducible apply Calm.trans _ notice_calm.calm
    | with_reducible apply Calm.trans _ boxRecord_calm.calm
    | with_reducible apply Calm.trans _ (modGas_calm ..).calm
    | with_reducible apply Calm.trans _ (foldl_calm _ _ _ _)
    | split)

theorem countRun_calm {s : State} {r : W32 × Nat × Bool} : Calm s (countRun s r) := by
  unfold countRun
  repeat' (first
    | exact rfl
    | with_reducible assumption
    | with_reducible exact Calm.refl _
    | intro _
    | (extract_lets +onlyGivenNames x; with_reducible refine Calm.step (x := x) ?_ ?_; (on_goal 1 => (unfold x; clear x)); on_goal 2 => (try clear_value x; revert x; intro _ _))
    | (extract_lets +onlyGivenNames y; try clear_value y; revert y; intro _)
    | with_reducible apply Calm.trans _ (modGas_calm ..).calm
    | with_reducible apply Calm.trans _ notice_calm.calm
    | with_reducible apply Calm.trans _ (foldl_calm _ _ _ _)
    | split)

theorem countMisses_calm {s : State} : Calm s (countMisses s) := by
  unfold countMisses
  repeat' (first
    | exact rfl
    | with_reducible assumption
    | with_reducible exact Calm.refl _
    | intro _
    | (extract_lets +onlyGivenNames x; with_reducible refine Calm.step (x := x) ?_ ?_; (on_goal 1 => (unfold x; clear x)); on_goal 2 => (try clear_value x; revert x; intro _ _))
    | (extract_lets +onlyGivenNames y; try clear_value y; revert y; intro _)
    | with_reducible apply Calm.trans _ (modGas_calm ..).calm
    | with_reducible apply Calm.trans _ countRun_calm.calm
    | with_reducible apply Calm.trans _ notice_calm.calm
    | with_reducible apply Calm.trans _ (foldl_calm _ _ _ _)
    | split)

theorem execGasComputation_calm {s : State} {t : State} (h : execGasComputation s = .next t) : Calm s t := by
  unfold execGasComputation at h
  cases h
  repeat' (first
    | exact rfl
    | with_reducible assumption
    | with_reducible exact Calm.refl _
    | intro _
    | (extract_lets +onlyGivenNames x; with_reducible refine Calm.step (x := x) ?_ ?_; (on_goal 1 => (unfold x; clear x)); on_goal 2 => (try clear_value x; revert x; intro _ _))
    | (extract_lets +onlyGivenNames y; try clear_value y; revert y; intro _)
    | with_reducible apply Calm.trans _ leveeTemps_calm.calm
    | with_reducible apply Calm.trans _ (modTherm_calm ..).calm
    | with_reducible apply Calm.trans _ (modGas_calm ..).calm
    | with_reducible apply Calm.trans _ countMisses_calm.calm
    | with_reducible apply Calm.trans _ applyAdapt_calm.calm
    | with_reducible apply Calm.trans _ computePort_calm.calm
    | with_reducible apply Calm.trans _ computeChannel_calm.calm
    | with_reducible apply Calm.trans _ (foldl_calm _ _ _ _)
    | split)

theorem execGasComputationMiss_calm {s : State} {t : State} (h : execGasComputationMiss s = .next t) : Calm s t := by
  unfold execGasComputationMiss at h
  cases h
  repeat' (first
    | exact rfl
    | with_reducible assumption
    | with_reducible exact Calm.refl _
    | intro _
    | (extract_lets +onlyGivenNames y; try clear_value y; revert y; intro _)
    | with_reducible apply Calm.trans _ countMisses_calm.calm
    | with_reducible apply Calm.trans _ (foldl_calm _ _ _ _)
    | split)

theorem gasRoll_calm {s : State} : Calm s (gasRoll s) := by
  unfold gasRoll
  repeat' (first
    | exact rfl
    | with_reducible assumption
    | with_reducible exact Calm.refl _
    | intro _
    | (extract_lets +onlyGivenNames x; with_reducible refine Calm.step (x := x) ?_ ?_; (on_goal 1 => (unfold x; clear x)); on_goal 2 => (try clear_value x; revert x; intro _ _))
    | (extract_lets +onlyGivenNames y; try clear_value y; revert y; intro _)
    | with_reducible apply Calm.trans _ (modGas_calm ..).calm
    | with_reducible apply Calm.trans _ (modGauze_calm ..).calm
    | with_reducible apply Calm.trans _ (modLanes_calm ..).calm)

theorem adaptFrom_calm {p : PortId} {c : CellFit} {r : CellFit} {fl : W16} {s : State} : Calm s (adaptFrom p c r fl s) := by
  unfold adaptFrom
  repeat' (first
    | exact rfl
    | with_reducible assumption
    | with_reducible exact Calm.refl _
    | intro _
    | (extract_lets +onlyGivenNames y; try clear_value y; revert y; intro _)
    | with_reducible apply Calm.trans _ (modGas_calm ..).calm
    | with_reducible apply Calm.trans _ (foldl_calm _ _ _ _)
    | split)

theorem rejectFit_calm {p : PortId} {cause : Fin 4} {residual : Nat} {fl : W16} {s : State} : Calm s (rejectFit p cause residual fl s) := by
  unfold rejectFit
  repeat' (first
    | exact rfl
    | with_reducible assumption
    | with_reducible exact Calm.refl _
    | intro _
    | (extract_lets +onlyGivenNames y; try clear_value y; revert y; intro _)
    | with_reducible apply Calm.trans _ notice_calm.calm
    | with_reducible apply Calm.trans _ (modGauzeAt_calm ..).calm)

theorem healthNotice_calm {p : PortId} {hi : Nat} {s : State} : Calm s (healthNotice p hi s) := by
  unfold healthNotice
  repeat' (first
    | exact rfl
    | with_reducible assumption
    | with_reducible exact Calm.refl _
    | intro _
    | (extract_lets +onlyGivenNames y; try clear_value y; revert y; intro _)
    | with_reducible apply Calm.trans _ notice_calm.calm
    | with_reducible apply Calm.trans _ (modGauzeAt_calm ..).calm
    | with_reducible apply Calm.trans _ (foldl_calm _ _ _ _)
    | split)

theorem keepFit_calm {p : PortId} {c : CellFit} {s : State} : Calm s (keepFit p c s) := by
  unfold keepFit
  repeat' (first
    | exact rfl
    | with_reducible assumption
    | with_reducible exact Calm.refl _
    | intro _
    | (extract_lets +onlyGivenNames y; try clear_value y; revert y; intro _)
    | with_reducible apply Calm.trans _ (modGauzeAt_calm ..).calm)

theorem takeFit_calm {p : PortId} {c : CellFit} {residual : Nat} {fl : W16} {s : State} : Calm s (takeFit p c residual fl s) := by
  unfold takeFit
  repeat' (first
    | exact rfl
    | with_reducible assumption
    | with_reducible exact Calm.refl _
    | intro _
    | (extract_lets +onlyGivenNames x; with_reducible refine Calm.step (x := x) ?_ ?_; (on_goal 1 => (unfold x; clear x)); on_goal 2 => (try clear_value x; revert x; intro _ _))
    | (extract_lets +onlyGivenNames y; try clear_value y; revert y; intro _)
    | with_reducible apply Calm.trans _ keepFit_calm.calm
    | with_reducible apply Calm.trans _ (modGauzeAt_calm ..).calm
    | with_reducible apply Calm.trans _ adaptFrom_calm.calm
    | with_reducible apply Calm.trans _ healthNotice_calm.calm
    | with_reducible apply Calm.trans _ (foldl_calm _ _ _ _)
    | split)

theorem execCellHealthFit_calm {p : PortId} {s : State} {t : State} (h : execCellHealthFit p s = .next t) : Calm s t := by
  unfold execCellHealthFit at h
  cases h
  repeat' (first
    | exact rfl
    | with_reducible assumption
    | with_reducible exact Calm.refl _
    | intro _
    | (extract_lets +onlyGivenNames x; with_reducible refine Calm.step (x := x) ?_ ?_; (on_goal 1 => (unfold x; clear x)); on_goal 2 => (try clear_value x; revert x; intro _ _))
    | (extract_lets +onlyGivenNames y; try clear_value y; revert y; intro _)
    | with_reducible apply Calm.trans _ (modGauzeAt_calm ..).calm
    | with_reducible apply Calm.trans _ rejectFit_calm.calm
    | with_reducible apply Calm.trans _ takeFit_calm.calm
    | with_reducible apply Calm.trans _ (foldl_calm _ _ _ _)
    | split)

theorem execAdaptStore_calm {p : PortId} {s : State} {t : State} (h : execAdaptStore p s = .next t) : Calm s t := by
  unfold execAdaptStore at h
  cases h
  repeat' (first
    | exact rfl
    | with_reducible assumption
    | with_reducible exact Calm.refl _
    | intro _
    | (extract_lets +onlyGivenNames y; try clear_value y; revert y; intro _)
    | with_reducible apply Calm.trans _ (modGas_calm ..).calm
    | with_reducible apply Calm.trans _ (foldl_calm _ _ _ _)
    | split)

theorem setModel_calm {p : PortId} {m : List Byte} {s : State} : Calm s (setModel p m s) := by
  unfold setModel
  repeat' (first
    | exact rfl
    | with_reducible assumption
    | with_reducible exact Calm.refl _
    | intro _
    | (extract_lets +onlyGivenNames y; try clear_value y; revert y; intro _)
    | with_reducible apply Calm.trans _ (modGas_calm ..).calm)

theorem applyGasModel_calm {p : List Byte} {s t : State} (h : applyGasModel p s = .ok t) : Calm s t := by
  unfold applyGasModel at h
  split at h
  · cases h
  · cases h
    exact setModel_calm

theorem gasModelDone_calm {n : SlotId} {sel : Nat} {o : List Byte} {s : State} : Calm s (gasModelDone n sel o s) := by
  unfold gasModelDone
  split
  · exact badArg_calm
  · dsimp only
    split
    · exact pendBoundary_calm
    · split
      · rename_i h
        exact (applyGasModel_calm h).trans postStatus_calm
      · exact badArg_calm

theorem execGasModel_calm {n : SlotId} {s : State} {t : State} (h : execGasModel n s = .next t) : Calm s t := by
  unfold execGasModel at h
  cases h
  repeat' (first
    | exact rfl
    | with_reducible assumption
    | with_reducible exact Calm.refl _
    | intro _
    | (extract_lets +onlyGivenNames y; try clear_value y; revert y; intro _)
    | with_reducible apply Calm.trans _ (onSlot_calm _).calm
    | with_reducible apply Calm.trans _ (chunk_calm _ _ _).calm
    | with_reducible apply Calm.trans _ gasModelDone_calm.calm
    | with_reducible apply Calm.trans _ (foldl_calm _ _ _ _)
    | split
    | dsimp only [gasModelCmd])

theorem applyGasMatrix_calm {o : List Byte} {s : State} : Calm s (applyGasMatrix o s) := by
  unfold applyGasMatrix
  repeat' (first
    | exact rfl
    | with_reducible assumption
    | with_reducible exact Calm.refl _
    | intro _
    | (extract_lets +onlyGivenNames y; try clear_value y; revert y; intro _)
    | with_reducible apply Calm.trans _ (modGas_calm ..).calm)

theorem gasMatrixDone_calm {n : SlotId} {x : Nat} {o : List Byte} {s : State} : Calm s (gasMatrixDone n x o s) := by
  unfold gasMatrixDone
  repeat' (first
    | exact rfl
    | with_reducible assumption
    | with_reducible exact Calm.refl _
    | intro _
    | (extract_lets +onlyGivenNames y; try clear_value y; revert y; intro _)
    | with_reducible apply Calm.trans _ badArg_calm.calm
    | with_reducible apply Calm.trans _ pendBoundary_calm.calm
    | with_reducible apply Calm.trans _ postStatus_calm.calm
    | with_reducible apply Calm.trans _ applyGasMatrix_calm.calm
    | with_reducible apply Calm.trans _ (foldl_calm _ _ _ _)
    | split)

theorem execGasMatrix_calm {n : SlotId} {s : State} {t : State} (h : execGasMatrix n s = .next t) : Calm s t := by
  unfold execGasMatrix at h
  cases h
  repeat' (first
    | exact rfl
    | with_reducible assumption
    | with_reducible exact Calm.refl _
    | intro _
    | (extract_lets +onlyGivenNames y; try clear_value y; revert y; intro _)
    | with_reducible apply Calm.trans _ (onSlot_calm _).calm
    | with_reducible apply Calm.trans _ (chunk_calm _ _ _).calm
    | with_reducible apply Calm.trans _ gasMatrixDone_calm.calm
    | with_reducible apply Calm.trans _ (foldl_calm _ _ _ _)
    | split
    | dsimp only [gasMatrixCmd])

theorem applyGasChannel_calm {p : List Byte} {s : State} : Calm s (applyGasChannel p s) := by
  unfold applyGasChannel
  repeat' (first
    | exact rfl
    | with_reducible assumption
    | with_reducible exact Calm.refl _
    | intro _
    | (extract_lets +onlyGivenNames y; try clear_value y; revert y; intro _)
    | with_reducible apply Calm.trans _ (modGas_calm ..).calm)

theorem execGasChannel_calm {n : SlotId} {s : State} {t : State} (h : execGasChannel n s = .next t) : Calm s t := by
  unfold execGasChannel at h
  cases h
  repeat' (first
    | exact rfl
    | with_reducible assumption
    | with_reducible exact Calm.refl _
    | intro _
    | (extract_lets +onlyGivenNames y; try clear_value y; revert y; intro _)
    | with_reducible apply Calm.trans _ (onSlot_calm _).calm
    | with_reducible apply Calm.trans _ (orRefuse_calm _).calm
    | with_reducible apply Calm.trans _ pendBoundary_calm.calm
    | with_reducible apply Calm.trans _ postStatus_calm.calm
    | with_reducible apply Calm.trans _ applyGasChannel_calm.calm
    | with_reducible apply Calm.trans _ (foldl_calm _ _ _ _)
    | split)

theorem applyGasEnv_calm {p : List Byte} {s : State} : Calm s (applyGasEnv p s) := by
  unfold applyGasEnv
  repeat' (first
    | exact rfl
    | with_reducible assumption
    | with_reducible exact Calm.refl _
    | intro _
    | (extract_lets +onlyGivenNames y; try clear_value y; revert y; intro _)
    | with_reducible apply Calm.trans _ (modGas_calm ..).calm)

theorem execGasEnv_calm {n : SlotId} {s : State} {t : State} (h : execGasEnv n s = .next t) : Calm s t := by
  unfold execGasEnv at h
  cases h
  repeat' (first
    | exact rfl
    | with_reducible assumption
    | with_reducible exact Calm.refl _
    | intro _
    | (extract_lets +onlyGivenNames y; try clear_value y; revert y; intro _)
    | with_reducible apply Calm.trans _ (onSlot_calm _).calm
    | with_reducible apply Calm.trans _ (orRefuse_calm _).calm
    | with_reducible apply Calm.trans _ postStatus_calm.calm
    | with_reducible apply Calm.trans _ applyGasEnv_calm.calm)

theorem execGasRead_calm {n : SlotId} {s : State} {t : State} (h : execGasRead n s = .next t) : Calm s t := by
  unfold execGasRead at h
  cases h
  repeat' (first
    | exact rfl
    | with_reducible assumption
    | with_reducible exact Calm.refl _
    | intro _
    | (extract_lets +onlyGivenNames y; try clear_value y; revert y; intro _)
    | with_reducible apply Calm.trans _ (onSlot_calm _).calm
    | with_reducible apply Calm.trans _ badArg_calm.calm
    | with_reducible apply Calm.trans _ postOk_calm.calm
    | with_reducible apply Calm.trans _ (foldl_calm _ _ _ _)
    | split)

theorem execGasStatus_calm {n : SlotId} {s : State} {t : State} (h : execGasStatus n s = .next t) : Calm s t := by
  unfold execGasStatus at h
  cases h
  repeat' (first
    | exact rfl
    | with_reducible assumption
    | with_reducible exact Calm.refl _
    | intro _
    | (extract_lets +onlyGivenNames y; try clear_value y; revert y; intro _)
    | with_reducible apply Calm.trans _ (onSlot_calm _).calm
    | with_reducible apply Calm.trans _ postOk_calm.calm)

theorem setFrozen_calm {p : List Byte} {b : Bool} {s : State} : Calm s (setFrozen p b s) := by
  unfold setFrozen
  repeat' (first
    | exact rfl
    | with_reducible assumption
    | with_reducible exact Calm.refl _
    | intro _
    | (extract_lets +onlyGivenNames y; try clear_value y; revert y; intro _)
    | with_reducible apply Calm.trans _ (modGas_calm ..).calm)

theorem execGasAdaptRead_calm {n : SlotId} {s : State} {t : State} (h : execGasAdaptRead n s = .next t) : Calm s t := by
  unfold execGasAdaptRead at h
  cases h
  repeat' (first
    | exact rfl
    | with_reducible assumption
    | with_reducible exact Calm.refl _
    | intro _
    | (extract_lets +onlyGivenNames y; try clear_value y; revert y; intro _)
    | with_reducible apply Calm.trans _ (onSlot_calm _).calm
    | with_reducible apply Calm.trans _ badArg_calm.calm
    | with_reducible apply Calm.trans _ postOk_calm.calm
    | with_reducible apply Calm.trans _ (foldl_calm _ _ _ _)
    | split)

theorem execGasAdaptFreeze_calm {n : SlotId} {s : State} {t : State} (h : execGasAdaptFreeze n s = .next t) : Calm s t := by
  unfold execGasAdaptFreeze at h
  cases h
  repeat' (first
    | exact rfl
    | with_reducible assumption
    | with_reducible exact Calm.refl _
    | intro _
    | (extract_lets +onlyGivenNames x; with_reducible refine Calm.step (x := x) ?_ ?_; (on_goal 1 => (unfold x; clear x)); on_goal 2 => (try clear_value x; revert x; intro _ _))
    | (extract_lets +onlyGivenNames y; try clear_value y; revert y; intro _)
    | with_reducible apply Calm.trans _ (onSlot_calm _).calm
    | with_reducible apply Calm.trans _ badArg_calm.calm
    | with_reducible apply Calm.trans _ setFrozen_calm.calm
    | with_reducible apply Calm.trans _ postOk_calm.calm
    | with_reducible apply Calm.trans _ (foldl_calm _ _ _ _)
    | split)

theorem execGasAdaptRelease_calm {n : SlotId} {s : State} {t : State} (h : execGasAdaptRelease n s = .next t) : Calm s t := by
  unfold execGasAdaptRelease at h
  cases h
  repeat' (first
    | exact rfl
    | with_reducible assumption
    | with_reducible exact Calm.refl _
    | intro _
    | (extract_lets +onlyGivenNames x; with_reducible refine Calm.step (x := x) ?_ ?_; (on_goal 1 => (unfold x; clear x)); on_goal 2 => (try clear_value x; revert x; intro _ _))
    | (extract_lets +onlyGivenNames y; try clear_value y; revert y; intro _)
    | with_reducible apply Calm.trans _ (onSlot_calm _).calm
    | with_reducible apply Calm.trans _ badArg_calm.calm
    | with_reducible apply Calm.trans _ setFrozen_calm.calm
    | with_reducible apply Calm.trans _ postOk_calm.calm
    | with_reducible apply Calm.trans _ (foldl_calm _ _ _ _)
    | split)

end Sys2Proof.Machine
end

