-- ==== Sys2Proof/Laws/Cal.lean ====
section
/-!
SUPPORT. What the operations of Cal.lean leave alone (Laws/Steady.lean), one lemma for each.
-/

set_option linter.unusedTactic false
set_option linter.unreachableTactic false
set_option linter.tactic.unusedName false

namespace Sys2Proof.Machine

theorem modSession_calm {p : PortId} {f : CalSession → CalSession} {s : State} : Calm s (modSession p f s) := by
  unfold modSession
  repeat' (first
    | exact rfl
    | with_reducible assumption
    | with_reducible exact Calm.refl _
    | intro _
    | (extract_lets +onlyGivenNames y; try clear_value y; revert y; intro _)
    | with_reducible apply Calm.trans _ (modCal_calm ..).calm)

theorem beginHold_calm {k : PortId} {p : List Byte} {begun : W64} {s : State} : Calm s (beginHold k p begun s) := by
  unfold beginHold
  repeat' (first
    | exact rfl
    | with_reducible assumption
    | with_reducible exact Calm.refl _
    | intro _
    | (extract_lets +onlyGivenNames x; with_reducible refine Calm.step (x := x) ?_ ?_; (on_goal 1 => (unfold x; clear x)); on_goal 2 => (try clear_value x; revert x; intro _ _))
    | (extract_lets +onlyGivenNames y; try clear_value y; revert y; intro _)
    | with_reducible apply Calm.trans _ (modPort_calm ..).calm
    | with_reducible apply Calm.trans _ (modCal_calm ..).calm)

theorem execCalBegin_calm {n : SlotId} {s : State} {t : State} (h : execCalBegin n s = .next t) : Calm s t := by
  unfold execCalBegin at h
  cases h
  repeat' (first
    | exact rfl
    | with_reducible assumption
    | with_reducible exact Calm.refl _
    | intro _
    | (extract_lets +onlyGivenNames y; try clear_value y; revert y; intro _)
    | with_reducible apply Calm.trans _ (onSlot_calm _).calm
    | with_reducible apply Calm.trans _ postStatus_calm.calm
    | with_reducible apply Calm.trans _ (orRefuse_calm _).calm
    | with_reducible apply Calm.trans _ beginHold_calm.calm
    | with_reducible apply Calm.trans _ (foldl_calm _ _ _ _)
    | split)

theorem startStep_calm {n : SlotId} {k : PortId} {span : Bool} {p : List Byte} {s : State} : Calm s (startStep n k span p s) := by
  unfold startStep
  repeat' (first
    | exact rfl
    | with_reducible assumption
    | with_reducible exact Calm.refl _
    | intro _
    | (extract_lets +onlyGivenNames y; try clear_value y; revert y; intro _)
    | with_reducible apply Calm.trans _ pendOn_calm.calm
    | with_reducible apply Calm.trans _ modSession_calm.calm)

theorem calStepCmd_calm {n : SlotId} {span : Bool} {p : List Byte} {s : State} : Calm s (calStepCmd n span p s) := by
  unfold calStepCmd
  repeat' (first
    | exact rfl
    | with_reducible assumption
    | with_reducible exact Calm.refl _
    | intro _
    | (extract_lets +onlyGivenNames y; try clear_value y; revert y; intro _)
    | with_reducible apply Calm.trans _ badArg_calm.calm
    | with_reducible apply Calm.trans _ (orRefuse_calm _).calm
    | with_reducible apply Calm.trans _ startStep_calm.calm
    | with_reducible apply Calm.trans _ (foldl_calm _ _ _ _)
    | split)

theorem execCalZero_calm {n : SlotId} {s : State} {t : State} (h : execCalZero n s = .next t) : Calm s t := by
  unfold execCalZero at h
  cases h
  repeat' (first
    | exact rfl
    | with_reducible assumption
    | with_reducible exact Calm.refl _
    | intro _
    | (extract_lets +onlyGivenNames y; try clear_value y; revert y; intro _)
    | with_reducible apply Calm.trans _ (onSlot_calm _).calm
    | with_reducible apply Calm.trans _ calStepCmd_calm.calm)

theorem execCalSpan_calm {n : SlotId} {s : State} {t : State} (h : execCalSpan n s = .next t) : Calm s t := by
  unfold execCalSpan at h
  cases h
  repeat' (first
    | exact rfl
    | with_reducible assumption
    | with_reducible exact Calm.refl _
    | intro _
    | (extract_lets +onlyGivenNames y; try clear_value y; revert y; intro _)
    | with_reducible apply Calm.trans _ (onSlot_calm _).calm
    | with_reducible apply Calm.trans _ calStepCmd_calm.calm)

theorem calFrame_calm {s : State} : Calm s (calFrame s) := by
  unfold calFrame
  repeat' (first
    | exact rfl
    | with_reducible assumption
    | with_reducible exact Calm.refl _
    | intro _
    | (extract_lets +onlyGivenNames x; with_reducible refine Calm.step (x := x) ?_ ?_; (on_goal 1 => (unfold x; clear x)); on_goal 2 => (try clear_value x; revert x; intro _ _))
    | (extract_lets +onlyGivenNames y; try clear_value y; revert y; intro _)
    | with_reducible apply Calm.trans _ (modGas_calm ..).calm
    | with_reducible apply Calm.trans _ (modCal_calm ..).calm)

theorem execCalStepEnd_calm {p : PortId} {s : State} {t : State} (h : execCalStepEnd p s = .next t) : Calm s t := by
  unfold execCalStepEnd at h
  cases h
  repeat' (first
    | exact rfl
    | with_reducible assumption
    | with_reducible exact Calm.refl _
    | intro _
    | (extract_lets +onlyGivenNames x; with_reducible refine Calm.step (x := x) ?_ ?_; (on_goal 1 => (unfold x; clear x)); on_goal 2 => (try clear_value x; revert x; intro _ _))
    | (extract_lets +onlyGivenNames y; try clear_value y; revert y; intro _)
    | with_reducible apply Calm.trans _ (modCal_calm ..).calm
    | with_reducible apply Calm.trans _ completeWhere_calm.calm
    | with_reducible apply Calm.trans _ (foldl_calm _ _ _ _)
    | split)

theorem execCalCommit_calm {n : SlotId} {s : State} {t : State} (h : execCalCommit n s = .next t) : Calm s t := by
  unfold execCalCommit at h
  cases h
  repeat' (first
    | exact rfl
    | with_reducible assumption
    | with_reducible exact Calm.refl _
    | intro _
    | (extract_lets +onlyGivenNames y; try clear_value y; revert y; intro _)
    | with_reducible apply Calm.trans _ (onSlot_calm _).calm
    | with_reducible apply Calm.trans _ badArg_calm.calm
    | with_reducible apply Calm.trans _ (orRefuse_calm _).calm
    | with_reducible apply Calm.trans _ pendBoundary_calm.calm
    | with_reducible apply Calm.trans _ (foldl_calm _ _ _ _)
    | split)

theorem commitRefs_calm {k : PortId} {begun : W64} {s : State} : Calm s (commitRefs k begun s) := by
  unfold commitRefs
  repeat' (first
    | exact rfl
    | with_reducible assumption
    | with_reducible exact Calm.refl _
    | intro _
    | (extract_lets +onlyGivenNames y; try clear_value y; revert y; intro _)
    | with_reducible apply Calm.trans _ (modGauzeAt_calm ..).calm)

theorem storeRecord_calm {k : PortId} {c : Nat} {l : List (Nat × F32)} {s : State} : Calm s (storeRecord k c l s).1 := by
  unfold storeRecord
  dsimp only
  split
  · exact .of_eq rfl rfl rfl rfl rfl rfl
  · split
    · exact (drawFree_calm _).trans raise_calm
    · exact .of_eq rfl rfl rfl rfl rfl rfl

theorem applyCalCommit_calm {n : SlotId} {p : List Byte} {s : State} : Calm s (applyCalCommit n p s) := by
  unfold applyCalCommit
  repeat' (first
    | exact rfl
    | with_reducible assumption
    | with_reducible exact Calm.refl _
    | intro _
    | (extract_lets +onlyGivenNames x; with_reducible refine Calm.step (x := x) ?_ ?_; (on_goal 1 => (unfold x; clear x)); on_goal 2 => (try clear_value x; revert x; intro _ _))
    | (extract_lets +onlyGivenNames y; revert y; intro _)
    | with_reducible apply Calm.trans _ (modGas_calm ..).calm
    | with_reducible apply Calm.trans _ (modCal_calm ..).calm
    | with_reducible apply Calm.trans _ commitRefs_calm.calm
    | with_reducible apply Calm.trans _ dropSession_calm.calm
    | with_reducible apply Calm.trans _ boxRecord_calm.calm
    | with_reducible apply Calm.trans _ postStatus_calm.calm
    | with_reducible apply Calm.trans _ post_calm.calm
    | with_reducible apply Calm.trans _ storeRecord_calm.calm
    | with_reducible apply Calm.trans _ (foldl_calm _ _ _ _)
    | split)

theorem execCalAbort_calm {n : SlotId} {s : State} {t : State} (h : execCalAbort n s = .next t) : Calm s t := by
  unfold execCalAbort at h
  cases h
  repeat' (first
    | exact rfl
    | with_reducible assumption
    | with_reducible exact Calm.refl _
    | intro _
    | (extract_lets +onlyGivenNames y; try clear_value y; revert y; intro _)
    | with_reducible apply Calm.trans _ (onSlot_calm _).calm
    | with_reducible apply Calm.trans _ badArg_calm.calm
    | with_reducible apply Calm.trans _ postStatus_calm.calm
    | with_reducible apply Calm.trans _ pendBoundary_calm.calm
    | with_reducible apply Calm.trans _ (foldl_calm _ _ _ _)
    | split)

theorem applyCalAbort_calm {n : SlotId} {p : List Byte} {s : State} : Calm s (applyCalAbort n p s) := by
  unfold applyCalAbort
  repeat' (first
    | exact rfl
    | with_reducible assumption
    | with_reducible exact Calm.refl _
    | intro _
    | (extract_lets +onlyGivenNames y; try clear_value y; revert y; intro _)
    | with_reducible apply Calm.trans _ postStatus_calm.calm
    | with_reducible apply Calm.trans _ endSession_calm.calm
    | with_reducible apply Calm.trans _ (foldl_calm _ _ _ _)
    | split)

theorem execCalHoldLimit_calm {p : PortId} {s : State} {t : State} (h : execCalHoldLimit p s = .next t) : Calm s t := by
  unfold execCalHoldLimit at h
  cases h
  repeat' (first
    | exact rfl
    | with_reducible assumption
    | with_reducible exact Calm.refl _
    | intro _
    | (extract_lets +onlyGivenNames y; try clear_value y; revert y; intro _)
    | with_reducible apply Calm.trans _ completeWhere_calm.calm
    | with_reducible apply Calm.trans _ calNotice_calm.calm
    | with_reducible apply Calm.trans _ modSession_calm.calm
    | with_reducible apply Calm.trans _ (foldl_calm _ _ _ _)
    | split)

theorem endHolds_calm {s : State} : Calm s (endHolds s) := by
  unfold endHolds
  repeat' (first
    | exact rfl
    | with_reducible assumption
    | with_reducible exact Calm.refl _
    | intro _
    | (extract_lets +onlyGivenNames y; try clear_value y; revert y; intro _)
    | with_reducible apply Calm.trans _ dropSession_calm.calm
    | with_reducible apply Calm.trans _ (foldl_calm _ _ _ _)
    | split)

theorem execCalRange_calm {n : SlotId} {s : State} {t : State} (h : execCalRange n s = .next t) : Calm s t := by
  unfold execCalRange at h
  cases h
  repeat' (first
    | exact rfl
    | with_reducible assumption
    | with_reducible exact Calm.refl _
    | intro _
    | (extract_lets +onlyGivenNames y; try clear_value y; revert y; intro _)
    | with_reducible apply Calm.trans _ (onSlot_calm _).calm
    | with_reducible apply Calm.trans _ badArg_calm.calm
    | with_reducible apply Calm.trans _ postStatus_calm.calm
    | with_reducible apply Calm.trans _ pendBoundary_calm.calm
    | with_reducible apply Calm.trans _ (foldl_calm _ _ _ _)
    | split)

theorem applyCalRange_calm {n : SlotId} {p : List Byte} {s : State} : Calm s (applyCalRange n p s) := by
  unfold applyCalRange
  repeat' (first
    | exact rfl
    | with_reducible assumption
    | with_reducible exact Calm.refl _
    | intro _
    | (extract_lets +onlyGivenNames y; try clear_value y; revert y; intro _)
    | with_reducible apply Calm.trans _ postStatus_calm.calm
    | with_reducible apply Calm.trans _ (modInput_calm ..).calm
    | with_reducible apply Calm.trans _ (foldl_calm _ _ _ _)
    | split)

theorem execCalClear_calm {n : SlotId} {s : State} {t : State} (h : execCalClear n s = .next t) : Calm s t := by
  unfold execCalClear at h
  cases h
  repeat' (first
    | exact rfl
    | with_reducible assumption
    | with_reducible exact Calm.refl _
    | intro _
    | (extract_lets +onlyGivenNames y; try clear_value y; revert y; intro _)
    | with_reducible apply Calm.trans _ (onSlot_calm _).calm
    | with_reducible apply Calm.trans _ badArg_calm.calm
    | with_reducible apply Calm.trans _ postStatus_calm.calm
    | with_reducible apply Calm.trans _ (modCal_calm ..).calm
    | with_reducible apply Calm.trans _ (foldl_calm _ _ _ _)
    | split)

theorem calStagedWrite_calm {s : State} : Calm s (calStagedWrite s) := by
  unfold calStagedWrite
  repeat' (first
    | exact rfl
    | with_reducible assumption
    | with_reducible exact Calm.refl _
    | intro _
    | (extract_lets +onlyGivenNames y; try clear_value y; revert y; intro _)
    | with_reducible apply Calm.trans _ (modCal_calm ..).calm
    | with_reducible apply Calm.trans _ (foldl_calm _ _ _ _)
    | split)

theorem calBoot_calm {s : State} : Calm s (calBoot s) := by
  unfold calBoot
  repeat' (first
    | exact rfl
    | with_reducible assumption
    | with_reducible exact Calm.refl _
    | intro _
    | (extract_lets +onlyGivenNames y; try clear_value y; revert y; intro _)
    | with_reducible apply Calm.trans _ (modGas_calm ..).calm
    | with_reducible apply Calm.trans _ notice_calm.calm
    | with_reducible apply Calm.trans _ (foldl_calm _ _ _ _)
    | split)

theorem addRun_calm {r : ElecRun} {s : State} : Calm s (addRun r s) := by
  unfold addRun
  repeat' (first
    | exact rfl
    | with_reducible assumption
    | with_reducible exact Calm.refl _
    | intro _
    | (extract_lets +onlyGivenNames y; try clear_value y; revert y; intro _)
    | with_reducible apply Calm.trans _ (modCal_calm ..).calm)

theorem execCalElec_calm {n : SlotId} {s : State} {t : State} (h : execCalElec n s = .next t) : Calm s t := by
  unfold execCalElec at h
  cases h
  repeat' (first
    | exact rfl
    | with_reducible assumption
    | with_reducible exact Calm.refl _
    | intro _
    | (extract_lets +onlyGivenNames y; try clear_value y; revert y; intro _)
    | with_reducible apply Calm.trans _ (onSlot_calm _).calm
    | with_reducible apply Calm.trans _ (orRefuse_calm _).calm
    | with_reducible apply Calm.trans _ postStatus_calm.calm
    | with_reducible apply Calm.trans _ pendOn_calm.calm
    | with_reducible apply Calm.trans _ addRun_calm.calm
    | with_reducible apply Calm.trans _ (foldl_calm _ _ _ _)
    | split)

theorem elecBegin_calm {t : CalTarget} {s : State} : Calm s (elecBegin t s) := by
  unfold elecBegin
  repeat' (first
    | exact rfl
    | with_reducible assumption
    | with_reducible exact Calm.refl _
    | intro _
    | (extract_lets +onlyGivenNames y; try clear_value y; revert y; intro _)
    | with_reducible apply Calm.trans _ (modPort_calm ..).calm
    | with_reducible apply Calm.trans _ (foldl_calm _ _ _ _)
    | split)

theorem elecBoundary_calm {s : State} : Calm s (elecBoundary s) := by
  unfold elecBoundary
  repeat' (first
    | exact rfl
    | with_reducible assumption
    | with_reducible exact Calm.refl _
    | intro _
    | (extract_lets +onlyGivenNames x; with_reducible refine Calm.step (x := x) ?_ ?_; (on_goal 1 => (unfold x; clear x)); on_goal 2 => (try clear_value x; revert x; intro _ _))
    | (extract_lets +onlyGivenNames y; try clear_value y; revert y; intro _)
    | with_reducible apply Calm.trans _ endElec_calm.calm
    | with_reducible apply Calm.trans _ (modCal_calm ..).calm
    | with_reducible apply Calm.trans _ elecBegin_calm.calm
    | with_reducible apply Calm.trans _ (foldl_calm _ _ _ _))

theorem applyTrims_calm {c : Conv} {r : ElecRun} {s : State} : Calm s (applyTrims c r s) := by
  unfold applyTrims
  repeat' (first
    | exact rfl
    | with_reducible assumption
    | with_reducible exact Calm.refl _
    | intro _
    | (extract_lets +onlyGivenNames y; try clear_value y; revert y; intro _)
    | with_reducible apply Calm.trans _ (modCal_calm ..).calm)

theorem elecApply_calm {r : ElecRun} {m : ElecMeas} {s : State} : Calm s (elecApply r m s) := by
  unfold elecApply
  dsimp only
  repeat' (first
    | exact rfl
    | with_reducible assumption
    | with_reducible exact Calm.refl _
    | intro _
    | (extract_lets +onlyGivenNames y; try clear_value y; revert y; intro _)
    | with_reducible apply Calm.trans _ (modPort_calm ..).calm
    | with_reducible apply Calm.trans _ applyTrims_calm.calm
    | with_reducible apply Calm.trans _ (modCal_calm ..).calm
    | with_reducible apply Calm.trans _ (foldl_calm _ _ _ _)
    | split)

theorem elecRecord_calm {t : CalTarget} {ok : Bool} {s : State} : Calm s (elecRecord t ok s) := by
  unfold elecRecord
  repeat' (first
    | exact rfl
    | with_reducible assumption
    | with_reducible exact Calm.refl _
    | intro _
    | (extract_lets +onlyGivenNames y; try clear_value y; revert y; intro _)
    | with_reducible apply Calm.trans _ (modCal_calm ..).calm)

theorem elecRelease_calm {t : CalTarget} {s : State} : Calm s (elecRelease t s) := by
  unfold elecRelease
  repeat' (first
    | exact rfl
    | with_reducible assumption
    | with_reducible exact Calm.refl _
    | intro _
    | (extract_lets +onlyGivenNames x; with_reducible refine Calm.step (x := x) ?_ ?_; (on_goal 1 => (unfold x; clear x)); on_goal 2 => (try clear_value x; revert x; intro _ _))
    | (extract_lets +onlyGivenNames y; try clear_value y; revert y; intro _)
    | with_reducible apply Calm.trans _ holdOver_calm.calm
    | with_reducible apply Calm.trans _ resetLanes_calm.calm
    | with_reducible apply Calm.trans _ (foldl_calm _ _ _ _)
    | split)

theorem endRun_calm {r : ElecRun} {m : ElecMeas} {s : State} : Calm s (endRun r m s) := by
  unfold endRun
  repeat' (first
    | exact rfl
    | with_reducible assumption
    | with_reducible exact Calm.refl _
    | intro _
    | (extract_lets +onlyGivenNames x; with_reducible refine Calm.step (x := x) ?_ ?_; (on_goal 1 => (unfold x; clear x)); on_goal 2 => (try clear_value x; revert x; intro _ _))
    | (extract_lets +onlyGivenNames y; try clear_value y; revert y; intro _)
    | with_reducible apply Calm.trans _ elecApply_calm.calm
    | with_reducible apply Calm.trans _ notice_calm.calm
    | with_reducible apply Calm.trans _ elecRecord_calm.calm
    | with_reducible apply Calm.trans _ raise_calm.calm
    | with_reducible apply Calm.trans _ elecRelease_calm.calm
    | with_reducible apply Calm.trans _ (modCal_calm ..).calm
    | with_reducible apply Calm.trans _ postOk_calm.calm
    | with_reducible apply Calm.trans _ (foldl_calm _ _ _ _)
    | split)

theorem execElecCalEnd_calm {t : CalTarget} {m : ElecMeas} {s : State} {u : State} (h : execElecCalEnd t m s = .next u) : Calm s u := by
  unfold execElecCalEnd at h
  cases h
  repeat' (first
    | exact rfl
    | with_reducible assumption
    | with_reducible exact Calm.refl _
    | intro _
    | (extract_lets +onlyGivenNames y; try clear_value y; revert y; intro _)
    | with_reducible apply Calm.trans _ endRun_calm.calm
    | with_reducible apply Calm.trans _ (foldl_calm _ _ _ _)
    | split)

theorem execAutoElecCal_calm {t : CalTarget} {s : State} {u : State} (h : execAutoElecCal t s = .next u) : Calm s u := by
  unfold execAutoElecCal at h
  cases h
  repeat' (first
    | exact rfl
    | with_reducible assumption
    | with_reducible exact Calm.refl _
    | intro _
    | (extract_lets +onlyGivenNames y; try clear_value y; revert y; intro _)
    | with_reducible apply Calm.trans _ addRun_calm.calm
    | with_reducible apply Calm.trans _ (foldl_calm _ _ _ _)
    | split)

theorem autoEntry_calm {s : State} : Calm s (autoEntry s) := by
  unfold autoEntry
  repeat' (first
    | exact rfl
    | with_reducible assumption
    | with_reducible exact Calm.refl _
    | intro _
    | (extract_lets +onlyGivenNames y; try clear_value y; revert y; intro _)
    | with_reducible apply Calm.trans _ (modCal_calm ..).calm)

theorem loadElec_calm {x : ElecSet} {s : State} : Calm s (loadElec x s) := by
  unfold loadElec
  repeat' (first
    | exact rfl
    | with_reducible assumption
    | with_reducible exact Calm.refl _
    | intro _
    | (extract_lets +onlyGivenNames x; with_reducible refine Calm.step (x := x) ?_ ?_; (on_goal 1 => (unfold x; clear x)); on_goal 2 => (try clear_value x; revert x; intro _ _))
    | (extract_lets +onlyGivenNames y; try clear_value y; revert y; intro _)
    | with_reducible apply Calm.trans _ (modPorts_calm ..).calm
    | with_reducible apply Calm.trans _ (modCal_calm ..).calm)

theorem execElectricalCoefficientStore_calm {s : State} {t : State} (h : execElectricalCoefficientStore s = .next t) : Calm s t := by
  unfold execElectricalCoefficientStore at h
  cases h
  repeat' (first
    | exact rfl
    | with_reducible assumption
    | with_reducible exact Calm.refl _
    | intro _
    | (extract_lets +onlyGivenNames y; try clear_value y; revert y; intro _)
    | with_reducible apply Calm.trans _ (modCal_calm ..).calm
    | with_reducible apply Calm.trans _ (foldl_calm _ _ _ _)
    | split)

theorem execPeriodicSelfTest_calm {k : SelfTest} {ppm : Int × Int} {s : State} {t : State} (h : execPeriodicSelfTest k ppm s = .next t) : Calm s t := by
  unfold execPeriodicSelfTest at h
  cases h
  repeat' (first
    | exact rfl
    | with_reducible assumption
    | with_reducible exact Calm.refl _
    | intro _
    | (extract_lets +onlyGivenNames x; with_reducible refine Calm.step (x := x) ?_ ?_; (on_goal 1 => (unfold x; clear x)); on_goal 2 => (try clear_value x; revert x; intro _ _))
    | (extract_lets +onlyGivenNames y; try clear_value y; revert y; intro _)
    | with_reducible apply Calm.trans _ (modCal_calm ..).calm
    | with_reducible apply Calm.trans _ raise_calm.calm
    | with_reducible apply Calm.trans _ (foldl_calm _ _ _ _)
    | split)

theorem execCalStatus_calm {n : SlotId} {s : State} {t : State} (h : execCalStatus n s = .next t) : Calm s t := by
  unfold execCalStatus at h
  cases h
  repeat' (first
    | exact rfl
    | with_reducible assumption
    | with_reducible exact Calm.refl _
    | intro _
    | (extract_lets +onlyGivenNames y; try clear_value y; revert y; intro _)
    | with_reducible apply Calm.trans _ (onSlot_calm _).calm
    | with_reducible apply Calm.trans _ (orRefuse_calm _).calm
    | with_reducible apply Calm.trans _ postOk_calm.calm
    | with_reducible apply Calm.trans _ (foldl_calm _ _ _ _)
    | split)

end Sys2Proof.Machine
end

