-- ==== Sys2Proof/Laws/Bus.lean ====
section
/-!
SUPPORT. What the operations of Bus.lean leave alone (Laws/Steady.lean), one lemma for each.
-/

set_option linter.unusedTactic false
set_option linter.unreachableTactic false
set_option linter.tactic.unusedName false

namespace Sys2Proof.Machine

theorem execStateRead_quiet {r : RegRead 2} {s : State} {t : State} (h : execStateRead r s = .next t) : Quiet s t := by
  unfold execStateRead at h
  cases h
  repeat' (first
    | exact rfl
    | with_reducible assumption
    | with_reducible exact Quiet.refl _
    | intro _
    | (extract_lets +onlyGivenNames y; try clear_value y; revert y; intro _)
    | with_reducible apply Quiet.trans _ readAt_quiet.quiet)

theorem execAttnRead_quiet {r : RegRead 2} {s : State} {t : State} (h : execAttnRead r s = .next t) : Quiet s t := by
  unfold execAttnRead at h
  cases h
  repeat' (first
    | exact rfl
    | with_reducible assumption
    | with_reducible exact Quiet.refl _
    | intro _
    | (extract_lets +onlyGivenNames y; try clear_value y; revert y; intro _)
    | with_reducible apply Quiet.trans _ readAt_quiet.quiet)

theorem execBusRead_quiet {r : RegRead 4} {s : State} {t : State} (h : execBusRead r s = .next t) : Quiet s t := by
  unfold execBusRead at h
  cases h
  repeat' (first
    | exact rfl
    | with_reducible assumption
    | with_reducible exact Quiet.refl _
    | intro _
    | (extract_lets +onlyGivenNames y; try clear_value y; revert y; intro _)
    | with_reducible apply Quiet.trans _ readAt_quiet.quiet)

theorem writeBus_calm {v : W32} {s : State} : Calm s (writeBus v s) := by
  unfold writeBus
  repeat' (first
    | exact rfl
    | with_reducible assumption
    | with_reducible exact Calm.refl _
    | intro _
    | (extract_lets +onlyGivenNames y; try clear_value y; revert y; intro _)
    | with_reducible apply Calm.trans _ (modBus_calm ..).calm)

theorem writeAttnMask_calm {v : W16} {s : State} : Calm s (writeAttnMask v s) := by
  unfold writeAttnMask
  repeat' (first
    | exact rfl
    | with_reducible assumption
    | with_reducible exact Calm.refl _
    | intro _
    | (extract_lets +onlyGivenNames y; try clear_value y; revert y; intro _)
    | with_reducible apply Calm.trans _ (modBus_calm ..).calm)

theorem writeAttnCfg_calm {v : W32} {s : State} : Calm s (writeAttnCfg v s) := by
  unfold writeAttnCfg
  repeat' (first
    | exact rfl
    | with_reducible assumption
    | with_reducible exact Calm.refl _
    | intro _
    | (extract_lets +onlyGivenNames y; try clear_value y; revert y; intro _)
    | with_reducible apply Calm.trans _ (modBus_calm ..).calm)

theorem writeSlotByte_calm {a0 : Nat} {b : Byte} {again : Bool} {s : State} : Calm s (writeSlotByte a0 b again s) := by
  unfold writeSlotByte
  repeat' (first
    | exact rfl
    | with_reducible assumption
    | with_reducible exact Calm.refl _
    | intro _
    | (extract_lets +onlyGivenNames x; with_reducible refine Calm.step (x := x) ?_ ?_; (on_goal 1 => (unfold x; clear x)); on_goal 2 => (try clear_value x; revert x; intro _ _))
    | (extract_lets +onlyGivenNames y; revert y; intro _)
    | with_reducible apply Calm.trans _ (modFaults_calm ..).calm
    | with_reducible apply Calm.trans _ (modSlot_calm ..).calm
    | with_reducible apply Calm.trans _ (foldl_calm _ _ _ _)
    | split)

theorem Wr.commit_calm {x : Wr} {a : Nat} : Calm x.s (x.commit a) := by
  unfold Wr.commit
  split
  · exact writeAttnMask_calm
  · split
    · exact writeAttnCfg_calm
    · split
      · exact writeBus_calm
      · exact Calm.refl _

theorem Wr.step_calm {x : Wr} {b : Byte} : Calm x.s (x.step b).s := by
  unfold Wr.step
  dsimp only
  split
  · exact modMbox_calm (fun m => { m with rungNext := m.rungNext ||| b }) x.s
  · split
    · exact writeSlotByte_calm
    · split
      · exact Wr.commit_calm (x := { x with buf := (x.addr, b) :: x.buf })
      · exact Calm.refl _

theorem Wr.run_calm (l : List Byte) (x : Wr) : Calm x.s (l.foldl Wr.step x).s := by
  induction l generalizing x with
  | nil => exact Calm.refl _
  | cons b l ih => exact Wr.step_calm.trans (ih _)

theorem writeBytes_calm {data : List Byte} {s : State} : Calm s (writeBytes data s) := by
  unfold writeBytes
  split
  · exact (Wr.run_calm _ { s := s, addr := leNat [_, _] }).trans (modBus_calm ..)
  · exact Calm.refl _

theorem writeTransaction_calm {data : List Byte} {s : State} : Calm s (writeTransaction data s) := by
  unfold writeTransaction
  repeat' (first
    | exact rfl
    | with_reducible assumption
    | with_reducible exact Calm.refl _
    | intro _
    | (extract_lets +onlyGivenNames y; try clear_value y; revert y; intro _)
    | with_reducible apply Calm.trans _ writeBytes_calm.calm
    | with_reducible apply Calm.trans _ (modBus_calm ..).calm
    | with_reducible apply Calm.trans _ refuse_calm.calm
    | with_reducible apply Calm.trans _ (foldl_calm _ _ _ _)
    | split)

theorem execBusWrite_calm {v : W32} {s : State} {t : State} (h : execBusWrite v s = .next t) : Calm s t := by
  unfold execBusWrite at h
  cases h
  repeat' (first
    | exact rfl
    | with_reducible assumption
    | with_reducible exact Calm.refl _
    | intro _
    | (extract_lets +onlyGivenNames y; try clear_value y; revert y; intro _)
    | with_reducible apply Calm.trans _ writeTransaction_calm.calm)

theorem execAttnmaskWrite_calm {v : W16} {s : State} {t : State} (h : execAttnmaskWrite v s = .next t) : Calm s t := by
  unfold execAttnmaskWrite at h
  cases h
  repeat' (first
    | exact rfl
    | with_reducible assumption
    | with_reducible exact Calm.refl _
    | intro _
    | (extract_lets +onlyGivenNames y; try clear_value y; revert y; intro _)
    | with_reducible apply Calm.trans _ writeTransaction_calm.calm)

theorem execAttncfgWrite_calm {v : W32} {s : State} {t : State} (h : execAttncfgWrite v s = .next t) : Calm s t := by
  unfold execAttncfgWrite at h
  cases h
  repeat' (first
    | exact rfl
    | with_reducible assumption
    | with_reducible exact Calm.refl _
    | intro _
    | (extract_lets +onlyGivenNames y; try clear_value y; revert y; intro _)
    | with_reducible apply Calm.trans _ writeTransaction_calm.calm)

theorem execRegisterWrite_calm {data : List Byte} {s : State} {t : State} (h : execRegisterWrite data s = .next t) : Calm s t := by
  unfold execRegisterWrite at h
  cases h
  repeat' (first
    | exact rfl
    | with_reducible assumption
    | with_reducible exact Calm.refl _
    | intro _
    | (extract_lets +onlyGivenNames y; try clear_value y; revert y; intro _)
    | with_reducible apply Calm.trans _ writeTransaction_calm.calm)

theorem classStraps_calm {a0 : BitVec 7} {s : State} : Calm s (classStraps a0 s) := by
  unfold classStraps
  repeat' (first
    | exact rfl
    | with_reducible assumption
    | with_reducible exact Calm.refl _
    | intro _
    | (extract_lets +onlyGivenNames y; try clear_value y; revert y; intro _)
    | with_reducible apply Calm.trans _ (modBus_calm ..).calm
    | with_reducible apply Calm.trans _ notice_calm.calm
    | with_reducible apply Calm.trans _ (foldl_calm _ _ _ _)
    | split)

theorem execBusStartCondition_calm {idle : BitVec 3} {afterStart : BitVec 3} {sclLow : BitVec 3} {s : State} {t : State} (h : execBusStartCondition idle afterStart sclLow s = .next t) : Calm s t := by
  unfold execBusStartCondition at h
  cases h
  repeat' (first
    | exact rfl
    | with_reducible assumption
    | with_reducible exact Calm.refl _
    | intro _
    | (extract_lets +onlyGivenNames y; try clear_value y; revert y; intro _)
    | with_reducible apply Calm.trans _ classStraps_calm.calm
    | with_reducible apply Calm.trans _ (modBus_calm ..).calm
    | with_reducible apply Calm.trans _ (foldl_calm _ _ _ _)
    | split)

theorem execBusStopCondition_calm {s : State} {t : State} (h : execBusStopCondition s = .next t) : Calm s t := by
  unfold execBusStopCondition at h
  cases h
  repeat' (first
    | exact rfl
    | with_reducible assumption
    | with_reducible exact Calm.refl _
    | intro _
    | (extract_lets +onlyGivenNames y; try clear_value y; revert y; intro _)
    | with_reducible apply Calm.trans _ (modBus_calm ..).calm
    | with_reducible apply Calm.trans _ (foldl_calm _ _ _ _)
    | split)

theorem busTimeout_calm {f : Bus → Bus} {s : State} : Calm s (busTimeout f s) := by
  unfold busTimeout
  repeat' (first
    | exact rfl
    | with_reducible assumption
    | with_reducible exact Calm.refl _
    | intro _
    | (extract_lets +onlyGivenNames y; try clear_value y; revert y; intro _)
    | with_reducible apply Calm.trans _ attn_calm.calm
    | with_reducible apply Calm.trans _ (modBus_calm ..).calm)

theorem execSclTimeout_calm {s : State} {t : State} (h : execSclTimeout s = .next t) : Calm s t := by
  unfold execSclTimeout at h
  cases h
  repeat' (first
    | exact rfl
    | with_reducible assumption
    | with_reducible exact Calm.refl _
    | intro _
    | (extract_lets +onlyGivenNames y; try clear_value y; revert y; intro _)
    | with_reducible apply Calm.trans _ busTimeout_calm.calm
    | with_reducible apply Calm.trans _ (foldl_calm _ _ _ _)
    | split)

theorem execSdaTimeout_calm {s : State} {t : State} (h : execSdaTimeout s = .next t) : Calm s t := by
  unfold execSdaTimeout at h
  cases h
  repeat' (first
    | exact rfl
    | with_reducible assumption
    | with_reducible exact Calm.refl _
    | intro _
    | (extract_lets +onlyGivenNames y; try clear_value y; revert y; intro _)
    | with_reducible apply Calm.trans _ busTimeout_calm.calm
    | with_reducible apply Calm.trans _ (foldl_calm _ _ _ _)
    | split)

theorem execBusFreeIdle_calm {s : State} {t : State} (h : execBusFreeIdle s = .next t) : Calm s t := by
  unfold execBusFreeIdle at h
  cases h
  repeat' (first
    | exact rfl
    | with_reducible assumption
    | with_reducible exact Calm.refl _
    | intro _
    | (extract_lets +onlyGivenNames y; try clear_value y; revert y; intro _)
    | with_reducible apply Calm.trans _ (modBus_calm ..).calm
    | with_reducible apply Calm.trans _ (foldl_calm _ _ _ _)
    | split)

theorem execDozeWakeByBus_calm {s : State} {t : State} (h : execDozeWakeByBus s = .next t) : Calm s t := by
  unfold execDozeWakeByBus at h
  cases h
  repeat' (first
    | exact rfl
    | with_reducible assumption
    | with_reducible exact Calm.refl _
    | intro _
    | (extract_lets +onlyGivenNames y; try clear_value y; revert y; intro _)
    | with_reducible apply Calm.trans _ wakeEvent_calm.calm
    | with_reducible apply Calm.trans _ (foldl_calm _ _ _ _)
    | split)

theorem compareDigest_calm {data : List Byte} {s : State} : Calm s (compareDigest data s) := by
  unfold compareDigest
  repeat' (first
    | exact rfl
    | with_reducible assumption
    | with_reducible exact Calm.refl _
    | intro _
    | (extract_lets +onlyGivenNames y; try clear_value y; revert y; intro _)
    | with_reducible apply Calm.trans _ attn_calm.calm
    | with_reducible apply Calm.trans _ notice_calm.calm
    | with_reducible apply Calm.trans _ (foldl_calm _ _ _ _)
    | split)

theorem execDigestCheck_calm {data : List Byte} {s : State} {t : State} (h : execDigestCheck data s = .next t) : Calm s t := by
  unfold execDigestCheck at h
  cases h
  repeat' (first
    | exact rfl
    | with_reducible assumption
    | with_reducible exact Calm.refl _
    | intro _
    | (extract_lets +onlyGivenNames y; try clear_value y; revert y; intro _)
    | with_reducible apply Calm.trans _ compareDigest_calm.calm
    | with_reducible apply Calm.trans _ (modBus_calm ..).calm
    | with_reducible apply Calm.trans _ (foldl_calm _ _ _ _)
    | split)

theorem digestLate_calm {s : State} : Calm s (digestLate s) := by
  unfold digestLate
  repeat' (first
    | exact rfl
    | with_reducible assumption
    | with_reducible exact Calm.refl _
    | intro _
    | (extract_lets +onlyGivenNames y; try clear_value y; revert y; intro _)
    | with_reducible apply Calm.trans _ compareDigest_calm.calm
    | with_reducible apply Calm.trans _ (modBus_calm ..).calm
    | with_reducible apply Calm.trans _ (foldl_calm _ _ _ _)
    | split)

theorem attempt_calm {o : AttemptEnd} {s : State} : Calm s (attempt o s) := by
  unfold attempt
  repeat' (first
    | exact rfl
    | with_reducible assumption
    | with_reducible exact Calm.refl _
    | intro _
    | (extract_lets +onlyGivenNames y; try clear_value y; revert y; intro _)
    | with_reducible apply Calm.trans _ (modBus_calm ..).calm
    | with_reducible apply Calm.trans _ busTimeout_calm.calm
    | with_reducible apply Calm.trans _ (foldl_calm _ _ _ _)
    | split)

theorem execAttentionAttempt_calm {o : AttemptEnd} {s : State} {t : State} (h : execAttentionAttempt o s = .next t) : Calm s t := by
  unfold execAttentionAttempt at h
  cases h
  repeat' (first
    | exact rfl
    | with_reducible assumption
    | with_reducible exact Calm.refl _
    | intro _
    | (extract_lets +onlyGivenNames y; try clear_value y; revert y; intro _)
    | with_reducible apply Calm.trans _ attempt_calm.calm
    | with_reducible apply Calm.trans _ (foldl_calm _ _ _ _)
    | split)

theorem execAttentionBackoffExpiry_calm {s : State} {t : State} (h : execAttentionBackoffExpiry s = .next t) : Calm s t := by
  unfold execAttentionBackoffExpiry at h
  cases h
  repeat' (first
    | exact rfl
    | with_reducible assumption
    | with_reducible exact Calm.refl _
    | intro _
    | (extract_lets +onlyGivenNames y; try clear_value y; revert y; intro _)
    | with_reducible apply Calm.trans _ (modBus_calm ..).calm
    | with_reducible apply Calm.trans _ (foldl_calm _ _ _ _)
    | split)

theorem execRenotifyExpiry_calm {s : State} {t : State} (h : execRenotifyExpiry s = .next t) : Calm s t := by
  unfold execRenotifyExpiry at h
  cases h
  repeat' (first
    | exact rfl
    | with_reducible assumption
    | with_reducible exact Calm.refl _
    | intro _
    | (extract_lets +onlyGivenNames y; try clear_value y; revert y; intro _)
    | with_reducible apply Calm.trans _ (modBus_calm ..).calm
    | with_reducible apply Calm.trans _ (foldl_calm _ _ _ _)
    | split)

end Sys2Proof.Machine
end

