-- ==== Sys2Proof/Laws/Lock.lean ====
section
/-!
SUPPORT. What the operations of Lock.lean leave alone (Laws/Steady.lean), one lemma for each.
-/

set_option linter.unusedTactic false
set_option linter.unreachableTactic false
set_option linter.tactic.unusedName false

namespace Sys2Proof.Machine

theorem lockRecord_calm {event : Nat} {s : State} : Calm s (lockRecord event s) := by
  unfold lockRecord
  repeat' (first
    | exact rfl
    | with_reducible assumption
    | with_reducible exact Calm.refl _
    | intro _
    | (extract_lets +onlyGivenNames y; try clear_value y; revert y; intro _)
    | with_reducible apply Calm.trans _ boxRecord_calm.calm)

theorem attemptFailed_keeps {n : SlotId} {event : Nat} {s : State} : Keeps s (attemptFailed n event s) := by
  unfold attemptFailed
  repeat' (first
    | exact rfl
    | with_reducible assumption
    | with_reducible exact Keeps.refl _
    | intro _
    | (extract_lets +onlyGivenNames x; with_reducible refine Keeps.step (x := x) ?_ ?_; (on_goal 1 => (unfold x; clear x)); on_goal 2 => (try clear_value x; revert x; intro _ _))
    | (extract_lets +onlyGivenNames y; try clear_value y; revert y; intro _)
    | with_reducible apply Keeps.trans _ (modLock_keeps ..)
    | with_reducible apply Keeps.trans _ lockRecord_calm.keeps
    | with_reducible apply Keeps.trans _ notice_calm.keeps
    | with_reducible apply Keeps.trans _ post_calm.keeps
    | with_reducible apply Keeps.trans _ (foldl_keeps _ _ _ _)
    | split)

theorem attemptWon_keeps {n : SlotId} {event : Nat} {level : Fin 3} {s : State} : Keeps s (attemptWon n event level s) := by
  unfold attemptWon
  repeat' (first
    | exact rfl
    | with_reducible assumption
    | with_reducible exact Keeps.refl _
    | intro _
    | (extract_lets +onlyGivenNames x; with_reducible refine Keeps.step (x := x) ?_ ?_; (on_goal 1 => (unfold x; clear x)); on_goal 2 => (try clear_value x; revert x; intro _ _))
    | (extract_lets +onlyGivenNames y; try clear_value y; revert y; intro _)
    | with_reducible apply Keeps.trans _ (modLock_keeps ..)
    | with_reducible apply Keeps.trans _ lockRecord_calm.keeps
    | with_reducible apply Keeps.trans _ notice_calm.keeps
    | with_reducible apply Keeps.trans _ postStatus_calm.keeps
    | with_reducible apply Keeps.trans _ (foldl_keeps _ _ _ _)
    | split)

theorem judgeAttempt_keeps {n : SlotId} {event : Nat} {level : Fin 3} {ok : Bool} {use : State → State} {s : State} (h_use : ∀ s, Keeps s (use s)) : Keeps s (judgeAttempt n event level ok use s) := by
  unfold judgeAttempt
  repeat' (first
    | exact rfl
    | with_reducible assumption
    | with_reducible exact Keeps.refl _
    | intro _
    | (extract_lets +onlyGivenNames y; try clear_value y; revert y; intro _)
    | with_reducible apply Keeps.trans _ attemptWon_keeps.keeps
    | with_reducible apply Keeps.trans _ attemptFailed_keeps.keeps
    | with_reducible apply Keeps.trans _ (foldl_keeps _ _ _ _)
    | with_reducible apply Keeps.trans _ (h_use _)
    | split)

theorem lockAttempt_keeps {n : SlotId} {event : Nat} {level : Fin 3} {ok : Bool} {use : State → State} {s : State} (h_use : ∀ s, Keeps s (use s)) : Keeps s (lockAttempt n event level ok use s) := by
  unfold lockAttempt
  repeat' (first
    | exact rfl
    | with_reducible assumption
    | with_reducible exact Keeps.refl _
    | intro _
    | (extract_lets +onlyGivenNames x; with_reducible refine Keeps.step (x := x) ?_ ?_; (on_goal 1 => (unfold x; clear x)); on_goal 2 => (try clear_value x; revert x; intro _ _))
    | (extract_lets +onlyGivenNames y; try clear_value y; revert y; intro _)
    | with_reducible apply Keeps.trans _ beginAttempt_keeps.keeps
    | with_reducible apply Keeps.trans _ (judgeAttempt_keeps _).keeps
    | with_reducible apply Keeps.trans _ postStatus_calm.keeps
    | with_reducible apply Keeps.trans _ post_calm.keeps
    | with_reducible apply Keeps.trans _ lockRecord_calm.keeps
    | with_reducible apply Keeps.trans _ (foldl_keeps _ _ _ _)
    | with_reducible apply Keeps.trans _ (h_use _)
    | split)

theorem execLockPassword_keeps {n : SlotId} {s : State} {t : State} (h : execLockPassword n s = .next t) : Keeps s t := by
  unfold execLockPassword at h
  cases h
  repeat' (first
    | exact rfl
    | with_reducible assumption
    | with_reducible exact Keeps.refl _
    | intro _
    | (extract_lets +onlyGivenNames y; try clear_value y; revert y; intro _)
    | with_reducible apply Keeps.trans _ (onSlot_keeps _).keeps
    | with_reducible apply Keeps.trans _ (lockAttempt_keeps _).keeps
    | with_reducible apply Keeps.trans _ (foldl_keeps _ _ _ _)
    | split
    | simp only [id_eq])

theorem execLockChallenge_keeps {n : SlotId} {s : State} {t : State} (h : execLockChallenge n s = .next t) : Keeps s t := by
  unfold execLockChallenge at h
  cases h
  repeat' (first
    | exact rfl
    | with_reducible assumption
    | with_reducible exact Keeps.refl _
    | intro _
    | (extract_lets +onlyGivenNames y; try clear_value y; revert y; intro _)
    | with_reducible apply Keeps.trans _ (onSlot_keeps _).keeps
    | with_reducible apply Keeps.trans _ postOk_calm.keeps
    | with_reducible apply Keeps.trans _ (modLock_keeps ..)
    | with_reducible apply Keeps.trans _ (drawFree_calm ..).keeps)

theorem execLockResponse_keeps {n : SlotId} {s : State} {t : State} (h : execLockResponse n s = .next t) : Keeps s t := by
  unfold execLockResponse at h
  cases h
  repeat' (first
    | exact rfl
    | with_reducible assumption
    | with_reducible exact Keeps.refl _
    | intro _
    | (extract_lets +onlyGivenNames y; try clear_value y; revert y; intro _)
    | with_reducible apply Keeps.trans _ (onSlot_keeps _).keeps
    | with_reducible apply Keeps.trans _ (lockAttempt_keeps _).keeps
    | with_reducible apply Keeps.trans _ (modLock_keeps ..))

theorem execNonceExpiry_keeps {s : State} {t : State} (h : execNonceExpiry s = .next t) : Keeps s t := by
  unfold execNonceExpiry at h
  cases h
  repeat' (first
    | exact rfl
    | with_reducible assumption
    | with_reducible exact Keeps.refl _
    | intro _
    | (extract_lets +onlyGivenNames y; try clear_value y; revert y; intro _)
    | with_reducible apply Keeps.trans _ (modLock_keeps ..)
    | with_reducible apply Keeps.trans _ (foldl_keeps _ _ _ _)
    | split)

theorem execLockoutEnd_keeps {s : State} {t : State} (h : execLockoutEnd s = .next t) : Keeps s t := by
  unfold execLockoutEnd at h
  cases h
  repeat' (first
    | exact rfl
    | with_reducible assumption
    | with_reducible exact Keeps.refl _
    | intro _
    | (extract_lets +onlyGivenNames y; try clear_value y; revert y; intro _)
    | with_reducible apply Keeps.trans _ (modLock_keeps ..)
    | with_reducible apply Keeps.trans _ (foldl_keeps _ _ _ _)
    | split)

theorem releaseForce_calm {n : Source} {s : State} : Calm s (releaseForce n s) := by
  unfold releaseForce
  repeat' (first
    | exact rfl
    | with_reducible assumption
    | with_reducible exact Calm.refl _
    | intro _
    | (extract_lets +onlyGivenNames x; with_reducible refine Calm.step (x := x) ?_ ?_; (on_goal 1 => (unfold x; clear x)); on_goal 2 => (try clear_value x; revert x; intro _ _))
    | (extract_lets +onlyGivenNames y; try clear_value y; revert y; intro _)
    | with_reducible apply Calm.trans _ (modSource_calm ..).calm
    | with_reducible apply Calm.trans _ notice_calm.calm
    | with_reducible apply Calm.trans _ (foldl_calm _ _ _ _)
    | split)

theorem sealReleases_calm {s : State} : Calm s (sealReleases s) := by
  unfold sealReleases
  repeat' (first
    | exact rfl
    | with_reducible assumption
    | with_reducible exact Calm.refl _
    | intro _
    | (extract_lets +onlyGivenNames y; try clear_value y; revert y; intro _)
    | with_reducible apply Calm.trans _ dropStaging_calm.calm
    | with_reducible apply Calm.trans _ (modFaults_calm ..).calm
    | with_reducible apply Calm.trans _ releaseForce_calm.calm
    | with_reducible apply Calm.trans _ (foldl_calm _ _ _ _))

theorem sealLock_keeps {s : State} : Keeps s (sealLock s) := by
  unfold sealLock
  repeat' (first
    | exact rfl
    | with_reducible assumption
    | with_reducible exact Keeps.refl _
    | intro _
    | (extract_lets +onlyGivenNames x; with_reducible refine Keeps.step (x := x) ?_ ?_; (on_goal 1 => (unfold x; clear x)); on_goal 2 => (try clear_value x; revert x; intro _ _))
    | (extract_lets +onlyGivenNames y; try clear_value y; revert y; intro _)
    | with_reducible apply Keeps.trans _ sealReleases_calm.keeps
    | with_reducible apply Keeps.trans _ (modLock_keeps ..)
    | with_reducible apply Keeps.trans _ notice_calm.keeps
    | with_reducible apply Keeps.trans _ lockRecord_calm.keeps)

theorem execLockSeal_keeps {n : SlotId} {s : State} {t : State} (h : execLockSeal n s = .next t) : Keeps s t := by
  unfold execLockSeal at h
  cases h
  repeat' (first
    | exact rfl
    | with_reducible assumption
    | with_reducible exact Keeps.refl _
    | intro _
    | (extract_lets +onlyGivenNames y; try clear_value y; revert y; intro _)
    | with_reducible apply Keeps.trans _ (onSlot_keeps _).keeps
    | with_reducible apply Keeps.trans _ postStatus_calm.keeps
    | with_reducible apply Keeps.trans _ sealLock_keeps.keeps
    | with_reducible apply Keeps.trans _ (foldl_keeps _ _ _ _)
    | split)

end Sys2Proof.Machine
end

