-- ==== Sys2Proof/Laws/Plan.lean ====
section
/-!
SUPPORT. What the operations of Plan.lean leave alone (Laws/Steady.lean), one lemma for each.
-/

set_option linter.unusedTactic false
set_option linter.unreachableTactic false
set_option linter.tactic.unusedName false

namespace Sys2Proof.Machine

theorem portDeferrals_calm {l : List (Item × Nat × Bool)} {p : PortId} {s : State} : Calm s (portDeferrals l p s) := by
  unfold portDeferrals
  repeat' (first
    | exact rfl
    | with_reducible assumption
    | with_reducible exact Calm.refl _
    | intro _
    | (extract_lets +onlyGivenNames y; try clear_value y; revert y; intro _)
    | with_reducible apply Calm.trans _ deferralNotice_calm.calm
    | with_reducible apply Calm.trans _ (foldl_calm _ _ _ _)
    | split)

theorem reserveFrame_calm {used : Bool} {s : State} : Calm s (reserveFrame used s) := by
  unfold reserveFrame
  repeat' (first
    | exact rfl
    | with_reducible assumption
    | with_reducible exact Calm.refl _
    | intro _
    | (extract_lets +onlyGivenNames x; with_reducible refine Calm.step (x := x) ?_ ?_; (on_goal 1 => (unfold x; clear x)); on_goal 2 => (try clear_value x; revert x; intro _ _))
    | (extract_lets +onlyGivenNames y; try clear_value y; revert y; intro _)
    | with_reducible apply Calm.trans _ (modLedger_calm ..).calm
    | with_reducible apply Calm.trans _ notice_calm.calm
    | with_reducible apply Calm.trans _ (foldl_calm _ _ _ _)
    | split)

theorem keepRanges_calm {pv : State} {s : State} : Calm s (keepRanges pv s) := by
  unfold keepRanges
  repeat' (first
    | exact rfl
    | with_reducible assumption
    | with_reducible exact Calm.refl _
    | intro _
    | (extract_lets +onlyGivenNames y; try clear_value y; revert y; intro _)
    | with_reducible apply Calm.trans _ (overInputs_calm _).calm
    | with_reducible apply Calm.trans _ (modInput_calm ..).calm
    | with_reducible apply Calm.trans _ (foldl_calm _ _ _ _)
    | split)

theorem freeze_calm {ended : Bool} {pv : State} {s : State} : Calm s (freeze ended pv s) := by
  unfold freeze
  repeat' (first
    | exact rfl
    | with_reducible assumption
    | with_reducible exact Calm.refl _
    | intro _
    | (extract_lets +onlyGivenNames x; with_reducible refine Calm.step (x := x) ?_ ?_; (on_goal 1 => (unfold x; clear x)); on_goal 2 => (try clear_value x; revert x; intro _ _))
    | (extract_lets +onlyGivenNames y; try clear_value y; revert y; intro _)
    | with_reducible apply Calm.trans _ keepRanges_calm.calm
    | with_reducible apply Calm.trans _ (modHeat_calm ..).calm
    | with_reducible apply Calm.trans _ (modLedger_calm ..).calm
    | with_reducible apply Calm.trans _ portDeferrals_calm.calm
    | with_reducible apply Calm.trans _ reserveFrame_calm.calm
    | with_reducible apply Calm.trans _ (modSeq_calm ..).calm
    | with_reducible apply Calm.trans _ (modTherm_calm ..).calm
    | with_reducible apply Calm.trans _ (modPlan_calm ..).calm
    | with_reducible apply Calm.trans _ (foldl_calm _ _ _ _)
    | split)

end Sys2Proof.Machine
end

