-- ==== Sys2Proof/Laws/Ledger.lean ====
section
/-!
SUPPORT. What the operations of Ledger.lean leave alone (Laws/Steady.lean), one lemma for each.
-/

set_option linter.unusedTactic false
set_option linter.unreachableTactic false
set_option linter.tactic.unusedName false

namespace Sys2Proof.Machine

theorem ledgerBoundary_calm {s : State} : Calm s (ledgerBoundary s) := by
  unfold ledgerBoundary
  repeat' (first
    | exact rfl
    | with_reducible assumption
    | with_reducible exact Calm.refl _
    | intro _
    | (extract_lets +onlyGivenNames x; with_reducible refine Calm.step (x := x) ?_ ?_; (on_goal 1 => (unfold x; clear x)); on_goal 2 => (try clear_value x; revert x; intro _ _))
    | (extract_lets +onlyGivenNames y; try clear_value y; revert y; intro _)
    | with_reducible apply Calm.trans _ (modLedger_calm ..).calm
    | with_reducible apply Calm.trans _ notice_calm.calm
    | with_reducible apply Calm.trans _ (foldl_calm _ _ _ _)
    | split)

theorem applyGrant_calm {p : List Byte} {s : State} : Calm s (applyGrant p s) := by
  unfold applyGrant
  repeat' (first
    | exact rfl
    | with_reducible assumption
    | with_reducible exact Calm.refl _
    | intro _
    | (extract_lets +onlyGivenNames y; try clear_value y; revert y; intro _)
    | with_reducible apply Calm.trans _ (modLedger_calm ..).calm)

theorem applyRank_calm {p : List Byte} {s : State} : Calm s (applyRank p s) := by
  unfold applyRank
  repeat' (first
    | exact rfl
    | with_reducible assumption
    | with_reducible exact Calm.refl _
    | intro _
    | (extract_lets +onlyGivenNames y; try clear_value y; revert y; intro _)
    | with_reducible apply Calm.trans _ (modPort_calm ..).calm)

theorem pendGrant_calm {n : SlotId} {op : W16} {p : List Byte} {s : State} : Calm s (pendGrant n op p s) := by
  unfold pendGrant
  repeat' (first
    | exact rfl
    | with_reducible assumption
    | with_reducible exact Calm.refl _
    | intro _
    | (extract_lets +onlyGivenNames y; try clear_value y; revert y; intro _)
    | with_reducible apply Calm.trans _ pendOn_calm.calm)

theorem applyGrantOp_calm {op : W16} {p : List Byte} {s : State} : Calm s (applyGrantOp op p s) := by
  unfold applyGrantOp
  repeat' (first
    | exact rfl
    | with_reducible assumption
    | with_reducible exact Calm.refl _
    | intro _
    | (extract_lets +onlyGivenNames y; try clear_value y; revert y; intro _)
    | with_reducible apply Calm.trans _ applyGrant_calm.calm
    | with_reducible apply Calm.trans _ applyRank_calm.calm
    | with_reducible apply Calm.trans _ (foldl_calm _ _ _ _)
    | split)

theorem grantCommand_calm {op : W16} {n : SlotId} {p : List Byte} {s : State} : Calm s (grantCommand op n p s) := by
  unfold grantCommand
  repeat' (first
    | exact rfl
    | with_reducible assumption
    | with_reducible exact Calm.refl _
    | intro _
    | (extract_lets +onlyGivenNames y; try clear_value y; revert y; intro _)
    | with_reducible apply Calm.trans _ pendOn_calm.calm
    | with_reducible apply Calm.trans _ postStatus_calm.calm
    | with_reducible apply Calm.trans _ (orRefuse_calm _).calm
    | with_reducible apply Calm.trans _ pendGrant_calm.calm
    | with_reducible apply Calm.trans _ applyGrantOp_calm.calm
    | with_reducible apply Calm.trans _ (foldl_calm _ _ _ _)
    | split)

theorem execLedgerGrant_calm {n : SlotId} {s : State} {t : State} (h : execLedgerGrant n s = .next t) : Calm s t := by
  unfold execLedgerGrant at h
  cases h
  repeat' (first
    | exact rfl
    | with_reducible assumption
    | with_reducible exact Calm.refl _
    | intro _
    | (extract_lets +onlyGivenNames y; try clear_value y; revert y; intro _)
    | with_reducible apply Calm.trans _ (onSlot_calm _).calm
    | with_reducible apply Calm.trans _ grantCommand_calm.calm)

theorem execLedgerRank_calm {n : SlotId} {s : State} {t : State} (h : execLedgerRank n s = .next t) : Calm s t := by
  unfold execLedgerRank at h
  cases h
  repeat' (first
    | exact rfl
    | with_reducible assumption
    | with_reducible exact Calm.refl _
    | intro _
    | (extract_lets +onlyGivenNames y; try clear_value y; revert y; intro _)
    | with_reducible apply Calm.trans _ (onSlot_calm _).calm
    | with_reducible apply Calm.trans _ grantCommand_calm.calm)

theorem effectAtFrame_calm {w : Wait} {n : W32} {s : State} : Calm s (effectAtFrame w n s) := by
  unfold effectAtFrame
  repeat' (first
    | exact rfl
    | with_reducible assumption
    | with_reducible exact Calm.refl _
    | intro _
    | (extract_lets +onlyGivenNames y; try clear_value y; revert y; intro _)
    | with_reducible apply Calm.trans _ (modMbox_calm ..).calm)

theorem grantQueued_calm {n : SlotId} {s : State} : Calm s (grantQueued n s) := by
  unfold grantQueued
  repeat' (first
    | exact rfl
    | with_reducible assumption
    | with_reducible exact Calm.refl _
    | intro _
    | (extract_lets +onlyGivenNames y; try clear_value y; revert y; intro _)
    | with_reducible apply Calm.trans _ (modSlot_calm ..).calm
    | with_reducible apply Calm.trans _ applyGrantOp_calm.calm
    | with_reducible apply Calm.trans _ (foldl_calm _ _ _ _)
    | split)

theorem grantsAtFreeze_calm {n : W32} {s : State} : Calm s (grantsAtFreeze n s) := by
  unfold grantsAtFreeze
  repeat' (first
    | exact rfl
    | with_reducible assumption
    | with_reducible exact Calm.refl _
    | intro _
    | (extract_lets +onlyGivenNames x; with_reducible refine Calm.step (x := x) ?_ ?_; (on_goal 1 => (unfold x; clear x)); on_goal 2 => (try clear_value x; revert x; intro _ _))
    | (extract_lets +onlyGivenNames y; try clear_value y; revert y; intro _)
    | with_reducible apply Calm.trans _ effectAtFrame_calm.calm
    | with_reducible apply Calm.trans _ applyGrantOp_calm.calm
    | with_reducible apply Calm.trans _ grantQueued_calm.calm
    | with_reducible apply Calm.trans _ (foldl_calm _ _ _ _))

theorem grantsOutsideRun_calm {s : State} : Calm s (grantsOutsideRun s) := by
  unfold grantsOutsideRun
  repeat' (first
    | exact rfl
    | with_reducible assumption
    | with_reducible exact Calm.refl _
    | intro _
    | (extract_lets +onlyGivenNames y; try clear_value y; revert y; intro _)
    | with_reducible apply Calm.trans _ postStatus_calm.calm
    | with_reducible apply Calm.trans _ applyGrantOp_calm.calm
    | with_reducible apply Calm.trans _ (foldl_calm _ _ _ _))

theorem execLedgerStatus_calm {n : SlotId} {s : State} {t : State} (h : execLedgerStatus n s = .next t) : Calm s t := by
  unfold execLedgerStatus at h
  cases h
  repeat' (first
    | exact rfl
    | with_reducible assumption
    | with_reducible exact Calm.refl _
    | intro _
    | (extract_lets +onlyGivenNames y; try clear_value y; revert y; intro _)
    | with_reducible apply Calm.trans _ (onSlot_calm _).calm
    | with_reducible apply Calm.trans _ (readObject_calm _).calm
    | with_reducible apply Calm.trans _ (modLedger_calm ..).calm
    | with_reducible apply Calm.trans _ (foldl_calm _ _ _ _)
    | split
    | dsimp only [ledgerStatusCmd])

end Sys2Proof.Machine
end

