-- ==== Sys2Proof/Laws/Frame.lean ====
section
/-!
SUPPORT. What the operations of Frame.lean leave alone (Laws/Steady.lean), one lemma for each.
-/

set_option linter.unusedTactic false
set_option linter.unreachableTactic false
set_option linter.tactic.unusedName false

namespace Sys2Proof.Machine

theorem execFsyncEdge_calm {s : State} {t : State} (h : execFsyncEdge s = .next t) : Calm s t := by
  unfold execFsyncEdge at h
  cases h
  repeat' (first
    | exact rfl
    | with_reducible assumption
    | with_reducible exact Calm.refl _
    | intro _
    | (extract_lets +onlyGivenNames x; with_reducible refine Calm.step (x := x) ?_ ?_; (on_goal 1 => (unfold x; clear x)); on_goal 2 => (try clear_value x; revert x; intro _ _))
    | (extract_lets +onlyGivenNames y; try clear_value y; revert y; intro _)
    | with_reducible apply Calm.trans _ (modFrame_calm _ _ _ _).calm
    | with_reducible apply Calm.trans _ notice_calm.calm
    | with_reducible apply Calm.trans _ (foldl_calm _ _ _ _)
    | split)

theorem execFsyncMissed_calm {s : State} {t : State} (h : execFsyncMissed s = .next t) : Calm s t := by
  unfold execFsyncMissed at h
  cases h
  repeat' (first
    | exact rfl
    | with_reducible assumption
    | with_reducible exact Calm.refl _
    | intro _
    | (extract_lets +onlyGivenNames y; try clear_value y; revert y; intro _)
    | with_reducible apply Calm.trans _ (modFrame_calm _ _ _ _).calm
    | with_reducible apply Calm.trans _ (foldl_calm _ _ _ _)
    | split)

theorem execFsyncLost_calm {s : State} {t : State} (h : execFsyncLost s = .next t) : Calm s t := by
  unfold execFsyncLost at h
  cases h
  repeat' (first
    | exact rfl
    | with_reducible assumption
    | with_reducible exact Calm.refl _
    | intro _
    | (extract_lets +onlyGivenNames y; try clear_value y; revert y; intro _)
    | with_reducible apply Calm.trans _ notice_calm.calm
    | with_reducible apply Calm.trans _ (modFrame_calm _ _ _ _).calm
    | with_reducible apply Calm.trans _ (foldl_calm _ _ _ _)
    | split)

theorem execFsyncReacquired_calm {s : State} {t : State} (h : execFsyncReacquired s = .next t) : Calm s t := by
  unfold execFsyncReacquired at h
  cases h
  repeat' (first
    | exact rfl
    | with_reducible assumption
    | with_reducible exact Calm.refl _
    | intro _
    | (extract_lets +onlyGivenNames y; try clear_value y; revert y; intro _)
    | with_reducible apply Calm.trans _ (modFrame_calm _ _ _ _).calm
    | with_reducible apply Calm.trans _ (foldl_calm _ _ _ _)
    | split)

theorem execFsyncWaitTimeout_calm {s : State} {t : State} (h : execFsyncWaitTimeout s = .next t) : Calm s t := by
  unfold execFsyncWaitTimeout at h
  cases h
  repeat' (first
    | exact rfl
    | with_reducible assumption
    | with_reducible exact Calm.refl _
    | intro _
    | (extract_lets +onlyGivenNames y; try clear_value y; revert y; intro _)
    | with_reducible apply Calm.trans _ notice_calm.calm
    | with_reducible apply Calm.trans _ (modFrame_calm _ _ _ _).calm
    | with_reducible apply Calm.trans _ (foldl_calm _ _ _ _)
    | split)

theorem execQuietChange_calm {high : Bool} {pulse : Bool} {s : State} {t : State} (h : execQuietChange high pulse s = .next t) : Calm s t := by
  unfold execQuietChange at h
  cases h
  repeat' (first
    | exact rfl
    | with_reducible assumption
    | with_reducible exact Calm.refl _
    | intro _
    | (extract_lets +onlyGivenNames y; try clear_value y; revert y; intro _)
    | with_reducible apply Calm.trans _ (modPins_calm ..).calm)

theorem execPatternDisagreeNotice_calm {s : State} {t : State} (h : execPatternDisagreeNotice s = .next t) : Calm s t := by
  unfold execPatternDisagreeNotice at h
  cases h
  repeat' (first
    | exact rfl
    | with_reducible assumption
    | with_reducible exact Calm.refl _
    | intro _
    | (extract_lets +onlyGivenNames y; try clear_value y; revert y; intro _)
    | with_reducible apply Calm.trans _ notice_calm.calm
    | with_reducible apply Calm.trans _ (modFrame_calm _ _ _ _).calm
    | with_reducible apply Calm.trans _ (foldl_calm _ _ _ _)
    | split)

theorem unguardedNotice_calm {kind : Nat} {mask : Nat} {s : State} : Calm s (unguardedNotice kind mask s) := by
  unfold unguardedNotice
  repeat' (first
    | exact rfl
    | with_reducible assumption
    | with_reducible exact Calm.refl _
    | intro _
    | (extract_lets +onlyGivenNames y; try clear_value y; revert y; intro _)
    | with_reducible apply Calm.trans _ notice_calm.calm)

theorem setUnguarded_calm {mask : BitVec 16} {s : State} : Calm s (setUnguarded mask s) := by
  unfold setUnguarded
  repeat' (first
    | exact rfl
    | with_reducible assumption
    | with_reducible exact Calm.refl _
    | intro _
    | (extract_lets +onlyGivenNames x; with_reducible refine Calm.step (x := x) ?_ ?_; (on_goal 1 => (unfold x; clear x)); on_goal 2 => (try clear_value x; revert x; intro _ _))
    | (extract_lets +onlyGivenNames y; try clear_value y; revert y; intro _)
    | with_reducible apply Calm.trans _ (modFrame_calm _ _ _ _).calm
    | with_reducible apply Calm.trans _ unguardedNotice_calm.calm
    | with_reducible apply Calm.trans _ (foldl_calm _ _ _ _)
    | split)

theorem execUnguardedHourlyNotice_calm {s : State} {t : State} (h : execUnguardedHourlyNotice s = .next t) : Calm s t := by
  unfold execUnguardedHourlyNotice at h
  cases h
  repeat' (first
    | exact rfl
    | with_reducible assumption
    | with_reducible exact Calm.refl _
    | intro _
    | (extract_lets +onlyGivenNames y; try clear_value y; revert y; intro _)
    | with_reducible apply Calm.trans _ unguardedNotice_calm.calm
    | with_reducible apply Calm.trans _ (modFrame_calm _ _ _ _).calm
    | with_reducible apply Calm.trans _ (foldl_calm _ _ _ _)
    | split)

theorem takeRanges_calm {s : State} : Calm s (takeRanges s) := by
  unfold takeRanges
  repeat' (first
    | exact rfl
    | with_reducible assumption
    | with_reducible exact Calm.refl _
    | intro _
    | (extract_lets +onlyGivenNames y; try clear_value y; revert y; intro _)
    | with_reducible apply Calm.trans _ (overInputs_calm _).calm
    | with_reducible apply Calm.trans _ (modInput_calm ..).calm
    | with_reducible apply Calm.trans _ changeRange_calm.calm
    | with_reducible apply Calm.trans _ (foldl_calm _ _ _ _)
    | split)

theorem withholdGauze_calm {s : State} : Calm s (withholdGauze s) := by
  unfold withholdGauze
  repeat' (first
    | exact rfl
    | with_reducible assumption
    | with_reducible exact Calm.refl _
    | intro _
    | (extract_lets +onlyGivenNames y; try clear_value y; revert y; intro _)
    | with_reducible apply Calm.trans _ (modGauzeAt_calm ..).calm
    | with_reducible apply Calm.trans _ (foldl_calm _ _ _ _)
    | split)

theorem countSilent_calm {s : State} : Calm s (countSilent s) := by
  unfold countSilent
  repeat' (first
    | exact rfl
    | with_reducible assumption
    | with_reducible exact Calm.refl _
    | intro _
    | (extract_lets +onlyGivenNames y; try clear_value y; revert y; intro _)
    | with_reducible apply Calm.trans _ (modSeq_calm ..).calm
    | with_reducible apply Calm.trans _ (foldl_calm _ _ _ _)
    | split)

theorem takePlan_calm {s : State} : Calm s (takePlan s) := by
  unfold takePlan
  repeat' (first
    | exact rfl
    | with_reducible assumption
    | with_reducible exact Calm.refl _
    | intro _
    | (extract_lets +onlyGivenNames x; with_reducible refine Calm.step (x := x) ?_ ?_; (on_goal 1 => (unfold x; clear x)); on_goal 2 => (try clear_value x; revert x; intro _ _))
    | (extract_lets +onlyGivenNames y; try clear_value y; revert y; intro _)
    | with_reducible apply Calm.trans _ countSilent_calm.calm
    | with_reducible apply Calm.trans _ (modPlan_calm ..).calm
    | with_reducible apply Calm.trans _ setUnguarded_calm.calm
    | with_reducible apply Calm.trans _ notice_calm.calm
    | with_reducible apply Calm.trans _ (modTherm_calm ..).calm
    | with_reducible apply Calm.trans _ withholdGauze_calm.calm
    | with_reducible apply Calm.trans _ takeRanges_calm.calm
    | with_reducible apply Calm.trans _ (foldl_calm _ _ _ _)
    | split)

theorem applyPattern_calm {p : List Byte} {s : State} : Calm s (applyPattern p s) := by
  unfold applyPattern
  repeat' (first
    | exact rfl
    | with_reducible assumption
    | with_reducible exact Calm.refl _
    | intro _
    | (extract_lets +onlyGivenNames y; revert y; intro _)
    | with_reducible apply Calm.trans _ (modFrame_calm _ _ _ _).calm
    | with_reducible apply Calm.trans _ (foldl_calm _ _ _ _)
    | split)

theorem applySelect_calm {p : List Byte} {s : State} : Calm s (applySelect p s) := by
  unfold applySelect
  repeat' (first
    | exact rfl
    | with_reducible assumption
    | with_reducible exact Calm.refl _
    | intro _
    | (extract_lets +onlyGivenNames y; try clear_value y; revert y; intro _)
    | with_reducible apply Calm.trans _ (modFrame_calm _ _ _ _).calm)

theorem framePatternDone_calm {n : SlotId} {sel : Nat} {o : List Byte} {s : State} : Calm s (framePatternDone n sel o s) := by
  unfold framePatternDone
  repeat' (first
    | exact rfl
    | with_reducible assumption
    | with_reducible exact Calm.refl _
    | intro _
    | (extract_lets +onlyGivenNames y; try clear_value y; revert y; intro _)
    | with_reducible apply Calm.trans _ pendBoundary_calm.calm
    | with_reducible apply Calm.trans _ postStatus_calm.calm
    | with_reducible apply Calm.trans _ applyPattern_calm.calm
    | with_reducible apply Calm.trans _ (foldl_calm _ _ _ _)
    | split)

theorem execFramePattern_calm {n : SlotId} {s : State} {t : State} (h : execFramePattern n s = .next t) : Calm s t := by
  unfold execFramePattern at h
  cases h
  repeat' (first
    | exact rfl
    | with_reducible assumption
    | with_reducible exact Calm.refl _
    | intro _
    | (extract_lets +onlyGivenNames y; try clear_value y; revert y; intro _)
    | with_reducible apply Calm.trans _ (onSlot_calm _).calm
    | with_reducible apply Calm.trans _ (chunk_calm _ _ _).calm
    | with_reducible apply Calm.trans _ framePatternDone_calm.calm
    | with_reducible apply Calm.trans _ (foldl_calm _ _ _ _)
    | split
    | dsimp only [framePatternCmd])

theorem execFrameSelect_calm {n : SlotId} {s : State} {t : State} (h : execFrameSelect n s = .next t) : Calm s t := by
  unfold execFrameSelect at h
  cases h
  repeat' (first
    | exact rfl
    | with_reducible assumption
    | with_reducible exact Calm.refl _
    | intro _
    | (extract_lets +onlyGivenNames y; try clear_value y; revert y; intro _)
    | with_reducible apply Calm.trans _ (onSlot_calm _).calm
    | with_reducible apply Calm.trans _ badArg_calm.calm
    | with_reducible apply Calm.trans _ pendOn_calm.calm
    | with_reducible apply Calm.trans _ pendBoundary_calm.calm
    | with_reducible apply Calm.trans _ (foldl_calm _ _ _ _)
    | split)

theorem applyPolder_calm {p : List Byte} {s : State} : Calm s (applyPolder p s) := by
  unfold applyPolder
  repeat' (first
    | exact rfl
    | with_reducible assumption
    | with_reducible exact Calm.refl _
    | intro _
    | (extract_lets +onlyGivenNames y; try clear_value y; revert y; intro _)
    | with_reducible apply Calm.trans _ (modFrame_calm _ _ _ _).calm)

theorem execFramePolder_calm {n : SlotId} {s : State} {t : State} (h : execFramePolder n s = .next t) : Calm s t := by
  unfold execFramePolder at h
  cases h
  repeat' (first
    | exact rfl
    | with_reducible assumption
    | with_reducible exact Calm.refl _
    | intro _
    | (extract_lets +onlyGivenNames y; try clear_value y; revert y; intro _)
    | with_reducible apply Calm.trans _ (onSlot_calm _).calm
    | with_reducible apply Calm.trans _ (orRefuse_calm _).calm
    | with_reducible apply Calm.trans _ pendBoundary_calm.calm
    | with_reducible apply Calm.trans _ postStatus_calm.calm
    | with_reducible apply Calm.trans _ applyPolder_calm.calm
    | with_reducible apply Calm.trans _ (foldl_calm _ _ _ _)
    | split)

theorem execFrameWindows_calm {n : SlotId} {s : State} {t : State} (h : execFrameWindows n s = .next t) : Calm s t := by
  unfold execFrameWindows at h
  cases h
  repeat' (first
    | exact rfl
    | with_reducible assumption
    | with_reducible exact Calm.refl _
    | intro _
    | (extract_lets +onlyGivenNames y; try clear_value y; revert y; intro _)
    | with_reducible apply Calm.trans _ (onSlot_calm _).calm
    | with_reducible apply Calm.trans _ (readObject_calm _).calm
    | with_reducible apply Calm.trans _ (foldl_calm _ _ _ _)
    | split
    | dsimp only [frameWindowsCmd])

theorem clearFrameStatus_calm {s : State} : Calm s (clearFrameStatus s) := by
  unfold clearFrameStatus
  repeat' (first
    | exact rfl
    | with_reducible assumption
    | with_reducible exact Calm.refl _
    | intro _
    | (extract_lets +onlyGivenNames y; try clear_value y; revert y; intro _)
    | with_reducible apply Calm.trans _ (modPorts_calm ..).calm
    | with_reducible apply Calm.trans _ (modFrame_calm _ _ _ _).calm)

theorem execFrameStatus_calm {n : SlotId} {s : State} {t : State} (h : execFrameStatus n s = .next t) : Calm s t := by
  unfold execFrameStatus at h
  cases h
  repeat' (first
    | exact rfl
    | with_reducible assumption
    | with_reducible exact Calm.refl _
    | intro _
    | (extract_lets +onlyGivenNames y; try clear_value y; revert y; intro _)
    | with_reducible apply Calm.trans _ (onSlot_calm _).calm
    | with_reducible apply Calm.trans _ (readObject_calm _).calm
    | with_reducible apply Calm.trans _ clearFrameStatus_calm.calm
    | with_reducible apply Calm.trans _ (foldl_calm _ _ _ _)
    | split
    | dsimp only [frameStatusCmd])

end Sys2Proof.Machine
end

