-- ==== Sys2Proof/Laws/Triggers.lean ====
section
/-!
SUPPORT. What the operations of Triggers.lean leave alone (Laws/Steady.lean), one lemma for each.
-/

set_option linter.unusedTactic false
set_option linter.unreachableTactic false
set_option linter.tactic.unusedName false

namespace Sys2Proof.Machine

theorem skipAction_calm {k : Fin 16} {reason : Nat} {s : State} : Calm s (skipAction k reason s) := by
  unfold skipAction
  repeat' (first
    | exact rfl
    | with_reducible assumption
    | with_reducible exact Calm.refl _
    | intro _
    | (extract_lets +onlyGivenNames y; try clear_value y; revert y; intro _)
    | with_reducible apply Calm.trans _ notice_calm.calm)

theorem triggerSeq_calm {k : Fin 16} {s : State} : Calm s (triggerSeq k s) := by
  unfold triggerSeq
  repeat' (first
    | exact rfl
    | with_reducible assumption
    | with_reducible exact Calm.refl _
    | intro _
    | (extract_lets +onlyGivenNames y; try clear_value y; revert y; intro _)
    | with_reducible apply Calm.trans _ (modSeq_calm ..).calm
    | with_reducible apply Calm.trans _ skipAction_calm.calm
    | with_reducible apply Calm.trans _ (foldl_calm _ _ _ _)
    | split)

theorem triggerHeat_calm {k : Fin 16} {p : PortId} {s : State} : Calm s (triggerHeat k p s) := by
  unfold triggerHeat
  repeat' (first
    | exact rfl
    | with_reducible assumption
    | with_reducible exact Calm.refl _
    | intro _
    | (extract_lets +onlyGivenNames y; try clear_value y; revert y; intro _)
    | with_reducible apply Calm.trans _ (modHeater_calm ..).calm
    | with_reducible apply Calm.trans _ startNow_calm.calm
    | with_reducible apply Calm.trans _ skipAction_calm.calm
    | with_reducible apply Calm.trans _ (foldl_calm _ _ _ _)
    | split)

theorem triggerGauze_calm {k : Fin 16} {p : PortId} {s : State} : Calm s (triggerGauze k p s) := by
  unfold triggerGauze
  repeat' (first
    | exact rfl
    | with_reducible assumption
    | with_reducible exact Calm.refl _
    | intro _
    | (extract_lets +onlyGivenNames y; try clear_value y; revert y; intro _)
    | with_reducible apply Calm.trans _ skipAction_calm.calm
    | with_reducible apply Calm.trans _ skipGauze_calm.calm
    | with_reducible apply Calm.trans _ (modGauzeAt_calm ..).calm
    | with_reducible apply Calm.trans _ (foldl_calm _ _ _ _)
    | split)

theorem triggerAction_calm {k : Fin 16} {t : Trigger} {s : State} : Calm s (triggerAction k t s) := by
  unfold triggerAction
  repeat' (first
    | exact rfl
    | with_reducible assumption
    | with_reducible exact Calm.refl _
    | intro _
    | (extract_lets +onlyGivenNames y; try clear_value y; revert y; intro _)
    | with_reducible apply Calm.trans _ skipAction_calm.calm
    | with_reducible apply Calm.trans _ triggerSeq_calm.calm
    | with_reducible apply Calm.trans _ triggerHeat_calm.calm
    | with_reducible apply Calm.trans _ triggerGauze_calm.calm
    | with_reducible apply Calm.trans _ (modGas_calm ..).calm
    | with_reducible apply Calm.trans _ (foldl_calm _ _ _ _)
    | split)

theorem triggerTaken_calm {k : Fin 16} {t : Trigger} {s : State} : Calm s (triggerTaken k t s) := by
  unfold triggerTaken
  repeat' (first
    | exact rfl
    | with_reducible assumption
    | with_reducible exact Calm.refl _
    | intro _
    | (extract_lets +onlyGivenNames y; try clear_value y; revert y; intro _)
    | with_reducible apply Calm.trans _ wakeEvent_calm.calm
    | with_reducible apply Calm.trans _ (modTime_calm ..).calm
    | with_reducible apply Calm.trans _ skipAction_calm.calm
    | with_reducible apply Calm.trans _ triggerAction_calm.calm
    | with_reducible apply Calm.trans _ (foldl_calm _ _ _ _)
    | split)

theorem owedActions_calm {s : State} : Calm s (owedActions s) := by
  unfold owedActions
  repeat' (first
    | exact rfl
    | with_reducible assumption
    | with_reducible exact Calm.refl _
    | intro _
    | (extract_lets +onlyGivenNames y; try clear_value y; revert y; intro _)
    | with_reducible apply Calm.trans _ triggerAction_calm.calm
    | with_reducible apply Calm.trans _ (modTime_calm ..).calm
    | with_reducible apply Calm.trans _ (foldl_calm _ _ _ _))

theorem skipOwed_calm {s : State} : Calm s (skipOwed s) := by
  unfold skipOwed
  repeat' (first
    | exact rfl
    | with_reducible assumption
    | with_reducible exact Calm.refl _
    | intro _
    | (extract_lets +onlyGivenNames y; try clear_value y; revert y; intro _)
    | with_reducible apply Calm.trans _ skipAction_calm.calm
    | with_reducible apply Calm.trans _ (modTime_calm ..).calm
    | with_reducible apply Calm.trans _ (foldl_calm _ _ _ _))

theorem advanceTrigger_calm {k : Fin 16} {t : Trigger} {s : State} : Calm s (advanceTrigger k t s) := by
  unfold advanceTrigger
  repeat' (first
    | exact rfl
    | with_reducible assumption
    | with_reducible exact Calm.refl _
    | intro _
    | (extract_lets +onlyGivenNames x; with_reducible refine Calm.step (x := x) ?_ ?_; (on_goal 1 => (unfold x; clear x)); on_goal 2 => (try clear_value x; revert x; intro _ _))
    | (extract_lets +onlyGivenNames y; try clear_value y; revert y; intro _)
    | with_reducible apply Calm.trans _ (modTime_calm ..).calm
    | with_reducible apply Calm.trans _ notice_calm.calm
    | with_reducible apply Calm.trans _ (foldl_calm _ _ _ _)
    | split)

theorem execTimeTrigger_calm {k : Fin 16} {s : State} {t : State} (h : execTimeTrigger k s = .next t) : Calm s t := by
  unfold execTimeTrigger at h
  cases h
  repeat' (first
    | exact rfl
    | with_reducible assumption
    | with_reducible exact Calm.refl _
    | intro _
    | (extract_lets +onlyGivenNames y; try clear_value y; revert y; intro _)
    | with_reducible apply Calm.trans _ advanceTrigger_calm.calm
    | with_reducible apply Calm.trans _ triggerTaken_calm.calm
    | with_reducible apply Calm.trans _ (foldl_calm _ _ _ _)
    | split)

theorem applyTrigger_calm {p : List Byte} {s : State} : Calm s (applyTrigger p s) := by
  unfold applyTrigger
  repeat' (first
    | exact rfl
    | with_reducible assumption
    | with_reducible exact Calm.refl _
    | intro _
    | (extract_lets +onlyGivenNames y; try clear_value y; revert y; intro _)
    | with_reducible apply Calm.trans _ (modTime_calm ..).calm)

theorem execTimeTriggerCommand_calm {n : SlotId} {s : State} {t : State} (h : execTimeTriggerCommand n s = .next t) : Calm s t := by
  unfold execTimeTriggerCommand at h
  cases h
  repeat' (first
    | exact rfl
    | with_reducible assumption
    | with_reducible exact Calm.refl _
    | intro _
    | (extract_lets +onlyGivenNames y; try clear_value y; revert y; intro _)
    | with_reducible apply Calm.trans _ (onSlot_calm _).calm
    | with_reducible apply Calm.trans _ badArg_calm.calm
    | with_reducible apply Calm.trans _ postStatus_calm.calm
    | with_reducible apply Calm.trans _ applyTrigger_calm.calm
    | with_reducible apply Calm.trans _ (foldl_calm _ _ _ _)
    | split)

end Sys2Proof.Machine
end

