-- ==== Sys2Proof/Laws/Bolts.lean ====
section
/-!
SUPPORT. What the operations of Bolts.lean leave alone (Laws/Steady.lean), one lemma for each.
-/

set_option linter.unusedTactic false
set_option linter.unreachableTactic false
set_option linter.tactic.unusedName false

namespace Sys2Proof.Machine

theorem programChunk_calm {d : List Byte} {s : State} : Calm s (programChunk d s) := by
  unfold programChunk
  repeat' (first
    | exact rfl
    | with_reducible assumption
    | with_reducible exact Calm.refl _
    | intro _
    | (extract_lets +onlyGivenNames y; try clear_value y; revert y; intro _)
    | with_reducible apply Calm.trans _ (modFaults_calm ..).calm
    | with_reducible apply Calm.trans _ (modBolt_calm ..).calm)

theorem boltStaged_calm {n : SlotId} {x : Nat} {o : List Byte} {s : State} : Calm s (boltStaged n x o s) := by
  unfold boltStaged
  repeat' (first
    | exact rfl
    | with_reducible assumption
    | with_reducible exact Calm.refl _
    | intro _
    | (extract_lets +onlyGivenNames y; try clear_value y; revert y; intro _)
    | with_reducible apply Calm.trans _ postStatus_calm.calm
    | with_reducible apply Calm.trans _ (modBolt_calm ..).calm
    | with_reducible apply Calm.trans _ (foldl_calm _ _ _ _)
    | split)

theorem execBoltStage_calm {n : SlotId} {s : State} {t : State} (h : execBoltStage n s = .next t) : Calm s t := by
  unfold execBoltStage at h
  cases h
  repeat' (first
    | exact rfl
    | with_reducible assumption
    | with_reducible exact Calm.refl _
    | intro _
    | (extract_lets +onlyGivenNames y; try clear_value y; revert y; intro _)
    | with_reducible apply Calm.trans _ (onSlot_calm _).calm
    | with_reducible apply Calm.trans _ (chunk_calm _ _ _).calm
    | with_reducible apply Calm.trans _ (modBolt_calm ..).calm
    | with_reducible apply Calm.trans _ programChunk_calm.calm
    | with_reducible apply Calm.trans _ boltStaged_calm.calm
    | with_reducible apply Calm.trans _ (foldl_calm _ _ _ _)
    | split
    | dsimp only [boltStageCmd])

theorem execBoltCommit_calm {n : SlotId} {s : State} {t : State} (h : execBoltCommit n s = .next t) : Calm s t := by
  unfold execBoltCommit at h
  cases h
  repeat' (first
    | exact rfl
    | with_reducible assumption
    | with_reducible exact Calm.refl _
    | intro _
    | (extract_lets +onlyGivenNames y; try clear_value y; revert y; intro _)
    | with_reducible apply Calm.trans _ (onSlot_calm _).calm
    | with_reducible apply Calm.trans _ postStatus_calm.calm
    | with_reducible apply Calm.trans _ pendOn_calm.calm
    | with_reducible apply Calm.trans _ (foldl_calm _ _ _ _)
    | split)

theorem markSlot_calm {k : Bool} {s : State} : Calm s (markSlot k s) := by
  unfold markSlot
  repeat' (first
    | exact rfl
    | with_reducible assumption
    | with_reducible exact Calm.refl _
    | intro _
    | (extract_lets +onlyGivenNames x; with_reducible refine Calm.step (x := x) ?_ ?_; (on_goal 1 => (unfold x; clear x)); on_goal 2 => (try clear_value x; revert x; intro _ _))
    | (extract_lets +onlyGivenNames y; try clear_value y; revert y; intro _)
    | with_reducible apply Calm.trans _ (modBolt_calm ..).calm
    | with_reducible apply Calm.trans _ boxRecord_calm.calm)

theorem execBoltCommitMarkProgrammed_calm {verified : Bool} {s : State} {t : State} (h : execBoltCommitMarkProgrammed verified s = .next t) : Calm s t := by
  unfold execBoltCommitMarkProgrammed at h
  cases h
  repeat' (first
    | exact rfl
    | with_reducible assumption
    | with_reducible exact Calm.refl _
    | intro _
    | (extract_lets +onlyGivenNames y; try clear_value y; revert y; intro _)
    | with_reducible apply Calm.trans _ postStatus_calm.calm
    | with_reducible apply Calm.trans _ markSlot_calm.calm
    | with_reducible apply Calm.trans _ raise_calm.calm
    | with_reducible apply Calm.trans _ (foldl_calm _ _ _ _)
    | split)

theorem commitHeld_calm {s : State} : Calm s (commitHeld s) := by
  unfold commitHeld
  repeat' (first
    | exact rfl
    | with_reducible assumption
    | with_reducible exact Calm.refl _
    | intro _
    | (extract_lets +onlyGivenNames y; try clear_value y; revert y; intro _)
    | with_reducible apply Calm.trans _ completeWhere_calm.calm
    | with_reducible apply Calm.trans _ (foldl_calm _ _ _ _)
    | split)

theorem execBoltInfo_calm {n : SlotId} {s : State} {t : State} (h : execBoltInfo n s = .next t) : Calm s t := by
  unfold execBoltInfo at h
  cases h
  repeat' (first
    | exact rfl
    | with_reducible assumption
    | with_reducible exact Calm.refl _
    | intro _
    | (extract_lets +onlyGivenNames y; try clear_value y; revert y; intro _)
    | with_reducible apply Calm.trans _ (onSlot_calm _).calm
    | with_reducible apply Calm.trans _ postOk_calm.calm)

theorem modeDefaults_calm {p : List Byte} {s : State} : Calm s (modeDefaults p s) := by
  unfold modeDefaults
  repeat' (first
    | exact rfl
    | with_reducible assumption
    | with_reducible exact Calm.refl _
    | intro _
    | (extract_lets +onlyGivenNames x; with_reducible refine Calm.step (x := x) ?_ ?_; (on_goal 1 => (unfold x; clear x)); on_goal 2 => (try clear_value x; revert x; intro _ _))
    | (extract_lets +onlyGivenNames y; try clear_value y; revert y; intro _)
    | with_reducible apply Calm.trans _ (modPort_calm ..).calm
    | with_reducible apply Calm.trans _ (modHeater_calm ..).calm
    | with_reducible apply Calm.trans _ (modGauzeAt_calm ..).calm)

theorem afterOutcome_calm {s : State} {o : Host.Outcome State Fault Refusal} (h : ∀ t, o = .next t → Calm s t) :
    Calm s (afterOutcome s o) := by
  unfold afterOutcome
  split
  · exact h _ rfl
  · exact Calm.refl _
  · exact Calm.refl _

theorem tryCommand_calm {op : Nat} {p : List Byte} {f : State → State} {s t : State} (hf : ∀ s, Calm s (f s))
    (h : tryCommand op p f s = some t) : Calm s t := by
  unfold tryCommand at h
  dsimp only at h
  split at h
  · cases h
    refine Calm.trans (Calm.trans (modMbox_calm (fun _ => requestBox op p) s)
      (modCore_calm (fun c => { c with dev := .held, reeveRuns := true, resetPosted := none }) _ rfl rfl)) ?_
    exact (((hf _).trans (modMbox_calm ..)).trans (modBus_calm ..)).trans (modCore_calm _ _ rfl rfl)
  · cases h

theorem settle_calm {fault : Bool} {f : State → State} {s t : State} (hf : Calm s (f s))
    (h : settle fault f s = some t) : Calm s t := by
  unfold settle at h
  split at h
  · cases h
  · cases h
    exact hf

theorem boltFixed_calm : ∀ e ∈ boltFixed, ∀ n s t, e.2 n s = .next t → Calm s t := by
  unfold boltFixed
  simp only [List.forall_mem_cons, List.not_mem_nil, false_imp_iff, implies_true, and_true]
  exact ⟨fun _ _ _ h => execPortBias_calm h,
    fun _ _ _ h => execPortRange_calm h,
    fun _ _ _ h => execPortWindow_calm h,
    fun _ _ _ h => execPortSettle_calm h,
    fun _ _ _ h => execPortAux_calm h,
    fun _ _ _ h => execPortRing_calm h,
    fun _ _ _ h => execPortLayer_calm h,
    fun _ _ _ h => execHeatPlate_calm h,
    fun _ _ _ h => execGauzeCap_calm h,
    fun _ _ _ h => execSeqMode_calm h,
    fun _ _ _ h => execWeaveSet_calm h,
    fun _ _ _ h => execWeavePhase_calm h,
    fun _ _ _ h => execGasChannel_calm h,
    fun _ _ _ h => execLeveeSet_calm h,
    fun _ _ _ h => execLedgerRank_calm h,
    fun _ _ _ h => execThermPolicy_calm h,
    fun _ _ _ h => execFaultConfig_calm h,
    fun _ _ _ h => execFaultGrace_calm h,
    fun _ _ _ h => execTimeServo_calm h,
    fun _ _ _ h => execTimeTriggerCommand_calm h,
    fun _ _ _ h => execFramePolder_calm h⟩

theorem boltChunks_calm : ∀ c ∈ boltChunks, ∀ n k o s, Calm s (c.done n k o s) := by
  unfold boltChunks
  simp only [List.forall_mem_cons, List.not_mem_nil, false_imp_iff, implies_true, and_true]
  refine ⟨?_, ?_, ?_, ?_, ?_, ?_⟩
  all_goals
    intro n k o s
    dsimp only [heatProfileCmd, gauzePlanCmd, seqLoadCmd, weaveCoefCmd, gasModelCmd, gasMatrixCmd]
    repeat' (first
      | with_reducible exact Calm.refl _
      | with_reducible assumption
      | (extract_lets +onlyGivenNames y; revert y; intro _)
      | with_reducible apply Calm.trans _ heatProfileDone_calm.calm
      | with_reducible apply Calm.trans _ gauzePlanDone_calm.calm
      | with_reducible apply Calm.trans _ seqLoadDone_calm.calm
      | with_reducible apply Calm.trans _ badArg_calm.calm
      | with_reducible apply Calm.trans _ postStatus_calm.calm
      | with_reducible apply Calm.trans _ stageCoef_calm.calm
      | with_reducible apply Calm.trans _ gasModelDone_calm.calm
      | with_reducible apply Calm.trans _ gasMatrixDone_calm.calm
      | split)

theorem chunkRecord_calm {c : ChunkCmd} {p : List Byte} {s t : State} (hc : c ∈ boltChunks)
    (h : chunkRecord c p s = some t) : Calm s t := by
  unfold chunkRecord at h
  dsimp only at h
  split at h
  · exact tryCommand_calm (fun _ => boltChunks_calm c hc _ _ _ _) h
  · cases h

theorem specialRecord_calm {op : Nat} {p : List Byte} {s t : State} (h : specialRecord op p s = some t) :
    Calm s t := by
  unfold specialRecord at h
  split at h
  · exact settle_calm modeDefaults_calm h
  split at h
  · split at h
    · exact tryCommand_calm (fun s => afterOutcome_calm fun t k => execGauzeHealthSetReferences_calm k) h
    · split at h
      · exact tryCommand_calm (fun s => afterOutcome_calm fun t k => execGauzeHealthSetSpreads_calm k) h
      · cases h
  split at h
  · exact settle_calm applySyncResponse_calm h
  split at h
  · exact settle_calm applyGrant_calm h
  split at h
  · exact settle_calm applyRingWater_calm h
  split at h
  · exact settle_calm (modCore_calm _ _ rfl rfl) h
  split at h
  · exact settle_calm applyPattern_calm h
  split at h
  · exact settle_calm applySelect_calm h
  · cases h

theorem applyRecord_calm {op : Nat} {p : List Byte} {s t : State} (h : applyRecord op p s = some t) : Calm s t := by
  unfold applyRecord at h
  split at h
  · rename_i k
    exact chunkRecord_calm (List.mem_of_find?_eq_some k) h
  · split at h
    · rename_i k
      split at h
      · exact tryCommand_calm (fun s => afterOutcome_calm (boltFixed_calm _ (List.mem_of_find?_eq_some k) 0 s)) h
      · cases h
    · exact specialRecord_calm h

theorem applyRecord_getD_calm {op : Nat} {p : List Byte} {s : State} : Calm s ((applyRecord op p s).getD s) := by
  cases h : applyRecord op p s with
  | none => exact Calm.refl _
  | some t => exact applyRecord_calm h

theorem applyRecords_calm (rs : List BoltRec) (bad : Option Nat) (s t : State)
    (h : applyRecords rs bad s = .ok t) : Calm s t := by
  induction rs generalizing s with
  | nil =>
    cases bad with
    | none => cases h; exact Calm.refl _
    | some k => cases h
  | cons r rs ih =>
    rw [applyRecords] at h
    split at h
    · rename_i k
      exact (applyRecord_calm k).trans (ih _ h)
    · cases h

theorem configDefaults_calm {s : State} : Calm s (configDefaults s) := by
  unfold configDefaults
  repeat' (first
    | exact rfl
    | with_reducible assumption
    | with_reducible exact Calm.refl _
    | intro _
    | (extract_lets +onlyGivenNames x; with_reducible refine Calm.step (x := x) ?_ ?_; (on_goal 1 => (unfold x; clear x)); on_goal 2 => (try clear_value x; revert x; intro _ _))
    | (extract_lets +onlyGivenNames y; try clear_value y; revert y; intro _)
    | with_reducible apply Calm.trans _ (modPorts_calm ..).calm
    | with_reducible apply Calm.trans _ (modHeat_calm ..).calm
    | with_reducible apply Calm.trans _ (modGauze_calm ..).calm
    | with_reducible apply Calm.trans _ (modSeq_calm ..).calm
    | with_reducible apply Calm.trans _ (modLanes_calm ..).calm
    | with_reducible apply Calm.trans _ (modGas_calm ..).calm
    | with_reducible apply Calm.trans _ (modLevees_calm ..).calm
    | with_reducible apply Calm.trans _ (modFrame_calm _ _ _ _).calm
    | with_reducible apply Calm.trans _ (modLedger_calm ..).calm
    | with_reducible apply Calm.trans _ (modFaults_calm ..).calm
    | with_reducible apply Calm.trans _ (modTime_calm ..).calm
    | with_reducible apply Calm.trans _ (modPins_calm ..).calm
    | with_reducible apply Calm.trans _ applyRingWater_calm.calm
    | with_reducible apply Calm.trans _ (modCore_calm _ _ _ _).calm)

theorem keepShut_calm {old : Vector Port 16} {s : State} : Calm s (keepShut old s) :=
  modPorts_calm ..

theorem trySlot_calm {k : Bool} {s : State} : Calm s (trySlot k s).1 := by
  unfold trySlot
  dsimp only
  split
  · rename_i t h
    exact (((readNvm_calm.trans configDefaults_calm).trans (applyRecords_calm _ _ _ _ h)).trans
      (modBolt_calm ..)).trans keepShut_calm
  · exact ((readNvm_calm.trans (modBolt_calm ..)).trans boxRecord_calm).trans notice_calm

theorem trySlots_calm (l : List Bool) (s : State) : Calm s (trySlots l s).1 := by
  induction l generalizing s with
  | nil => exact Calm.refl _
  | cons k l ih =>
    have h := trySlot_calm (k := k) (s := s)
    rw [trySlots]
    split
    · rename_i t e
      rw [e] at h
      exact h
    · rename_i t e
      rw [e] at h
      exact h.trans (ih _)

theorem selectBolt_calm {s : State} : Calm s (selectBolt s).1 := by
  unfold selectBolt
  dsimp only
  have h := fun (b : State) => trySlots_calm b.bolt.candidates b
  split
  · rename_i t e
    have k := h (s.modBolt fun b =>
      { b with a := { b.a with rejected := false }, b := { b.b with rejected := false }
               inForce := none, gen := 0, digest := [] })
    rw [e] at k
    exact (modBolt_calm ..).trans k
  · rename_i t e
    have k := h (s.modBolt fun b =>
      { b with a := { b.a with rejected := false }, b := { b.b with rejected := false }
               inForce := none, gen := 0, digest := [] })
    rw [e] at k
    exact ((modBolt_calm ..).trans k).trans configDefaults_calm

theorem applyPortMode_calm {n : SlotId} {p : List Byte} {s : State} : Calm s (applyPortMode n p s) := by
  unfold applyPortMode
  repeat' (first
    | exact rfl
    | with_reducible assumption
    | with_reducible exact Calm.refl _
    | intro _
    | (extract_lets +onlyGivenNames x; with_reducible refine Calm.step (x := x) ?_ ?_; (on_goal 1 => (unfold x; clear x)); on_goal 2 => (try clear_value x; revert x; intro _ _))
    | (extract_lets +onlyGivenNames y; try clear_value y; revert y; intro _)
    | with_reducible apply Calm.trans _ modeDefaults_calm.calm
    | with_reducible apply Calm.trans _ (modPort_calm ..).calm
    | with_reducible apply Calm.trans _ notice_calm.calm
    | with_reducible apply Calm.trans _ postStatus_calm.calm
    | with_reducible apply Calm.trans _ applyRecord_getD_calm.calm
    | with_reducible apply Calm.trans _ (foldl_calm _ _ _ _)
    | split)

end Sys2Proof.Machine
end

