-- ==== Sys2Proof/Laws/Power.lean ====
section
/-!
SUPPORT. What the operations of Power.lean leave alone (Laws/Steady.lean), one lemma for each.
-/

set_option linter.unusedTactic false
set_option linter.unreachableTactic false
set_option linter.tactic.unusedName false

namespace Sys2Proof.Machine

theorem eachPort_calm {f : PortId → State → State} {s : State} (h_f : ∀ x0 s, Calm s (f x0 s)) : Calm s (eachPort f s) := by
  unfold eachPort
  repeat' (first
    | exact rfl
    | with_reducible assumption
    | with_reducible exact Calm.refl _
    | intro _
    | (extract_lets +onlyGivenNames y; try clear_value y; revert y; intro _)
    | with_reducible apply Calm.trans _ (foldl_calm _ _ _ _)
    | with_reducible apply Calm.trans _ (h_f _ _))

theorem eachPort_quiet {f : PortId → State → State} {s : State} (h_f : ∀ x0 s, Quiet s (f x0 s)) : Quiet s (eachPort f s) := by
  unfold eachPort
  repeat' (first
    | exact rfl
    | with_reducible assumption
    | with_reducible exact Quiet.refl _
    | intro _
    | (extract_lets +onlyGivenNames y; try clear_value y; revert y; intro _)
    | with_reducible apply Quiet.trans _ (foldl_quiet _ _ _ _)
    | with_reducible apply Quiet.trans _ (h_f _ _))

theorem eachPort_guard {f : PortId → State → State} {s : State} (h_f : ∀ x0 s, Guard s (f x0 s)) : Guard s (eachPort f s) := by
  unfold eachPort
  repeat' (first
    | exact rfl
    | with_reducible assumption
    | with_reducible exact Guard.refl _
    | intro _
    | (extract_lets +onlyGivenNames y; try clear_value y; revert y; intro _)
    | with_reducible apply Guard.trans _ (foldl_guard _ _ _ _)
    | with_reducible apply Guard.trans _ (h_f _ _))

theorem eachPort_keeps {f : PortId → State → State} {s : State} (h_f : ∀ x0 s, Keeps s (f x0 s)) : Keeps s (eachPort f s) := by
  unfold eachPort
  repeat' (first
    | exact rfl
    | with_reducible assumption
    | with_reducible exact Keeps.refl _
    | intro _
    | (extract_lets +onlyGivenNames y; try clear_value y; revert y; intro _)
    | with_reducible apply Keeps.trans _ (foldl_keeps _ _ _ _)
    | with_reducible apply Keeps.trans _ (h_f _ _))

theorem dropUrgent_calm {s : State} : Calm s (dropUrgent s) := by
  unfold dropUrgent
  repeat' (first
    | exact rfl
    | with_reducible assumption
    | with_reducible exact Calm.refl _
    | intro _
    | (extract_lets +onlyGivenNames y; try clear_value y; revert y; intro _)
    | with_reducible apply Calm.trans _ completeWhere_calm.calm
    | with_reducible apply Calm.trans _ (modSeq_calm ..).calm)

theorem endMeasuring_calm {s : State} : Calm s (endMeasuring s) := by
  unfold endMeasuring
  repeat' (first
    | exact rfl
    | with_reducible assumption
    | with_reducible exact Calm.refl _
    | intro _
    | (extract_lets +onlyGivenNames x; with_reducible refine Calm.step (x := x) ?_ ?_; (on_goal 1 => (unfold x; clear x)); on_goal 2 => (try clear_value x; revert x; intro _ _))
    | (extract_lets +onlyGivenNames y; try clear_value y; revert y; intro _)
    | with_reducible apply Calm.trans _ (modSeq_calm ..).calm
    | with_reducible apply Calm.trans _ stopConverters_calm.calm
    | with_reducible apply Calm.trans _ (modPlan_calm ..).calm)

theorem forceStopped_calm {p : PortId} {s : State} : Calm s (forceStopped p s) := by
  unfold forceStopped
  repeat' (first
    | exact rfl
    | with_reducible assumption
    | with_reducible exact Calm.refl _
    | intro _
    | (extract_lets +onlyGivenNames y; try clear_value y; revert y; intro _)
    | with_reducible apply Calm.trans _ forcePort_calm.calm
    | with_reducible apply Calm.trans _ (foldl_calm _ _ _ _)
    | split)

theorem leaveDoze_calm {s : State} : Calm s (leaveDoze s) := by
  unfold leaveDoze
  repeat' (first
    | exact rfl
    | with_reducible assumption
    | with_reducible exact Calm.refl _
    | intro _
    | (extract_lets +onlyGivenNames y; try clear_value y; revert y; intro _)
    | with_reducible apply Calm.trans _ (modCore_calm _ _ _ _).calm)

theorem stopOutputs_calm {s : State} : Calm s (stopOutputs s) := by
  unfold stopOutputs
  repeat' (first
    | exact rfl
    | with_reducible assumption
    | with_reducible exact Calm.refl _
    | intro _
    | (extract_lets +onlyGivenNames x; with_reducible refine Calm.step (x := x) ?_ ?_; (on_goal 1 => (unfold x; clear x)); on_goal 2 => (try clear_value x; revert x; intro _ _))
    | (extract_lets +onlyGivenNames y; try clear_value y; revert y; intro _)
    | with_reducible apply Calm.trans _ attn_calm.calm
    | with_reducible apply Calm.trans _ leaveDoze_calm.calm
    | with_reducible apply Calm.trans _ calLeaves_calm.calm
    | with_reducible apply Calm.trans _ (modPorts_calm ..).calm
    | with_reducible apply Calm.trans _ (eachPort_calm _).calm
    | with_reducible apply Calm.trans _ forceStopped_calm.calm
    | with_reducible apply Calm.trans _ elecLeaves_calm.calm
    | with_reducible apply Calm.trans _ skipOwed_calm.calm
    | with_reducible apply Calm.trans _ dropUrgent_calm.calm
    | with_reducible apply Calm.trans _ endMeasuring_calm.calm
    | with_reducible apply Calm.trans _ (modCore_calm _ _ _ _).calm
    | with_reducible apply Calm.trans _ completeWhere_calm.calm
    | with_reducible apply Calm.trans _ (foldl_calm _ _ _ _)
    | split)

theorem enterDev_calm {d : Dev} {s : State} : Calm s (enterDev d s) := by
  unfold enterDev
  repeat' (first
    | exact rfl
    | with_reducible assumption
    | with_reducible exact Calm.refl _
    | intro _
    | (extract_lets +onlyGivenNames x; with_reducible refine Calm.step (x := x) ?_ ?_; (on_goal 1 => (unfold x; clear x)); on_goal 2 => (try clear_value x; revert x; intro _ _))
    | (extract_lets +onlyGivenNames y; try clear_value y; revert y; intro _)
    | with_reducible apply Calm.trans _ setDev_calm.calm
    | with_reducible apply Calm.trans _ leaveTwill_calm.calm
    | with_reducible apply Calm.trans _ leveesLeave_calm.calm
    | with_reducible apply Calm.trans _ (foldl_calm _ _ _ _)
    | split)

theorem restartReeve_calm {s : State} : Calm s (restartReeve s) := by
  unfold restartReeve
  repeat' (first
    | exact rfl
    | with_reducible assumption
    | with_reducible exact Calm.refl _
    | intro _
    | (extract_lets +onlyGivenNames x; with_reducible refine Calm.step (x := x) ?_ ?_; (on_goal 1 => (unfold x; clear x)); on_goal 2 => (try clear_value x; revert x; intro _ _))
    | (extract_lets +onlyGivenNames y; try clear_value y; revert y; intro _)
    | with_reducible apply Calm.trans _ (modCore_calm _ _ _ _).calm
    | with_reducible apply Calm.trans _ postStatus_calm.calm
    | with_reducible apply Calm.trans _ (modMbox_calm ..).calm
    | with_reducible apply Calm.trans _ (foldl_calm _ _ _ _))

theorem enterSafe_calm {src : Source} {s : State} : Calm s (enterSafe src s) := by
  unfold enterSafe
  repeat' (first
    | exact rfl
    | with_reducible assumption
    | with_reducible exact Calm.refl _
    | intro _
    | (extract_lets +onlyGivenNames x; with_reducible refine Calm.step (x := x) ?_ ?_; (on_goal 1 => (unfold x; clear x)); on_goal 2 => (try clear_value x; revert x; intro _ _))
    | (extract_lets +onlyGivenNames y; try clear_value y; revert y; intro _)
    | with_reducible apply Calm.trans _ enterDev_calm.calm
    | with_reducible apply Calm.trans _ stopOutputs_calm.calm
    | with_reducible apply Calm.trans _ (modFaults_calm ..).calm
    | with_reducible apply Calm.trans _ boxRecord_calm.calm
    | with_reducible apply Calm.trans _ notice_calm.calm
    | with_reducible apply Calm.trans _ restartReeve_calm.calm
    | with_reducible apply Calm.trans _ (foldl_calm _ _ _ _)
    | split)

theorem enterLatched_calm {s : State} : Calm s (enterLatched s) := by
  unfold enterLatched
  repeat' (first
    | exact rfl
    | with_reducible assumption
    | with_reducible exact Calm.refl _
    | intro _
    | (extract_lets +onlyGivenNames x; with_reducible refine Calm.step (x := x) ?_ ?_; (on_goal 1 => (unfold x; clear x)); on_goal 2 => (try clear_value x; revert x; intro _ _))
    | (extract_lets +onlyGivenNames y; try clear_value y; revert y; intro _)
    | with_reducible apply Calm.trans _ stopOutputs_calm.calm
    | with_reducible apply Calm.trans _ endReaction_calm.calm
    | with_reducible apply Calm.trans _ postNow_calm.calm
    | with_reducible apply Calm.trans _ enterDev_calm.calm
    | with_reducible apply Calm.trans _ (modCore_calm _ _ _ _).calm
    | with_reducible apply Calm.trans _ ring_calm.calm
    | with_reducible apply Calm.trans _ flushHeld_calm.calm
    | with_reducible apply Calm.trans _ (foldl_calm _ _ _ _)
    | split)

theorem afterReset_keeps {lt : W64} {s : State} : Keeps s (afterReset lt s) :=
  ⟨rfl, fun _ => Nat.zero_le _, fun _ => Nat.zero_le _, fun _ => Nat.zero_le _⟩

theorem beginBoot_keeps {cause : Fin 4} {lt : W64} {s : State} : Keeps s (beginBoot cause lt s) := by
  unfold beginBoot
  repeat' (first
    | exact rfl
    | with_reducible assumption
    | with_reducible exact Keeps.refl _
    | intro _
    | (extract_lets +onlyGivenNames y; try clear_value y; revert y; intro _)
    | with_reducible apply Keeps.trans _ (modCore_keeps ..)
    | with_reducible apply Keeps.trans _ afterReset_keeps.keeps)

theorem execPowerOn_keeps {s : State} {t : State} (h : execPowerOn s = .next t) : Keeps s t := by
  unfold execPowerOn at h
  cases h
  repeat' (first
    | exact rfl
    | with_reducible assumption
    | with_reducible exact Keeps.refl _
    | intro _
    | (extract_lets +onlyGivenNames y; try clear_value y; revert y; intro _)
    | with_reducible apply Keeps.trans _ (modCore_keeps ..)
    | with_reducible apply Keeps.trans _ afterReset_keeps.keeps
    | with_reducible apply Keeps.trans _ beginBoot_keeps.keeps
    | with_reducible apply Keeps.trans _ (foldl_keeps _ _ _ _)
    | split)

theorem Box.abandon_staged (b : Box) : b.abandon.staged = b.staged := by
  unfold Box.abandon
  split <;> rfl

theorem holdUp_calm {vddMv : Nat} {s : State} : Calm s (holdUp vddMv s) := by
  unfold holdUp
  refine Calm.trans ?_ programRecord_calm
  split
  · exact modBox_calm _ _ fun h => by rw [Box.abandon_staged]; exact h
  · exact Calm.refl _

theorem execBrownout_keeps {vddMv : Nat} {s : State} {t : State} (h : execBrownout vddMv s = .next t) : Keeps s t := by
  unfold execBrownout at h
  cases h
  repeat' (first
    | exact rfl
    | with_reducible assumption
    | with_reducible exact Keeps.refl _
    | intro _
    | (extract_lets +onlyGivenNames x; with_reducible refine Keeps.step (x := x) ?_ ?_; (on_goal 1 => (unfold x; clear x)); on_goal 2 => (try clear_value x; revert x; intro _ _))
    | (extract_lets +onlyGivenNames y; try clear_value y; revert y; intro _)
    | with_reducible apply Keeps.trans _ holdUp_calm.keeps
    | with_reducible apply Keeps.trans _ (modCore_keeps ..)
    | with_reducible apply Keeps.trans _ afterReset_keeps.keeps
    | with_reducible apply Keeps.trans _ (foldl_keeps _ _ _ _)
    | split)

theorem execCauseLatchRetentionLoss_calm {s : State} {t : State} (h : execCauseLatchRetentionLoss s = .next t) : Calm s t := by
  unfold execCauseLatchRetentionLoss at h
  cases h
  repeat' (first
    | exact rfl
    | with_reducible assumption
    | with_reducible exact Calm.refl _
    | intro _
    | (extract_lets +onlyGivenNames y; try clear_value y; revert y; intro _)
    | with_reducible apply Calm.trans _ (modCore_calm _ _ _ _).calm
    | with_reducible apply Calm.trans _ (foldl_calm _ _ _ _)
    | split)

theorem execResetNLow_keeps {s : State} {t : State} (h : execResetNLow s = .next t) : Keeps s t := by
  unfold execResetNLow at h
  cases h
  repeat' (first
    | exact rfl
    | with_reducible assumption
    | with_reducible exact Keeps.refl _
    | intro _
    | (extract_lets +onlyGivenNames x; with_reducible refine Keeps.step (x := x) ?_ ?_; (on_goal 1 => (unfold x; clear x)); on_goal 2 => (try clear_value x; revert x; intro _ _))
    | (extract_lets +onlyGivenNames y; try clear_value y; revert y; intro _)
    | with_reducible apply Keeps.trans _ (modCore_keeps ..)
    | with_reducible apply Keeps.trans _ afterReset_keeps.keeps
    | with_reducible apply Keeps.trans _ (foldl_keeps _ _ _ _)
    | split)

theorem execResetNRelease_keeps {s : State} {t : State} (h : execResetNRelease s = .next t) : Keeps s t := by
  unfold execResetNRelease at h
  cases h
  repeat' (first
    | exact rfl
    | with_reducible assumption
    | with_reducible exact Keeps.refl _
    | intro _
    | (extract_lets +onlyGivenNames x; with_reducible refine Keeps.step (x := x) ?_ ?_; (on_goal 1 => (unfold x; clear x)); on_goal 2 => (try clear_value x; revert x; intro _ _))
    | (extract_lets +onlyGivenNames y; try clear_value y; revert y; intro _)
    | with_reducible apply Keeps.trans _ (modCore_keeps ..)
    | with_reducible apply Keeps.trans _ beginBoot_keeps.keeps
    | with_reducible apply Keeps.trans _ (foldl_keeps _ _ _ _)
    | split)

theorem execSysResetBootDelay_keeps {s : State} {t : State} (h : execSysResetBootDelay s = .next t) : Keeps s t := by
  unfold execSysResetBootDelay at h
  cases h
  repeat' (first
    | exact rfl
    | with_reducible assumption
    | with_reducible exact Keeps.refl _
    | intro _
    | (extract_lets +onlyGivenNames y; try clear_value y; revert y; intro _)
    | with_reducible apply Keeps.trans _ beginBoot_keeps.keeps
    | with_reducible apply Keeps.trans _ (foldl_keeps _ _ _ _)
    | split)

theorem execBootPorchAnswer_calm {s : State} {t : State} (h : execBootPorchAnswer s = .next t) : Calm s t := by
  unfold execBootPorchAnswer at h
  cases h
  repeat' (first
    | exact rfl
    | with_reducible assumption
    | with_reducible exact Calm.refl _
    | intro _
    | (extract_lets +onlyGivenNames y; try clear_value y; revert y; intro _)
    | with_reducible apply Calm.trans _ (modCore_calm _ _ _ _).calm
    | with_reducible apply Calm.trans _ (foldl_calm _ _ _ _)
    | split)

theorem bootSettings_calm {s : State} : Calm s (bootSettings s) := by
  unfold bootSettings
  repeat' (first
    | exact rfl
    | with_reducible assumption
    | with_reducible exact Calm.refl _
    | intro _
    | (extract_lets +onlyGivenNames y; try clear_value y; revert y; intro _)
    | with_reducible apply Calm.trans _ (modTime_calm ..).calm
    | with_reducible apply Calm.trans _ (modBus_calm ..).calm)

theorem bootRecords_calm {last : W32} {s : State} : Calm s (bootRecords last s) := by
  unfold bootRecords
  repeat' (first
    | exact rfl
    | with_reducible assumption
    | with_reducible exact Calm.refl _
    | intro _
    | (extract_lets +onlyGivenNames x; with_reducible refine Calm.step (x := x) ?_ ?_; (on_goal 1 => (unfold x; clear x)); on_goal 2 => (try clear_value x; revert x; intro _ _))
    | (extract_lets +onlyGivenNames y; try clear_value y; revert y; intro _)
    | with_reducible apply Calm.trans _ boxRecord_calm.calm
    | with_reducible apply Calm.trans _ (modBox_calm _ _ _).calm
    | with_reducible apply Calm.trans _ notice_calm.calm
    | with_reducible apply Calm.trans _ (foldl_calm _ _ _ _)
    | split
    | (simp [Box.foldl_write_staged, Box.write_staged]; done))

theorem autostart_calm {s : State} : Calm s (autostart s) := by
  unfold autostart
  repeat' (first
    | exact rfl
    | with_reducible assumption
    | with_reducible exact Calm.refl _
    | intro _
    | (extract_lets +onlyGivenNames x; with_reducible refine Calm.step (x := x) ?_ ?_; (on_goal 1 => (unfold x; clear x)); on_goal 2 => (try clear_value x; revert x; intro _ _))
    | (extract_lets +onlyGivenNames y; try clear_value y; revert y; intro _)
    | with_reducible apply Calm.trans _ refEnable_calm.calm
    | with_reducible apply Calm.trans _ notice_calm.calm
    | with_reducible apply Calm.trans _ (modCore_calm _ _ _ _).calm
    | with_reducible apply Calm.trans _ (foldl_calm _ _ _ _)
    | split)

theorem redoErase_calm {s : State} : Calm s (redoErase s) := by
  unfold redoErase
  repeat' (first
    | exact rfl
    | with_reducible assumption
    | with_reducible exact Calm.refl _
    | intro _
    | (extract_lets +onlyGivenNames y; try clear_value y; revert y; intro _)
    | with_reducible apply Calm.trans _ (modBox_calm _ _ _).calm
    | with_reducible apply Calm.trans _ (foldl_calm _ _ _ _)
    | split
    | (simp [Box.foldl_write_staged, Box.write_staged]; done))

theorem putInForce_calm {e : ElecSet} {s : State} : Calm s (putInForce e s).1 := by
  unfold putInForce
  dsimp only
  with_reducible apply Calm.trans _ calBoot_calm
  with_reducible apply Calm.trans _ loadElec_calm
  with_reducible exact selectBolt_calm

theorem endBoot_quiet {s : State} : Quiet s (endBoot s) := by
  unfold endBoot
  repeat' (first
    | exact rfl
    | with_reducible assumption
    | with_reducible exact Quiet.refl _
    | intro _
    | (extract_lets +onlyGivenNames x; with_reducible refine Quiet.step (x := x) ?_ ?_; (on_goal 1 => (unfold x; clear x)); on_goal 2 => (try clear_value x; revert x; intro _ _))
    | (extract_lets +onlyGivenNames y; revert y; intro _)
    | with_reducible apply Quiet.trans _ redoErase_calm.quiet
    | with_reducible apply Quiet.trans _ bootRecords_calm.quiet
    | with_reducible apply Quiet.trans _ bootSettings_calm.quiet
    | with_reducible apply Quiet.trans _ (modCore_calm _ _ _ _).quiet
    | with_reducible apply Quiet.trans _ ring_calm.quiet
    | with_reducible apply Quiet.trans _ flushHeld_calm.quiet
    | with_reducible apply Quiet.trans _ setDev_calm.quiet
    | with_reducible apply Quiet.trans _ (modFrame_calm _ _ rfl rfl).quiet
    | with_reducible apply Quiet.trans _ (modFrame_quiet _ _).quiet
    | with_reducible apply Quiet.trans _ autostart_calm.quiet
    | with_reducible apply Quiet.trans _ putInForce_calm.quiet
    | with_reducible apply Quiet.trans _ (foldl_quiet _ _ _ _)
    | split)



theorem execBootEnd_quiet {s : State} {t : State} (h : execBootEnd s = .next t) : Quiet s t := by
  unfold execBootEnd at h
  cases h
  repeat' (first
    | exact rfl
    | with_reducible assumption
    | with_reducible exact Quiet.refl _
    | intro _
    | (extract_lets +onlyGivenNames y; try clear_value y; revert y; intro _)
    | with_reducible apply Quiet.trans _ endBoot_quiet.quiet
    | with_reducible apply Quiet.trans _ (foldl_quiet _ _ _ _)
    | split)

theorem startOrWait_calm {s : State} : Calm s (startOrWait s) := by
  unfold startOrWait
  repeat' (first
    | exact rfl
    | with_reducible assumption
    | with_reducible exact Calm.refl _
    | intro _
    | (extract_lets +onlyGivenNames y; try clear_value y; revert y; intro _)
    | with_reducible apply Calm.trans _ startConverters_calm.calm
    | with_reducible apply Calm.trans _ (modSeq_calm ..).calm
    | with_reducible apply Calm.trans _ (foldl_calm _ _ _ _)
    | split)

theorem enterRun_calm {s : State} : Calm s (enterRun s) := by
  unfold enterRun
  repeat' (first
    | exact rfl
    | with_reducible assumption
    | with_reducible exact Calm.refl _
    | intro _
    | (extract_lets +onlyGivenNames x; with_reducible refine Calm.step (x := x) ?_ ?_; (on_goal 1 => (unfold x; clear x)); on_goal 2 => (try clear_value x; revert x; intro _ _))
    | (extract_lets +onlyGivenNames y; try clear_value y; revert y; intro _)
    | with_reducible apply Calm.trans _ enterDev_calm.calm
    | with_reducible apply Calm.trans _ autoEntry_calm.calm
    | with_reducible apply Calm.trans _ (modCore_calm _ _ _ _).calm
    | with_reducible apply Calm.trans _ (modLedger_calm ..).calm
    | with_reducible apply Calm.trans _ leveesEnter_calm.calm
    | with_reducible apply Calm.trans _ startOrWait_calm.calm
    | with_reducible apply Calm.trans _ resetAllLanes_calm.calm
    | with_reducible apply Calm.trans _ enterMode_calm.calm
    | with_reducible apply Calm.trans _ (eachPort_calm _).calm
    | with_reducible apply Calm.trans _ startPort_calm.calm
    | with_reducible apply Calm.trans _ (foldl_calm _ _ _ _)
    | split)

theorem startsDue_calm {s : State} : Calm s (startsDue s) := by
  unfold startsDue
  repeat' (first
    | exact rfl
    | with_reducible assumption
    | with_reducible exact Calm.refl _
    | intro _
    | (extract_lets +onlyGivenNames x; with_reducible refine Calm.step (x := x) ?_ ?_; (on_goal 1 => (unfold x; clear x)); on_goal 2 => (try clear_value x; revert x; intro _ _))
    | (extract_lets +onlyGivenNames y; try clear_value y; revert y; intro _)
    | with_reducible apply Calm.trans _ postStatus_calm.calm
    | with_reducible apply Calm.trans _ enterRun_calm.calm
    | with_reducible apply Calm.trans _ notice_calm.calm
    | with_reducible apply Calm.trans _ (modCore_calm _ _ _ _).calm
    | with_reducible apply Calm.trans _ (foldl_calm _ _ _ _)
    | split)

theorem finishStop_calm {s : State} : Calm s (finishStop s) := by
  unfold finishStop
  repeat' (first
    | exact rfl
    | with_reducible assumption
    | with_reducible exact Calm.refl _
    | intro _
    | (extract_lets +onlyGivenNames x; with_reducible refine Calm.step (x := x) ?_ ?_; (on_goal 1 => (unfold x; clear x)); on_goal 2 => (try clear_value x; revert x; intro _ _))
    | (extract_lets +onlyGivenNames y; try clear_value y; revert y; intro _)
    | with_reducible apply Calm.trans _ skipOwed_calm.calm
    | with_reducible apply Calm.trans _ endMeasuring_calm.calm
    | with_reducible apply Calm.trans _ calLeaves_calm.calm
    | with_reducible apply Calm.trans _ dropUrgent_calm.calm
    | with_reducible apply Calm.trans _ elecLeaves_calm.calm
    | with_reducible apply Calm.trans _ (modCore_calm _ _ _ _).calm
    | with_reducible apply Calm.trans _ enterDev_calm.calm
    | with_reducible apply Calm.trans _ completeWhere_calm.calm
    | with_reducible apply Calm.trans _ (foldl_calm _ _ _ _)
    | split)

theorem beginStop_calm {toHeld : Bool} {s : State} : Calm s (beginStop toHeld s) := by
  unfold beginStop
  repeat' (first
    | exact rfl
    | with_reducible assumption
    | with_reducible exact Calm.refl _
    | intro _
    | (extract_lets +onlyGivenNames x; with_reducible refine Calm.step (x := x) ?_ ?_; (on_goal 1 => (unfold x; clear x)); on_goal 2 => (try clear_value x; revert x; intro _ _))
    | (extract_lets +onlyGivenNames y; try clear_value y; revert y; intro _)
    | with_reducible apply Calm.trans _ applyPortStop_calm.calm
    | with_reducible apply Calm.trans _ (modCore_calm _ _ _ _).calm
    | with_reducible apply Calm.trans _ finishStop_calm.calm
    | with_reducible apply Calm.trans _ (eachPort_calm _).calm
    | with_reducible apply Calm.trans _ stopPort_calm.calm
    | with_reducible apply Calm.trans _ dropPort_calm.calm
    | with_reducible apply Calm.trans _ (foldl_calm _ _ _ _)
    | split)

theorem waitFor_calm {n : SlotId} {w : Wait} {s : State} : Calm s (waitFor n w s) := by
  unfold waitFor
  repeat' (first
    | exact rfl
    | with_reducible assumption
    | with_reducible exact Calm.refl _
    | intro _
    | (extract_lets +onlyGivenNames y; try clear_value y; revert y; intro _)
    | with_reducible apply Calm.trans _ (modMbox_calm ..).calm)

theorem applySysStop_calm {n : SlotId} {s : State} : Calm s (applySysStop n s) := by
  unfold applySysStop
  repeat' (first
    | exact rfl
    | with_reducible assumption
    | with_reducible exact Calm.refl _
    | intro _
    | (extract_lets +onlyGivenNames y; try clear_value y; revert y; intro _)
    | with_reducible apply Calm.trans _ beginStop_calm.calm
    | with_reducible apply Calm.trans _ waitFor_calm.calm
    | with_reducible apply Calm.trans _ postStatus_calm.calm
    | with_reducible apply Calm.trans _ (foldl_calm _ _ _ _)
    | split)

theorem holdFromReady_calm {s : State} : Calm s (holdFromReady s) := by
  unfold holdFromReady
  repeat' (first
    | exact rfl
    | with_reducible assumption
    | with_reducible exact Calm.refl _
    | intro _
    | (extract_lets +onlyGivenNames y; try clear_value y; revert y; intro _)
    | with_reducible apply Calm.trans _ enterDev_calm.calm
    | with_reducible apply Calm.trans _ dropUrgent_calm.calm
    | with_reducible apply Calm.trans _ elecLeaves_calm.calm
    | with_reducible apply Calm.trans _ (modCore_calm _ _ _ _).calm)

theorem applySysHold_calm {n : SlotId} {s : State} : Calm s (applySysHold n s) := by
  unfold applySysHold
  repeat' (first
    | exact rfl
    | with_reducible assumption
    | with_reducible exact Calm.refl _
    | intro _
    | (extract_lets +onlyGivenNames y; try clear_value y; revert y; intro _)
    | with_reducible apply Calm.trans _ beginStop_calm.calm
    | with_reducible apply Calm.trans _ waitFor_calm.calm
    | with_reducible apply Calm.trans _ postStatus_calm.calm
    | with_reducible apply Calm.trans _ holdFromReady_calm.calm
    | with_reducible apply Calm.trans _ (foldl_calm _ _ _ _)
    | split)

theorem execPortStopped_calm {p : PortId} {s : State} {t : State} (h : execPortStopped p s = .next t) : Calm s t := by
  unfold execPortStopped at h
  cases h
  repeat' (first
    | exact rfl
    | with_reducible assumption
    | with_reducible exact Calm.refl _
    | intro _
    | (extract_lets +onlyGivenNames y; try clear_value y; revert y; intro _)
    | with_reducible apply Calm.trans _ finishStop_calm.calm
    | with_reducible apply Calm.trans _ completeWhere_calm.calm
    | with_reducible apply Calm.trans _ dropPort_calm.calm
    | with_reducible apply Calm.trans _ (foldl_calm _ _ _ _)
    | split)

theorem execProtectionTrip_calm {p : PortId} {s : State} {t : State} (h : execProtectionTrip p s = .next t) : Calm s t := by
  unfold execProtectionTrip at h
  cases h
  repeat' (first
    | exact rfl
    | with_reducible assumption
    | with_reducible exact Calm.refl _
    | intro _
    | (extract_lets +onlyGivenNames y; try clear_value y; revert y; intro _)
    | with_reducible apply Calm.trans _ raise_calm.calm
    | with_reducible apply Calm.trans _ finishStop_calm.calm
    | with_reducible apply Calm.trans _ (modPort_calm ..).calm
    | with_reducible apply Calm.trans _ forcePort_calm.calm
    | with_reducible apply Calm.trans _ (foldl_calm _ _ _ _)
    | split)

theorem dozePort_calm {p : PortId} {s : State} : Calm s (dozePort p s) := by
  unfold dozePort
  repeat' (first
    | exact rfl
    | with_reducible assumption
    | with_reducible exact Calm.refl _
    | intro _
    | (extract_lets +onlyGivenNames y; try clear_value y; revert y; intro _)
    | with_reducible apply Calm.trans _ endGauze_calm.calm
    | with_reducible apply Calm.trans _ dropPort_calm.calm
    | with_reducible apply Calm.trans _ (foldl_calm _ _ _ _)
    | split)

theorem enterDoze_calm {s : State} : Calm s (enterDoze s) := by
  unfold enterDoze
  repeat' (first
    | exact rfl
    | with_reducible assumption
    | with_reducible exact Calm.refl _
    | intro _
    | (extract_lets +onlyGivenNames x; with_reducible refine Calm.step (x := x) ?_ ?_; (on_goal 1 => (unfold x; clear x)); on_goal 2 => (try clear_value x; revert x; intro _ _))
    | (extract_lets +onlyGivenNames y; try clear_value y; revert y; intro _)
    | with_reducible apply Calm.trans _ (modSeq_calm ..).calm
    | with_reducible apply Calm.trans _ endMeasuring_calm.calm
    | with_reducible apply Calm.trans _ (eachPort_calm _).calm
    | with_reducible apply Calm.trans _ dozePort_calm.calm
    | with_reducible apply Calm.trans _ calLeaves_calm.calm
    | with_reducible apply Calm.trans _ (modCore_calm _ _ _ _).calm
    | with_reducible apply Calm.trans _ dropUrgent_calm.calm
    | with_reducible apply Calm.trans _ elecLeaves_calm.calm
    | with_reducible apply Calm.trans _ (foldl_calm _ _ _ _)
    | split)

theorem applySysDoze_calm {n : SlotId} {s : State} : Calm s (applySysDoze n s) := by
  unfold applySysDoze
  repeat' (first
    | exact rfl
    | with_reducible assumption
    | with_reducible exact Calm.refl _
    | intro _
    | (extract_lets +onlyGivenNames y; try clear_value y; revert y; intro _)
    | with_reducible apply Calm.trans _ postStatus_calm.calm
    | with_reducible apply Calm.trans _ enterDoze_calm.calm
    | with_reducible apply Calm.trans _ (foldl_calm _ _ _ _)
    | split)

theorem completeWake_calm {w : Waking} {s : State} : Calm s (completeWake w s) := by
  unfold completeWake
  repeat' (first
    | exact rfl
    | with_reducible assumption
    | with_reducible exact Calm.refl _
    | intro _
    | (extract_lets +onlyGivenNames x; with_reducible refine Calm.step (x := x) ?_ ?_; (on_goal 1 => (unfold x; clear x)); on_goal 2 => (try clear_value x; revert x; intro _ _))
    | (extract_lets +onlyGivenNames y; try clear_value y; revert y; intro _)
    | with_reducible apply Calm.trans _ leaveDoze_calm.calm
    | with_reducible apply Calm.trans _ attn_calm.calm
    | with_reducible apply Calm.trans _ (modCore_calm _ _ _ _).calm
    | with_reducible apply Calm.trans _ owedActions_calm.calm
    | with_reducible apply Calm.trans _ refEnable_calm.calm
    | with_reducible apply Calm.trans _ (foldl_calm _ _ _ _)
    | split)

theorem execWakeComplete_calm {s : State} {t : State} (h : execWakeComplete s = .next t) : Calm s t := by
  unfold execWakeComplete at h
  cases h
  repeat' (first
    | exact rfl
    | with_reducible assumption
    | with_reducible exact Calm.refl _
    | intro _
    | (extract_lets +onlyGivenNames y; try clear_value y; revert y; intro _)
    | with_reducible apply Calm.trans _ completeWake_calm.calm
    | with_reducible apply Calm.trans _ (foldl_calm _ _ _ _)
    | split)

theorem resumeWake_calm {s : State} : Calm s (resumeWake s) := by
  unfold resumeWake
  repeat' (first
    | exact rfl
    | with_reducible assumption
    | with_reducible exact Calm.refl _
    | intro _
    | (extract_lets +onlyGivenNames x; with_reducible refine Calm.step (x := x) ?_ ?_; (on_goal 1 => (unfold x; clear x)); on_goal 2 => (try clear_value x; revert x; intro _ _))
    | (extract_lets +onlyGivenNames y; try clear_value y; revert y; intro _)
    | with_reducible apply Calm.trans _ (modCore_calm _ _ _ _).calm
    | with_reducible apply Calm.trans _ resetAllLanes_calm.calm
    | with_reducible apply Calm.trans _ startOrWait_calm.calm
    | with_reducible apply Calm.trans _ (eachPort_calm _).calm
    | with_reducible apply Calm.trans _ startPort_calm.calm
    | with_reducible apply Calm.trans _ gauzePortStart_calm.calm
    | with_reducible apply Calm.trans _ owedActions_calm.calm
    | with_reducible apply Calm.trans _ (foldl_calm _ _ _ _)
    | split)

theorem Core.disciplineAnew_lt (was : SysRec) (c : Core) : (c.disciplineAnew was).lt = c.lt := by
  unfold Core.disciplineAnew
  split <;> rfl

theorem Core.disciplineAnew_boots (was : SysRec) (c : Core) : (c.disciplineAnew was).bootCount = c.bootCount := by
  unfold Core.disciplineAnew
  split <;> rfl

theorem applySysRelease_calm {n : SlotId} {s : State} : Calm s (applySysRelease n s) := by
  unfold applySysRelease
  split
  · have k := putInForce_calm (e := s.elecSet) (s := s)
    generalize putInForce s.elecSet s = r at k ⊢
    have k := k.trans (modCore_calm (Core.disciplineAnew s.core.sys) r.1 (Core.disciplineAnew_lt ..)
      (Core.disciplineAnew_boots ..))
    dsimp only
    split
    · exact ((k.trans (modCore_calm _ _ rfl rfl)).trans enterDev_calm).trans postStatus_calm
    · exact (k.trans (modCore_calm _ _ rfl rfl)).trans postStatus_calm
  · exact postStatus_calm

theorem applySysRecover_calm {n : SlotId} {s : State} : Calm s (applySysRecover n s) := by
  unfold applySysRecover
  repeat' (first
    | exact rfl
    | with_reducible assumption
    | with_reducible exact Calm.refl _
    | intro _
    | (extract_lets +onlyGivenNames x; with_reducible refine Calm.step (x := x) ?_ ?_; (on_goal 1 => (unfold x; clear x)); on_goal 2 => (try clear_value x; revert x; intro _ _))
    | (extract_lets +onlyGivenNames y; try clear_value y; revert y; intro _)
    | with_reducible apply Calm.trans _ (eachPort_calm _).calm
    | with_reducible apply Calm.trans _ (modPort_calm ..).calm
    | with_reducible apply Calm.trans _ postStatus_calm.calm
    | with_reducible apply Calm.trans _ enterDev_calm.calm
    | with_reducible apply Calm.trans _ (foldl_calm _ _ _ _)
    | split)

theorem haltConverters_calm {s : State} : Calm s (haltConverters s) := by
  unfold haltConverters
  repeat' (first
    | exact rfl
    | with_reducible assumption
    | with_reducible exact Calm.refl _
    | intro _
    | (extract_lets +onlyGivenNames x; with_reducible refine Calm.step (x := x) ?_ ?_; (on_goal 1 => (unfold x; clear x)); on_goal 2 => (try clear_value x; revert x; intro _ _))
    | (extract_lets +onlyGivenNames y; try clear_value y; revert y; intro _)
    | with_reducible apply Calm.trans _ (modSeq_calm ..).calm
    | with_reducible apply Calm.trans _ stopConverters_calm.calm
    | with_reducible apply Calm.trans _ completeWhere_calm.calm)

theorem railStop_calm {a0 : Rail} {s : State} : Calm s (railStop a0 s) := by
  unfold railStop
  repeat' (first
    | exact rfl
    | with_reducible assumption
    | with_reducible exact Calm.refl _
    | intro _
    | (extract_lets +onlyGivenNames y; try clear_value y; revert y; intro _)
    | with_reducible apply Calm.trans _ haltConverters_calm.calm
    | with_reducible apply Calm.trans _ elecLeaves_calm.calm
    | with_reducible apply Calm.trans _ (eachPort_calm _).calm
    | with_reducible apply Calm.trans _ forceStopped_calm.calm
    | with_reducible apply Calm.trans _ (modHeat_calm ..).calm
    | with_reducible apply Calm.trans _ (foldl_calm _ _ _ _)
    | split)

theorem departure_calm {r : Rail} {s : State} : Calm s (departure r s) := by
  unfold departure
  repeat' (first
    | exact rfl
    | with_reducible assumption
    | with_reducible exact Calm.refl _
    | intro _
    | (extract_lets +onlyGivenNames x; with_reducible refine Calm.step (x := x) ?_ ?_; (on_goal 1 => (unfold x; clear x)); on_goal 2 => (try clear_value x; revert x; intro _ _))
    | (extract_lets +onlyGivenNames y; try clear_value y; revert y; intro _)
    | with_reducible apply Calm.trans _ (modCore_calm _ _ _ _).calm
    | with_reducible apply Calm.trans _ raise_calm.calm
    | with_reducible apply Calm.trans _ finishStop_calm.calm
    | with_reducible apply Calm.trans _ railStop_calm.calm)

theorem execRailDeparture_calm {r : Rail} {s : State} {t : State} (h : execRailDeparture r s = .next t) : Calm s t := by
  unfold execRailDeparture at h
  cases h
  repeat' (first
    | exact rfl
    | with_reducible assumption
    | with_reducible exact Calm.refl _
    | intro _
    | (extract_lets +onlyGivenNames y; try clear_value y; revert y; intro _)
    | with_reducible apply Calm.trans _ departure_calm.calm
    | with_reducible apply Calm.trans _ (foldl_calm _ _ _ _)
    | split)

theorem execDisciplineSourceStopped_calm {s : State} {t : State} (h : execDisciplineSourceStopped s = .next t) : Calm s t := by
  unfold execDisciplineSourceStopped at h
  cases h
  repeat' (first
    | exact rfl
    | with_reducible assumption
    | with_reducible exact Calm.refl _
    | intro _
    | (extract_lets +onlyGivenNames y; try clear_value y; revert y; intro _)
    | with_reducible apply Calm.trans _ notice_calm.calm
    | with_reducible apply Calm.trans _ (modCore_calm _ _ _ _).calm
    | with_reducible apply Calm.trans _ (foldl_calm _ _ _ _)
    | split)

theorem execDisciplineSourcePresent_calm {s : State} {t : State} (h : execDisciplineSourcePresent s = .next t) : Calm s t := by
  unfold execDisciplineSourcePresent at h
  cases h
  repeat' (first
    | exact rfl
    | with_reducible assumption
    | with_reducible exact Calm.refl _
    | intro _
    | (extract_lets +onlyGivenNames x; with_reducible refine Calm.step (x := x) ?_ ?_; (on_goal 1 => (unfold x; clear x)); on_goal 2 => (try clear_value x; revert x; intro _ _))
    | (extract_lets +onlyGivenNames y; try clear_value y; revert y; intro _)
    | with_reducible apply Calm.trans _ (modCore_calm _ _ _ _).calm
    | with_reducible apply Calm.trans _ notice_calm.calm
    | with_reducible apply Calm.trans _ (foldl_calm _ _ _ _)
    | split)

theorem execSysStart_calm {n : SlotId} {s : State} {t : State} (h : execSysStart n s = .next t) : Calm s t := by
  unfold execSysStart at h
  cases h
  repeat' (first
    | exact rfl
    | with_reducible assumption
    | with_reducible exact Calm.refl _
    | intro _
    | (extract_lets +onlyGivenNames x; with_reducible refine Calm.step (x := x) ?_ ?_; (on_goal 1 => (unfold x; clear x)); on_goal 2 => (try clear_value x; revert x; intro _ _))
    | (extract_lets +onlyGivenNames y; try clear_value y; revert y; intro _)
    | with_reducible apply Calm.trans _ (onSlot_calm _).calm
    | with_reducible apply Calm.trans _ postStatus_calm.calm
    | with_reducible apply Calm.trans _ refEnable_calm.calm
    | with_reducible apply Calm.trans _ pendOn_calm.calm
    | with_reducible apply Calm.trans _ (foldl_calm _ _ _ _)
    | split)

theorem execSysStop_calm {n : SlotId} {s : State} {t : State} (h : execSysStop n s = .next t) : Calm s t := by
  unfold execSysStop at h
  cases h
  repeat' (first
    | exact rfl
    | with_reducible assumption
    | with_reducible exact Calm.refl _
    | intro _
    | (extract_lets +onlyGivenNames y; try clear_value y; revert y; intro _)
    | with_reducible apply Calm.trans _ (onSlot_calm _).calm
    | with_reducible apply Calm.trans _ pendBoundary_calm.calm)

theorem execSysHold_calm {n : SlotId} {s : State} {t : State} (h : execSysHold n s = .next t) : Calm s t := by
  unfold execSysHold at h
  cases h
  repeat' (first
    | exact rfl
    | with_reducible assumption
    | with_reducible exact Calm.refl _
    | intro _
    | (extract_lets +onlyGivenNames y; try clear_value y; revert y; intro _)
    | with_reducible apply Calm.trans _ (onSlot_calm _).calm
    | with_reducible apply Calm.trans _ postStatus_calm.calm
    | with_reducible apply Calm.trans _ holdFromReady_calm.calm
    | with_reducible apply Calm.trans _ pendBoundary_calm.calm
    | with_reducible apply Calm.trans _ (foldl_calm _ _ _ _)
    | split)

theorem execSysRelease_calm {n : SlotId} {s : State} {t : State} (h : execSysRelease n s = .next t) : Calm s t := by
  unfold execSysRelease at h
  cases h
  repeat' (first
    | exact rfl
    | with_reducible assumption
    | with_reducible exact Calm.refl _
    | intro _
    | (extract_lets +onlyGivenNames y; try clear_value y; revert y; intro _)
    | with_reducible apply Calm.trans _ (onSlot_calm _).calm
    | with_reducible apply Calm.trans _ pendBoundary_calm.calm
    | with_reducible apply Calm.trans _ postStatus_calm.calm
    | with_reducible apply Calm.trans _ (foldl_calm _ _ _ _)
    | split)

theorem execSysDoze_calm {n : SlotId} {s : State} {t : State} (h : execSysDoze n s = .next t) : Calm s t := by
  unfold execSysDoze at h
  cases h
  repeat' (first
    | exact rfl
    | with_reducible assumption
    | with_reducible exact Calm.refl _
    | intro _
    | (extract_lets +onlyGivenNames y; try clear_value y; revert y; intro _)
    | with_reducible apply Calm.trans _ (onSlot_calm _).calm
    | with_reducible apply Calm.trans _ pendBoundary_calm.calm)

theorem execSysReset_calm {n : SlotId} {s : State} {t : State} (h : execSysReset n s = .next t) : Calm s t := by
  unfold execSysReset at h
  cases h
  repeat' (first
    | exact rfl
    | with_reducible assumption
    | with_reducible exact Calm.refl _
    | intro _
    | (extract_lets +onlyGivenNames y; try clear_value y; revert y; intro _)
    | with_reducible apply Calm.trans _ (onSlot_calm _).calm
    | with_reducible apply Calm.trans _ badArg_calm.calm
    | with_reducible apply Calm.trans _ postStatus_calm.calm
    | with_reducible apply Calm.trans _ (modCore_calm _ _ _ _).calm
    | with_reducible apply Calm.trans _ (foldl_calm _ _ _ _)
    | split)

theorem execSysRecover_calm {n : SlotId} {s : State} {t : State} (h : execSysRecover n s = .next t) : Calm s t := by
  unfold execSysRecover at h
  cases h
  repeat' (first
    | exact rfl
    | with_reducible assumption
    | with_reducible exact Calm.refl _
    | intro _
    | (extract_lets +onlyGivenNames y; try clear_value y; revert y; intro _)
    | with_reducible apply Calm.trans _ (onSlot_calm _).calm
    | with_reducible apply Calm.trans _ postStatus_calm.calm
    | with_reducible apply Calm.trans _ pendBoundary_calm.calm
    | with_reducible apply Calm.trans _ (foldl_calm _ _ _ _)
    | split)

theorem execSysInfo_calm {n : SlotId} {s : State} {t : State} (h : execSysInfo n s = .next t) : Calm s t := by
  unfold execSysInfo at h
  cases h
  repeat' (first
    | exact rfl
    | with_reducible assumption
    | with_reducible exact Calm.refl _
    | intro _
    | (extract_lets +onlyGivenNames y; try clear_value y; revert y; intro _)
    | with_reducible apply Calm.trans _ (onSlot_calm _).calm
    | with_reducible apply Calm.trans _ postOk_calm.calm)

theorem execSysPatch_calm {n : SlotId} {s : State} {t : State} (h : execSysPatch n s = .next t) : Calm s t := by
  unfold execSysPatch at h
  cases h
  repeat' (first
    | exact rfl
    | with_reducible assumption
    | with_reducible exact Calm.refl _
    | intro _
    | (extract_lets +onlyGivenNames y; try clear_value y; revert y; intro _)
    | with_reducible apply Calm.trans _ (onSlot_calm _).calm
    | with_reducible apply Calm.trans _ (chunk_calm _ _ _).calm
    | with_reducible apply Calm.trans _ pendOn_calm.calm
    | with_reducible apply Calm.trans _ postStatus_calm.calm
    | with_reducible apply Calm.trans _ (foldl_calm _ _ _ _)
    | split
    | dsimp only [sysPatchCmd])

theorem execPatchProgrammed_calm {s : State} {t : State} (h : execPatchProgrammed s = .next t) : Calm s t := by
  unfold execPatchProgrammed at h
  cases h
  repeat' (first
    | exact rfl
    | with_reducible assumption
    | with_reducible exact Calm.refl _
    | intro _
    | (extract_lets +onlyGivenNames x; with_reducible refine Calm.step (x := x) ?_ ?_; (on_goal 1 => (unfold x; clear x)); on_goal 2 => (try clear_value x; revert x; intro _ _))
    | (extract_lets +onlyGivenNames y; try clear_value y; revert y; intro _)
    | with_reducible apply Calm.trans _ (modFaults_calm ..).calm
    | with_reducible apply Calm.trans _ boxRecord_calm.calm
    | with_reducible apply Calm.trans _ (modCore_calm _ _ _ _).calm
    | with_reducible apply Calm.trans _ postStatus_calm.calm
    | with_reducible apply Calm.trans _ (foldl_calm _ _ _ _)
    | split)

end Sys2Proof.Machine
end

