-- ==== Sys2Proof/Laws/Boundary.lean ====
section
/-!
SUPPORT. What the operations of Boundary.lean leave alone (Laws/Steady.lean), one lemma for each.
-/

set_option linter.unusedTactic false
set_option linter.unreachableTactic false
set_option linter.tactic.unusedName false

namespace Sys2Proof.Machine

theorem thenOk_calm {f : List Byte → State → State} {n : SlotId} {p : List Byte} {s : State} (h_f : ∀ x0 s, Calm s (f x0 s)) : Calm s (thenOk f n p s) := by
  unfold thenOk
  repeat' (first
    | exact rfl
    | with_reducible assumption
    | with_reducible exact Calm.refl _
    | intro _
    | (extract_lets +onlyGivenNames y; try clear_value y; revert y; intro _)
    | with_reducible apply Calm.trans _ postStatus_calm.calm
    | with_reducible apply Calm.trans _ (foldl_calm _ _ _ _)
    | with_reducible apply Calm.trans _ (h_f _ _))

theorem thenOk_quiet {f : List Byte → State → State} {n : SlotId} {p : List Byte} {s : State} (h_f : ∀ x0 s, Quiet s (f x0 s)) : Quiet s (thenOk f n p s) := by
  unfold thenOk
  repeat' (first
    | exact rfl
    | with_reducible assumption
    | with_reducible exact Quiet.refl _
    | intro _
    | (extract_lets +onlyGivenNames y; try clear_value y; revert y; intro _)
    | with_reducible apply Quiet.trans _ postStatus_calm.quiet
    | with_reducible apply Quiet.trans _ (foldl_quiet _ _ _ _)
    | with_reducible apply Quiet.trans _ (h_f _ _))

theorem thenOk_guard {f : List Byte → State → State} {n : SlotId} {p : List Byte} {s : State} (h_f : ∀ x0 s, Guard s (f x0 s)) : Guard s (thenOk f n p s) := by
  unfold thenOk
  repeat' (first
    | exact rfl
    | with_reducible assumption
    | with_reducible exact Guard.refl _
    | intro _
    | (extract_lets +onlyGivenNames y; try clear_value y; revert y; intro _)
    | with_reducible apply Guard.trans _ postStatus_calm.guard
    | with_reducible apply Guard.trans _ (foldl_guard _ _ _ _)
    | with_reducible apply Guard.trans _ (h_f _ _))

theorem thenOk_keeps {f : List Byte → State → State} {n : SlotId} {p : List Byte} {s : State} (h_f : ∀ x0 s, Keeps s (f x0 s)) : Keeps s (thenOk f n p s) := by
  unfold thenOk
  repeat' (first
    | exact rfl
    | with_reducible assumption
    | with_reducible exact Keeps.refl _
    | intro _
    | (extract_lets +onlyGivenNames y; try clear_value y; revert y; intro _)
    | with_reducible apply Keeps.trans _ postStatus_calm.keeps
    | with_reducible apply Keeps.trans _ (foldl_keeps _ _ _ _)
    | with_reducible apply Keeps.trans _ (h_f _ _))

theorem ifStill_calm {fault : List Byte → State → Option Nat} {f : List Byte → State → State} {n : SlotId} {p : List Byte} {s : State} (h_f : ∀ x0 s, Calm s (f x0 s)) : Calm s (ifStill fault f n p s) := by
  unfold ifStill
  repeat' (first
    | exact rfl
    | with_reducible assumption
    | with_reducible exact Calm.refl _
    | intro _
    | (extract_lets +onlyGivenNames y; try clear_value y; revert y; intro _)
    | with_reducible apply Calm.trans _ postStatus_calm.calm
    | with_reducible apply Calm.trans _ (thenOk_calm _).calm
    | with_reducible apply Calm.trans _ (foldl_calm _ _ _ _)
    | with_reducible apply Calm.trans _ (h_f _ _)
    | split)

theorem ifStill_quiet {fault : List Byte → State → Option Nat} {f : List Byte → State → State} {n : SlotId} {p : List Byte} {s : State} (h_f : ∀ x0 s, Quiet s (f x0 s)) : Quiet s (ifStill fault f n p s) := by
  unfold ifStill
  repeat' (first
    | exact rfl
    | with_reducible assumption
    | with_reducible exact Quiet.refl _
    | intro _
    | (extract_lets +onlyGivenNames y; try clear_value y; revert y; intro _)
    | with_reducible apply Quiet.trans _ postStatus_calm.quiet
    | with_reducible apply Quiet.trans _ (thenOk_quiet _).quiet
    | with_reducible apply Quiet.trans _ (foldl_quiet _ _ _ _)
    | with_reducible apply Quiet.trans _ (h_f _ _)
    | split)

theorem ifStill_guard {fault : List Byte → State → Option Nat} {f : List Byte → State → State} {n : SlotId} {p : List Byte} {s : State} (h_f : ∀ x0 s, Guard s (f x0 s)) : Guard s (ifStill fault f n p s) := by
  unfold ifStill
  repeat' (first
    | exact rfl
    | with_reducible assumption
    | with_reducible exact Guard.refl _
    | intro _
    | (extract_lets +onlyGivenNames y; try clear_value y; revert y; intro _)
    | with_reducible apply Guard.trans _ postStatus_calm.guard
    | with_reducible apply Guard.trans _ (thenOk_guard _).guard
    | with_reducible apply Guard.trans _ (foldl_guard _ _ _ _)
    | with_reducible apply Guard.trans _ (h_f _ _)
    | split)

theorem ifStill_keeps {fault : List Byte → State → Option Nat} {f : List Byte → State → State} {n : SlotId} {p : List Byte} {s : State} (h_f : ∀ x0 s, Keeps s (f x0 s)) : Keeps s (ifStill fault f n p s) := by
  unfold ifStill
  repeat' (first
    | exact rfl
    | with_reducible assumption
    | with_reducible exact Keeps.refl _
    | intro _
    | (extract_lets +onlyGivenNames y; try clear_value y; revert y; intro _)
    | with_reducible apply Keeps.trans _ postStatus_calm.keeps
    | with_reducible apply Keeps.trans _ (thenOk_keeps _).keeps
    | with_reducible apply Keeps.trans _ (foldl_keeps _ _ _ _)
    | with_reducible apply Keeps.trans _ (h_f _ _)
    | split)

theorem applyPortBiasAt_calm {n : SlotId} {p : List Byte} {s : State} : Calm s (applyPortBiasAt n p s) := by
  unfold applyPortBiasAt
  repeat' (first
    | exact rfl
    | with_reducible assumption
    | with_reducible exact Calm.refl _
    | intro _
    | (extract_lets +onlyGivenNames y; try clear_value y; revert y; intro _)
    | with_reducible apply Calm.trans _ badArg_calm.calm
    | with_reducible apply Calm.trans _ (ifStill_calm _).calm
    | with_reducible apply Calm.trans _ applyPortBias_calm.calm
    | with_reducible apply Calm.trans _ (foldl_calm _ _ _ _)
    | split)

theorem applyHeatStop_calm {n : SlotId} {p : List Byte} {s : State} : Calm s (applyHeatStop n p s) := by
  unfold applyHeatStop
  repeat' (first
    | exact rfl
    | with_reducible assumption
    | with_reducible exact Calm.refl _
    | intro _
    | (extract_lets +onlyGivenNames x; with_reducible refine Calm.step (x := x) ?_ ?_; (on_goal 1 => (unfold x; clear x)); on_goal 2 => (try clear_value x; revert x; intro _ _))
    | (extract_lets +onlyGivenNames y; try clear_value y; revert y; intro _)
    | with_reducible apply Calm.trans _ stopProfile_calm.calm
    | with_reducible apply Calm.trans _ postStatus_calm.calm
    | with_reducible apply Calm.trans _ startProfile_calm.calm
    | with_reducible apply Calm.trans _ (foldl_calm _ _ _ _)
    | split)

theorem applySeqLoadAt_calm {n : SlotId} {p : List Byte} {s : State} : Calm s (applySeqLoadAt n p s) := by
  unfold applySeqLoadAt
  repeat' (first
    | exact rfl
    | with_reducible assumption
    | with_reducible exact Calm.refl _
    | intro _
    | (extract_lets +onlyGivenNames y; try clear_value y; revert y; intro _)
    | with_reducible apply Calm.trans _ postStatus_calm.calm
    | with_reducible apply Calm.trans _ applySeqLoad_calm.calm
    | with_reducible apply Calm.trans _ (foldl_calm _ _ _ _)
    | split)

theorem applySeqMode_calm {n : SlotId} {p : List Byte} {s : State} : Calm s (applySeqMode n p s) := by
  unfold applySeqMode
  repeat' (first
    | exact rfl
    | with_reducible assumption
    | with_reducible exact Calm.refl _
    | intro _
    | (extract_lets +onlyGivenNames y; try clear_value y; revert y; intro _)
    | with_reducible apply Calm.trans _ postStatus_calm.calm
    | with_reducible apply Calm.trans _ applyMode_calm.calm
    | with_reducible apply Calm.trans _ (foldl_calm _ _ _ _)
    | split)

theorem applyGasModelAt_calm {n : SlotId} {p : List Byte} {s : State} : Calm s (applyGasModelAt n p s) := by
  unfold applyGasModelAt
  split
  · rename_i t h
    exact (applyGasModel_calm h).trans postStatus_calm
  · exact badArg_calm

theorem portDue_calm {op : W16} {n : SlotId} {p : List Byte} {s : State} : Calm s (portDue op n p s) := by
  unfold portDue
  repeat' (first
    | exact rfl
    | with_reducible assumption
    | with_reducible exact Calm.refl _
    | intro _
    | (extract_lets +onlyGivenNames y; try clear_value y; revert y; intro _)
    | with_reducible apply Calm.trans _ applyPortMode_calm.calm
    | with_reducible apply Calm.trans _ applyPortBiasAt_calm.calm
    | with_reducible apply Calm.trans _ (thenOk_calm _).calm
    | with_reducible apply Calm.trans _ applyPortRange_calm.calm
    | with_reducible apply Calm.trans _ applyPortWindow_calm.calm
    | with_reducible apply Calm.trans _ applyPortSettle_calm.calm
    | with_reducible apply Calm.trans _ (ifStill_calm _).calm
    | with_reducible apply Calm.trans _ applyPortAux_calm.calm
    | with_reducible apply Calm.trans _ applyPortRing_calm.calm
    | with_reducible apply Calm.trans _ applyPortLayer_calm.calm
    | with_reducible apply Calm.trans _ applyPortStart_calm.calm
    | with_reducible apply Calm.trans _ applyPortStop_calm.calm
    | with_reducible apply Calm.trans _ (foldl_calm _ _ _ _)
    | split)

theorem chainDue_calm {op : W16} {n : SlotId} {p : List Byte} {s : State} : Calm s (chainDue op n p s) := by
  unfold chainDue
  repeat' (first
    | exact rfl
    | with_reducible assumption
    | with_reducible exact Calm.refl _
    | intro _
    | (extract_lets +onlyGivenNames y; try clear_value y; revert y; intro _)
    | with_reducible apply Calm.trans _ applyHeatStart_calm.calm
    | with_reducible apply Calm.trans _ applyHeatStop_calm.calm
    | with_reducible apply Calm.trans _ applyGauzeStart_calm.calm
    | with_reducible apply Calm.trans _ applyGauzeStop_calm.calm
    | with_reducible apply Calm.trans _ (ifStill_calm _).calm
    | with_reducible apply Calm.trans _ applyGauzeCap_calm.calm
    | with_reducible apply Calm.trans _ applySeqLoadAt_calm.calm
    | with_reducible apply Calm.trans _ applySeqMode_calm.calm
    | with_reducible apply Calm.trans _ applySeqStart_calm.calm
    | with_reducible apply Calm.trans _ applyWeaveSetAt_calm.calm
    | with_reducible apply Calm.trans _ (foldl_calm _ _ _ _)
    | split)

theorem engineDue_calm {op : W16} {n : SlotId} {p : List Byte} {s : State} : Calm s (engineDue op n p s) := by
  unfold engineDue
  repeat' (first
    | exact rfl
    | with_reducible assumption
    | with_reducible exact Calm.refl _
    | intro _
    | (extract_lets +onlyGivenNames y; try clear_value y; revert y; intro _)
    | with_reducible apply Calm.trans _ applyGasModelAt_calm.calm
    | with_reducible apply Calm.trans _ (ifStill_calm _).calm
    | with_reducible apply Calm.trans _ applyGasMatrix_calm.calm
    | with_reducible apply Calm.trans _ (thenOk_calm _).calm
    | with_reducible apply Calm.trans _ applyGasChannel_calm.calm
    | with_reducible apply Calm.trans _ applyLeveeSet_calm.calm
    | with_reducible apply Calm.trans _ applyCalCommit_calm.calm
    | with_reducible apply Calm.trans _ applyCalAbort_calm.calm
    | with_reducible apply Calm.trans _ applyCalRange_calm.calm
    | with_reducible apply Calm.trans _ applyPattern_calm.calm
    | with_reducible apply Calm.trans _ applySelect_calm.calm
    | with_reducible apply Calm.trans _ applyPolder_calm.calm
    | with_reducible apply Calm.trans _ applyTimeSelect_calm.calm
    | with_reducible apply Calm.trans _ (foldl_calm _ _ _ _)
    | split)

theorem sysDue_calm {op : W16} {n : SlotId} {s : State} : Calm s (sysDue op n s) := by
  unfold sysDue
  repeat' (first
    | exact rfl
    | with_reducible assumption
    | with_reducible exact Calm.refl _
    | intro _
    | (extract_lets +onlyGivenNames y; try clear_value y; revert y; intro _)
    | with_reducible apply Calm.trans _ applySysStop_calm.calm
    | with_reducible apply Calm.trans _ applySysHold_calm.calm
    | with_reducible apply Calm.trans _ applySysRelease_calm.calm
    | with_reducible apply Calm.trans _ applySysDoze_calm.calm
    | with_reducible apply Calm.trans _ applySysRecover_calm.calm
    | with_reducible apply Calm.trans _ (foldl_calm _ _ _ _)
    | split)

theorem applyDue_calm {x : Pend} {s : State} : Calm s (applyDue x s) := by
  unfold applyDue
  repeat' (first
    | exact rfl
    | with_reducible assumption
    | with_reducible exact Calm.refl _
    | intro _
    | (extract_lets +onlyGivenNames y; try clear_value y; revert y; intro _)
    | with_reducible apply Calm.trans _ postStatus_calm.calm
    | with_reducible apply Calm.trans _ applyTimeSet_calm.calm
    | with_reducible apply Calm.trans _ sysDue_calm.calm
    | with_reducible apply Calm.trans _ portDue_calm.calm
    | with_reducible apply Calm.trans _ chainDue_calm.calm
    | with_reducible apply Calm.trans _ engineDue_calm.calm
    | with_reducible apply Calm.trans _ (foldl_calm _ _ _ _)
    | split)

theorem applyRankDue_calm {r : Nat} {s : State} : Calm s (applyRankDue r s) := by
  unfold applyRankDue
  repeat' (first
    | exact rfl
    | with_reducible assumption
    | with_reducible exact Calm.refl _
    | intro _
    | (extract_lets +onlyGivenNames y; try clear_value y; revert y; intro _)
    | with_reducible apply Calm.trans _ applyDue_calm.calm
    | with_reducible apply Calm.trans _ (foldl_calm _ _ _ _)
    | split)

theorem countPend_calm {s : State} : Calm s (countPend s) := by
  unfold countPend
  repeat' (first
    | exact rfl
    | with_reducible assumption
    | with_reducible exact Calm.refl _
    | intro _
    | (extract_lets +onlyGivenNames y; try clear_value y; revert y; intro _)
    | with_reducible apply Calm.trans _ (modMbox_calm ..).calm)

theorem gauzeCount_calm {p : PortId} {s : State} : Calm s (gauzeCount p s) := by
  unfold gauzeCount
  repeat' (first
    | exact rfl
    | with_reducible assumption
    | with_reducible exact Calm.refl _
    | intro _
    | (extract_lets +onlyGivenNames x; with_reducible refine Calm.step (x := x) ?_ ?_; (on_goal 1 => (unfold x; clear x)); on_goal 2 => (try clear_value x; revert x; intro _ _))
    | (extract_lets +onlyGivenNames y; try clear_value y; revert y; intro _)
    | with_reducible apply Calm.trans _ (modGauzeAt_calm ..).calm
    | with_reducible apply Calm.trans _ tryGauze_calm.calm
    | with_reducible apply Calm.trans _ skipGauze_calm.calm
    | with_reducible apply Calm.trans _ (foldl_calm _ _ _ _)
    | split)

theorem boundaryMoves_calm {s : State} : Calm s (boundaryMoves s) := by
  unfold boundaryMoves
  repeat' (first
    | exact rfl
    | with_reducible assumption
    | with_reducible exact Calm.refl _
    | intro _
    | (extract_lets +onlyGivenNames x; with_reducible refine Calm.step (x := x) ?_ ?_; (on_goal 1 => (unfold x; clear x)); on_goal 2 => (try clear_value x; revert x; intro _ _))
    | (extract_lets +onlyGivenNames y; try clear_value y; revert y; intro _)
    | with_reducible apply Calm.trans _ elecBoundary_calm.calm
    | with_reducible apply Calm.trans _ endHolds_calm.calm
    | with_reducible apply Calm.trans _ (eachPort_calm _).calm
    | with_reducible apply Calm.trans _ heatBoundary_calm.calm
    | with_reducible apply Calm.trans _ grantsOutsideRun_calm.calm
    | with_reducible apply Calm.trans _ resumeWake_calm.calm
    | with_reducible apply Calm.trans _ startsDue_calm.calm
    | with_reducible apply Calm.trans _ applyRankDue_calm.calm
    | with_reducible apply Calm.trans _ gauzeCount_calm.calm
    | with_reducible apply Calm.trans _ countPend_calm.calm
    | with_reducible apply Calm.trans _ (foldl_calm _ _ _ _)
    | split)

theorem previewHeaters_calm {s : State} : Calm s (previewHeaters s) := by
  unfold previewHeaters
  repeat' (first
    | exact rfl
    | with_reducible assumption
    | with_reducible exact Calm.refl _
    | intro _
    | (extract_lets +onlyGivenNames y; try clear_value y; revert y; intro _)
    | with_reducible apply Calm.trans _ (modHeat_calm ..).calm)

theorem planRow_calm {op : Nat} {p : List Byte} {row : SlotId → State → Host.Outcome State Fault Refusal}
    (h : planRow op p = some row) {n : SlotId} {s t : State} (k : row n s = .next t) : Calm s t := by
  unfold planRow at h
  split at h
  · cases h; exact execPortRange_calm k
  split at h
  · cases h; exact execPortWindow_calm k
  split at h
  · cases h; exact execCalRange_calm k
  split at h
  · cases h; exact execFramePattern_calm k
  split at h
  · cases h; exact execFrameSelect_calm k
  split at h
  · cases h; exact execFramePolder_calm k
  · cases h

theorem planQueued_calm {s : State} : Calm s (planQueued s) := by
  refine foldl_calm _ _ _ fun s n => ?_
  split
  · rename_i h
    split
    · exact dispatchSlot_calm.trans (planRow_calm h ‹_›)
    · exact Calm.refl _
  · exact Calm.refl _

theorem ackAtFreeze_calm {n : W32} {s : State} : Calm s (ackAtFreeze n s).2 := by
  unfold ackAtFreeze
  dsimp only
  split
  · exact ((modTherm_calm ..).trans thermUpdate_calm).trans effectAtFrame_calm
  · exact effectAtFrame_calm

theorem planFor_calm {ended : Bool} {pv r s bare : State} (h : Calm r s) (k : Calm r bare) :
    Calm r (planFor ended pv s bare) := by
  unfold planFor
  split
  · exact h.trans freeze_calm
  · exact k

theorem execPlanFreeze_calm {s t : State} (h : execPlanFreeze s = .next t) : Calm s t := by
  unfold execPlanFreeze at h
  cases h
  split
  · exact (planFor_calm (ackAtFreeze_calm.trans grantsAtFreeze_calm) ackAtFreeze_calm).trans (modPlan_calm ..)
  · exact Calm.refl _

theorem freezeLate_calm {s : State} : Calm s (freezeLate s) := by
  unfold freezeLate
  split
  · exact (planFor_calm ((ackAtFreeze_calm.trans grantsAtFreeze_calm).trans (modLedger_calm ..))
      ackAtFreeze_calm).trans (modLedger_calm ..)
  · exact Calm.refl _

theorem vddNotices_calm {s : State} : Calm s (vddNotices s) := by
  unfold vddNotices
  repeat' (first
    | exact rfl
    | with_reducible assumption
    | with_reducible exact Calm.refl _
    | intro _
    | (extract_lets +onlyGivenNames x; with_reducible refine Calm.step (x := x) ?_ ?_; (on_goal 1 => (unfold x; clear x)); on_goal 2 => (try clear_value x; revert x; intro _ _))
    | (extract_lets +onlyGivenNames y; try clear_value y; revert y; intro _)
    | with_reducible apply Calm.trans _ (modCore_calm _ _ _ _).calm
    | with_reducible apply Calm.trans _ notice_calm.calm
    | with_reducible apply Calm.trans _ (foldl_calm _ _ _ _)
    | split)

theorem ageFrames_calm {s : State} : Calm s (ageFrames s) := by
  unfold ageFrames
  repeat' (first
    | exact rfl
    | with_reducible assumption
    | with_reducible exact Calm.refl _
    | intro _
    | (extract_lets +onlyGivenNames x; with_reducible refine Calm.step (x := x) ?_ ?_; (on_goal 1 => (unfold x; clear x)); on_goal 2 => (try clear_value x; revert x; intro _ _))
    | (extract_lets +onlyGivenNames y; try clear_value y; revert y; intro _)
    | with_reducible apply Calm.trans _ weftCycle_calm.calm
    | with_reducible apply Calm.trans _ (modPorts_calm ..).calm
    | with_reducible apply Calm.trans _ (modCal_calm ..).calm
    | with_reducible apply Calm.trans _ (modTime_calm ..).calm)

theorem closeFrame_calm {s : State} : Calm s (closeFrame s) := by
  unfold closeFrame
  repeat' (first
    | exact rfl
    | with_reducible assumption
    | with_reducible exact Calm.refl _
    | intro _
    | (extract_lets +onlyGivenNames x; with_reducible refine Calm.step (x := x) ?_ ?_; (on_goal 1 => (unfold x; clear x)); on_goal 2 => (try clear_value x; revert x; intro _ _))
    | (extract_lets +onlyGivenNames y; try clear_value y; revert y; intro _)
    | with_reducible apply Calm.trans _ (modFrame_calm _ _ _ _).calm
    | with_reducible apply Calm.trans _ ageFrames_calm.calm
    | with_reducible apply Calm.trans _ ledgerBoundary_calm.calm
    | with_reducible apply Calm.trans _ vddNotices_calm.calm)

theorem gasBoundary_calm {ran : Bool} {s : State} : Calm s (gasBoundary ran s) := by
  unfold gasBoundary
  repeat' (first
    | exact rfl
    | with_reducible assumption
    | with_reducible exact Calm.refl _
    | intro _
    | (extract_lets +onlyGivenNames y; try clear_value y; revert y; intro _)
    | with_reducible apply Calm.trans _ (modGas_calm ..).calm)

theorem tempsBoundary_calm {s : State} : Calm s (tempsBoundary s) := by
  unfold tempsBoundary
  repeat' (first
    | exact rfl
    | with_reducible assumption
    | with_reducible exact Calm.refl _
    | intro _
    | (extract_lets +onlyGivenNames y; try clear_value y; revert y; intro _)
    | with_reducible apply Calm.trans _ (modTherm_calm ..).calm)

theorem startTraining_calm {s : State} : Calm s (startTraining s) := by
  unfold startTraining
  repeat' (first
    | exact rfl
    | with_reducible assumption
    | with_reducible exact Calm.refl _
    | intro _
    | (extract_lets +onlyGivenNames y; try clear_value y; revert y; intro _)
    | with_reducible apply Calm.trans _ (modSeq_calm ..).calm
    | with_reducible apply Calm.trans _ (foldl_calm _ _ _ _)
    | split)

theorem firstStep_calm {p : PortId} {s : State} : Calm s (firstStep p s) := by
  unfold firstStep
  repeat' (first
    | exact rfl
    | with_reducible assumption
    | with_reducible exact Calm.refl _
    | intro _
    | (extract_lets +onlyGivenNames y; try clear_value y; revert y; intro _)
    | with_reducible apply Calm.trans _ beginDue_calm.calm
    | with_reducible apply Calm.trans _ drive_calm.calm
    | with_reducible apply Calm.trans _ (foldl_calm _ _ _ _)
    | split)

theorem newFrame_calm {s : State} : Calm s (newFrame s) := by
  unfold newFrame
  repeat' (first
    | exact rfl
    | with_reducible assumption
    | with_reducible exact Calm.refl _
    | intro _
    | (extract_lets +onlyGivenNames x; with_reducible refine Calm.step (x := x) ?_ ?_; (on_goal 1 => (unfold x; clear x)); on_goal 2 => (try clear_value x; revert x; intro _ _))
    | (extract_lets +onlyGivenNames y; try clear_value y; revert y; intro _)
    | with_reducible apply Calm.trans _ (modFrame_calm _ _ _ _).calm
    | with_reducible apply Calm.trans _ closeFrame_calm.calm
    | with_reducible apply Calm.trans _ takePlan_calm.calm
    | with_reducible apply Calm.trans _ boundaryMoves_calm.calm
    | with_reducible apply Calm.trans _ (modTherm_calm ..).calm
    | with_reducible apply Calm.trans _ freezeLate_calm.calm
    | with_reducible apply Calm.trans _ tempsBoundary_calm.calm
    | with_reducible apply Calm.trans _ gasBoundary_calm.calm
    | with_reducible apply Calm.trans _ openWindows_calm.calm
    | with_reducible apply Calm.trans _ startTraining_calm.calm
    | with_reducible apply Calm.trans _ (eachPort_calm _).calm
    | with_reducible apply Calm.trans _ firstStep_calm.calm
    | with_reducible apply Calm.trans _ (foldl_calm _ _ _ _)
    | split)

theorem execFrameBoundary_calm {s : State} {t : State} (h : execFrameBoundary s = .next t) : Calm s t := by
  unfold execFrameBoundary at h
  cases h
  repeat' (first
    | exact rfl
    | with_reducible assumption
    | with_reducible exact Calm.refl _
    | intro _
    | (extract_lets +onlyGivenNames y; try clear_value y; revert y; intro _)
    | with_reducible apply Calm.trans _ newFrame_calm.calm
    | with_reducible apply Calm.trans _ (foldl_calm _ _ _ _)
    | split)

end Sys2Proof.Machine
end

