-- ==== Sys2Proof/Laws/Bytes.lean ====
section
/-!
SUPPORT. Byte lists, the fields of a request, and the checks that a valid request passes.
-/

namespace Sys2Proof.Machine

theorem toLE_length (n v : Nat) : (toLE n v).length = n := by
  induction n generalizing v with
  | zero => rfl
  | succ n ih => simp [toLE, ih]

theorem overwrite_length (l d : List Byte) (k : Nat) (h : k + d.length ≤ l.length) :
    (overwrite l k d).length = l.length := by
  simp [overwrite]; omega

theorem slotBytes_toList_length (l : List Byte) : (slotBytes l).toList.length = 64 := by simp

theorem getD_eq_zero_of_u8 {l : List Byte} {i : Nat} (h : u8 l i = 0) : l.getD i 0 = 0 := by
  apply BitVec.eq_of_toNat_eq
  simpa [u8] using h

theorem zero_of_mem_slice {l : List Byte} {i n : Nat} (h : ∀ k < n, u8 l (i + k) = 0) :
    ∀ b ∈ slice l i n, b = 0 := by
  intro b hb
  obtain ⟨k, hk, rfl⟩ := List.getElem_of_mem hb
  simp only [slice, List.length_take, List.length_drop] at hk
  have e := getD_eq_zero_of_u8 (h k (by omega))
  rw [List.getD_eq_getElem?_getD, List.getElem?_eq_getElem (by omega)] at e
  simpa [slice] using e

theorem firstNonZero_none {l : List Byte} {i n : Nat} (h : ∀ k < n, u8 l (i + k) = 0) :
    firstNonZero l i n = none := by
  unfold firstNonZero
  rw [List.findIdx?_eq_none_iff.2]
  · rfl
  · intro b hb
    simp [zero_of_mem_slice h b hb]

theorem firstNonZero_one {l : List Byte} {i : Nat} (h : u8 l i = 0) : firstNonZero l i 1 = none :=
  firstNonZero_none fun k hk => by
    have : k = 0 := by omega
    subst this
    exact h

theorem zeros_true {l : List Byte} {i n : Nat} (h : ∀ k < n, u8 l (i + k) = 0) : zeros l i n = true := by
  unfold zeros
  rw [List.all_eq_true]
  intro b hb
  simp [zero_of_mem_slice h b hb]

@[simp] theorem portNo_val (k : PortId) : portNo k.val = k := by
  apply Fin.ext
  simp [portNo]

theorem portFault_none {p : List Byte} {k : PortId} (h : u8 p 0 = k.val) : portFault p = none := by
  unfold portFault
  rw [h, if_neg (by have := k.isLt; omega)]

/-- A slot that runs a request of the row's command: the row's effect is taken. -/
theorem onSlot_eq {n : SlotId} {op : Nat} {f : List Byte → State → State} {s : State} {p : List Byte}
    (h : s.runs n op = true) (hp : s.mbox.slots[n].payload = p) : onSlot n op f s = f p s := by
  unfold onSlot
  rw [if_pos h, hp]

/-- Any other slot: nothing happens. -/
theorem onSlot_idle {n : SlotId} {op : Nat} {f : List Byte → State → State} {s : State}
    (h : s.runs n op = false) : onSlot n op f s = s := by
  unfold onSlot
  rw [if_neg (by simp [h])]

end Sys2Proof.Machine
end

