-- ==== Sys2Proof/Laws/Effects.lean ====
section
/-!
SUPPORT. What the shared operations of Ops.lean leave alone, one lemma per operation with every field of
the state it does not touch, and what they bring about: attention causes, postings, waiting commands.
-/

namespace Sys2Proof.Machine

/-! ## attn -/

@[simp] theorem attn_core (c : Cause) (s : State) : (attn c s).core = s.core := by simp [attn]
@[simp] theorem attn_pins (c : Cause) (s : State) : (attn c s).pins = s.pins := by simp [attn]
@[simp] theorem attn_frame (c : Cause) (s : State) : (attn c s).frame = s.frame := by simp [attn]
@[simp] theorem attn_plan (c : Cause) (s : State) : (attn c s).plan = s.plan := by simp [attn]
@[simp] theorem attn_ports (c : Cause) (s : State) : (attn c s).ports = s.ports := by simp [attn]
@[simp] theorem attn_heat (c : Cause) (s : State) : (attn c s).heat = s.heat := by simp [attn]
@[simp] theorem attn_gauze (c : Cause) (s : State) : (attn c s).gauze = s.gauze := by simp [attn]
@[simp] theorem attn_seq (c : Cause) (s : State) : (attn c s).seq = s.seq := by simp [attn]
@[simp] theorem attn_lanes (c : Cause) (s : State) : (attn c s).lanes = s.lanes := by simp [attn]
@[simp] theorem attn_gas (c : Cause) (s : State) : (attn c s).gas = s.gas := by simp [attn]
@[simp] theorem attn_levees (c : Cause) (s : State) : (attn c s).levees = s.levees := by simp [attn]
@[simp] theorem attn_cal (c : Cause) (s : State) : (attn c s).cal = s.cal := by simp [attn]
@[simp] theorem attn_ledger (c : Cause) (s : State) : (attn c s).ledger = s.ledger := by simp [attn]
@[simp] theorem attn_therm (c : Cause) (s : State) : (attn c s).therm = s.therm := by simp [attn]
@[simp] theorem attn_rings (c : Cause) (s : State) : (attn c s).rings = s.rings := by simp [attn]
@[simp] theorem attn_mbox (c : Cause) (s : State) : (attn c s).mbox = s.mbox := by simp [attn]
@[simp] theorem attn_time (c : Cause) (s : State) : (attn c s).time = s.time := by simp [attn]
@[simp] theorem attn_faults (c : Cause) (s : State) : (attn c s).faults = s.faults := by simp [attn]
@[simp] theorem attn_bolt (c : Cause) (s : State) : (attn c s).bolt = s.bolt := by simp [attn]
@[simp] theorem attn_box (c : Cause) (s : State) : (attn c s).box = s.box := by simp [attn]
@[simp] theorem attn_lock (c : Cause) (s : State) : (attn c s).lock = s.lock := by simp [attn]
@[simp] theorem attn_free (c : Cause) (s : State) : (attn c s).free = s.free := by simp [attn]
@[simp] theorem attn_pending (c : Cause) (s : State) : (attn c s).pending = s.pending := by simp [attn]

/-! ## setDev -/

@[simp] theorem setDev_pins (d : Dev) (s : State) : (setDev d s).pins = s.pins := by
  unfold setDev; split <;> simp
@[simp] theorem setDev_frame (d : Dev) (s : State) : (setDev d s).frame = s.frame := by
  unfold setDev; split <;> simp
@[simp] theorem setDev_plan (d : Dev) (s : State) : (setDev d s).plan = s.plan := by
  unfold setDev; split <;> simp
@[simp] theorem setDev_ports (d : Dev) (s : State) : (setDev d s).ports = s.ports := by
  unfold setDev; split <;> simp
@[simp] theorem setDev_heat (d : Dev) (s : State) : (setDev d s).heat = s.heat := by
  unfold setDev; split <;> simp
@[simp] theorem setDev_gauze (d : Dev) (s : State) : (setDev d s).gauze = s.gauze := by
  unfold setDev; split <;> simp
@[simp] theorem setDev_seq (d : Dev) (s : State) : (setDev d s).seq = s.seq := by
  unfold setDev; split <;> simp
@[simp] theorem setDev_lanes (d : Dev) (s : State) : (setDev d s).lanes = s.lanes := by
  unfold setDev; split <;> simp
@[simp] theorem setDev_gas (d : Dev) (s : State) : (setDev d s).gas = s.gas := by
  unfold setDev; split <;> simp
@[simp] theorem setDev_levees (d : Dev) (s : State) : (setDev d s).levees = s.levees := by
  unfold setDev; split <;> simp
@[simp] theorem setDev_cal (d : Dev) (s : State) : (setDev d s).cal = s.cal := by
  unfold setDev; split <;> simp
@[simp] theorem setDev_ledger (d : Dev) (s : State) : (setDev d s).ledger = s.ledger := by
  unfold setDev; split <;> simp
@[simp] theorem setDev_therm (d : Dev) (s : State) : (setDev d s).therm = s.therm := by
  unfold setDev; split <;> simp
@[simp] theorem setDev_rings (d : Dev) (s : State) : (setDev d s).rings = s.rings := by
  unfold setDev; split <;> simp
@[simp] theorem setDev_mbox (d : Dev) (s : State) : (setDev d s).mbox = s.mbox := by
  unfold setDev; split <;> simp
@[simp] theorem setDev_time (d : Dev) (s : State) : (setDev d s).time = s.time := by
  unfold setDev; split <;> simp
@[simp] theorem setDev_faults (d : Dev) (s : State) : (setDev d s).faults = s.faults := by
  unfold setDev; split <;> simp
@[simp] theorem setDev_bolt (d : Dev) (s : State) : (setDev d s).bolt = s.bolt := by
  unfold setDev; split <;> simp
@[simp] theorem setDev_box (d : Dev) (s : State) : (setDev d s).box = s.box := by
  unfold setDev; split <;> simp
@[simp] theorem setDev_lock (d : Dev) (s : State) : (setDev d s).lock = s.lock := by
  unfold setDev; split <;> simp
@[simp] theorem setDev_free (d : Dev) (s : State) : (setDev d s).free = s.free := by
  unfold setDev; split <;> simp
@[simp] theorem setDev_pending (d : Dev) (s : State) : (setDev d s).pending = s.pending := by
  unfold setDev; split <;> simp

/-! ## notice -/

/-- A notice touches the rings, the attention causes and the words of the checker (R303, R335, R415). -/
def NoticeOnly (s t : State) : Prop := t = { s with rings := t.rings, bus := t.bus, faults := t.faults }

theorem NoticeOnly.trans {a b c : State} (h : NoticeOnly a b) (k : NoticeOnly b c) : NoticeOnly a c :=
  Eq.trans k (by rw [h])

theorem pushNotice_only (code : W16) (k : Nat) (args : W64) (s : State) : NoticeOnly s (pushNotice code k args s) := by
  unfold pushNotice
  dsimp only
  split <;> rfl

theorem noticeGap_only (s : State) : NoticeOnly s (noticeGap s) := by
  unfold noticeGap pushNoticeGap
  split
  · split
    · exact NoticeOnly.trans (b := s.modRings _) rfl (pushNotice_only ..)
    · rfl
  · rfl

theorem emitNotice_only (code : W16) (k : Kind) (args : W64) (s : State) : NoticeOnly s (emitNotice code k args s) := by
  unfold emitNotice
  split
  · dsimp only
    split
    · exact (noticeGap_only s).trans (pushNotice_only ..)
    · exact (noticeGap_only s).trans rfl
  · split
    · exact (pushNotice_only ..).trans rfl
    · rfl
  · split
    · exact (pushNotice_only ..).trans rfl
    · rfl

theorem notice_only (code : W16) (k : Kind) (args : W64) (s : State) : NoticeOnly s (notice code k args s) := by
  unfold notice
  split
  · rfl
  · rfl
  · exact emitNotice_only ..

@[simp] theorem notice_core (code : W16) (k : Kind) (args : W64) (s : State) : (notice code k args s).core = s.core := by
  rw [(notice_only code k args s : _ = _)]
@[simp] theorem notice_pins (code : W16) (k : Kind) (args : W64) (s : State) : (notice code k args s).pins = s.pins := by
  rw [(notice_only code k args s : _ = _)]
@[simp] theorem notice_frame (code : W16) (k : Kind) (args : W64) (s : State) : (notice code k args s).frame = s.frame := by
  rw [(notice_only code k args s : _ = _)]
@[simp] theorem notice_plan (code : W16) (k : Kind) (args : W64) (s : State) : (notice code k args s).plan = s.plan := by
  rw [(notice_only code k args s : _ = _)]
@[simp] theorem notice_ports (code : W16) (k : Kind) (args : W64) (s : State) : (notice code k args s).ports = s.ports := by
  rw [(notice_only code k args s : _ = _)]
@[simp] theorem notice_heat (code : W16) (k : Kind) (args : W64) (s : State) : (notice code k args s).heat = s.heat := by
  rw [(notice_only code k args s : _ = _)]
@[simp] theorem notice_gauze (code : W16) (k : Kind) (args : W64) (s : State) : (notice code k args s).gauze = s.gauze := by
  rw [(notice_only code k args s : _ = _)]
@[simp] theorem notice_seq (code : W16) (k : Kind) (args : W64) (s : State) : (notice code k args s).seq = s.seq := by
  rw [(notice_only code k args s : _ = _)]
@[simp] theorem notice_lanes (code : W16) (k : Kind) (args : W64) (s : State) : (notice code k args s).lanes = s.lanes := by
  rw [(notice_only code k args s : _ = _)]
@[simp] theorem notice_gas (code : W16) (k : Kind) (args : W64) (s : State) : (notice code k args s).gas = s.gas := by
  rw [(notice_only code k args s : _ = _)]
@[simp] theorem notice_levees (code : W16) (k : Kind) (args : W64) (s : State) : (notice code k args s).levees = s.levees := by
  rw [(notice_only code k args s : _ = _)]
@[simp] theorem notice_cal (code : W16) (k : Kind) (args : W64) (s : State) : (notice code k args s).cal = s.cal := by
  rw [(notice_only code k args s : _ = _)]
@[simp] theorem notice_ledger (code : W16) (k : Kind) (args : W64) (s : State) : (notice code k args s).ledger = s.ledger := by
  rw [(notice_only code k args s : _ = _)]
@[simp] theorem notice_therm (code : W16) (k : Kind) (args : W64) (s : State) : (notice code k args s).therm = s.therm := by
  rw [(notice_only code k args s : _ = _)]
@[simp] theorem notice_mbox (code : W16) (k : Kind) (args : W64) (s : State) : (notice code k args s).mbox = s.mbox := by
  rw [(notice_only code k args s : _ = _)]
@[simp] theorem notice_time (code : W16) (k : Kind) (args : W64) (s : State) : (notice code k args s).time = s.time := by
  rw [(notice_only code k args s : _ = _)]
@[simp] theorem notice_bolt (code : W16) (k : Kind) (args : W64) (s : State) : (notice code k args s).bolt = s.bolt := by
  rw [(notice_only code k args s : _ = _)]
@[simp] theorem notice_box (code : W16) (k : Kind) (args : W64) (s : State) : (notice code k args s).box = s.box := by
  rw [(notice_only code k args s : _ = _)]
@[simp] theorem notice_lock (code : W16) (k : Kind) (args : W64) (s : State) : (notice code k args s).lock = s.lock := by
  rw [(notice_only code k args s : _ = _)]
@[simp] theorem notice_free (code : W16) (k : Kind) (args : W64) (s : State) : (notice code k args s).free = s.free := by
  rw [(notice_only code k args s : _ = _)]
@[simp] theorem notice_pending (code : W16) (k : Kind) (args : W64) (s : State) : (notice code k args s).pending = s.pending := by
  rw [(notice_only code k args s : _ = _)]

/-! ## post -/

@[simp] theorem post_core (n : SlotId) (st : Status) (d : Nat) (resp : List Byte) (s : State) : (post n st d resp s).core = s.core := by unfold post; split <;> rfl
@[simp] theorem post_pins (n : SlotId) (st : Status) (d : Nat) (resp : List Byte) (s : State) : (post n st d resp s).pins = s.pins := by unfold post; split <;> rfl
@[simp] theorem post_frame (n : SlotId) (st : Status) (d : Nat) (resp : List Byte) (s : State) : (post n st d resp s).frame = s.frame := by unfold post; split <;> rfl
@[simp] theorem post_plan (n : SlotId) (st : Status) (d : Nat) (resp : List Byte) (s : State) : (post n st d resp s).plan = s.plan := by unfold post; split <;> rfl
@[simp] theorem post_ports (n : SlotId) (st : Status) (d : Nat) (resp : List Byte) (s : State) : (post n st d resp s).ports = s.ports := by unfold post; split <;> rfl
@[simp] theorem post_heat (n : SlotId) (st : Status) (d : Nat) (resp : List Byte) (s : State) : (post n st d resp s).heat = s.heat := by unfold post; split <;> rfl
@[simp] theorem post_gauze (n : SlotId) (st : Status) (d : Nat) (resp : List Byte) (s : State) : (post n st d resp s).gauze = s.gauze := by unfold post; split <;> rfl
@[simp] theorem post_seq (n : SlotId) (st : Status) (d : Nat) (resp : List Byte) (s : State) : (post n st d resp s).seq = s.seq := by unfold post; split <;> rfl
@[simp] theorem post_lanes (n : SlotId) (st : Status) (d : Nat) (resp : List Byte) (s : State) : (post n st d resp s).lanes = s.lanes := by unfold post; split <;> rfl
@[simp] theorem post_gas (n : SlotId) (st : Status) (d : Nat) (resp : List Byte) (s : State) : (post n st d resp s).gas = s.gas := by unfold post; split <;> rfl
@[simp] theorem post_levees (n : SlotId) (st : Status) (d : Nat) (resp : List Byte) (s : State) : (post n st d resp s).levees = s.levees := by unfold post; split <;> rfl
@[simp] theorem post_cal (n : SlotId) (st : Status) (d : Nat) (resp : List Byte) (s : State) : (post n st d resp s).cal = s.cal := by unfold post; split <;> rfl
@[simp] theorem post_ledger (n : SlotId) (st : Status) (d : Nat) (resp : List Byte) (s : State) : (post n st d resp s).ledger = s.ledger := by unfold post; split <;> rfl
@[simp] theorem post_therm (n : SlotId) (st : Status) (d : Nat) (resp : List Byte) (s : State) : (post n st d resp s).therm = s.therm := by unfold post; split <;> rfl
@[simp] theorem post_rings (n : SlotId) (st : Status) (d : Nat) (resp : List Byte) (s : State) : (post n st d resp s).rings = s.rings := by unfold post; split <;> rfl
@[simp] theorem post_time (n : SlotId) (st : Status) (d : Nat) (resp : List Byte) (s : State) : (post n st d resp s).time = s.time := by unfold post; split <;> rfl
@[simp] theorem post_bolt (n : SlotId) (st : Status) (d : Nat) (resp : List Byte) (s : State) : (post n st d resp s).bolt = s.bolt := by unfold post; split <;> rfl
@[simp] theorem post_box (n : SlotId) (st : Status) (d : Nat) (resp : List Byte) (s : State) : (post n st d resp s).box = s.box := by unfold post; split <;> rfl
@[simp] theorem post_lock (n : SlotId) (st : Status) (d : Nat) (resp : List Byte) (s : State) : (post n st d resp s).lock = s.lock := by unfold post; split <;> rfl
@[simp] theorem post_free (n : SlotId) (st : Status) (d : Nat) (resp : List Byte) (s : State) : (post n st d resp s).free = s.free := by unfold post; split <;> rfl
@[simp] theorem post_pending (n : SlotId) (st : Status) (d : Nat) (resp : List Byte) (s : State) : (post n st d resp s).pending = s.pending := by unfold post; split <;> rfl

/-! ## postStatus -/

@[simp] theorem postStatus_core (n : SlotId) (st : Status) (s : State) : (postStatus n st s).core = s.core := by simp [postStatus]
@[simp] theorem postStatus_pins (n : SlotId) (st : Status) (s : State) : (postStatus n st s).pins = s.pins := by simp [postStatus]
@[simp] theorem postStatus_frame (n : SlotId) (st : Status) (s : State) : (postStatus n st s).frame = s.frame := by simp [postStatus]
@[simp] theorem postStatus_plan (n : SlotId) (st : Status) (s : State) : (postStatus n st s).plan = s.plan := by simp [postStatus]
@[simp] theorem postStatus_ports (n : SlotId) (st : Status) (s : State) : (postStatus n st s).ports = s.ports := by simp [postStatus]
@[simp] theorem postStatus_heat (n : SlotId) (st : Status) (s : State) : (postStatus n st s).heat = s.heat := by simp [postStatus]
@[simp] theorem postStatus_gauze (n : SlotId) (st : Status) (s : State) : (postStatus n st s).gauze = s.gauze := by simp [postStatus]
@[simp] theorem postStatus_seq (n : SlotId) (st : Status) (s : State) : (postStatus n st s).seq = s.seq := by simp [postStatus]
@[simp] theorem postStatus_lanes (n : SlotId) (st : Status) (s : State) : (postStatus n st s).lanes = s.lanes := by simp [postStatus]
@[simp] theorem postStatus_gas (n : SlotId) (st : Status) (s : State) : (postStatus n st s).gas = s.gas := by simp [postStatus]
@[simp] theorem postStatus_levees (n : SlotId) (st : Status) (s : State) : (postStatus n st s).levees = s.levees := by simp [postStatus]
@[simp] theorem postStatus_cal (n : SlotId) (st : Status) (s : State) : (postStatus n st s).cal = s.cal := by simp [postStatus]
@[simp] theorem postStatus_ledger (n : SlotId) (st : Status) (s : State) : (postStatus n st s).ledger = s.ledger := by simp [postStatus]
@[simp] theorem postStatus_therm (n : SlotId) (st : Status) (s : State) : (postStatus n st s).therm = s.therm := by simp [postStatus]
@[simp] theorem postStatus_rings (n : SlotId) (st : Status) (s : State) : (postStatus n st s).rings = s.rings := by simp [postStatus]
@[simp] theorem postStatus_time (n : SlotId) (st : Status) (s : State) : (postStatus n st s).time = s.time := by simp [postStatus]
@[simp] theorem postStatus_bolt (n : SlotId) (st : Status) (s : State) : (postStatus n st s).bolt = s.bolt := by simp [postStatus]
@[simp] theorem postStatus_box (n : SlotId) (st : Status) (s : State) : (postStatus n st s).box = s.box := by simp [postStatus]
@[simp] theorem postStatus_lock (n : SlotId) (st : Status) (s : State) : (postStatus n st s).lock = s.lock := by simp [postStatus]
@[simp] theorem postStatus_free (n : SlotId) (st : Status) (s : State) : (postStatus n st s).free = s.free := by simp [postStatus]
@[simp] theorem postStatus_pending (n : SlotId) (st : Status) (s : State) : (postStatus n st s).pending = s.pending := by simp [postStatus]

/-! ## postOk -/

@[simp] theorem postOk_core (n : SlotId) (resp : List Byte) (s : State) : (postOk n resp s).core = s.core := by simp [postOk]
@[simp] theorem postOk_pins (n : SlotId) (resp : List Byte) (s : State) : (postOk n resp s).pins = s.pins := by simp [postOk]
@[simp] theorem postOk_frame (n : SlotId) (resp : List Byte) (s : State) : (postOk n resp s).frame = s.frame := by simp [postOk]
@[simp] theorem postOk_plan (n : SlotId) (resp : List Byte) (s : State) : (postOk n resp s).plan = s.plan := by simp [postOk]
@[simp] theorem postOk_ports (n : SlotId) (resp : List Byte) (s : State) : (postOk n resp s).ports = s.ports := by simp [postOk]
@[simp] theorem postOk_heat (n : SlotId) (resp : List Byte) (s : State) : (postOk n resp s).heat = s.heat := by simp [postOk]
@[simp] theorem postOk_gauze (n : SlotId) (resp : List Byte) (s : State) : (postOk n resp s).gauze = s.gauze := by simp [postOk]
@[simp] theorem postOk_seq (n : SlotId) (resp : List Byte) (s : State) : (postOk n resp s).seq = s.seq := by simp [postOk]
@[simp] theorem postOk_lanes (n : SlotId) (resp : List Byte) (s : State) : (postOk n resp s).lanes = s.lanes := by simp [postOk]
@[simp] theorem postOk_gas (n : SlotId) (resp : List Byte) (s : State) : (postOk n resp s).gas = s.gas := by simp [postOk]
@[simp] theorem postOk_levees (n : SlotId) (resp : List Byte) (s : State) : (postOk n resp s).levees = s.levees := by simp [postOk]
@[simp] theorem postOk_cal (n : SlotId) (resp : List Byte) (s : State) : (postOk n resp s).cal = s.cal := by simp [postOk]
@[simp] theorem postOk_ledger (n : SlotId) (resp : List Byte) (s : State) : (postOk n resp s).ledger = s.ledger := by simp [postOk]
@[simp] theorem postOk_therm (n : SlotId) (resp : List Byte) (s : State) : (postOk n resp s).therm = s.therm := by simp [postOk]
@[simp] theorem postOk_rings (n : SlotId) (resp : List Byte) (s : State) : (postOk n resp s).rings = s.rings := by simp [postOk]
@[simp] theorem postOk_time (n : SlotId) (resp : List Byte) (s : State) : (postOk n resp s).time = s.time := by simp [postOk]
@[simp] theorem postOk_bolt (n : SlotId) (resp : List Byte) (s : State) : (postOk n resp s).bolt = s.bolt := by simp [postOk]
@[simp] theorem postOk_box (n : SlotId) (resp : List Byte) (s : State) : (postOk n resp s).box = s.box := by simp [postOk]
@[simp] theorem postOk_lock (n : SlotId) (resp : List Byte) (s : State) : (postOk n resp s).lock = s.lock := by simp [postOk]
@[simp] theorem postOk_free (n : SlotId) (resp : List Byte) (s : State) : (postOk n resp s).free = s.free := by simp [postOk]
@[simp] theorem postOk_pending (n : SlotId) (resp : List Byte) (s : State) : (postOk n resp s).pending = s.pending := by simp [postOk]

/-! ## pendOn -/

@[simp] theorem pendOn_core (n : SlotId) (op : W16) (p : List Byte) (w : Wait) (f : W32) (s : State) : (pendOn n op p w f s).core = s.core := by simp [pendOn, postPending, State.modSlot]
@[simp] theorem pendOn_pins (n : SlotId) (op : W16) (p : List Byte) (w : Wait) (f : W32) (s : State) : (pendOn n op p w f s).pins = s.pins := by simp [pendOn, postPending, State.modSlot]
@[simp] theorem pendOn_frame (n : SlotId) (op : W16) (p : List Byte) (w : Wait) (f : W32) (s : State) : (pendOn n op p w f s).frame = s.frame := by simp [pendOn, postPending, State.modSlot]
@[simp] theorem pendOn_plan (n : SlotId) (op : W16) (p : List Byte) (w : Wait) (f : W32) (s : State) : (pendOn n op p w f s).plan = s.plan := by simp [pendOn, postPending, State.modSlot]
@[simp] theorem pendOn_ports (n : SlotId) (op : W16) (p : List Byte) (w : Wait) (f : W32) (s : State) : (pendOn n op p w f s).ports = s.ports := by simp [pendOn, postPending, State.modSlot]
@[simp] theorem pendOn_heat (n : SlotId) (op : W16) (p : List Byte) (w : Wait) (f : W32) (s : State) : (pendOn n op p w f s).heat = s.heat := by simp [pendOn, postPending, State.modSlot]
@[simp] theorem pendOn_gauze (n : SlotId) (op : W16) (p : List Byte) (w : Wait) (f : W32) (s : State) : (pendOn n op p w f s).gauze = s.gauze := by simp [pendOn, postPending, State.modSlot]
@[simp] theorem pendOn_seq (n : SlotId) (op : W16) (p : List Byte) (w : Wait) (f : W32) (s : State) : (pendOn n op p w f s).seq = s.seq := by simp [pendOn, postPending, State.modSlot]
@[simp] theorem pendOn_lanes (n : SlotId) (op : W16) (p : List Byte) (w : Wait) (f : W32) (s : State) : (pendOn n op p w f s).lanes = s.lanes := by simp [pendOn, postPending, State.modSlot]
@[simp] theorem pendOn_gas (n : SlotId) (op : W16) (p : List Byte) (w : Wait) (f : W32) (s : State) : (pendOn n op p w f s).gas = s.gas := by simp [pendOn, postPending, State.modSlot]
@[simp] theorem pendOn_levees (n : SlotId) (op : W16) (p : List Byte) (w : Wait) (f : W32) (s : State) : (pendOn n op p w f s).levees = s.levees := by simp [pendOn, postPending, State.modSlot]
@[simp] theorem pendOn_cal (n : SlotId) (op : W16) (p : List Byte) (w : Wait) (f : W32) (s : State) : (pendOn n op p w f s).cal = s.cal := by simp [pendOn, postPending, State.modSlot]
@[simp] theorem pendOn_ledger (n : SlotId) (op : W16) (p : List Byte) (w : Wait) (f : W32) (s : State) : (pendOn n op p w f s).ledger = s.ledger := by simp [pendOn, postPending, State.modSlot]
@[simp] theorem pendOn_therm (n : SlotId) (op : W16) (p : List Byte) (w : Wait) (f : W32) (s : State) : (pendOn n op p w f s).therm = s.therm := by simp [pendOn, postPending, State.modSlot]
@[simp] theorem pendOn_rings (n : SlotId) (op : W16) (p : List Byte) (w : Wait) (f : W32) (s : State) : (pendOn n op p w f s).rings = s.rings := by simp [pendOn, postPending, State.modSlot]
@[simp] theorem pendOn_bus (n : SlotId) (op : W16) (p : List Byte) (w : Wait) (f : W32) (s : State) : (pendOn n op p w f s).bus = s.bus := by simp [pendOn, postPending, State.modSlot]
@[simp] theorem pendOn_time (n : SlotId) (op : W16) (p : List Byte) (w : Wait) (f : W32) (s : State) : (pendOn n op p w f s).time = s.time := by simp [pendOn, postPending, State.modSlot]
@[simp] theorem pendOn_bolt (n : SlotId) (op : W16) (p : List Byte) (w : Wait) (f : W32) (s : State) : (pendOn n op p w f s).bolt = s.bolt := by simp [pendOn, postPending, State.modSlot]
@[simp] theorem pendOn_box (n : SlotId) (op : W16) (p : List Byte) (w : Wait) (f : W32) (s : State) : (pendOn n op p w f s).box = s.box := by simp [pendOn, postPending, State.modSlot]
@[simp] theorem pendOn_lock (n : SlotId) (op : W16) (p : List Byte) (w : Wait) (f : W32) (s : State) : (pendOn n op p w f s).lock = s.lock := by simp [pendOn, postPending, State.modSlot]
@[simp] theorem pendOn_free (n : SlotId) (op : W16) (p : List Byte) (w : Wait) (f : W32) (s : State) : (pendOn n op p w f s).free = s.free := by simp [pendOn, postPending, State.modSlot]
@[simp] theorem pendOn_pending (n : SlotId) (op : W16) (p : List Byte) (w : Wait) (f : W32) (s : State) : (pendOn n op p w f s).pending = s.pending := by simp [pendOn, postPending, State.modSlot]

/-! ## boxRecord -/

@[simp] theorem boxRecord_core (type : Byte) (args : W64) (s : State) : (boxRecord type args s).core = s.core := by
  unfold boxRecord programRecord; dsimp only; split <;> simp
@[simp] theorem boxRecord_pins (type : Byte) (args : W64) (s : State) : (boxRecord type args s).pins = s.pins := by
  unfold boxRecord programRecord; dsimp only; split <;> simp
@[simp] theorem boxRecord_frame (type : Byte) (args : W64) (s : State) : (boxRecord type args s).frame = s.frame := by
  unfold boxRecord programRecord; dsimp only; split <;> simp
@[simp] theorem boxRecord_plan (type : Byte) (args : W64) (s : State) : (boxRecord type args s).plan = s.plan := by
  unfold boxRecord programRecord; dsimp only; split <;> simp
@[simp] theorem boxRecord_ports (type : Byte) (args : W64) (s : State) : (boxRecord type args s).ports = s.ports := by
  unfold boxRecord programRecord; dsimp only; split <;> simp
@[simp] theorem boxRecord_heat (type : Byte) (args : W64) (s : State) : (boxRecord type args s).heat = s.heat := by
  unfold boxRecord programRecord; dsimp only; split <;> simp
@[simp] theorem boxRecord_gauze (type : Byte) (args : W64) (s : State) : (boxRecord type args s).gauze = s.gauze := by
  unfold boxRecord programRecord; dsimp only; split <;> simp
@[simp] theorem boxRecord_seq (type : Byte) (args : W64) (s : State) : (boxRecord type args s).seq = s.seq := by
  unfold boxRecord programRecord; dsimp only; split <;> simp
@[simp] theorem boxRecord_lanes (type : Byte) (args : W64) (s : State) : (boxRecord type args s).lanes = s.lanes := by
  unfold boxRecord programRecord; dsimp only; split <;> simp
@[simp] theorem boxRecord_gas (type : Byte) (args : W64) (s : State) : (boxRecord type args s).gas = s.gas := by
  unfold boxRecord programRecord; dsimp only; split <;> simp
@[simp] theorem boxRecord_levees (type : Byte) (args : W64) (s : State) : (boxRecord type args s).levees = s.levees := by
  unfold boxRecord programRecord; dsimp only; split <;> simp
@[simp] theorem boxRecord_cal (type : Byte) (args : W64) (s : State) : (boxRecord type args s).cal = s.cal := by
  unfold boxRecord programRecord; dsimp only; split <;> simp
@[simp] theorem boxRecord_ledger (type : Byte) (args : W64) (s : State) : (boxRecord type args s).ledger = s.ledger := by
  unfold boxRecord programRecord; dsimp only; split <;> simp
@[simp] theorem boxRecord_therm (type : Byte) (args : W64) (s : State) : (boxRecord type args s).therm = s.therm := by
  unfold boxRecord programRecord; dsimp only; split <;> simp
@[simp] theorem boxRecord_rings (type : Byte) (args : W64) (s : State) : (boxRecord type args s).rings = s.rings := by
  unfold boxRecord programRecord; dsimp only; split <;> simp
@[simp] theorem boxRecord_bus (type : Byte) (args : W64) (s : State) : (boxRecord type args s).bus = s.bus := by
  unfold boxRecord programRecord; dsimp only; split <;> simp
@[simp] theorem boxRecord_mbox (type : Byte) (args : W64) (s : State) : (boxRecord type args s).mbox = s.mbox := by
  unfold boxRecord programRecord; dsimp only; split <;> simp
@[simp] theorem boxRecord_time (type : Byte) (args : W64) (s : State) : (boxRecord type args s).time = s.time := by
  unfold boxRecord programRecord; dsimp only; split <;> simp
@[simp] theorem boxRecord_bolt (type : Byte) (args : W64) (s : State) : (boxRecord type args s).bolt = s.bolt := by
  unfold boxRecord programRecord; dsimp only; split <;> simp
@[simp] theorem boxRecord_lock (type : Byte) (args : W64) (s : State) : (boxRecord type args s).lock = s.lock := by
  unfold boxRecord programRecord; dsimp only; split <;> simp
@[simp] theorem boxRecord_free (type : Byte) (args : W64) (s : State) : (boxRecord type args s).free = s.free := by
  unfold boxRecord programRecord; dsimp only; split <;> simp
@[simp] theorem boxRecord_pending (type : Byte) (args : W64) (s : State) : (boxRecord type args s).pending = s.pending := by
  unfold boxRecord programRecord; dsimp only; split <;> simp

/-! ## raise -/

@[simp] theorem raise_core (n : Source) (s : State) : (raise n s).core = s.core := by
  unfold raise State.modSource; split <;> simp
@[simp] theorem raise_pins (n : Source) (s : State) : (raise n s).pins = s.pins := by
  unfold raise State.modSource; split <;> simp
@[simp] theorem raise_frame (n : Source) (s : State) : (raise n s).frame = s.frame := by
  unfold raise State.modSource; split <;> simp
@[simp] theorem raise_plan (n : Source) (s : State) : (raise n s).plan = s.plan := by
  unfold raise State.modSource; split <;> simp
@[simp] theorem raise_ports (n : Source) (s : State) : (raise n s).ports = s.ports := by
  unfold raise State.modSource; split <;> simp
@[simp] theorem raise_heat (n : Source) (s : State) : (raise n s).heat = s.heat := by
  unfold raise State.modSource; split <;> simp
@[simp] theorem raise_gauze (n : Source) (s : State) : (raise n s).gauze = s.gauze := by
  unfold raise State.modSource; split <;> simp
@[simp] theorem raise_seq (n : Source) (s : State) : (raise n s).seq = s.seq := by
  unfold raise State.modSource; split <;> simp
@[simp] theorem raise_lanes (n : Source) (s : State) : (raise n s).lanes = s.lanes := by
  unfold raise State.modSource; split <;> simp
@[simp] theorem raise_gas (n : Source) (s : State) : (raise n s).gas = s.gas := by
  unfold raise State.modSource; split <;> simp
@[simp] theorem raise_levees (n : Source) (s : State) : (raise n s).levees = s.levees := by
  unfold raise State.modSource; split <;> simp
@[simp] theorem raise_cal (n : Source) (s : State) : (raise n s).cal = s.cal := by
  unfold raise State.modSource; split <;> simp
@[simp] theorem raise_ledger (n : Source) (s : State) : (raise n s).ledger = s.ledger := by
  unfold raise State.modSource; split <;> simp
@[simp] theorem raise_therm (n : Source) (s : State) : (raise n s).therm = s.therm := by
  unfold raise State.modSource; split <;> simp
@[simp] theorem raise_rings (n : Source) (s : State) : (raise n s).rings = s.rings := by
  unfold raise State.modSource; split <;> simp
@[simp] theorem raise_bus (n : Source) (s : State) : (raise n s).bus = s.bus := by
  unfold raise State.modSource; split <;> simp
@[simp] theorem raise_mbox (n : Source) (s : State) : (raise n s).mbox = s.mbox := by
  unfold raise State.modSource; split <;> simp
@[simp] theorem raise_time (n : Source) (s : State) : (raise n s).time = s.time := by
  unfold raise State.modSource; split <;> simp
@[simp] theorem raise_bolt (n : Source) (s : State) : (raise n s).bolt = s.bolt := by
  unfold raise State.modSource; split <;> simp
@[simp] theorem raise_box (n : Source) (s : State) : (raise n s).box = s.box := by
  unfold raise State.modSource; split <;> simp
@[simp] theorem raise_lock (n : Source) (s : State) : (raise n s).lock = s.lock := by
  unfold raise State.modSource; split <;> simp
@[simp] theorem raise_free (n : Source) (s : State) : (raise n s).free = s.free := by
  unfold raise State.modSource; split <;> simp
@[simp] theorem raise_pending (n : Source) (s : State) : (raise n s).pending = s.pending := by
  unfold raise State.modSource; split <;> simp

/-! ## raiseInjected -/

@[simp] theorem raiseInjected_core (n : Source) (s : State) : (raiseInjected n s).core = s.core := by simp [raiseInjected, State.modSource]
@[simp] theorem raiseInjected_pins (n : Source) (s : State) : (raiseInjected n s).pins = s.pins := by simp [raiseInjected, State.modSource]
@[simp] theorem raiseInjected_frame (n : Source) (s : State) : (raiseInjected n s).frame = s.frame := by simp [raiseInjected, State.modSource]
@[simp] theorem raiseInjected_plan (n : Source) (s : State) : (raiseInjected n s).plan = s.plan := by simp [raiseInjected, State.modSource]
@[simp] theorem raiseInjected_ports (n : Source) (s : State) : (raiseInjected n s).ports = s.ports := by simp [raiseInjected, State.modSource]
@[simp] theorem raiseInjected_heat (n : Source) (s : State) : (raiseInjected n s).heat = s.heat := by simp [raiseInjected, State.modSource]
@[simp] theorem raiseInjected_gauze (n : Source) (s : State) : (raiseInjected n s).gauze = s.gauze := by simp [raiseInjected, State.modSource]
@[simp] theorem raiseInjected_seq (n : Source) (s : State) : (raiseInjected n s).seq = s.seq := by simp [raiseInjected, State.modSource]
@[simp] theorem raiseInjected_lanes (n : Source) (s : State) : (raiseInjected n s).lanes = s.lanes := by simp [raiseInjected, State.modSource]
@[simp] theorem raiseInjected_gas (n : Source) (s : State) : (raiseInjected n s).gas = s.gas := by simp [raiseInjected, State.modSource]
@[simp] theorem raiseInjected_levees (n : Source) (s : State) : (raiseInjected n s).levees = s.levees := by simp [raiseInjected, State.modSource]
@[simp] theorem raiseInjected_cal (n : Source) (s : State) : (raiseInjected n s).cal = s.cal := by simp [raiseInjected, State.modSource]
@[simp] theorem raiseInjected_ledger (n : Source) (s : State) : (raiseInjected n s).ledger = s.ledger := by simp [raiseInjected, State.modSource]
@[simp] theorem raiseInjected_therm (n : Source) (s : State) : (raiseInjected n s).therm = s.therm := by simp [raiseInjected, State.modSource]
@[simp] theorem raiseInjected_rings (n : Source) (s : State) : (raiseInjected n s).rings = s.rings := by simp [raiseInjected, State.modSource]
@[simp] theorem raiseInjected_bus (n : Source) (s : State) : (raiseInjected n s).bus = s.bus := by simp [raiseInjected, State.modSource]
@[simp] theorem raiseInjected_mbox (n : Source) (s : State) : (raiseInjected n s).mbox = s.mbox := by simp [raiseInjected, State.modSource]
@[simp] theorem raiseInjected_time (n : Source) (s : State) : (raiseInjected n s).time = s.time := by simp [raiseInjected, State.modSource]
@[simp] theorem raiseInjected_bolt (n : Source) (s : State) : (raiseInjected n s).bolt = s.bolt := by simp [raiseInjected, State.modSource]
@[simp] theorem raiseInjected_box (n : Source) (s : State) : (raiseInjected n s).box = s.box := by simp [raiseInjected, State.modSource]
@[simp] theorem raiseInjected_lock (n : Source) (s : State) : (raiseInjected n s).lock = s.lock := by simp [raiseInjected, State.modSource]
@[simp] theorem raiseInjected_free (n : Source) (s : State) : (raiseInjected n s).free = s.free := by simp [raiseInjected, State.modSource]
@[simp] theorem raiseInjected_pending (n : Source) (s : State) : (raiseInjected n s).pending = s.pending := by simp [raiseInjected, State.modSource]

/-! ## What they bring about -/

theorem Cause.mask_eq (c : Cause) : c.mask = BitVec.twoPow 16 c.bit := by cases c <;> rfl

theorem or_twoPow_of_bit {x : W16} {k : Nat} (h : x.getLsbD k = true) : x ||| BitVec.twoPow 16 k = x := by
  apply BitVec.eq_of_getLsbD_eq
  intro i hi
  rw [BitVec.getLsbD_or, BitVec.getLsbD_twoPow]
  by_cases e : k = i
  · subst e; simp [h]
  · simp [e]

theorem Bus.setCause_attn (now : W64) (c : Cause) (b : Bus) :
    (b.setCause now c.mask).attn = b.attn ||| c.mask := by
  unfold Bus.setCause
  split
  · next h =>
    rw [c.mask_eq] at h ⊢
    rw [BitVec.and_twoPow] at h
    by_cases e : b.attn.getLsbD c.bit = true
    · exact (or_twoPow_of_bit e).symm
    · rw [if_neg e] at h
      exact absurd h (by decide)
  · dsimp only
    split
    · rfl
    · split
      · rfl
      · unfold Bus.maskedRise
        split <;> rfl

/-- A cause is set in ATTN (R335). -/
@[simp] theorem attn_attn (c : Cause) (s : State) : (attn c s).bus.attn = s.bus.attn ||| c.mask :=
  Bus.setCause_attn _ c s.bus

@[simp] theorem unpend_slots (n : SlotId) (m : Mbox) : (m.unpend n).slots = m.slots := rfl
@[simp] theorem unpend_pend (n : SlotId) (m : Mbox) : (m.unpend n).pend = m.pend.filter (·.slot != n) := rfl

/-- The reeve posts where it runs. -/
theorem post_eq {n : SlotId} {s : State} (h : s.posts = true) (st : Status) (d : Nat) (resp : List Byte) :
    post n st d resp s = postNow n st d resp s := by
  unfold post
  rw [h]
  rfl

@[simp] theorem postNow_slot (n : SlotId) (st : Status) (d : Nat) (resp : List Byte) (s : State) :
    (postNow n st d resp s).mbox.slots[n.val] = (s.mbox.slots[n.val]).posted .done st.code d resp := by
  simp [postNow, State.modSlot]

theorem post_slot {n : SlotId} {s : State} (h : s.posts = true) (st : Status) (d : Nat) (resp : List Byte) :
    (post n st d resp s).mbox.slots[n.val] = (s.mbox.slots[n.val]).posted .done st.code d resp := by
  rw [post_eq h, postNow_slot]

theorem post_slot_ne {n m : SlotId} (h : m ≠ n) (st : Status) (d : Nat) (resp : List Byte) (s : State) :
    (post n st d resp s).mbox.slots[m.val] = s.mbox.slots[m.val] := by
  have : n.val ≠ m.val := fun e => h (Fin.ext e.symm)
  unfold post
  split <;> simp [postNow, State.modSlot, this]

theorem post_attn {n : SlotId} {s : State} (h : s.posts = true) (st : Status) (d : Nat) (resp : List Byte) :
    (post n st d resp s).bus.attn = s.bus.attn ||| 0x10 := by
  rw [post_eq h, postNow, attn_attn]
  rfl

/-- Posted or owed, a command waits no longer. -/
@[simp] theorem post_pend (n : SlotId) (st : Status) (d : Nat) (resp : List Byte) (s : State) :
    (post n st d resp s).mbox.pend = s.mbox.pend.filter (·.slot != n) := by
  unfold post
  split <;> simp [postNow, State.modSlot]

@[simp] theorem pendOn_slot (n : SlotId) (op : W16) (p : List Byte) (w : Wait) (f : W32) (s : State) :
    (pendOn n op p w f s).mbox.slots[n.val] =
      (s.mbox.slots[n.val]).posted .pending Status.pending.code 0 (toLE 4 f.toNat) := by
  simp [pendOn, postPending, State.modSlot]

@[simp] theorem pendOn_pend (n : SlotId) (op : W16) (p : List Byte) (w : Wait) (f : W32) (s : State) :
    (pendOn n op p w f s).mbox.pend =
      s.mbox.pend ++ [{ slot := n, op, payload := p, wait := w, since := s.core.lt }] := rfl

end Sys2Proof.Machine
end

