-- ==== Sys2Proof/Laws/Escalation.lean ====
section
/-!
SUPPORT. What the operations of Escalation.lean leave alone (Laws/Steady.lean), one lemma for each.
-/

set_option linter.unusedTactic false
set_option linter.unreachableTactic false
set_option linter.tactic.unusedName false

namespace Sys2Proof.Machine

theorem shutPort_calm {p : PortId} {s : State} : Calm s (shutPort p s) := by
  unfold shutPort
  repeat' (first
    | exact rfl
    | with_reducible assumption
    | with_reducible exact Calm.refl _
    | intro _
    | (extract_lets +onlyGivenNames y; try clear_value y; revert y; intro _)
    | with_reducible apply Calm.trans _ finishStop_calm.calm
    | with_reducible apply Calm.trans _ forcePort_calm.calm
    | with_reducible apply Calm.trans _ (foldl_calm _ _ _ _)
    | split)

theorem shutGroup_calm {g : Nat} {c : Port → Bool} {s : State} : Calm s (shutGroup g c s) := by
  unfold shutGroup
  repeat' (first
    | exact rfl
    | with_reducible assumption
    | with_reducible exact Calm.refl _
    | intro _
    | (extract_lets +onlyGivenNames y; try clear_value y; revert y; intro _)
    | with_reducible apply Calm.trans _ (eachPort_calm _).calm
    | with_reducible apply Calm.trans _ shutPort_calm.calm
    | with_reducible apply Calm.trans _ (foldl_calm _ _ _ _)
    | split)

theorem stopProfiles_calm {c : PortId → Bool} {s : State} : Calm s (stopProfiles c s) := by
  unfold stopProfiles
  repeat' (first
    | exact rfl
    | with_reducible assumption
    | with_reducible exact Calm.refl _
    | intro _
    | (extract_lets +onlyGivenNames y; try clear_value y; revert y; intro _)
    | with_reducible apply Calm.trans _ (eachPort_calm _).calm
    | with_reducible apply Calm.trans _ stopProfile_calm.calm
    | with_reducible apply Calm.trans _ (foldl_calm _ _ _ _)
    | split)

theorem freeSlots_calm {s : State} : Calm s (freeSlots s) := by
  unfold freeSlots
  repeat' (first
    | exact rfl
    | with_reducible assumption
    | with_reducible exact Calm.refl _
    | intro _
    | (extract_lets +onlyGivenNames y; try clear_value y; revert y; intro _)
    | with_reducible apply Calm.trans _ (modMbox_calm ..).calm
    | with_reducible apply Calm.trans _ (modFaults_calm ..).calm)

theorem emptyRing_quiet {sample : Bool} {s : State} : Quiet s (emptyRing sample s) :=
  modRings_quiet _ _ (Rings.clear_sample ..) (Rings.clear_notice ..)

theorem reeveAction_quiet {f : Source} {s : State} : Quiet s (reeveAction f s) := by
  unfold reeveAction
  repeat' (first
    | exact rfl
    | with_reducible assumption
    | with_reducible exact Quiet.refl _
    | intro _
    | (extract_lets +onlyGivenNames y; try clear_value y; revert y; intro _)
    | with_reducible apply Quiet.trans _ (modCore_calm _ _ _ _).quiet
    | with_reducible apply Quiet.trans _ stopProfiles_calm.quiet
    | with_reducible apply Quiet.trans _ (modFaults_calm ..).quiet
    | with_reducible apply Quiet.trans _ emptyRing_quiet.quiet
    | with_reducible apply Quiet.trans _ shutPort_calm.quiet
    | with_reducible apply Quiet.trans _ shutGroup_calm.quiet
    | with_reducible apply Quiet.trans _ freeSlots_calm.quiet
    | with_reducible apply Quiet.trans _ (foldl_quiet _ _ _ _)
    | split)

theorem holdHeaters_calm {f : Source} {s : State} : Calm s (holdHeaters f s) := by
  unfold holdHeaters
  repeat' (first
    | exact rfl
    | with_reducible assumption
    | with_reducible exact Calm.refl _
    | intro _
    | (extract_lets +onlyGivenNames x; with_reducible refine Calm.step (x := x) ?_ ?_; (on_goal 1 => (unfold x; clear x)); on_goal 2 => (try clear_value x; revert x; intro _ _))
    | (extract_lets +onlyGivenNames y; try clear_value y; revert y; intro _)
    | with_reducible apply Calm.trans _ (modFaults_calm ..).calm
    | with_reducible apply Calm.trans _ (modHeat_calm ..).calm)

theorem blockAction_quiet {f : Source} {s : State} : Quiet s (blockAction f s) := by
  unfold blockAction
  repeat' (first
    | exact rfl
    | with_reducible assumption
    | with_reducible exact Quiet.refl _
    | intro _
    | (extract_lets +onlyGivenNames y; try clear_value y; revert y; intro _)
    | with_reducible apply Quiet.trans _ holdHeaters_calm.quiet
    | with_reducible apply Quiet.trans _ haltConverters_calm.quiet
    | with_reducible apply Quiet.trans _ (modFaults_calm ..).quiet
    | with_reducible apply Quiet.trans _ emptyRing_quiet.quiet
    | with_reducible apply Quiet.trans _ shutPort_calm.quiet
    | with_reducible apply Quiet.trans _ shutGroup_calm.quiet
    | with_reducible apply Quiet.trans _ freeSlots_calm.quiet
    | with_reducible apply Quiet.trans _ (foldl_quiet _ _ _ _)
    | split)

theorem interrupt_quiet {f : Source} {s : State} : Quiet s (interrupt f s) := by
  unfold interrupt
  repeat' (first
    | exact rfl
    | with_reducible assumption
    | with_reducible exact Quiet.refl _
    | intro _
    | (extract_lets +onlyGivenNames x; with_reducible refine Quiet.step (x := x) ?_ ?_; (on_goal 1 => (unfold x; clear x)); on_goal 2 => (try clear_value x; revert x; intro _ _))
    | (extract_lets +onlyGivenNames y; try clear_value y; revert y; intro _)
    | with_reducible apply Quiet.trans _ reeveAction_quiet.quiet
    | with_reducible apply Quiet.trans _ (modSource_calm ..).quiet
    | with_reducible apply Quiet.trans _ (foldl_quiet _ _ _ _)
    | split)

theorem graveEvent_calm {f : Source} {s : State} : Calm s (graveEvent f s) := by
  unfold graveEvent
  repeat' (first
    | exact rfl
    | with_reducible assumption
    | with_reducible exact Calm.refl _
    | intro _
    | (extract_lets +onlyGivenNames x; with_reducible refine Calm.step (x := x) ?_ ?_; (on_goal 1 => (unfold x; clear x)); on_goal 2 => (try clear_value x; revert x; intro _ _))
    | (extract_lets +onlyGivenNames y; try clear_value y; revert y; intro _)
    | with_reducible apply Calm.trans _ attn_calm.calm
    | with_reducible apply Calm.trans _ notice_calm.calm
    | with_reducible apply Calm.trans _ boxRecord_calm.calm
    | with_reducible apply Calm.trans _ enterLatched_calm.calm
    | with_reducible apply Calm.trans _ (foldl_calm _ _ _ _)
    | split)

theorem takeEvent_quiet {f : Source} {s : State} : Quiet s (takeEvent f s) := by
  unfold takeEvent
  dsimp only
  repeat' (first
    | exact rfl
    | with_reducible assumption
    | with_reducible exact Quiet.refl _
    | intro _
    | (extract_lets +onlyGivenNames y; try clear_value y; revert y; intro _)
    | with_reducible apply Quiet.trans _ eventNotices_calm.quiet
    | with_reducible apply Quiet.trans _ (modSource_calm ..).quiet
    | with_reducible apply Quiet.trans _ graveEvent_calm.quiet
    | with_reducible apply Quiet.trans _ mergeEvent_calm.quiet
    | with_reducible apply Quiet.trans _ interrupt_quiet.quiet
    | with_reducible apply Quiet.trans _ beginReaction_calm.quiet
    | with_reducible apply Quiet.trans _ (foldl_quiet _ _ _ _)
    | split)

theorem faultEvent_quiet {f : Source} {s : State} : Quiet s (faultEvent f s) := by
  unfold faultEvent
  repeat' (first
    | exact rfl
    | with_reducible assumption
    | with_reducible exact Quiet.refl _
    | intro _
    | (extract_lets +onlyGivenNames y; try clear_value y; revert y; intro _)
    | with_reducible apply Quiet.trans _ takeEvent_quiet.quiet
    | with_reducible apply Quiet.trans _ endReactions_calm.quiet
    | with_reducible apply Quiet.trans _ (foldl_quiet _ _ _ _)
    | split)

theorem execFaultEvent_quiet {f : Source} {s : State} {t : State} (h : execFaultEvent f s = .next t) : Quiet s t := by
  unfold execFaultEvent at h
  cases h
  repeat' (first
    | exact rfl
    | with_reducible assumption
    | with_reducible exact Quiet.refl _
    | intro _
    | (extract_lets +onlyGivenNames y; try clear_value y; revert y; intro _)
    | with_reducible apply Quiet.trans _ faultEvent_quiet.quiet)

theorem execWatchdogTimeout_quiet {s : State} {t : State} (h : execWatchdogTimeout s = .next t) : Quiet s t := by
  unfold execWatchdogTimeout at h
  cases h
  repeat' (first
    | exact rfl
    | with_reducible assumption
    | with_reducible exact Quiet.refl _
    | intro _
    | (extract_lets +onlyGivenNames y; try clear_value y; revert y; intro _)
    | with_reducible apply Quiet.trans _ faultEvent_quiet.quiet
    | with_reducible apply Quiet.trans _ raise_calm.quiet
    | with_reducible apply Quiet.trans _ (foldl_quiet _ _ _ _)
    | split)

theorem execBootTimeout_quiet {s : State} {t : State} (h : execBootTimeout s = .next t) : Quiet s t := by
  unfold execBootTimeout at h
  cases h
  repeat' (first
    | exact rfl
    | with_reducible assumption
    | with_reducible exact Quiet.refl _
    | intro _
    | (extract_lets +onlyGivenNames y; try clear_value y; revert y; intro _)
    | with_reducible apply Quiet.trans _ faultEvent_quiet.quiet
    | with_reducible apply Quiet.trans _ raise_calm.quiet
    | with_reducible apply Quiet.trans _ (foldl_quiet _ _ _ _)
    | split)

theorem markAction_calm {f : Source} {s : State} : Calm s (markAction f s) := by
  unfold markAction
  repeat' (first
    | exact rfl
    | with_reducible assumption
    | with_reducible exact Calm.refl _
    | intro _
    | (extract_lets +onlyGivenNames y; try clear_value y; revert y; intro _)
    | with_reducible apply Calm.trans _ (modSource_calm ..).calm)

theorem serveReactions_quiet {s : State} : Quiet s (serveReactions s) := by
  unfold serveReactions
  repeat' (first
    | exact rfl
    | with_reducible assumption
    | with_reducible exact Quiet.refl _
    | intro _
    | (extract_lets +onlyGivenNames y; try clear_value y; revert y; intro _)
    | with_reducible apply Quiet.trans _ interrupt_quiet.quiet
    | with_reducible apply Quiet.trans _ (foldl_quiet _ _ _ _)
    | split)

theorem execReactionHandled_calm {f : Source} {s : State} {t : State} (h : execReactionHandled f s = .next t) : Calm s t := by
  unfold execReactionHandled at h
  cases h
  repeat' (first
    | exact rfl
    | with_reducible assumption
    | with_reducible exact Calm.refl _
    | intro _
    | (extract_lets +onlyGivenNames y; try clear_value y; revert y; intro _)
    | with_reducible apply Calm.trans _ notice_calm.calm
    | with_reducible apply Calm.trans _ markAction_calm.calm
    | with_reducible apply Calm.trans _ (foldl_calm _ _ _ _)
    | split)

theorem expire_quiet {f : Source} {s : State} : Quiet s (expire f s) := by
  unfold expire
  repeat' (first
    | exact rfl
    | with_reducible assumption
    | with_reducible exact Quiet.refl _
    | intro _
    | (extract_lets +onlyGivenNames x; with_reducible refine Quiet.step (x := x) ?_ ?_; (on_goal 1 => (unfold x; clear x)); on_goal 2 => (try clear_value x; revert x; intro _ _))
    | (extract_lets +onlyGivenNames y; try clear_value y; revert y; intro _)
    | with_reducible apply Quiet.trans _ markAction_calm.quiet
    | with_reducible apply Quiet.trans _ blockAction_quiet.quiet
    | with_reducible apply Quiet.trans _ boxRecord_calm.quiet
    | with_reducible apply Quiet.trans _ notice_calm.quiet
    | with_reducible apply Quiet.trans _ enterSafe_calm.quiet
    | with_reducible apply Quiet.trans _ (foldl_quiet _ _ _ _)
    | split)

theorem execGraceExpiry_quiet {f : Source} {s : State} {t : State} (h : execGraceExpiry f s = .next t) : Quiet s t := by
  unfold execGraceExpiry at h
  cases h
  repeat' (first
    | exact rfl
    | with_reducible assumption
    | with_reducible exact Quiet.refl _
    | intro _
    | (extract_lets +onlyGivenNames y; try clear_value y; revert y; intro _)
    | with_reducible apply Quiet.trans _ expire_quiet.quiet
    | with_reducible apply Quiet.trans _ (foldl_quiet _ _ _ _)
    | split)

theorem execActionCheck_calm {f : Source} {s : State} {t : State} (h : execActionCheck f s = .next t) : Calm s t := by
  unfold execActionCheck at h
  cases h
  repeat' (first
    | exact rfl
    | with_reducible assumption
    | with_reducible exact Calm.refl _
    | intro _
    | (extract_lets +onlyGivenNames x; with_reducible refine Calm.step (x := x) ?_ ?_; (on_goal 1 => (unfold x; clear x)); on_goal 2 => (try clear_value x; revert x; intro _ _))
    | (extract_lets +onlyGivenNames y; try clear_value y; revert y; intro _)
    | with_reducible apply Calm.trans _ (modSource_calm ..).calm
    | with_reducible apply Calm.trans _ enterSafe_calm.calm
    | with_reducible apply Calm.trans _ (foldl_calm _ _ _ _)
    | split)

theorem heatersOff_calm {s : State} : Calm s (heatersOff s) := by
  unfold heatersOff
  repeat' (first
    | exact rfl
    | with_reducible assumption
    | with_reducible exact Calm.refl _
    | intro _
    | (extract_lets +onlyGivenNames y; try clear_value y; revert y; intro _)
    | with_reducible apply Calm.trans _ (modHeat_calm ..).calm
    | with_reducible apply Calm.trans _ (modTherm_calm ..).calm)

theorem cross_calm {t : Fin 9} {l : Fin 3} {rising : Bool} {s : State} : Calm s (cross t l rising s) := by
  unfold cross
  repeat' (first
    | exact rfl
    | with_reducible assumption
    | with_reducible exact Calm.refl _
    | intro _
    | (extract_lets +onlyGivenNames x; with_reducible refine Calm.step (x := x) ?_ ?_; (on_goal 1 => (unfold x; clear x)); on_goal 2 => (try clear_value x; revert x; intro _ _))
    | (extract_lets +onlyGivenNames y; try clear_value y; revert y; intro _)
    | with_reducible apply Calm.trans _ (modSensor_calm ..).calm
    | with_reducible apply Calm.trans _ heatersOff_calm.calm
    | with_reducible apply Calm.trans _ wakeEvent_calm.calm
    | with_reducible apply Calm.trans _ thermUpdate_calm.calm
    | with_reducible apply Calm.trans _ (foldl_calm _ _ _ _)
    | split)

theorem execThermalCrossing_calm {t : Fin 9} {l : Fin 3} {rising : Bool} {s : State} {u : State} (h : execThermalCrossing t l rising s = .next u) : Calm s u := by
  unfold execThermalCrossing at h
  cases h
  repeat' (first
    | exact rfl
    | with_reducible assumption
    | with_reducible exact Calm.refl _
    | intro _
    | (extract_lets +onlyGivenNames y; try clear_value y; revert y; intro _)
    | with_reducible apply Calm.trans _ cross_calm.calm
    | with_reducible apply Calm.trans _ (foldl_calm _ _ _ _)
    | split)

theorem shutdown_calm {sensor : Nat} {s : State} : Calm s (shutdown sensor s) := by
  unfold shutdown
  repeat' (first
    | exact rfl
    | with_reducible assumption
    | with_reducible exact Calm.refl _
    | intro _
    | (extract_lets +onlyGivenNames y; try clear_value y; revert y; intro _)
    | with_reducible apply Calm.trans _ enterLatched_calm.calm
    | with_reducible apply Calm.trans _ boxRecord_calm.calm
    | with_reducible apply Calm.trans _ heatersOff_calm.calm
    | with_reducible apply Calm.trans _ (foldl_calm _ _ _ _)
    | split)

theorem execThermalShutdown_calm {t : Fin 9} {s : State} {u : State} (h : execThermalShutdown t s = .next u) : Calm s u := by
  unfold execThermalShutdown at h
  cases h
  repeat' (first
    | exact rfl
    | with_reducible assumption
    | with_reducible exact Calm.refl _
    | intro _
    | (extract_lets +onlyGivenNames x; with_reducible refine Calm.step (x := x) ?_ ?_; (on_goal 1 => (unfold x; clear x)); on_goal 2 => (try clear_value x; revert x; intro _ _))
    | (extract_lets +onlyGivenNames y; try clear_value y; revert y; intro _)
    | with_reducible apply Calm.trans _ (modSensor_calm ..).calm
    | with_reducible apply Calm.trans _ shutdown_calm.calm
    | with_reducible apply Calm.trans _ thermUpdate_calm.calm
    | with_reducible apply Calm.trans _ (foldl_calm _ _ _ _)
    | split)

theorem execSensorCrossCheck_calm {s : State} {t : State} (h : execSensorCrossCheck s = .next t) : Calm s t := by
  unfold execSensorCrossCheck at h
  cases h
  repeat' (first
    | exact rfl
    | with_reducible assumption
    | with_reducible exact Calm.refl _
    | intro _
    | (extract_lets +onlyGivenNames x; with_reducible refine Calm.step (x := x) ?_ ?_; (on_goal 1 => (unfold x; clear x)); on_goal 2 => (try clear_value x; revert x; intro _ _))
    | (extract_lets +onlyGivenNames y; try clear_value y; revert y; intro _)
    | with_reducible apply Calm.trans _ crossCheck_calm.calm
    | with_reducible apply Calm.trans _ heatersOff_calm.calm
    | with_reducible apply Calm.trans _ shutdown_calm.calm
    | with_reducible apply Calm.trans _ (foldl_calm _ _ _ _)
    | split)

end Sys2Proof.Machine
end

