-- ==== Sys2Proof/Laws/Order.lean ====
section
/-!
SUPPORT. The places of the events whose place depends on the state or on their operand (Machine/Order.lean), and what
it is for one event to come before another.
-/

namespace Sys2Proof.Machine

theorem place_faultEvent (f : Source) (s : State) :
    s.place (.faultEvent f) = (if s.faults.src[f].inForce = .grave then TickClass.grave else .faults, f.val) := rfl

theorem place_windowComplete (p : PortId) (i : Fin 2) (s : State) :
    s.place (.windowComplete p i) = (.samples, ((s.laneOfInput p i).map (·.val)).getD 64) := rfl

theorem place_conversionComplete (x : ConvIn) (s : State) :
    s.place (.conversionComplete x) = (.samples, ((s.convEntry x).bind (·.lane)).elim 64 (·.val)) := rfl

theorem place_dbellWrite (v : Byte) (s : State) :
    s.place (.dbellWrite v) =
      (.doorbells, if v.getLsbD 0 then 0 else if v.getLsbD 1 then 1 else if v.getLsbD 2 then 2 else 3) := rfl

/-- One event comes before another by its class, and within a class by its index. -/
theorem before_iff (s : State) (a b : Instr) : s.before a b = true ↔
    (s.place a).1.rank < (s.place b).1.rank ∨
      ((s.place a).1.rank = (s.place b).1.rank ∧ (s.place a).2 ≤ (s.place b).2) := by
  simp [State.before]

end Sys2Proof.Machine
end

