-- ==== Sys2Proof/Laws/Ticks.lean ====
section
/-!
SUPPORT. What the operations of Ticks.lean leave alone (Laws/Steady.lean), one lemma for each.
-/

set_option linter.unusedTactic false
set_option linter.unreachableTactic false
set_option linter.tactic.unusedName false

namespace Sys2Proof.Machine

theorem tickClock_guard {i : TickIn} {s : State} : Guard s (tickClock i s) := by
  unfold tickClock
  repeat' (first
    | exact rfl
    | with_reducible assumption
    | with_reducible exact Guard.refl _
    | intro _
    | (extract_lets +onlyGivenNames y; try clear_value y; revert y; intro _)
    | with_reducible apply Guard.trans _ (modCore_guard ..))

theorem tickPins_calm {s : State} : Calm s (tickPins s) := by
  unfold tickPins
  repeat' (first
    | exact rfl
    | with_reducible assumption
    | with_reducible exact Calm.refl _
    | intro _
    | (extract_lets +onlyGivenNames y; try clear_value y; revert y; intro _)
    | with_reducible apply Calm.trans _ (modPins_calm ..).calm)

theorem closeFigures_calm {s : State} : Calm s (closeFigures s) := by
  unfold closeFigures
  repeat' (first
    | exact rfl
    | with_reducible assumption
    | with_reducible exact Calm.refl _
    | intro _
    | (extract_lets +onlyGivenNames x; with_reducible refine Calm.step (x := x) ?_ ?_; (on_goal 1 => (unfold x; clear x)); on_goal 2 => (try clear_value x; revert x; intro _ _))
    | (extract_lets +onlyGivenNames y; try clear_value y; revert y; intro _)
    | with_reducible apply Calm.trans _ (modLedger_calm ..).calm
    | with_reducible apply Calm.trans _ (modTherm_calm ..).calm
    | with_reducible apply Calm.trans _ (modFaults_calm ..).calm)

theorem tickFrame_quiet {fsync : Bool} {s : State} : Quiet s (tickFrame fsync s) := by
  unfold tickFrame
  repeat' (first
    | exact rfl
    | with_reducible assumption
    | with_reducible exact Quiet.refl _
    | intro _
    | (extract_lets +onlyGivenNames x; with_reducible refine Quiet.step (x := x) ?_ ?_; (on_goal 1 => (unfold x; clear x)); on_goal 2 => (try clear_value x; revert x; intro _ _))
    | (extract_lets +onlyGivenNames y; try clear_value y; revert y; intro _)
    | with_reducible apply Quiet.trans _ (modFrame_calm _ _ rfl rfl).quiet
    | with_reducible apply Quiet.trans _ (modFrame_quiet _ _).quiet
    | with_reducible apply Quiet.trans _ closeFigures_calm.quiet
    | with_reducible apply Quiet.trans _ (foldl_quiet _ _ _ _)
    | split)

theorem tickTherm_calm {temps : Vector (Option Int) 9} {s : State} : Calm s (tickTherm temps s) := by
  unfold tickTherm
  repeat' (first
    | exact rfl
    | with_reducible assumption
    | with_reducible exact Calm.refl _
    | intro _
    | (extract_lets +onlyGivenNames y; try clear_value y; revert y; intro _)
    | with_reducible apply Calm.trans _ (modTherm_calm ..).calm
    | with_reducible apply Calm.trans _ thermUpdate_calm.calm
    | with_reducible apply Calm.trans _ (foldl_calm _ _ _ _)
    | split)

theorem tickPorts_calm {i : TickIn} {s : State} : Calm s (tickPorts i s) := by
  unfold tickPorts
  repeat' (first
    | exact rfl
    | with_reducible assumption
    | with_reducible exact Calm.refl _
    | intro _
    | (extract_lets +onlyGivenNames x; with_reducible refine Calm.step (x := x) ?_ ?_; (on_goal 1 => (unfold x; clear x)); on_goal 2 => (try clear_value x; revert x; intro _ _))
    | (extract_lets +onlyGivenNames y; try clear_value y; revert y; intro _)
    | with_reducible apply Calm.trans _ (modPorts_calm ..).calm
    | with_reducible apply Calm.trans _ (eachPort_calm _).calm
    | with_reducible apply Calm.trans _ (modPort_calm ..).calm
    | with_reducible apply Calm.trans _ (foldl_calm _ _ _ _)
    | split)

theorem tickHeat_calm {i : TickIn} {now : W64} {vht : Bool} {s : State} : Calm s (tickHeat i now vht s) := by
  unfold tickHeat
  repeat' (first
    | exact rfl
    | with_reducible assumption
    | with_reducible exact Calm.refl _
    | intro _
    | (extract_lets +onlyGivenNames x; with_reducible refine Calm.step (x := x) ?_ ?_; (on_goal 1 => (unfold x; clear x)); on_goal 2 => (try clear_value x; revert x; intro _ _))
    | (extract_lets +onlyGivenNames y; try clear_value y; revert y; intro _)
    | with_reducible apply Calm.trans _ (modHeat_calm ..).calm
    | with_reducible apply Calm.trans _ (eachPort_calm _).calm
    | with_reducible apply Calm.trans _ drive_calm.calm
    | with_reducible apply Calm.trans _ (modCore_calm _ _ _ _).calm
    | with_reducible apply Calm.trans _ (foldl_calm _ _ _ _)
    | split)

theorem tickFaults_calm {i : TickIn} {s : State} : Calm s (tickFaults i s) := by
  unfold tickFaults
  repeat' (first
    | exact rfl
    | with_reducible assumption
    | with_reducible exact Calm.refl _
    | intro _
    | (extract_lets +onlyGivenNames x; with_reducible refine Calm.step (x := x) ?_ ?_; (on_goal 1 => (unfold x; clear x)); on_goal 2 => (try clear_value x; revert x; intro _ _))
    | (extract_lets +onlyGivenNames y; try clear_value y; revert y; intro _)
    | with_reducible apply Calm.trans _ (modBox_calm _ _ _).calm
    | with_reducible apply Calm.trans _ (modFaults_calm ..).calm
    | with_reducible apply Calm.trans _ (modPins_calm ..).calm
    | (simp [Box.foldl_write_staged, Box.write_staged]; done))

theorem tickSeam_calm {s : State} : Calm s (tickSeam s) := by
  unfold tickSeam
  repeat' (first
    | exact rfl
    | with_reducible assumption
    | with_reducible exact Calm.refl _
    | intro _
    | (extract_lets +onlyGivenNames x; with_reducible refine Calm.step (x := x) ?_ ?_; (on_goal 1 => (unfold x; clear x)); on_goal 2 => (try clear_value x; revert x; intro _ _))
    | (extract_lets +onlyGivenNames y; try clear_value y; revert y; intro _)
    | with_reducible apply Calm.trans _ (modSeq_calm ..).calm
    | with_reducible apply Calm.trans _ startTraining_calm.calm
    | with_reducible apply Calm.trans _ (drawFree_calm ..).calm
    | with_reducible apply Calm.trans _ (foldl_calm _ _ _ _)
    | split)

theorem tickGas_calm {s : State} : Calm s (tickGas s) := by
  unfold tickGas
  repeat' (first
    | exact rfl
    | with_reducible assumption
    | with_reducible exact Calm.refl _
    | intro _
    | (extract_lets +onlyGivenNames x; with_reducible refine Calm.step (x := x) ?_ ?_; (on_goal 1 => (unfold x; clear x)); on_goal 2 => (try clear_value x; revert x; intro _ _))
    | (extract_lets +onlyGivenNames y; try clear_value y; revert y; intro _)
    | with_reducible apply Calm.trans _ rollRecords_calm.calm
    | with_reducible apply Calm.trans _ gasRoll_calm.calm
    | with_reducible apply Calm.trans _ calFrame_calm.calm
    | with_reducible apply Calm.trans _ (modGas_calm ..).calm
    | with_reducible apply Calm.trans _ (modTherm_calm ..).calm
    | with_reducible apply Calm.trans _ (foldl_calm _ _ _ _)
    | split)

theorem notePort_calm {p : PortId} {s : State} : Calm s (notePort p s) := by
  unfold notePort
  repeat' (first
    | exact rfl
    | with_reducible assumption
    | with_reducible exact Calm.refl _
    | intro _
    | (extract_lets +onlyGivenNames x; with_reducible refine Calm.step (x := x) ?_ ?_; (on_goal 1 => (unfold x; clear x)); on_goal 2 => (try clear_value x; revert x; intro _ _))
    | (extract_lets +onlyGivenNames y; try clear_value y; revert y; intro _)
    | with_reducible apply Calm.trans _ (modPort_calm ..).calm
    | with_reducible apply Calm.trans _ (modGauzeAt_calm ..).calm
    | with_reducible apply Calm.trans _ (foldl_calm _ _ _ _)
    | split)

theorem tickGauze_calm {s : State} : Calm s (tickGauze s) := by
  unfold tickGauze
  repeat' (first
    | exact rfl
    | with_reducible assumption
    | with_reducible exact Calm.refl _
    | intro _
    | (extract_lets +onlyGivenNames y; try clear_value y; revert y; intro _)
    | with_reducible apply Calm.trans _ (eachPort_calm _).calm
    | with_reducible apply Calm.trans _ gauzeDiscard_calm.calm
    | with_reducible apply Calm.trans _ (foldl_calm _ _ _ _)
    | split)

theorem tickRun_calm {i : TickIn} {s : State} : Calm s (tickRun i s) := by
  unfold tickRun
  repeat' (first
    | exact rfl
    | with_reducible assumption
    | with_reducible exact Calm.refl _
    | intro _
    | (extract_lets +onlyGivenNames x; with_reducible refine Calm.step (x := x) ?_ ?_; (on_goal 1 => (unfold x; clear x)); on_goal 2 => (try clear_value x; revert x; intro _ _))
    | (extract_lets +onlyGivenNames y; try clear_value y; revert y; intro _)
    | with_reducible apply Calm.trans _ (modTime_calm ..).calm
    | with_reducible apply Calm.trans _ (modPins_calm ..).calm
    | with_reducible apply Calm.trans _ (modLedger_calm ..).calm
    | with_reducible apply Calm.trans _ tickGas_calm.calm
    | with_reducible apply Calm.trans _ windowsTick_calm.calm
    | with_reducible apply Calm.trans _ tickSeam_calm.calm)

theorem tickPowered_guard {i : TickIn} {s : State} : Guard s (tickPowered i s) := by
  unfold tickPowered
  repeat' (first
    | exact rfl
    | with_reducible assumption
    | with_reducible exact Guard.refl _
    | intro _
    | (extract_lets +onlyGivenNames x; with_reducible refine Guard.step (x := x) ?_ ?_; (on_goal 1 => (unfold x; clear x)); on_goal 2 => (try clear_value x; revert x; intro _ _))
    | (extract_lets +onlyGivenNames y; try clear_value y; revert y; intro _)
    | with_reducible apply Guard.trans _ ringLate_calm.guard
    | with_reducible apply Guard.trans _ postOwed_calm.guard
    | with_reducible apply Guard.trans _ tickClock_guard.guard
    | with_reducible apply Guard.trans _ tickPins_calm.guard
    | with_reducible apply Guard.trans _ tickGauze_calm.guard
    | with_reducible apply Guard.trans _ (eachPort_guard _).guard
    | with_reducible apply Guard.trans _ notePort_calm.guard
    | with_reducible apply Guard.trans _ (modFaults_calm ..).guard
    | with_reducible apply Guard.trans _ tickFrame_quiet.guard
    | with_reducible apply Guard.trans _ tickHeat_calm.guard
    | with_reducible apply Guard.trans _ tickPorts_calm.guard
    | with_reducible apply Guard.trans _ tickTherm_calm.guard
    | with_reducible apply Guard.trans _ tickRun_calm.guard
    | with_reducible apply Guard.trans _ tickFaults_calm.guard
    | with_reducible apply Guard.trans _ (modRings_calm _ _ _ _).guard
    | with_reducible apply Guard.trans _ (modRings_quiet _ _ _ _).guard
    | with_reducible apply Guard.trans _ digestLate_calm.guard
    | with_reducible apply Guard.trans _ serveReactions_quiet.guard
    | with_reducible apply Guard.trans _ commitHeld_calm.guard
    | with_reducible apply Guard.trans _ calStagedWrite_calm.guard
    | with_reducible apply Guard.trans _ (foldl_guard _ _ _ _)
    | split)

theorem tickReset_guard {i : TickIn} {s : State} : Guard s (tickReset i s) := by
  unfold tickReset
  repeat' (first
    | exact rfl
    | with_reducible assumption
    | with_reducible exact Guard.refl _
    | intro _
    | (extract_lets +onlyGivenNames x; with_reducible refine Guard.step (x := x) ?_ ?_; (on_goal 1 => (unfold x; clear x)); on_goal 2 => (try clear_value x; revert x; intro _ _))
    | (extract_lets +onlyGivenNames y; try clear_value y; revert y; intro _)
    | with_reducible apply Guard.trans _ (modCore_guard ..)
    | with_reducible apply Guard.trans _ (modFaults_calm ..).guard)

theorem execTick_guard {i : TickIn} {s : State} {t : State} (h : execTick i s = .next t) : Guard s t := by
  unfold execTick at h
  cases h
  repeat' (first
    | exact rfl
    | with_reducible assumption
    | with_reducible exact Guard.refl _
    | intro _
    | (extract_lets +onlyGivenNames y; try clear_value y; revert y; intro _)
    | with_reducible apply Guard.trans _ tickReset_guard.guard
    | with_reducible apply Guard.trans _ tickPowered_guard.guard
    | with_reducible apply Guard.trans _ (foldl_guard _ _ _ _)
    | split)

end Sys2Proof.Machine
end

