-- ==== Sys2Proof/Machine/Pads.lean ====
section
/-!
DEFINITION. The pins of a port: their roles by mode (Table 3-1), the dike rings (R71, R72), and what each
pin and each ring does in every port and device state (R76 to R79, R83).
-/

namespace Sys2Proof.Machine

/-- The pins P<n>_A to P<n>_F. -/
inductive Pin where
  | a | b | c | d | e | f
deriving DecidableEq, Repr

/-- The roles of Table 3-1. -/
inductive PinRole where
  | unused
  | we1 | we2 | re | ce
  | dikeRing | spareRing
  | drivePlus | driveReturn | sensePlus | senseMinus
  | layerBias | layerInput
  | thermopilePlus | thermopileMinus
  | senseElectrode | excitation
  | inputPlus | inputMinus
  | sourceOut | sourceReturn
deriving DecidableEq, Repr

/-- A row of Table 3-1, the pins A to F in order; `rtd` is the submode of AUX. -/
def Mode.roles (rtd : Bool) : Mode → Vector PinRole 6
  | .none => .replicate 6 .unused
  | .ec4 => #v[.we1, .we2, .re, .ce, .dikeRing, .spareRing]
  | .ec3 => #v[.we1, .unused, .re, .ce, .dikeRing, .spareRing]
  | .mox => #v[.drivePlus, .driveReturn, .sensePlus, .senseMinus, .layerBias, .layerInput]
  | .irt => #v[.drivePlus, .driveReturn, .sensePlus, .senseMinus, .thermopilePlus, .thermopileMinus]
  | .cap => #v[.senseElectrode, .unused, .unused, .excitation, .dikeRing, .spareRing]
  | .aux =>
    if rtd then #v[.sourceOut, .sourceReturn, .sensePlus, .senseMinus, .dikeRing, .spareRing]
    else #v[.inputPlus, .unused, .inputMinus, .unused, .dikeRing, .spareRing]

/-- The place of a pin in its row. -/
def Pin.column : Pin → Fin 6
  | .a => 0 | .b => 1 | .c => 2 | .d => 3 | .e => 4 | .f => 5

/-- The role of a pin by mode and submode (R66). -/
def Mode.role (rtd : Bool) (m : Mode) (x : Pin) : PinRole := (m.roles rtd)[x.column]

/-- The pins whose mean the external rings follow (Table 3-4). -/
def Mode.ringNode (rtd : Bool) : Mode → List Pin
  | .ec4 => [.a] | .ec3 => [.a] | .cap => [.a]
  | .aux => if rtd then [.c, .d] else [.a, .c]
  | .none => [] | .mox => [] | .irt => []

/-- The pins that are current inputs or inputs of the voltage path, each with a ring of its own on the die
and in the package (R71). -/
def Mode.guarded (rtd : Bool) : Mode → List Pin
  | .none => []
  | .ec4 => [.a, .b, .c, .d] | .ec3 => [.a, .c, .d]
  | .mox => [.c, .d, .f] | .irt => [.c, .d, .e, .f]
  | .cap => [.a, .d]
  | .aux => if rtd then [.c, .d] else [.a, .c]

/-- What an external ring pin does. -/
inductive RingPin where
  | highZ
  /-- Driven to the mean of the pins. -/
  | follows (nodes : List Pin)
deriving DecidableEq, Repr

/-- A ring on the die and in the package: tied to the port's zero node, or driven to the pin it guards. -/
inductive InnerRing where
  | zeroNode
  | follows (node : Pin)
deriving DecidableEq, Repr

/-- What a port pin is: high-impedance to VSS and VDD, a ring pin, or in its role. -/
inductive Pad where
  | highZ
  | ring (x : RingPin)
  | acts (r : PinRole)
deriving DecidableEq, Repr

/-- The rings of port p are driven: in STARTING, RUNNING and STOPPING, and in the tick before the start of an
EC port (R71, R79); never unpowered, in reset or in a departure of VAP or VAN (R77, R83). -/
def State.ringsDriven (s : State) (p : PortId) : Bool :=
  (s.clampsOpen p || (s.ports[p].engaged && !s.core.railHeld.getLsbD 0 && !s.core.railHeld.getLsbD 1)) &&
    s.core.powered && s.core.dev != .off && !s.core.rstLow

/-- The ring that guards a pin (R71). -/
def State.innerRing (s : State) (p : PortId) (x : Pin) : InnerRing :=
  if s.ringsDriven p && (s.ports[p].mode.guarded s.ports[p].rtd).contains x then .follows x else .zeroNode

/-- P<n>_E: driven, or high-impedance by bit 0 of the ring setting (R72). -/
def State.ringE (s : State) (p : PortId) : RingPin :=
  let q := s.ports[p]
  if s.ringsDriven p && q.mode.role q.rtd .e == .dikeRing && !q.ring.getLsbD 0 then .follows (q.mode.ringNode q.rtd)
  else .highZ

/-- P<n>_F: high-impedance, or a second copy of P<n>_E by bit 1 (R72). With both bits set P<n>_E is high-impedance, and
so is its copy (DESIGN CHOICE, log 75). -/
def State.ringF (s : State) (p : PortId) : RingPin :=
  if s.ports[p].ring.getLsbD 1 && (s.ports[p].mode.role s.ports[p].rtd .f == .spareRing) then s.ringE p else .highZ

/-- The drivers of the mode are on (Table 3-7), or engaged at zero bias before the clamps open (R79). -/
def State.driversOn (s : State) (p : PortId) : Bool := s.ringsDriven p

/-- A port pin (R66, R77, R83): in its role while the port's drivers are on; the ring pins as set; else, and
where the pin is unused, high-impedance. -/
def State.pad (s : State) (p : PortId) (x : Pin) : Pad :=
  match s.ports[p].mode.role s.ports[p].rtd x with
  | .unused => .highZ
  | .dikeRing => .ring (s.ringE p)
  | .spareRing => .ring (s.ringF p)
  | r => if s.driversOn p then .acts r else .highZ

/-- The clamps join P<n>_A to P<n>_C and P<n>_B to P<n>_C while they are closed (R75, R76). -/
def State.joined (s : State) (p : PortId) : List (Pin × Pin) :=
  if s.clampsOpen p then [] else [(.a, .c), (.b, .c)]

/-! ## The pins of the bus, the wired lines and the host's inputs (Table 22-3) -/

/-- The pins that belong to no port. -/
inductive LogicPin where
  | scl | sda | ad0 | ad1 | ad2
  | faultN | almaN | almbN | syncN
  | fsync | quiet | ppsA | ppsB | refclk
  | resetN | tmode
deriving DecidableEq, Repr

/-- What such a pin is: high-impedance, an input, an input with the 50 kOhm pull-up, an I2C target (and controller
while an attention write lasts, which is one command here), an open-drain output that is off or sinks. -/
inductive LogicPad where
  | highZ | input | pulledUp | target | off | low
deriving DecidableEq, Repr

/-- SYNC_N is driven low in the 4 ticks after the doorbell of a WEAVE.SYNC (R202). -/
def State.syncLow (s : State) : Bool := s.pins.syncFrom.any fun t => decide (1 ≤ s.since t ∧ s.since t ≤ 4)

/-- OFF, or VDD absent. -/
def State.absent (s : State) : Bool := !s.core.powered || s.core.dev == .off

/-- A pin in every state of the device (R455). -/
def State.logicPad (s : State) (x : LogicPin) : LogicPad :=
  let gone := s.absent || s.core.rstLow
  let sinks := fun (b : Bool) => if b && !gone then LogicPad.low else .off
  match x with
  | .scl | .sda =>
    if gone || !s.core.porchUp then .highZ else .target
  | .faultN => sinks s.pins.faultN
  | .almaN => sinks (s.pins.almaN && s.core.dev != .boot)
  | .almbN => sinks (s.pins.almbN && s.core.dev != .boot)
  | .syncN => sinks (s.syncLow && s.core.dev != .boot)
  | .ad0 | .ad1 | .ad2 | .fsync | .quiet | .ppsA | .ppsB | .refclk => if gone then .highZ else .input
  | .resetN => if s.absent then .highZ else .pulledUp
  | .tmode => if s.absent then .highZ else .input

end Sys2Proof.Machine
end

