-- ==== Sys2Proof/WellFormed.lean ====
section
/-!
DEFINITION. Which commands are well formed: operands that the types allow and the hardware cannot
bring in.
-/

namespace Sys2Proof

/-- A sampled temperature lies in the signed 16 bits a reading has (R280). -/
def tempOk : Option Int → Bool
  | some v => decide (-32768 ≤ v ∧ v ≤ 32767)
  | none => true

/-- A driver delivers at most 40 mA and 60 mW, and its supply 3.6 V (R111). -/
def heatOk (m : HeatSample) : Bool :=
  decide (m.ihtNa ≤ 40000000 ∧ m.vhsUv ≤ 3600000 ∧ m.vhsUv * m.ihtNa ≤ 60000000000000)

/-- One tick's sample: readings in range, no detector of a source that does not exist (R400), at most
one measurement for each heater driver (R116). -/
def TickIn.wellFormed (i : TickIn) : Bool :=
  i.temps.toList.all tempOk && i.detect.toNat < 2 ^ 55 && (i.heaters.map (·.port)).Nodup &&
    i.heaters.all heatOk

/-- The highest brownout threshold of Table 22-1, in mV. -/
def brownoutMv : Nat := 790

/-- The commands whose operands the hardware can bring in: an edge lies at most one frame back, and a brownout is
detected below its threshold (R448). -/
def Instr.wellFormed : Instr → Bool
  | .tick i => i.wellFormed
  | .ppsEdge _ k _ => k ≤ 638
  | .brownout v => v < brownoutMv
  | .chunkStagingTimeout op sel => op == 0x0501 || sel == 0
  | _ => true

end Sys2Proof
end

