-- ==== Sys2Proof/Tests/Slice0.lean ====
section
/-!
SUPPORT. Tests: ill-formed commands that WellFormed refuses, worked examples of the spec, and, for each
statement with hypotheses, states and operands that meet them.
-/

namespace Sys2Proof.Machine

/-- A state in which slot 0 runs a request. -/
def tReq (d : Dev) (op : Nat) (p : List Byte) : State :=
  (State.reset.modCore fun c => { c with dev := d }).modSlot 0 fun x =>
    { x with st := .running
             bytes := slotBytes (toLE 2 op ++ [0, BitVec.ofNat 8 p.length, 0, 0, 0, 0] ++ p) }

theorem slotBytes_append_zeros (l : List Byte) (h : l.length ≤ 64) :
    (slotBytes l).toList = l ++ List.replicate (64 - l.length) 0 := by
  apply List.ext_getElem
  · simp; omega
  · intro i h1 h2
    simp [slotBytes]
    by_cases hi : i < l.length
    · rw [List.getElem?_eq_getElem hi, List.getElem_append_left hi]; rfl
    · rw [List.getElem?_eq_none (by omega), List.getElem_append_right (by omega)]; simp

theorem tReq_request (d : Dev) (op : Nat) (p : List Byte) (h : op < 65536) (hp : p.length ≤ 56)
    (hd : d ≠ .off ∧ d ≠ .boot := by decide) :
    (tReq d op p).request 0 op p := by
  have e : ((tReq d op p).mbox.slots[(0 : SlotId)]).bytes.toList =
      toLE 2 op ++ [0, BitVec.ofNat 8 p.length, 0, 0, 0, 0] ++ p ++ List.replicate (56 - p.length) 0 := by
    have : (tReq d op p).mbox.slots[(0 : SlotId)] = { (State.reset.mbox.slots[(0 : SlotId)]) with
        st := .running
        bytes := slotBytes (toLE 2 op ++ [0, BitVec.ofNat 8 p.length, 0, 0, 0, 0] ++ p) } := by
      simp [tReq, State.modSlot, State.modMbox]
    rw [this, slotBytes_append_zeros _ (by simp [toLE]; omega)]
    congr 2
    simp [toLE]
  have st : ((tReq d op p).mbox.slots[(0 : SlotId)]).st = .running := by
    simp [tReq, State.modSlot, State.modMbox]
  refine ⟨?_, ?_⟩
  · simp only [State.runs, st, Slot.op, e]
    have ra : (tReq d op p).reeveActive = true := by
      obtain ⟨h1, h2⟩ := hd
      cases d <;> first | rfl | exact absurd rfl h1 | exact absurd rfl h2
    simp [u16, leNat, slice, toLE, ra]
    omega
  · simp only [Slot.payload, Slot.len, e]
    simp [u8, slice, toLE]
    rw [Nat.mod_eq_of_lt (by omega), Nat.min_eq_left hp]
    simp

/-- The payload of a HEAT.PLATE with every optional parameter left out, at the ends of its ranges. -/
def tPlate : List Byte :=
  [15, 0] ++ toLE 2 500 ++ List.replicate 12 0 ++ toLE 2 1 ++ [40, 0] ++ toLE 4 5000 ++ toLE 4 1 ++ [0, 0, 1, 8] ++
    List.replicate 4 0

/-- One chunk with SEL k that holds a whole object. -/
def tChunk (k : Nat) (o : List Byte) : List Byte := toLE 2 k ++ [0, 0] ++ toLE 2 o.length ++ [1, 0] ++ o

/-- A profile of one step: POWER 0.02 mW for 65535 ticks, once, then held. -/
def tProfile : List Byte := [1, 2, 0, 0, 2, 0, 2, 0, 0xFF, 0xFF, 0, 0]

/-- Port k in mode m and state st. -/
def tPort (k : PortId) (m : Mode) (st : PortState) : State → State :=
  State.modPort k fun q => { q with mode := m, state := st }

/-- The profile of port k. -/
def tHeater (k : PortId) (f : Heater → Heater) : State → State := State.modHeater k f

/-- Port 3 with a loaded tone plan of 3 mV in all. -/
def tLoaded : State := (tPort 3 .ec4 .starting State.reset).modGauzeAt 3 fun g =>
  { g with plan := some defaultEcPlan }

/-- R139 at a bias of 0.75 V with that plan. -/
theorem tBias : ∀ x, tLoaded.gauze[(3 : PortId)].plan = some x → biasFits 0x3000 x.ampSum = true := by
  intro x hx
  have h : x.ampSum = 300 := by
    have : tLoaded.gauze[(3 : PortId)].plan.map TonePlan.ampSum = some 300 := by decide
    rw [hx] at this
    exact Option.some.inj this
  rw [h]
  simp only [biasFits, decide_eq_true_eq]
  norm_num [absRat]

/-- A moved step: P0's step 1 is due and differs, and a window of P1, its coupled port, covers tick 0. -/
def tCover : State :=
  tHeater 0 (fun h => { h with
    due := some 1, run := .running
    profile := some { steps := [offStep, { offStep with kind := 2 }], endMode := .loop, autostart := false }
    plate := { coupled := 2 } })
  (State.modInput 1 0 (fun x => { x with range := 0 }) (tPort 1 .ec3 .running (State.reset.modPlan fun x =>
    { x with cur := some { packed := Vector.replicate 16 [], placed := Vector.replicate 16 [{ start := 0, len := 1 }] } })))

/-- The only chunk of a whole object. -/
theorem tChunk_last (d : Dev) (op k : Nat) (o : List Byte) (h1 : op < 65536) (h2 : o.length ≤ 48)
    (h3 : u16 (tChunk k o) 0 = k) (h4 : u16 (tChunk k o) 4 = o.length) (hd : d ≠ .off ∧ d ≠ .boot := by decide) :
    (tReq d op (tChunk k o)).lastChunk 0 op k o :=
  ⟨_, tReq_request _ _ _ h1 (by simp [tChunk, toLE]; omega) hd, h3, h4, rfl, .inl ⟨rfl, rfl, rfl⟩⟩

/-- A tone plan of one tone: 10 mHz, harmonic 1, 0.5 mV. -/
def tTones : List Byte :=
  [10, 0, 0, 0, 1, 0, 1, 0, 0, 0, 0, 0, 0, 0, 0, 0] ++ [1, 0, 50, 0, 0, 0, 0, 0]

/-- GAUZE.HEALTH operation 2 with the least spread factors, 1.1, and the highest threshold. -/
def tSpreads : List Byte := [15, 2, 0, 0, 0xCD, 0xCC, 0x8C, 0x3F, 0xCD, 0xCC, 0x8C, 0x3F, 0xCD, 0xCC, 0x8C, 0x3F, 0xE8, 3]

theorem tLe : F32.le 0x3F8CCCCD 0x41200000 = true := by
  simp only [F32.le, F32.toRat, show (0x3F8CCCCD : F32).toNat = 1066192077 from rfl,
    show (0x41200000 : F32).toNat = 1092616192 from rfl, show (0x3F8CCCCD : F32).getLsbD 31 = false from rfl,
    show (0x41200000 : F32).getLsbD 31 = false from rfl]
  norm_num [pow2, show Int.toNat 23 = 23 from rfl, show Int.toNat 20 = 20 from rfl]
  decide

/-- A plan without tones, and the gauze of P15 as given. -/
def tTonePlan : TonePlan :=
  { f0 := 1000, tones := [], lead := 0, m := 1, count := 0, vref := false, floor := 0, fit := false, autostart := false }
def tGauze (g : Gauze) : State := State.reset.modGauzeAt 15 fun _ => g

/-- A staged object that the chunk of data d completes, for objects longer than one chunk. -/
def tStaged (d : Dev) (op k : Nat) (before data : List Byte) : State :=
  (tReq d op (toLE 2 k ++ toLE 2 before.length ++ toLE 2 (before.length + data.length) ++ [0, 0] ++ data)).modMbox
    fun m => { m with staging := [{ op := BitVec.ofNat 16 op, sel := k, total := before.length + data.length
                                    data := before, last := 0 }] }

theorem tStaged_last (d : Dev) (op k : Nat) (before data : List Byte) (h1 : op < 65536) (h2 : data.length ≤ 48)
    (h3 : k < 65536) (h4 : before.length + data.length < 65536) (hd : d ≠ .off ∧ d ≠ .boot := by decide) :
    (tStaged d op k before data).lastChunk 0 op k (before ++ data) := by
  refine ⟨_, tReq_request d op _ h1 (by simp [toLE]; omega) hd, ?_, ?_, ?_, .inr ⟨?_,
    { op := BitVec.ofNat 16 op, sel := k, total := before.length + data.length, data := before, last := 0 },
    List.find?_cons_of_pos (by simp [Staging.holds]; exact decide_eq_false (by
      show ¬ 3840000 ≤ ((State.reset.core.lt - 0 : W64)).toNat; decide)), rfl, ?_, ?_, rfl, ?_⟩⟩
  all_goals simp [u16, u8, leNat, slice, toLE]
  all_goals omega

/-- A GAS.MODEL object: MODEL 0x0 with environment code 0x7 throughout and the least AGE. -/
def tModel : List Byte := [0, 63, 63, 63, 1, 1, 7, 0, 7, 0, 7, 0, 7, 0, 1, 0, 0, 0, 0, 0] ++ List.replicate 100 0

set_option maxRecDepth 8192 in
theorem tModel_ok : gasModelFault tModel = none := by decide

theorem leNat_zeros (m : Nat) : leNat (List.replicate m 0) = 0 := by
  induction m with
  | zero => rfl
  | succ m ih => rw [List.replicate_succ]; simp only [leNat, ih]; rfl

/-- A matrix of zeros suits every port (R216). -/
theorem tMatrix (s : State) (a b : Nat) : s.matrixFault (List.replicate a 0 ++ List.replicate b 0) = none := by
  have h : ∀ k, f32At (List.replicate a 0 ++ List.replicate b 0) (4 * k) = 0 := by
    intro k
    rw [List.replicate_append_replicate]
    simp only [f32At, u32, slice, List.drop_replicate, List.take_replicate, leNat_zeros]
    rfl
  unfold State.matrixFault
  rw [List.find?_eq_none.2]
  · rfl
  · intro k _
    simp only [h k]
    simp [F32.finite, F32.toRat, pow2]

/-- A conversion of Warp's entry k that completes at clock c. -/
def tCv (k : Fin 32) (c : Fin 960) : ConvIn := { conv := .warp, entry := k, clock := c, v := 0, err := 0, np := 7 }

/-- The window whose result a clip has fixed. -/
def tWin : OpenWin :=
  { frame := 0, start := 0, len := 1, first := 0, named := true, inPolder := false, isUnguarded := false, range := 7, clip := some false }

/-- A device in RUN: P15 in EC4 measures, its I2 is due for a low-signal step and a window of it has ended. -/
def tConv : State :=
  ((((State.reset.modCore fun c => { c with dev := .run }).modSeq fun q =>
    { q with running := true
             tables := { q.tables with warp := some [{ cls := .internal, src := 0x15, lane := some 63 },
               { cls := .internal, src := 0x15 }, { cls := .port, port := 15, sig := 1, lane := some 0 }] } }).modPort 15
    fun q => { q with mode := .ec4, state := .running }).modInput 15 1 fun x =>
      { x with doneWin := some tWin, range := 7, lowOk := true, results := 1, lowRun := 9, s := 10 })

/-- Slot 0 holds a request in the queue. -/
def tQueued (d : Dev) (op : Nat) (p : List Byte) : State :=
  ((tReq d op p).modSlot 0 fun x => { x with st := .queued }).modMbox fun m => { m with queue := [0] }

/-- LOCK.PASSWORD is queued. -/
def tAttempt : State := tQueued .ready 0x1101 (List.replicate 8 0)

/-- A Rexia whose porch answers, in device state d. -/
def tPorch (d : Dev) (s : State) : State :=
  (s.modCore fun c => { c with dev := d, porchUp := true }).modBus fun b => { b with addr := 0x10, addrValid := true }

/-- A staging of SEQ.LOAD whose last chunk lies 60 s back. -/
def tOldStage : State :=
  (State.reset.modCore fun c => { c with lt := 3840000 }).modMbox fun m =>
    { m with staging := [{ op := 0x0501, sel := 2, total := 100, data := [], last := 0 }] }

/-- A NOTICE ring that holds n entries, in device state d. -/
def tNotices (d : Dev) (n : Nat) : State :=
  (State.reset.modCore fun c => { c with dev := d }).modRings fun r => { r with notice := List.replicate n 0 }

/-- A SAMPLE ring that holds n entries, in device state d. -/
def tSamples (d : Dev) (n : Nat) : State :=
  (State.reset.modCore fun c => { c with dev := d }).modRings fun r => { r with sample := List.replicate n 0 }

theorem tNotices_length (d : Dev) (n : Nat) : (tNotices d n).rings.notice.length = n := List.length_replicate
theorem tSamples_length (d : Dev) (n : Nat) : (tSamples d n).rings.sample.length = n := List.length_replicate

/-- A Rexia in RUN whose bolt in force has generation 5. -/
def tDigest : State :=
  (tPorch .run State.reset).modBolt fun b => { b with inForce := some false, gen := 5, digest := List.replicate 32 0xAB }

/-- A Rexia in READY disciplined by REFCLK: k = 1 once it has been found, g good ticks now. -/
def tDisc (k g : Nat) : State := State.reset.modCore fun c =>
  { c with dev := .ready, sys := { c.sys with discipline := 2 }, discPresent := k == 1, discEver := k == 1
           refclkGood := g }

/-- A committed bolt in slot A. -/
def tBolted (s : State) : State := s.modBolt fun b => { b with a := { b.a with valid := true, mark := commitMark false b.a.bytes } }

theorem tBolted_committed (s : State) : (tBolted s).bolt.hasCommitted = true := by
  have h : (tBolted s).bolt.a.committed false = true := by simp [tBolted, State.modBolt, BoltSlot.committed]
  cases e : (tBolted s).bolt.b.committed true <;>
    simp only [Bolt.hasCommitted, Bolt.candidates, Bolt.slot, List.filter, h, e, if_true, Bool.false_eq_true, if_false] <;>
    split <;> rfl

/-- EC port 0 in RUN, frame 0, was compared in the frame before: n frames beyond 5 mV in a row, the last notice a frames
ago. -/
def tVre (n : Nat) (a : Option Nat) : State :=
  (tPort 0 .ec4 .running (State.reset.modPort 0 fun q =>
    { q with vreBad := n, vreAge := a, vreFrame := some 0xFFFFFFFF })).modCore fun c => { c with dev := .run }

/-- A frame of RUN that has reached tick k. -/
def tFrame (k : Nat) (s : State) : State :=
  (s.modCore fun c => { c with dev := .run }).modFrame fun f => { f with started := true, number := 7, tick := k }

/-- A tick whose pins and detectors report nothing. -/
def tTick : TickIn :=
  { fsync := false, refclkGood := true, vddMv := 1200, iddUa := 900, reeveRuns := true, railBad := 0
    pinBad := 0, ceLim := 0, ringLim := 0, temps := Vector.replicate 9 (some 2500)
    heaters := [], detect := 0 }

/-- A pattern object of 160 bytes. -/
def tPattern : List Byte := List.replicate 160 0xFF

/-- Port 0 RUNNING with an EC model and a calibration session. -/
def tSession (x : CalSession) (s : State) : State :=
  tPort 0 .ec3 .running (s.modCal fun c => { c with sessions := c.sessions.set 0 (some x) })

/-- A zero step that can be committed. -/
def tStep : CalSession := { begun := 0, zero := some { result := 1 } }

/-- A CAL.BEGIN whose doorbell is being taken. -/
def tBegun : State := tPort 0 .ec4 .running ((tReq .run 0x0901 [0, 0, 0, 0]).modGas fun g =>
  { g with models := g.models.set 0 [1] })

/-- A reference that has been on for 25 ms. -/
def tWarm (s : State) : State := s.modCore fun c => { c with refOn := true, refSince := 0, lt := 1600 }

/-- A reference error at no distance, and at one beyond 1000 ppm. -/
theorem tNear (s : State) : s.elecWithin { target := .ref, gain := 0, left := some 0 }
    { offset := 0, gainPpm := 0, biasErr := 0, ref := Config.refTrim } = true := by simp [State.elecWithin, absRat]

theorem tFar (s : State) : s.elecWithin { target := .ref, gain := 0, left := some 0 }
    { offset := 0, gainPpm := 0, biasErr := 0, ref := Config.refTrim + 1001 } = false := by
  simp [State.elecWithin, absRat]
  norm_num

/-- What a store would write differs from what is stored. -/
theorem tStore : (State.reset.modCal fun c => { c with
      sinceStore := 8640000, stored := some { ElecSet.factory with ref := Config.refTrim + 1 } }).elecSet ≠
    (State.reset.modCal fun c => { c with
      sinceStore := 8640000, stored := some { ElecSet.factory with ref := Config.refTrim + 1 } }).cal.stored.getD
      ElecSet.factory := by
  intro h
  have e := congrArg ElecSet.ref h
  have e' : Config.refTrim = Config.refTrim + 1 := e
  linarith

/-- Tick 1 of a frame, with the reeve running. -/
def tTickOne (s : State) : State :=
  (tPorch .run s).modFrame fun f => { f with started := true, tick := 1 }

/-- A running Rexia whose fault source f is changed. -/
def tFault (f : Source) (g : FSource → FSource) : State := (tPorch .run State.reset).modSource f g

/-- Slot B holds a staged bolt of generation 0, slot A nothing. -/
def tBolt (s : State) : State :=
  s.modBolt fun b => { b with b := { bytes := List.replicate 64 0, total := 64, valid := true } }

/-- BOLT.COMMIT of generation 0 waits in slot 3. -/
def tCommit : State := State.reset.modMbox fun m =>
  { m with pend := [{ slot := 3, op := 0x0F02, payload := [0, 0, 0, 0], wait := .boltCommit, since := 0 }] }

/-- One staged record and one dropped, in a Rexia that may write. -/
def tStagedRec : State :=
  (tPorch .ready State.reset).modBox fun b => { b with staged := [mkRec State.reset 0x01 0], overflow := some (mkRec State.reset 0x07 0), dropped := 1 }

/-- A TIME.SET of TA waits in slot 3. -/
def tSetPend (w : Wait) (s : State) : State := s.modMbox fun m =>
  { m with pend := [{ slot := 3, op := 0x0D01, payload := List.replicate 20 0, wait := w, since := 0 }] }

/-- A trigger on FT for frame 0xFFFFFFFF, tick 639. -/
def tTrig (action : Nat) (wake repeats : Bool) : Trigger :=
  { base := 0, action, wake, repeats, port := 15, frame := 0xFFFFFFFF, tick := 639, time := 0, period := 1 }

/-- Trigger 15, whose time came when the frame number wrapped. -/
def tTrigger (action : Nat) (wake repeats : Bool) (s : State) : State :=
  (s.modTime fun t => { t with triggers := t.triggers.set 15 (some (tTrig action wake repeats)) }).modFrame
    fun f => { f with started := true, number := 0 }

/-- A Rexia whose converters have not started. -/
def tCold : State := State.reset.modSeq fun q => { q with running := false }

theorem request_early {s : State} {n : SlotId} {op : Nat} {p : List Byte} (h : s.request n op p) :
    (s.modSlot n fun x => { x with early := true }).request n op p := by
  have e : (s.modSlot n fun x => { x with early := true }).mbox.slots[n] = { s.mbox.slots[n] with early := true } := by
    simp [State.modSlot, State.modMbox]
  unfold State.request State.runs
  rw [e]
  exact h

/-- A wrong password: one bit of every byte differs. -/
theorem tWrong : password.map (· ^^^ 1) ≠ password := by
  have k : ∀ x : Byte, x ^^^ 1 ≠ x := by decide
  intro h
  have : (password.map (· ^^^ 1)).head? = password.head? := by rw [h]
  rw [password, List.finRange_succ] at this
  simp only [List.map_cons, List.head?_cons, Option.some.injEq] at this
  exact k _ this

theorem tAnswer (nonce : List Byte) :
    ((tReq .ready 0x1103 (expectedResponse nonce)).modLock fun l => { l with nonce := some (nonce, 0) }).responseOk
      (expectedResponse nonce) = true := by
  have h : ((tReq .ready 0x1103 (expectedResponse nonce)).modLock
      fun l => { l with nonce := some (nonce, 0) }).since 0 < nonceLife := by
    show ((State.reset.core.lt - 0 : W64)).toNat < nonceLife
    decide
  simp only [State.responseOk, State.modLock]
  exact Bool.and_eq_true_iff.mpr ⟨decide_eq_true h, beq_self_eq_true _⟩

/-- StepRunsFront, second clause. -/
theorem witness_StepRunsFront : State.reset.pending = [] := rfl

theorem witness_PortSettingsApplyAtOnce :
    ((tReq .ready 0x0203 ([15, 1, 7, 7, 7, 1]))).request 0 0x0203 ([15, 1, 7, 7, 7, 1]) ∧
    u8 ([15, 1, 7, 7, 7, 1] : List Byte) 0 = 15 ∧
    ((tReq .ready 0x0203 ([15, 1, 7, 7, 7, 1]))).core.dev ≠ .run ∧
    u8 ([15, 1, 7, 7, 7, 1] : List Byte) 1 = (1 : Fin 2).val ∧
    u8 ([15, 1, 7, 7, 7, 1] : List Byte) 2 ≤ u8 ([15, 1, 7, 7, 7, 1] : List Byte) 4 ∧
    u8 ([15, 1, 7, 7, 7, 1] : List Byte) 4 ≤ u8 ([15, 1, 7, 7, 7, 1] : List Byte) 3 ∧
    u8 ([15, 1, 7, 7, 7, 1] : List Byte) 3 ≤ 7 ∧
    1 ≤ u8 ([15, 1, 7, 7, 7, 1] : List Byte) 5 ∧
    ((tReq .safe 0x0204 ([0, 64, 64, 0]))).request 0 0x0204 ([0, 64, 64, 0]) ∧
    ((tReq .safe 0x0204 ([0, 64, 64, 0]))).core.dev ≠ .run ∧
    1 ≤ u8 ([0, 64, 64, 0] : List Byte) 2 ∧
    u8 ([0, 64, 64, 0] : List Byte) 2 ≤ u8 ([0, 64, 64, 0] : List Byte) 1 ∧
    u8 ([0, 64, 64, 0] : List Byte) 1 ≤ 64 ∧
    u8 ([0, 64, 64, 0] : List Byte) 3 = 0 ∧
    ((tReq .run 0x0205 ([0, 60, 0xA0, 5]))).request 0 0x0205 ([0, 60, 0xA0, 5]) ∧
    u8 ([0, 60, 0xA0, 5] : List Byte) 1 ≤ 60 ∧
    u16 ([0, 60, 0xA0, 5] : List Byte) 2 ≤ 1440 ∧
    (State.modPort 15 (fun q => { q with mode := .aux, rtd := true }) (tReq .held 0x0206 ([15, 2]))).request 0 0x0206 ([15, 2]) ∧
    (State.modPort 15 (fun q => { q with mode := .aux, rtd := true }) (tReq .held 0x0206 ([15, 2]))).ports[(15 : PortId)].mode = .aux ∧
    (State.modPort 15 (fun q => { q with mode := .aux, rtd := true }) (tReq .held 0x0206 ([15, 2]))).ports[(15 : PortId)].rtd = true ∧
    (State.modPort 15 (fun q => { q with mode := .aux, rtd := true }) (tReq .held 0x0206 ([15, 2]))).ports[(15 : PortId)].state ≠ .running ∧
    u8 ([15, 2] : List Byte) 1 ≤ 2 ∧
    ((tReq .run 0x0207 ([3, 3]))).request 0 0x0207 ([3, 3]) ∧
    ((tReq .run 0x0207 ([3, 3]))).ports[(3 : PortId)].mode ≠ .mox ∧
    ((tReq .run 0x0207 ([3, 3]))).ports[(3 : PortId)].mode ≠ .irt ∧
    ((tReq .run 0x0207 ([3, 3]))).ports[(3 : PortId)].state ≠ .running ∧
    u8 ([3, 3] : List Byte) 1 ≤ 3 ∧
    (tPort 3 .mox .paused (tReq .run 0x0208 ([3, 0, 0x18, 0xFC]))).request 0 0x0208 ([3, 0, 0x18, 0xFC]) ∧
    (tPort 3 .mox .paused (tReq .run 0x0208 ([3, 0, 0x18, 0xFC]))).ports[(3 : PortId)].mode = .mox ∧
    (tPort 3 .mox .paused (tReq .run 0x0208 ([3, 0, 0x18, 0xFC]))).ports[(3 : PortId)].state ≠ .running ∧
    u8 ([3, 0, 0x18, 0xFC] : List Byte) 1 = 0 ∧
    (s16 ([3, 0, 0x18, 0xFC] : List Byte) 2).natAbs ≤ 1000 :=
  ⟨tReq_request _ _ _ (by decide) (by decide), by decide, by decide, by decide, by decide, by
   decide, by decide, by decide, tReq_request _ _ _ (by decide) (by decide), by decide, by decide,
   by decide, by decide, by decide, tReq_request _ _ _ (by decide) (by decide), by decide, by
   decide, tReq_request _ _ _ (by decide) (by decide), by decide, by decide, by decide, by decide,
   tReq_request _ _ _ (by decide) (by decide), by decide, by decide, by decide, by decide,
   tReq_request _ _ _ (by decide) (by decide), by and_intros <;> decide⟩

theorem witness_PortCommandsWaitForTheirBoundary :
    ((tReq .run 0x0201 ([15, 6, 1, 0]))).request 0 0x0201 ([15, 6, 1, 0]) ∧
    u8 ([15, 6, 1, 0] : List Byte) 0 = 15 ∧
    u8 ([15, 6, 1, 0] : List Byte) 1 ≤ 6 ∧
    (u8 ([15, 6, 1, 0] : List Byte) 1 = 6 ∧ u8 ([15, 6, 1, 0] : List Byte) 2 = 1) ∧
    u8 ([15, 6, 1, 0] : List Byte) 3 = 0 ∧
    ((tReq .run 0x0201 ([15, 6, 1, 0]))).ports[(15 : PortId)].state = .disabled ∧
    (tPort 3 .ec4 .starting (tReq .run 0x0202 ([3, 0, 0, 0x30, 0xE8, 3, 100, 0]))).request 0 0x0202 ([3, 0, 0, 0x30, 0xE8, 3, 100, 0]) ∧
    ((tPort 3 .ec4 .starting (tReq .run 0x0202 ([3, 0, 0, 0x30, 0xE8, 3, 100, 0]))).ports[(3 : PortId)].mode.isEc = true ∨ (tPort 3 .ec4 .starting (tReq .run 0x0202 ([3, 0, 0, 0x30, 0xE8, 3, 100, 0]))).ports[(3 : PortId)].state = .disabled) ∧
    u8 ([3, 0, 0, 0x30, 0xE8, 3, 100, 0] : List Byte) 1 = 0 ∧
    (s16 ([3, 0, 0, 0x30, 0xE8, 3, 100, 0] : List Byte) 2).natAbs ≤ 16384 ∧
    1 ≤ u16 ([3, 0, 0, 0x30, 0xE8, 3, 100, 0] : List Byte) 4 ∧
    u16 ([3, 0, 0, 0x30, 0xE8, 3, 100, 0] : List Byte) 4 ≤ 1000 ∧
    40 ≤ u8 ([3, 0, 0, 0x30, 0xE8, 3, 100, 0] : List Byte) 6 ∧
    u8 ([3, 0, 0, 0x30, 0xE8, 3, 100, 0] : List Byte) 6 ≤ 100 ∧
    u8 ([3, 0, 0, 0x30, 0xE8, 3, 100, 0] : List Byte) 7 = 0 ∧
    (tPort 3 .ec4 .starting (tReq .run 0x0202 ([3, 0, 0, 0x30, 0xE8, 3, 100, 0]))).ports[(3 : PortId)].state = .starting ∧
    (∀ x, (tLoaded).gauze[(3 : PortId)].plan = some x → biasFits 0x3000 x.ampSum = true) ∧
    (tPort 3 .ec3 .shut (tReq .ready 0x0202 ([3, 0, 0, 0, 1, 0, 40, 0]))).request 0 0x0202 ([3, 0, 0, 0, 1, 0, 40, 0]) ∧
    (tPort 3 .ec3 .shut (tReq .ready 0x0202 ([3, 0, 0, 0, 1, 0, 40, 0]))).ports[(3 : PortId)].state ≠ .starting ∧
    (tPort 3 .ec3 .shut (tReq .ready 0x0202 ([3, 0, 0, 0, 1, 0, 40, 0]))).ports[(3 : PortId)].state ≠ .running ∧
    (tPort 3 .ec3 .shut (tReq .ready 0x0202 ([3, 0, 0, 0, 1, 0, 40, 0]))).ports[(3 : PortId)].mode.isEc = true ∧
    ((tReq .ready 0x0202 ([3, 0, 0, 0, 1, 0, 40, 0]))).request 0 0x0202 ([3, 0, 0, 0, 1, 0, 40, 0]) ∧
    ((tReq .ready 0x0202 ([3, 0, 0, 0, 1, 0, 40, 0]))).ports[(3 : PortId)].state = .disabled ∧
    ((tReq .run 0x0203 ([15, 0, 0, 0, 0, 255]))).request 0 0x0203 ([15, 0, 0, 0, 0, 255]) ∧
    ((tReq .run 0x0203 ([15, 0, 0, 0, 0, 255]))).core.dev = .run ∧
    u8 ([15, 0, 0, 0, 0, 255] : List Byte) 1 = (0 : Fin 2).val ∧
    u8 ([15, 0, 0, 0, 0, 255] : List Byte) 2 ≤ u8 ([15, 0, 0, 0, 0, 255] : List Byte) 4 ∧
    u8 ([15, 0, 0, 0, 0, 255] : List Byte) 4 ≤ u8 ([15, 0, 0, 0, 0, 255] : List Byte) 3 ∧
    u8 ([15, 0, 0, 0, 0, 255] : List Byte) 3 ≤ 7 ∧
    1 ≤ u8 ([15, 0, 0, 0, 0, 255] : List Byte) 5 ∧
    ((tReq .run 0x0204 ([0, 1, 1, 0]))).request 0 0x0204 ([0, 1, 1, 0]) ∧
    ((tReq .run 0x0204 ([0, 1, 1, 0]))).core.dev = .run ∧
    1 ≤ u8 ([0, 1, 1, 0] : List Byte) 2 ∧
    u8 ([0, 1, 1, 0] : List Byte) 2 ≤ u8 ([0, 1, 1, 0] : List Byte) 1 ∧
    u8 ([0, 1, 1, 0] : List Byte) 1 ≤ 64 ∧
    u8 ([0, 1, 1, 0] : List Byte) 3 = 0 ∧
    (State.modPort 15 (fun q => { q with mode := .aux, rtd := true, state := .running }) (tReq .run 0x0206 ([15, 0]))).request 0 0x0206 ([15, 0]) ∧
    (State.modPort 15 (fun q => { q with mode := .aux, rtd := true, state := .running }) (tReq .run 0x0206 ([15, 0]))).ports[(15 : PortId)].state = .running ∧
    (State.modPort 15 (fun q => { q with mode := .aux, rtd := true, state := .running }) (tReq .run 0x0206 ([15, 0]))).ports[(15 : PortId)].mode = .aux ∧
    (State.modPort 15 (fun q => { q with mode := .aux, rtd := true, state := .running }) (tReq .run 0x0206 ([15, 0]))).ports[(15 : PortId)].rtd = true ∧
    u8 ([15, 0] : List Byte) 1 ≤ 2 ∧
    (tPort 3 .ec4 .running (tReq .run 0x0207 ([3, 0]))).request 0 0x0207 ([3, 0]) ∧
    (tPort 3 .ec4 .running (tReq .run 0x0207 ([3, 0]))).ports[(3 : PortId)].state = .running ∧
    (tPort 3 .ec4 .running (tReq .run 0x0207 ([3, 0]))).ports[(3 : PortId)].mode ≠ .mox ∧
    (tPort 3 .ec4 .running (tReq .run 0x0207 ([3, 0]))).ports[(3 : PortId)].mode ≠ .irt ∧
    u8 ([3, 0] : List Byte) 1 ≤ 3 ∧
    (tPort 3 .mox .running (tReq .run 0x0208 ([3, 0, 0xE8, 3]))).request 0 0x0208 ([3, 0, 0xE8, 3]) ∧
    (tPort 3 .mox .running (tReq .run 0x0208 ([3, 0, 0xE8, 3]))).ports[(3 : PortId)].state = .running ∧
    (tPort 3 .mox .running (tReq .run 0x0208 ([3, 0, 0xE8, 3]))).ports[(3 : PortId)].mode = .mox ∧
    u8 ([3, 0, 0xE8, 3] : List Byte) 1 = 0 ∧
    (s16 ([3, 0, 0xE8, 3] : List Byte) 2).natAbs ≤ 1000 ∧
    (tPort 3 .mox .stopped (tReq .run 0x0209 ([3]))).request 0 0x0209 ([3]) ∧
    (tPort 3 .mox .stopped (tReq .run 0x0209 ([3]))).startable 3 = true ∧
    (tPort 3 .mox .starting (tReq .run 0x020A ([3]))).request 0 0x020A ([3]) ∧
    (tPort 3 .mox .starting (tReq .run 0x020A ([3]))).ports[(3 : PortId)].state = .starting :=
  ⟨tReq_request _ _ _ (by decide) (by decide), by decide, by decide, by decide, by decide, by
   decide, tReq_request _ _ _ (by decide) (by decide), by decide, by decide, by decide, by decide,
   by decide, by decide, by decide, by decide, by decide, tBias, tReq_request _ _ _ (by decide) (by
   decide), by decide, by decide, by decide, tReq_request _ _ _ (by decide) (by decide), by decide,
   tReq_request _ _ _ (by decide) (by decide), by decide, by decide, by decide, by decide, by
   decide, by decide, tReq_request _ _ _ (by decide) (by decide), by decide, by decide, by decide,
   by decide, by decide, tReq_request _ _ _ (by decide) (by decide), by decide, by decide, by
   decide, by decide, tReq_request _ _ _ (by decide) (by decide), by decide, by decide, by decide,
   by decide, tReq_request _ _ _ (by decide) (by decide), by decide, by decide, by decide, by
   decide, tReq_request _ _ _ (by decide) (by decide), by decide, tReq_request _ _ _ (by decide) (by
   decide), by decide⟩

theorem witness_PortStatusReportsThePort :
    ((tReq .held 0x020B ([15]))).request 0 0x020B ([15]) ∧
    u8 ([15] : List Byte) 0 = 15 :=
  ⟨tReq_request _ _ _ (by decide) (by decide), by decide⟩

theorem witness_HeatCommands :
    ((tReq .ready 0x0301 (tPlate))).request 0 0x0301 (tPlate) ∧
    u8 tPlate 0 = 15 ∧
    heatPlateFault tPlate = none ∧
    ((tReq .ready 0x0301 (tPlate))).plateFree 15 = true ∧
    (tPort 15 .mox .paused (tReq .run 0x0301 (tPlate))).request 0 0x0301 (tPlate) ∧
    (tPort 15 .mox .paused (tReq .run 0x0301 (tPlate))).plateFree 15 = false ∧
    (tReq .ready 0x0302 (tChunk 15 tProfile)).lastChunk 0 0x0302 15 tProfile ∧
    profileFault {} tProfile = none ∧
    tProfile.length = 12 ∧
    (tHeater 0 (fun h => { h with profile := some (parseProfile tProfile) }) (tPort 0 .mox .running (tReq .run 0x0303 ([0])))).request 0 0x0303 ([0]) ∧
    (tHeater 0 (fun h => { h with profile := some (parseProfile tProfile) }) (tPort 0 .mox .running (tReq .run 0x0303 ([0])))).ports[(0 : PortId)].state = .running ∧
    (tHeater 0 (fun h => { h with profile := some (parseProfile tProfile) }) (tPort 0 .mox .running (tReq .run 0x0303 ([0])))).heat[(0 : PortId)].nextProfile.or (tHeater 0 (fun h => { h with profile := some (parseProfile tProfile) }) (tPort 0 .mox .running (tReq .run 0x0303 ([0])))).heat[(0 : PortId)].profile = some (parseProfile tProfile) ∧
    (parseProfile tProfile).steps.all (tHeater 0 (fun h => { h with profile := some (parseProfile tProfile) }) (tPort 0 .mox .running (tReq .run 0x0303 ([0])))).heat[(0 : PortId)].plate.runs = true ∧
    (tHeater 0 (fun h => { h with profile := some (parseProfile tProfile) }) (tPort 0 .mox .running (tReq .run 0x0303 ([0])))).heat[(0 : PortId)].trip = none ∧
    (tPort 15 .mox .running (tReq .run 0x0304 ([15]))).request 0 0x0304 ([15]) ∧
    (tPort 15 .mox .running (tReq .run 0x0304 ([15]))).ports[(15 : PortId)].state = .running ∧
    ((tReq .safe 0x0305 ([15]))).request 0 0x0305 ([15]) ∧
    ((tReq .safe 0x0305 ([15]))).heat[(15 : PortId)].ihtNa = 0 ∧
    (tHeater 15 (fun h => { h with ihtNa := 1, vhsUv := 1 }) (tReq .ready 0x0305 ([15]))).request 0 0x0305 ([15]) ∧
    (tHeater 15 (fun h => { h with ihtNa := 1, vhsUv := 1 }) (tReq .ready 0x0305 ([15]))).heat[(15 : PortId)].ihtNa ≠ 0 :=
  ⟨tReq_request _ _ _ (by decide) (by decide), by decide, by decide, by decide, tReq_request _ _ _
   (by decide) (by decide), by decide, ⟨_, tReq_request _ _ _ (by decide) (by decide), by decide, by
   decide, by decide, .inl (by decide)⟩, by decide, by decide, tReq_request _ _ _ (by decide) (by
   decide), by decide, by decide, by decide, by decide, tReq_request _ _ _ (by decide) (by decide),
   by decide, tReq_request _ _ _ (by decide) (by decide), by decide, tReq_request _ _ _ (by decide)
   (by decide), by decide⟩

theorem witness_HeaterEvents :
    (tHeater 15 (fun h => { h with due := some 1 }) State.reset).heat[(15 : PortId)].due = some 1 ∧
    ((tHeater 15 (fun h => { h with due := some 1 }) State.reset).heat[(15 : PortId)].differs 1 && (tHeater 15 (fun h => { h with due := some 1 }) State.reset).coupledCover (tHeater 15 (fun h => { h with due := some 1 }) State.reset).heat[(15 : PortId)].plate.coupled (tHeater 15 (fun h => { h with due := some 1 }) State.reset).frame.tick) = false ∧
    tCover.heat[(0 : PortId)].due = some 1 ∧
    (tCover.heat[(0 : PortId)].differs 1 && tCover.coupledCover tCover.heat[(0 : PortId)].plate.coupled tCover.frame.tick) = true ∧
    ({ steps := [], endMode := .onceOff, autostart := false : Profile }).endMode = .onceOff ∧
    (tHeater 0 (fun h => { h with iterEnd := true, profile := some (parseProfile tProfile) }) State.reset).heat[(0 : PortId)].iterEnd = true ∧
    (tHeater 0 (fun h => { h with iterEnd := true, profile := some (parseProfile tProfile) }) State.reset).heat[(0 : PortId)].profile = some (parseProfile tProfile) ∧
    (parseProfile tProfile).endMode = .onceHold ∧
    (tHeater 0 (fun h => { h with iterEnd := true, profile := some (parseProfile tProfile) }) State.reset).heat[(0 : PortId)].nextProfile = none ∧
    ({ steps := [{ offStep with duration := 640 }], endMode := .loop, autostart := false : Profile }).endMode = .loop ∧
    ({ steps := [{ offStep with duration := 640 }], endMode := .loop, autostart := false : Profile }).locked = true ∧
    ({ State.reset with frame := { State.reset.frame with tick := 1 } } : State).frame.tick ≠ 0 ∧
    (tHeater 0 (fun h => { h with tripDue := some .jump, limit := some .vmax, limitTicks := 64000, limitAge := some 6000 }) State.reset).heat[(0 : PortId)].tripDue = some .jump ∧
    (tHeater 0 (fun h => { h with tripDue := some .jump, limit := some .vmax, limitTicks := 64000, limitAge := some 6000 }) State.reset).heat[(0 : PortId)].limit = some .vmax ∧
    64000 ≤ (tHeater 0 (fun h => { h with tripDue := some .jump, limit := some .vmax, limitTicks := 64000, limitAge := some 6000 }) State.reset).heat[(0 : PortId)].limitTicks ∧
    (tHeater 0 (fun h => { h with tripDue := some .jump, limit := some .vmax, limitTicks := 64000, limitAge := some 6000 }) State.reset).heat[(0 : PortId)].limitAge = some 6000 ∧
    ({ feature := 0, first := 5, last := 9 : SpanEnd }).within [{ first := 5, last := 9, value := 1, flags := 0 }] ≠ [] ∧
    ({ feature := 0, first := 5, last := 9 : SpanEnd }).within [{ first := 5, last := 10, value := 1, flags := 0 }] = [] :=
  by and_intros <;> decide

theorem witness_GauzeCommands :
    (tPort 15 .cap .stopped (tReq .ready 0x0401 (tChunk 15 tTones))).lastChunk 0 0x0401 15 tTones ∧
    tonePlanFault false 0 tTones = none ∧
    tTones.length = 24 ∧
    (tPort 15 .cap .starting (tReq .run 0x0402 ([15]))).request 0 0x0402 ([15]) ∧
    (tPort 15 .cap .starting (tReq .run 0x0402 ([15]))).ports[(15 : PortId)].state = .starting ∧
    (tPort 15 .cap .starting (tReq .run 0x0402 ([15]))).ports[(15 : PortId)].mode.hasGauze = true ∧
    (tPort 15 .cap .starting (tReq .run 0x0402 ([15]))).since (tPort 15 .cap .starting (tReq .run 0x0402 ([15]))).mbox.slots[(0 : SlotId)].rung ≤ (tPort 15 .cap .starting (tReq .run 0x0402 ([15]))).frame.tick ∧
    (State.modCore (fun c => { c with lt := 5 }) (tPort 15 .cap .starting (tReq .run 0x0402 ([15])))).request 0 0x0402 ([15]) ∧
    (State.modCore (fun c => { c with lt := 5 }) (tPort 15 .cap .starting (tReq .run 0x0402 ([15])))).frame.tick < (State.modCore (fun c => { c with lt := 5 }) (tPort 15 .cap .starting (tReq .run 0x0402 ([15])))).since (State.modCore (fun c => { c with lt := 5 }) (tPort 15 .cap .starting (tReq .run 0x0402 ([15])))).mbox.slots[(0 : SlotId)].rung ∧
    (tGauze { plan := some tTonePlan }).gauzeRefusal 15 = none ∧
    (State.modGauzeAt 15 (fun g => { g with phase := .fall }) (tReq .run 0x0403 ([15]))).request 0 0x0403 ([15]) ∧
    (State.modGauzeAt 15 (fun g => { g with phase := .fall }) (tReq .run 0x0403 ([15]))).gauze[(15 : PortId)].phase ≠ .idle ∧
    (tPort 15 .cap .running (tReq .run 0x0407 ([15] ++ List.replicate 23 0))).request 0 0x0407 ([15] ++ List.replicate 23 0) ∧
    (tPort 15 .cap .running (tReq .run 0x0407 ([15] ++ List.replicate 23 0))).ports[(15 : PortId)].mode = .cap ∧
    (∀ i < 3, u8 ([15] ++ List.replicate 23 0 : List Byte) (1 + i) = 0) ∧
    (∀ i < 5, F32.finite (f32At ([15] ++ List.replicate 23 0 : List Byte) (4 + 4 * i)) = true) :=
  ⟨tChunk_last _ _ _ _ (by decide) (by decide) (by decide) (by decide), by decide, by decide,
   tReq_request _ _ _ (by decide) (by decide), by decide, by decide, by decide, tReq_request _ _ _
   (by decide) (by decide), by decide, by decide, tReq_request _ _ _ (by decide) (by decide), by
   decide, tReq_request _ _ _ (by decide) (by decide), by and_intros <;> decide⟩

theorem witness_GauzeReadings :
    ((tReq .run 0x0404 ([15, 7]))).request 0 0x0404 ([15, 7]) ∧
    u8 ([15, 7] : List Byte) 1 ≤ 7 ∧
    ((tReq .run 0x0404 ([15, 7]))).gauze[(15 : PortId)].results[(7 : Nat)]? = none ∧
    (State.modGauzeAt 0 (fun g => { g with results := [{ zmag := 0, zph := 0, k := 1, imag := 0, serial := 1, flags := 0, measured := true }] }) (tReq .run 0x0404 ([0, 0]))).request 0 0x0404 ([0, 0]) ∧
    (State.modGauzeAt 0 (fun g => { g with results := [{ zmag := 0, zph := 0, k := 1, imag := 0, serial := 1, flags := 0, measured := true }] }) (tReq .run 0x0404 ([0, 0]))).gauze[(0 : PortId)].results[(0 : Nat)]? = some { zmag := 0, zph := 0, k := 1, imag := 0, serial := 1, flags := 0, measured := true } ∧
    (State.modGauzeAt 15 (fun g => { g with rh := some (10000, 0) }) (tReq .safe 0x0404 ([15, 0xFF]))).request 0 0x0404 ([15, 0xFF]) ∧
    (State.modGauzeAt 15 (fun g => { g with rh := some (10000, 0) }) (tReq .safe 0x0404 ([15, 0xFF]))).gauze[(15 : PortId)].rh = some (10000, 0) ∧
    ((tReq .held 0x0405 ([15, 0, 0, 0]))).request 0 0x0405 ([15, 0, 0, 0]) ∧
    u8 ([15, 0, 0, 0] : List Byte) 1 = 0 ∧
    (∀ i < 2, u8 ([15, 0, 0, 0] : List Byte) (2 + i) = 0) ∧
    ((tReq .held 0x0405 ([15, 1, 0, 0, 0, 0, 0x80, 0x3F, 0, 0, 0x80, 0x3F, 0, 0, 0x80, 0x3F]))).request 0 0x0405 ([15, 1, 0, 0, 0, 0, 0x80, 0x3F, 0, 0, 0x80, 0x3F, 0, 0, 0x80, 0x3F]) ∧
    u8 ([15, 1, 0, 0, 0, 0, 0x80, 0x3F, 0, 0, 0x80, 0x3F, 0, 0, 0x80, 0x3F] : List Byte) 1 = 1 ∧
    (∀ i < 3, F32.finite (f32At ([15, 1, 0, 0, 0, 0, 0x80, 0x3F, 0, 0, 0x80, 0x3F, 0, 0, 0x80, 0x3F] : List Byte) (4 + 4 * i)) = true) ∧
    ((tReq .run 0x0405 (tSpreads))).request 0 0x0405 (tSpreads) ∧
    u8 (tSpreads : List Byte) 1 = 2 ∧
    (∀ i < 3, f32At tSpreads (4 + 4 * i) = 0x3F8CCCCD) ∧
    (F32.finite 0x3F8CCCCD = true ∧ F32.le 0x3F8CCCCD 0x3F8CCCCD = true ∧ F32.le 0x3F8CCCCD 0x41200000 = true) ∧
    u16 (tSpreads : List Byte) 16 ≤ 1000 ∧
    ((tReq .ready 0x0406 ([15]))).request 0 0x0406 ([15]) :=
  ⟨tReq_request _ _ _ (by decide) (by decide), by decide, by decide, tReq_request _ _ _ (by decide)
   (by decide), by decide, tReq_request _ _ _ (by decide) (by decide), by decide, tReq_request _ _ _
   (by decide) (by decide), by decide, by decide, tReq_request _ _ _ (by decide) (by decide), by
   decide, by decide, tReq_request _ _ _ (by decide) (by decide), by decide, by decide, ⟨by decide,
   by simp [F32.le]; decide, tLe⟩, by decide, tReq_request _ _ _ (by decide) (by decide)⟩

theorem witness_GauzeEvents :
    (tGauze { phase := .lead, plan := some { tTonePlan with lead := 0 } }).gauze[(15 : PortId)].phase = .lead ∧
    ((tGauze { phase := .lead, plan := some { tTonePlan with lead := 0 } }).tonePlan 15).lead ≤ (tGauze { phase := .lead, plan := some { tTonePlan with lead := 0 } }).gauze[(15 : PortId)].periods (tGauze { phase := .lead, plan := some { tTonePlan with lead := 0 } }).core.lt ((tGauze { phase := .lead, plan := some { tTonePlan with lead := 0 } }).tonePlan 15).f0 ∧
    (tGauze { phase := .integ, plan := some { tTonePlan with m := 0 } }).gauze[(15 : PortId)].ended = none ∧
    (tGauze { phase := .integ, plan := some { tTonePlan with m := 0 } }).gauze[(15 : PortId)].phase = .integ ∧
    (tGauze { phase := .integ, plan := some { tTonePlan with m := 0 } }).gauze[(15 : PortId)].intStart + ((tGauze { phase := .integ, plan := some { tTonePlan with m := 0 } }).tonePlan 15).m ≤ (tGauze { phase := .integ, plan := some { tTonePlan with m := 0 } }).gauze[(15 : PortId)].periods (tGauze { phase := .integ, plan := some { tTonePlan with m := 0 } }).core.lt ((tGauze { phase := .integ, plan := some { tTonePlan with m := 0 } }).tonePlan 15).f0 ∧
    (((tGauze { phase := .integ, plan := some { tTonePlan with m := 0 } }).tonePlan 15).count = 0 ∨ (tGauze { phase := .integ, plan := some { tTonePlan with m := 0 } }).gauze[(15 : PortId)].serial < ((tGauze { phase := .integ, plan := some { tTonePlan with m := 0 } }).tonePlan 15).count) ∧
    (tGauze { phase := .integ, plan := some { tTonePlan with m := 0 } }).gauze[(15 : PortId)].spoilt = false ∧
    (tGauze { phase := .integ, spoilt := true, plan := some { tTonePlan with m := 0 } }).gauze[(15 : PortId)].ended = none ∧
    (tGauze { phase := .integ, spoilt := true, plan := some { tTonePlan with m := 0 } }).gauze[(15 : PortId)].phase = .integ ∧
    (tGauze { phase := .integ, spoilt := true, plan := some { tTonePlan with m := 0 } }).gauze[(15 : PortId)].intStart + ((tGauze { phase := .integ, spoilt := true, plan := some { tTonePlan with m := 0 } }).tonePlan 15).m ≤ (tGauze { phase := .integ, spoilt := true, plan := some { tTonePlan with m := 0 } }).gauze[(15 : PortId)].periods (tGauze { phase := .integ, spoilt := true, plan := some { tTonePlan with m := 0 } }).core.lt ((tGauze { phase := .integ, spoilt := true, plan := some { tTonePlan with m := 0 } }).tonePlan 15).f0 ∧
    (tGauze { phase := .integ, spoilt := true, plan := some { tTonePlan with m := 0 } }).gauze[(15 : PortId)].spoilt = true ∧
    ((tGauze { phase := .integ, spoilt := true, plan := some { tTonePlan with m := 0 } }).tonePlan 15).count = 0 ∧
    (tGauze { phase := .idle, ended := some { start := 0, intStart := 0, serial := 2, charge := [], volts := [] }, plan := some { tTonePlan with m := 0 } }).gauze[(15 : PortId)].ended = some { start := 0, intStart := 0, serial := 2, charge := [], volts := [] } ∧
    (tGauze { phase := .idle, ended := some { start := 0, intStart := 0, serial := 2, charge := [], volts := [] }, plan := some { tTonePlan with m := 0 } }).gauze[(15 : PortId)].phase ≠ .integ ∧
    (tGauze { phase := .integ, serial := 1, plan := some { tTonePlan with count := 1 } }).gauze[(15 : PortId)].phase = .integ ∧
    0 < ((tGauze { phase := .integ, serial := 1, plan := some { tTonePlan with count := 1 } }).tonePlan 15).count ∧
    ((tGauze { phase := .integ, serial := 1, plan := some { tTonePlan with count := 1 } }).tonePlan 15).count ≤ (tGauze { phase := .integ, serial := 1, plan := some { tTonePlan with count := 1 } }).gauze[(15 : PortId)].serial ∧
    (State.modCore (fun c => { c with lt := 64 }) (tGauze { phase := .fall })).gauze[(15 : PortId)].phase = .fall ∧
    64 ≤ (State.modCore (fun c => { c with lt := 64 }) (tGauze { phase := .fall })).since (State.modCore (fun c => { c with lt := 64 }) (tGauze { phase := .fall })).gauze[(15 : PortId)].fallFrom ∧
    (State.modCore (fun c => { c with dev := .run }) (tGauze { fitDue := true })).gauze[(15 : PortId)].fitDue = true ∧
    (State.modCore (fun c => { c with dev := .run }) (tGauze { fitDue := true })).reeveActive = true ∧
    (State.modCore (fun c => { c with dev := .run }) (tGauze { fitDue := true })).nvmAllowed = true ∧
    360000 ≤ (State.modCore (fun c => { c with dev := .run }) (tGauze { fitDue := true })).gas.adapt[(15 : PortId)].sinceStore ∧
    (State.modCore (fun c => { c with dev := .run }) (tGauze { fitDue := true })).gas.adapt[(15 : PortId)].stored ≠ some ((State.modCore (fun c => { c with dev := .run }) (tGauze { fitDue := true })).gas.adapt[(15 : PortId)].a, (State.modCore (fun c => { c with dev := .run }) (tGauze { fitDue := true })).gas.adapt[(15 : PortId)].periods) ∧
    (State.modCore (fun c => { c with dev := .run }) (tGauze { fitDue := true })).gauze[(15 : PortId)].refs = none ∧
    (State.modCore (fun c => { c with dev := .run }) (tGauze { fitDue := true })).gauze[(15 : PortId)].refsWanted = false :=
  by and_intros <;> decide

theorem witness_GasCommands :
    (tStaged .run 0x0701 15 tModel []).lastChunk 0 0x0701 15 (tModel ++ []) ∧
    gasModelFault tModel = none ∧
    (tStaged .ready 0x0701 15 tModel []).quantityFault 15 tModel = none ∧
    tModel.length = 120 ∧
    (tStaged .held 0x0702 0 (List.replicate 976 0) (List.replicate 48 0)).lastChunk 0 0x0702 0 (List.replicate 976 0 ++ List.replicate 48 0) ∧
    (tStaged .held 0x0702 0 (List.replicate 976 0) (List.replicate 48 0)).matrixFault (List.replicate 976 0 ++ List.replicate 48 0) = none ∧
    ((tReq .ready 0x0703 ([15, 3, 4, 1, 0x7F, 0x41, 0, 0, 0, 0, 0, 0, 0, 0, 0x80, 0x3F]))).request 0 0x0703 ([15, 3, 4, 1, 0x7F, 0x41, 0, 0, 0, 0, 0, 0, 0, 0, 0x80, 0x3F]) ∧
    u8 ([15, 3, 4, 1, 0x7F, 0x41, 0, 0, 0, 0, 0, 0, 0, 0, 0x80, 0x3F] : List Byte) 1 ≤ 3 ∧
    u8 ([15, 3, 4, 1, 0x7F, 0x41, 0, 0, 0, 0, 0, 0, 0, 0, 0x80, 0x3F] : List Byte) 2 ≤ 4 ∧
    u8 ([15, 3, 4, 1, 0x7F, 0x41, 0, 0, 0, 0, 0, 0, 0, 0, 0x80, 0x3F] : List Byte) 3 ≤ 1 ∧
    (slice ([15, 3, 4, 1, 0x7F, 0x41, 0, 0, 0, 0, 0, 0, 0, 0, 0x80, 0x3F] : List Byte) 4 8).findIdx? (fun b => b.getLsbD 7) = none ∧
    F32.finite (f32At ([15, 3, 4, 1, 0x7F, 0x41, 0, 0, 0, 0, 0, 0, 0, 0, 0x80, 0x3F] : List Byte) 12) = true ∧
    ((tReq .ready 0x0703 ([15, 3, 4, 1, 0x7F, 0x41, 0, 0, 0, 0, 0, 0, 0, 0, 0x80, 0x3F]))).core.dev ≠ .run ∧
    ((tReq .run 0x0704 ([1, 0, 0x10, 0x27]))).request 0 0x0704 ([1, 0, 0x10, 0x27]) ∧
    u8 ([1, 0, 0x10, 0x27] : List Byte) 1 = 0 ∧
    u8 ([1, 0, 0x10, 0x27] : List Byte) 0 = 1 :=
  ⟨tStaged_last _ _ _ _ _ (by decide) (by simp) (by decide) (by simp [tModel]), tModel_ok, by
   decide, by decide, tStaged_last _ _ _ _ _ (by decide) (Nat.le_of_eq List.length_replicate) (by
   decide) (by simp only [List.length_replicate]; omega), tMatrix _ _ _, tReq_request _ _ _ (by
   decide) (by decide), by decide, by decide, by decide, by decide, by decide, by decide,
   tReq_request _ _ _ (by decide) (by decide), by and_intros <;> decide⟩

theorem witness_GasReadings :
    ((tReq .held 0x0705 ([15]))).request 0 0x0705 ([15]) ∧
    ((tReq .run 0x0706 ([]))).request 0 0x0706 ([]) ∧
    ((tReq .run 0x0707 ([15, 0]))).request 0 0x0707 ([15, 0]) ∧
    u8 ([15, 0] : List Byte) 1 = 0 ∧
    ((tReq .run 0x0707 ([0, 1]))).request 0 0x0707 ([0, 1]) ∧
    u8 ([0, 1] : List Byte) 1 = 1 ∧
    ((tReq .safe 0x0707 ([15, 2]))).request 0 0x0707 ([15, 2]) ∧
    u8 ([15, 2] : List Byte) 1 = 2 :=
  ⟨tReq_request _ _ _ (by decide) (by decide), tReq_request _ _ _ (by decide) (by decide),
   tReq_request _ _ _ (by decide) (by decide), by decide, tReq_request _ _ _ (by decide) (by
   decide), by decide, tReq_request _ _ _ (by decide) (by decide), by decide⟩

theorem witness_GasAndLeveeEvents :
    (((State.reset.modCore fun c => { c with dev := .run }).modGas (fun g => { g with due := true, missRun := some (7, 1, false) })).modFrame fun f => { f with tick := 1 }).frame.tick = 1 ∧
    ((State.reset.modCore fun c => { c with dev := .run }).modGas (fun g => { g with due := true, missRun := some (7, 1, false) })).gas.due = true ∧
    ((State.reset.modCore fun c => { c with dev := .run }).modGas (fun g => { g with due := true, missRun := some (7, 1, false) })).reeveActive = true ∧
    ((State.reset.modCore fun c => { c with dev := .run }).modGas (fun g => { g with due := true, missRun := some (7, 1, false) })).measuring = true ∧
    ((State.reset.modCore fun c => { c with dev := .run }).modGas (fun g => { g with due := true, missRun := some (7, 1, false) })).gas.missRun = some (7, 0 + 1, false) ∧
    ((State.reset.modCore fun c => { c with dev := .run, lt := 5 }).modLevee 47 (fun x => { x with rec_ := [1, 0, 0, 2], decided := [{ at_ := 4, overtop := true, above := false, value := 0, flags := 0 }] })).measuring = true ∧
    ((State.reset.modCore fun c => { c with dev := .run, lt := 5 }).modLevee 47 (fun x => { x with rec_ := [1, 0, 0, 2], decided := [{ at_ := 4, overtop := true, above := false, value := 0, flags := 0 }] })).levees[(47 : Fin 48)].decided = [{ at_ := 4, overtop := true, above := false, value := 0, flags := 0 }] ∧
    ((State.reset.modCore fun c => { c with dev := .run, lt := 5 }).modLevee 47 (fun x => { x with rec_ := [1, 0, 0, 2], decided := [{ at_ := 4, overtop := true, above := false, value := 0, flags := 0 }] })).core.lt ≠ 4 ∧
    ((State.reset.modCore fun c => { c with dev := .run, lt := 5 }).modLevee 47 (fun x => { x with rec_ := [1, 0, 0, 2], decided := [{ at_ := 4, overtop := true, above := false, value := 0, flags := 0 }] })).recordDue 47 = false ∧
    ((State.reset.modCore fun c => { c with dev := .run, lt := 5 }).modLevee 47 (fun x => { x with rec_ := [1, 0, 0, 2], decided := [{ at_ := 4, overtop := true, above := false, value := 0, flags := 0 }] })).levees[(47 : Fin 48)].action = 2 ∧
    ((State.reset.modCore fun c => { c with dev := .run, lt := 5 }).modLevee 47 (fun x => { x with rec_ := [1, 0, 0, 2], decided := [{ at_ := 4, overtop := true, above := false, value := 0, flags := 0 }] })).levees[(47 : Fin 48)].action ≠ 0 ∧
    ((State.reset.modFrame fun f => { f with boundary := true }).modMbox fun m => { m with pend := [{ slot := 0, op := 0x0801, payload := [47], wait := .boundary 1, since := 0 }] }).recordDue 47 = true :=
  by and_intros <;> decide

theorem witness_SeqCommands :
    (tReq .run 0x0501 (tChunk 1 [])).lastChunk 0 0x0501 1 [] ∧
    recordsFault [] = none ∧
    (∀ g ∈ ((tReq .run 0x0501 (tChunk 1 []))).mbox.staging, g.op = 0x0501 → g.sel = 1) ∧
    (((tReq .run 0x0501 (tChunk 1 []))).tablesNext.take 1 []).broken = false ∧
    overLoad ((tReq .run 0x0501 (tChunk 1 []))).settingNext ((tReq .run 0x0501 (tChunk 1 []))).twillNext (((tReq .run 0x0501 (tChunk 1 []))).tablesNext.take 1 []) = false ∧
    ((tReq .run 0x0501 (tChunk 1 []))).gauzeBroken ((tReq .run 0x0501 (tChunk 1 []))).twillNext (((tReq .run 0x0501 (tChunk 1 []))).tablesNext.take 1 []) = false ∧
    ((tReq .run 0x0501 (tChunk 1 []))).core.dev = .run ∧
    ((tReq .ready 0x0502 ([0]))).request 0 0x0502 ([0]) ∧
    seqModeRefusal ([0] : List Byte) ((tReq .ready 0x0502 ([0]))).tablesNext ((tReq .ready 0x0502 ([0]))) = none ∧
    ((tReq .ready 0x0502 ([0]))).core.dev ≠ .run ∧
    (State.modCore (fun c => { c with refOn := true, lt := 1600 }) (tReq .ready 0x0503 ([2, 0, 3, 4]))).request 0 0x0503 ([2, 0, 3, 4]) ∧
    urgentFault ([2, 0, 3, 4] : List Byte) (State.modCore (fun c => { c with refOn := true, lt := 1600 }) (tReq .ready 0x0503 ([2, 0, 3, 4]))) = none ∧
    (State.modCore (fun c => { c with refOn := true, lt := 1600 }) (tReq .ready 0x0503 ([2, 0, 3, 4]))).seq.twill = false ∧
    (State.modCore (fun c => { c with refOn := true, lt := 1600 }) (tReq .ready 0x0503 ([2, 0, 3, 4]))).refWarm = true ∧
    (State.modCore (fun c => { c with refOn := true, lt := 1600 }) (tReq .ready 0x0503 ([2, 0, 3, 4]))).convHeld = false ∧
    (State.modCore (fun c => { c with refOn := true, lt := 1600 }) (tReq .ready 0x0503 ([2, 0, 3, 4]))).core.dev ≠ .run ∧
    ((State.modCore (fun c => { c with refOn := true, lt := 1600 }) (tReq .ready 0x0503 ([2, 0, 3, 4]))).openSlots ((State.modCore (fun c => { c with refOn := true, lt := 1600 }) (tReq .ready 0x0503 ([2, 0, 3, 4]))).core.lt + 1))[(State.modCore (fun c => { c with refOn := true, lt := 1600 }) (tReq .ready 0x0503 ([2, 0, 3, 4]))).seq.urgent.countP fun u => u.taken == (State.modCore (fun c => { c with refOn := true, lt := 1600 }) (tReq .ready 0x0503 ([2, 0, 3, 4]))).core.lt]? = some (1601 * 960 + 8) ∧
    (State.modSeq (fun q => { q with twill := true }) (tReq .run 0x0503 ([1, 0, 0x15, 0]))).request 0 0x0503 ([1, 0, 0x15, 0]) ∧
    urgentFault ([1, 0, 0x15, 0] : List Byte) (State.modSeq (fun q => { q with twill := true }) (tReq .run 0x0503 ([1, 0, 0x15, 0]))) = none ∧
    (State.modSeq (fun q => { q with twill := true }) (tReq .run 0x0503 ([1, 0, 0x15, 0]))).seq.twill = true ∧
    ((tReq .ready 0x0503 ([1, 0, 0x15, 0]))).request 0 0x0503 ([1, 0, 0x15, 0]) ∧
    urgentFault ([1, 0, 0x15, 0] : List Byte) ((tReq .ready 0x0503 ([1, 0, 0x15, 0]))) = none ∧
    ((tReq .ready 0x0503 ([1, 0, 0x15, 0]))).seq.twill = false ∧
    (((tReq .ready 0x0503 ([1, 0, 0x15, 0]))).refWarm && !((tReq .ready 0x0503 ([1, 0, 0x15, 0]))).convHeld) = false ∧
    ((State.modCore (fun c => { c with refOn := true, lt := 1600, dev := .run }) (State.reset.modSeq fun q => { q with urgent := List.replicate 99 { slot := 0, taken := 1600, sample := 0 } })).openSlots ((State.modCore (fun c => { c with refOn := true, lt := 1600, dev := .run }) (State.reset.modSeq fun q => { q with urgent := List.replicate 99 { slot := 0, taken := 1600, sample := 0 } })).core.lt + 1))[(State.modCore (fun c => { c with refOn := true, lt := 1600, dev := .run }) (State.reset.modSeq fun q => { q with urgent := List.replicate 99 { slot := 0, taken := 1600, sample := 0 } })).seq.urgent.countP fun u => u.taken == (State.modCore (fun c => { c with refOn := true, lt := 1600, dev := .run }) (State.reset.modSeq fun q => { q with urgent := List.replicate 99 { slot := 0, taken := 1600, sample := 0 } })).core.lt]? = none ∧
    ((tReq .ready 0x0504 ([1]))).request 0 0x0504 ([1]) ∧
    ((tReq .ready 0x0504 ([1]))).core.dev ≠ .run ∧
    u8 ([1] : List Byte) 0 = 1 ∧
    ((tReq .ready 0x0504 ([1]))).core.refOn = false ∧
    ((tReq .run 0x0504 ([0]))).request 0 0x0504 ([0]) ∧
    ((tReq .run 0x0504 ([0]))).core.dev = .run ∧
    u8 ([0] : List Byte) 0 = 0 ∧
    (State.modCore (fun c => { c with refOn := true, lt := 1600 }) (tReq .run 0x0505 ([]))).request 0 0x0505 ([]) ∧
    ((State.modCore (fun c => { c with refOn := true, lt := 1600 }) (tReq .run 0x0505 ([]))).refWarm && !(State.modCore (fun c => { c with refOn := true, lt := 1600 }) (tReq .run 0x0505 ([]))).convHeld) = true ∧
    ((tReq .run 0x0505 ([]))).request 0 0x0505 ([]) ∧
    (((tReq .run 0x0505 ([]))).refWarm && !((tReq .run 0x0505 ([]))).convHeld) = false ∧
    ((tReq .safe 0x0506 ([1]))).request 0 0x0506 ([1]) ∧
    u8 ([1] : List Byte) 0 = 1 :=
  ⟨tChunk_last _ _ _ _ (by decide) (by decide) (by decide) (by decide), by decide, by decide, by
   decide, by decide, by decide, by decide, tReq_request _ _ _ (by decide) (by decide), by decide,
   by decide, tReq_request _ _ _ (by decide) (by decide), by decide, by decide, by decide, by
   decide, by decide, by decide, tReq_request _ _ _ (by decide) (by decide), by decide, by decide,
   tReq_request _ _ _ (by decide) (by decide), by decide, by decide, by decide, by decide,
   tReq_request _ _ _ (by decide) (by decide), by decide, by decide, by decide, tReq_request _ _ _
   (by decide) (by decide), by decide, by decide, tReq_request _ _ _ (by decide) (by decide), by
   decide, tReq_request _ _ _ (by decide) (by decide), by decide, tReq_request _ _ _ (by decide) (by
   decide), by decide⟩

theorem witness_WeaveCommands :
    ((tReq .ready 0x0601 ([63, 23, 1, 0] ++ List.replicate 12 0))).request 0 0x0601 ([63, 23, 1, 0] ++ List.replicate 12 0) ∧
    weaveSetFault ([63, 23, 1, 0] ++ List.replicate 12 0 : List Byte) ((tReq .ready 0x0601 ([63, 23, 1, 0] ++ List.replicate 12 0))) = none ∧
    ((tReq .ready 0x0601 ([63, 23, 1, 0] ++ List.replicate 12 0))).core.dev ≠ .run ∧
    overLoad (fun k => if k = 63 then weaveSetting ([63, 23, 1, 0] ++ List.replicate 12 0 : List Byte) [] else ((tReq .ready 0x0601 ([63, 23, 1, 0] ++ List.replicate 12 0))).settingNext k) ((tReq .ready 0x0601 ([63, 23, 1, 0] ++ List.replicate 12 0))).twillNext ((tReq .ready 0x0601 ([63, 23, 1, 0] ++ List.replicate 12 0))).tablesNext = false ∧
    (tReq .safe 0x0602 (tChunk 63 [0xFF, 0xFF, 0x7F, 0])).lastChunk 0 0x0602 63 [0xFF, 0xFF, 0x7F, 0] ∧
    coefFault [0xFF, 0xFF, 0x7F, 0] = none ∧
    (tReq .safe 0x0602 (tChunk 63 [0xFF, 0xFF, 0x7F, 0])).coefHeld 63 + 1 ≤ 8192 ∧
    ((tReq .held 0x0605 ([63, 0, 0xFF, 3]))).request 0 0x0605 ([63, 0, 0xFF, 3]) ∧
    u8 ([63, 0, 0xFF, 3] : List Byte) 1 = 0 ∧
    u16 ([63, 0, 0xFF, 3] : List Byte) 2 ≤ 1023 ∧
    ((tReq .run 0x0604 ([0]))).request 0 0x0604 ([0]) ∧
    u8 ([0] : List Byte) 0 = 0 ∧
    ((tReq .run 0x0604 ([0]))).mbox.slots[(0 : SlotId)].early = false ∧
    ((tReq .run 0x0604 ([0]))).pins.syncFrom = none ∧
    (State.modPins (fun x => { x with syncFrom := some 3 }) (State.modSlot 0 (fun x => { x with early := true }) (tReq .run 0x0604 ([0])))).request 0 0x0604 ([0]) ∧
    (State.modPins (fun x => { x with syncFrom := some 3 }) (State.modSlot 0 (fun x => { x with early := true }) (tReq .run 0x0604 ([0])))).mbox.slots[(0 : SlotId)].early = true ∧
    (State.modPins (fun x => { x with syncFrom := some 3 }) (State.modSlot 0 (fun x => { x with early := true }) (tReq .run 0x0604 ([0])))).pins.syncFrom = some 3 ∧
    ((tReq .run 0x0604 ([2]))).request 0 0x0604 ([2]) ∧
    u8 ([2] : List Byte) 0 = 2 :=
  ⟨tReq_request _ _ _ (by decide) (by decide), by decide, by decide, by decide, tChunk_last _ _ _ _
   (by decide) (by decide) (by decide) (by decide), by decide, by decide, tReq_request _ _ _ (by
   decide) (by decide), by decide, by decide, tReq_request _ _ _ (by decide) (by decide), by decide,
   by decide, by decide, tReq_request _ _ _ (by decide) (by decide), by decide, by decide,
   tReq_request _ _ _ (by decide) (by decide), by decide⟩

theorem witness_WeaveReadings :
    ((tReq .held 0x0603 ([63]))).request 0 0x0603 ([63]) ∧
    ((tReq .run 0x0606 ([63, 1]))).request 0 0x0606 ([63, 1]) ∧
    u8 ([63, 1] : List Byte) 1 = 1 ∧
    ((tReq .safe 0x0607 ([13, 0, 0, 0, 1, 0, 0, 0]))).request 0 0x0607 ([13, 0, 0, 0, 1, 0, 0, 0]) ∧
    u16 ([13, 0, 0, 0, 1, 0, 0, 0] : List Byte) 0 = 13 ∧
    u16 ([13, 0, 0, 0, 1, 0, 0, 0] : List Byte) 2 = 0 ∧
    u8 ([13, 0, 0, 0, 1, 0, 0, 0] : List Byte) 4 ≤ 1 ∧
    (∀ i < 3, u8 ([13, 0, 0, 0, 1, 0, 0, 0] : List Byte) (5 + i) = 0) ∧
    weaveObject 13 ≠ [] :=
  ⟨tReq_request _ _ _ (by decide) (by decide), tReq_request _ _ _ (by decide) (by decide), by
   decide, tReq_request _ _ _ (by decide) (by decide), by and_intros <;> decide⟩

theorem witness_ConversionsAndWindows :
    (tConv).measuring = true ∧
    (tConv).seq.running = true ∧
    (tConv).seq.twill = false ∧
    (tConv).convEntry (tCv 0 29) = some { cls := .internal, src := 0x15, lane := some 63 } ∧
    (tConv).onSchedule { cls := .internal, src := 0x15, lane := some 63 } (tCv 0 29) = true ∧
    (tConv).onSchedule { cls := .internal, src := 0x15, lane := some 63 } (tCv 0 30) = false ∧
    (tConv).convEntry (tCv 1 59) = some { cls := .internal, src := 0x15 } ∧
    (tConv).onSchedule { cls := .internal, src := 0x15 } (tCv 1 59) = true ∧
    (tConv).convEntry (tCv 2 89) = some { cls := .port, port := 15, sig := 1, lane := some 0 } ∧
    (tConv).onSchedule { cls := .port, port := 15, sig := 1, lane := some 0 } (tCv 2 89) = true ∧
    (tConv).entryLive { cls := .port, port := 15, sig := 1, lane := some 0 } = true ∧
    (tConv).ports[(15 : PortId)].inputs[(1 : Fin 2)].lastSample.any (·.1 == (tConv).core.lt) = false ∧
    (tConv).ports[(15 : PortId)].inputs[(1 : Fin 2)].doneWin = some tWin ∧
    (tConv).windowCode 15 1 tWin = some (-8388608) ∧
    (tConv).ports[(15 : PortId)].driven = true ∧
    (1 : Fin 2).val < (tConv).ports[(15 : PortId)].mode.inputs ∧
    (tConv).converts 15 1 = true ∧
    (tConv).lowSignalDue 15 1 = true ∧
    (((tReq .run 0x0503 []).modSeq fun q => { q with urgent := [{ slot := 0, taken := 0, sample := 0 }] }).modMbox fun m => { m with pend := [{ slot := 0, op := 0x0503, payload := [], wait := .urgent, since := 0 }] }).seq.urgent.find? (·.slot == 0) = some { slot := 0, taken := 0, sample := 0 } ∧
    (((tReq .run 0x0503 []).modSeq fun q => { q with urgent := [{ slot := 0, taken := 0, sample := 0 }] }).modMbox fun m => { m with pend := [{ slot := 0, op := 0x0503, payload := [], wait := .urgent, since := 0 }] }).mbox.pend.find? (fun x => x.slot == 0 && x.wait == .urgent) = some { slot := 0, op := 0x0503, payload := [], wait := .urgent, since := 0 } ∧
    (0 + 21) / 960 ≤ (((tReq .run 0x0503 []).modSeq fun q => { q with urgent := [{ slot := 0, taken := 0, sample := 0 }] }).modMbox fun m => { m with pend := [{ slot := 0, op := 0x0503, payload := [], wait := .urgent, since := 0 }] }).core.lt.toNat ∧
    (tConv.modSeq fun q => { q with tests := Vector.replicate 2 { codes := [((4, 0), -17), ((4, 1), 5), ((4, 2), 5)], failed := [(4, 0)] } }).seq.twill = false ∧
    (tConv.modSeq fun q => { q with tests := Vector.replicate 2 { codes := [((4, 0), -17), ((4, 1), 5), ((4, 2), 5)], failed := [(4, 0)] } }).seq.running = true ∧
    (tConv.modSeq fun q => { q with tests := Vector.replicate 2 { codes := [((4, 0), -17), ((4, 1), 5), ((4, 2), 5)], failed := [(4, 0)] } }).core.reeveRuns = true ∧
    (tConv.modSeq fun q => { q with tests := Vector.replicate 2 { codes := [((4, 0), -17), ((4, 1), 5), ((4, 2), 5)], failed := [(4, 0)] } }).seq.tests[(1 : Fin 2)].cycle 4 = some [(0, -17), (1, 5), (2, 5)] ∧
    swatchBad .weft 4 0 (-17) = true ∧
    ((4 : Fin 5), (0 : Fin 3)) ∈ (tConv.modSeq fun q => { q with tests := Vector.replicate 2 { codes := [((4, 0), -17), ((4, 1), 5), ((4, 2), 5)], failed := [(4, 0)] } }).seq.tests[(1 : Fin 2)].failed :=
  by and_intros <;> decide

theorem witness_SeamRailAndSyncEvents :
    (State.reset.modSeq fun q => { q with twill := true, seam := { q.seam with convergedDue := true, agedDue := true, converged := true } }).seq.twill = true ∧
    (State.reset.modSeq fun q => { q with twill := true, seam := { q.seam with convergedDue := true, agedDue := true, converged := true } }).seq.seam.convergedDue = true ∧
    (State.reset.modSeq fun q => { q with twill := true, seam := { q.seam with convergedDue := true, agedDue := true, converged := true } }).seq.seam.agedDue = true ∧
    (State.reset.modSeq fun q => { q with twill := true, seam := { q.seam with convergedDue := true, agedDue := true, converged := true } }).seamStale = false ∧
    ((State.reset.modSeq fun q => { q with twill := true, seam := { q.seam with training := some 0, agedDue := true } }).modCore fun c => { c with lt := 64 }).seq.seam.training = some 0 ∧
    64 ≤ ((State.reset.modSeq fun q => { q with twill := true, seam := { q.seam with training := some 0, agedDue := true } }).modCore fun c => { c with lt := 64 }).since 0 ∧
    ((State.reset.modSeq fun q => { q with twill := true, seam := { q.seam with training := some 0, agedDue := true } }).modCore fun c => { c with lt := 64 }).seamStale = true ∧
    (∀ r ∈ [Rail.vap, Rail.van, Rail.vht, Rail.ref], 2 ≤ (State.reset.modCore fun c => { c with railBad := Vector.replicate 4 2 }).core.railBad[railIdx r] ∧ (State.reset.modCore fun c => { c with railBad := Vector.replicate 4 2 }).core.railHeld.getLsbD (railIdx r).val = false) ∧
    ((State.reset.modCore fun c => { c with dev := .run, refOn := true, lt := 1600 }).modSeq fun q => { q with stopped := true }).resumeDue = true ∧
    ((State.reset.modCore fun c => { c with dev := .run, refOn := true, lt := 1600 }).modSeq fun q => { q with stopped := true }).pins.syncResponse = true ∧
    ((State.reset.modCore fun c => { c with dev := .run, refOn := true, lt := 1600 }).modSeq fun q => { q with stopped := true }).measuring = true ∧
    ((State.reset.modCore fun c => { c with dev := .run, refOn := true, lt := 1600 }).modSeq fun q => { q with stopped := true }).takesSync = true ∧
    ((State.reset.modCore fun c => { c with dev := .run, refOn := true, lt := 1600 }).modSeq fun q => { q with stopped := true }).syncHeld = false ∧
    ((State.reset.modCore fun c => { c with dev := .run, lt := 1600 }).modPins fun x => { x with syncFrom := some 1597 }).pins.syncResponse = true ∧
    ((State.reset.modCore fun c => { c with dev := .run, lt := 1600 }).modPins fun x => { x with syncFrom := some 1597 }).measuring = true ∧
    ((State.reset.modCore fun c => { c with dev := .run, lt := 1600 }).modPins fun x => { x with syncFrom := some 1597 }).syncHeld = true ∧
    (State.reset).measuring = false ∧
    ((State.reset.modPins fun x => { x with syncFrom := some 1 }).modCore fun c => { c with lt := 6 }).pins.syncFrom = some 1 ∧
    ((State.reset.modPins fun x => { x with syncFrom := some 1 }).modCore fun c => { c with lt := 6 }).since 1 = 5 :=
  by and_intros <;> decide

theorem witness_PowerAndReset :
    (State.reset.modCore fun c => { c with dev := .off, causeLatch := true }).core.dev = .off ∧
    (State.reset.modCore fun c => { c with dev := .off, causeLatch := true }).core.rstPin = false ∧
    (State.reset.modCore fun c => { c with dev := .off, rstPin := true }).core.dev = .off ∧
    (State.reset.modCore fun c => { c with dev := .off, rstPin := true }).core.rstPin = true ∧
    (State.reset.modCore fun c => { c with dev := .run, everBooted := true }).core.dev ≠ .off ∧
    (State.reset.modCore fun c => { c with dev := .run, everBooted := true }).core.dev ≠ .latched ∧
    (State.reset.modCore fun c => { c with dev := .run, everBooted := true }).core.rstLow = false ∧
    (State.reset.modCore fun c => { c with dev := .run, everBooted := true }).brownoutRecord = true ∧
    (State.reset.modCore fun c => { c with dev := .run, everBooted := true }).inProgram = false ∧
    ((State.reset.modCore fun c => { c with dev := .run, everBooted := true }).modBox fun b => { b with begun := some (0, 4) }).core.dev ≠ .off ∧
    ((State.reset.modCore fun c => { c with dev := .run, everBooted := true }).modBox fun b => { b with begun := some (0, 4) }).brownoutRecord = true ∧
    ((State.reset.modCore fun c => { c with dev := .run, everBooted := true }).modBox fun b => { b with begun := some (0, 4) }).inProgram = true ∧
    ((State.reset.modCore fun c => { c with dev := .run, everBooted := true }).modBox fun b => { b with begun := some (0, 4) }).box.begun = some (0, 4) ∧
    (State.reset.modCore fun c => { c with rstLow := true }).core.rstLow = true ∧
    (State.reset.modCore fun c => { c with rstLow := true }).core.powerUp = false ∧
    (State.reset.modCore fun c => { c with rstLow := true }).brownoutRecord = false ∧
    (State.reset.modCore fun c => { c with resetPosted := some 0, lt := 64 }).core.resetPosted = some 0 ∧
    (State.reset.modCore fun c => { c with resetPosted := some 0, lt := 64 }).since 0 = 64 ∧
    (State.reset.modCore fun c => { c with bootTicks := 64 }).core.dev = .boot ∧
    64 ≤ (State.reset.modCore fun c => { c with bootTicks := 64 }).core.bootTicks ∧
    (State.reset.modCore fun c => { c with bootTicks := 64 }).core.porchUp = false ∧
    (State.reset.modCore fun c => { c with bootTicks := 64, porchUp := true }).core.porchUp = true ∧
    (State.reset.modCore fun c => { c with bootTicks := 64, porchUp := true }).core.reeveRuns = true ∧
    (State.reset.modCore fun c => { c with bootTicks := 64, porchUp := true }).core.bootTicks < 960 ∧
    (State.reset.modCore fun c => { c with bootTicks := 960 }).core.bootTicks = 960 ∧
    ((State.reset.modCore fun c => { c with bootTicks := 960 }).faults.src[(54 : Source)]).inForce = .grave ∧
    ((State.reset.modCore fun c => { c with bootTicks := 960 }).faults.src[(54 : Source)]).prevDet = false ∧
    ((State.reset.modCore fun c => { c with bootTicks := 960 }).faults.src[(54 : Source)]).taken = false ∧
    ((State.reset.modCore fun c => { c with bootTicks := 960 }).faults.src[(54 : Source)]).reaction = none :=
  by and_intros <;> decide

theorem witness_StepKeepsInv : ({ State.reset with pending := [.powerOn] } : State).Inv := by
  refine ⟨⟨?_, ?_⟩, ?_⟩ <;> decide

theorem witness_EntriesAreNeverOverwritten :
    emptiesRings .frameBoundary = false ∧ State.reset.ringActionOwed = false ∧
      exec .frameBoundary State.reset = .next State.reset := ⟨rfl, by decide, rfl⟩

theorem witness_OnlyTheLockMovesTheLock :
    movesLock .frameBoundary = false ∧ exec .frameBoundary State.reset = .next State.reset ∧
      movesLock .commandDispatch = false ∧ ∃ t, exec .commandDispatch tAttempt = .next t ∧ t.lock ≠ tAttempt.lock :=
  ⟨rfl, rfl, rfl, _, rfl, by decide⟩

theorem witness_LocalTimeMovesWithTheTick :
    exec .frameBoundary State.reset = .next State.reset := rfl

theorem witness_DoorbellsAndDispatch :
    (∀ n : SlotId, ∀ k < 16, (tPorch .ready State.reset).faults.wordError 4 (16 * n.val + k) = none) ∧
    (tPorch .ready State.reset).faults.found.getLsbD 48 = false ∧
    (tPorch .ready State.reset).mbox.rung = 0 ∧
    (tPorch .ready State.reset).core.dev ≠ .boot ∧
    (tPorch .ready State.reset).acks = true ∧
    (∀ n : SlotId, (tPorch .ready State.reset).mbox.slots[n].st.hostOwned = true) ∧
    (∀ n : SlotId, (tPorch .ready State.reset).immediate (tPorch .ready State.reset).mbox.slots[n].op = false) ∧
    ((tPorch .ready State.reset).modSlot 3 fun x => { x with st := .pending }).acks = true ∧
    ((tPorch .ready State.reset).modSlot 3 fun x => { x with st := .pending }).mbox.slots[(3 : SlotId)].st.hostOwned = false ∧
    (State.reset).acks = false ∧
    ((State.reset).reeveActive = false ∨ (State.reset).mbox.queue = [] ∨ (State.reset).slotInHand = true) ∧
    (tPorch .boot State.reset).acks = true ∧
    (tPorch .boot State.reset).core.dev = .boot ∧
    (tAttempt).reeveActive = true ∧
    (tAttempt).slotInHand = false ∧
    (tAttempt).mbox.queue = [0] ∧
    (tAttempt).mbox.slots[(0 : SlotId)].bad = none ∧
    requestFault { (tAttempt).mbox.slots[(0 : SlotId)] with st := .running } (tAttempt).core.dev = none ∧
    ((tAttempt).mbox.slots[(0 : SlotId)].op = 0x1101 ∨ (tAttempt).mbox.slots[(0 : SlotId)].op = 0x1103) ∧
    (tAttempt).nvmAllowed = true ∧
    (tAttempt).lock.lockout = none ∧
    ((tQueued .ready 0x0101 []).modSlot 0 fun x => { x with bad := some 15 }).reeveActive = true ∧
    ((tQueued .ready 0x0101 []).modSlot 0 fun x => { x with bad := some 15 }).slotInHand = false ∧
    ((tQueued .ready 0x0101 []).modSlot 0 fun x => { x with bad := some 15 }).mbox.queue = [0] ∧
    ((tQueued .ready 0x0101 []).modSlot 0 fun x => { x with bad := some 15 }).posts = true ∧
    ((tQueued .ready 0x0101 []).modSlot 0 fun x => { x with bad := some 15 }).mbox.slots[(0 : SlotId)].bad = some 15 ∧
    (tQueued .ready 0x0101 []).reeveActive = true ∧
    (tQueued .ready 0x0101 []).slotInHand = false ∧
    (tQueued .ready 0x0101 []).mbox.queue = 0 :: [] ∧
    (tQueued .ready 0x0101 []).mbox.slots[(0 : SlotId)].bad = none ∧
    (tQueued .ready 0x0101 []).mbox.slots[(0 : SlotId)].op ≠ 0x1101 ∧
    (tQueued .ready 0x0101 []).mbox.slots[(0 : SlotId)].op ≠ 0x1103 ∧
    requestFault { (tQueued .ready 0x0101 []).mbox.slots[(0 : SlotId)] with st := .running } (tQueued .ready 0x0101 []).core.dev = none ∧
    (tQueued .ready 0x0100 []).mbox.queue = 0 :: [] ∧
    (tQueued .ready 0x0100 []).slotInHand = false ∧
    (tQueued .ready 0x0100 []).mbox.slots[(0 : SlotId)].bad = none ∧
    requestFault { (tQueued .ready 0x0100 []).mbox.slots[(0 : SlotId)] with st := .running } (tQueued .ready 0x0100 []).core.dev = some (.badOpcode, 0) ∧
    (tQueued .ready 0x0100 []).posts = true ∧
    tOldStage.mbox.staging.find? (Staging.holds 0x0501 2) = some { op := 0x0501, sel := 2, total := 100, data := [], last := 0 } ∧
    3840000 ≤ tOldStage.since 0 ∧
    tOldStage.mbox.staging.find? (Staging.holds 0x0701 0) = none :=
  by and_intros <;> decide

theorem witness_PostingIsOneTick :
    State.reset.posts = true ∧ 65535 < 65536 ∧ (List.replicate 56 (7 : Byte)).length ≤ 56 := by decide

theorem witness_RingClear :
    ((tReq .ready 0x0C01 ([7]))).request 0 0x0C01 ([7]) ∧
    u8 ([7] : List Byte) 0 < 8 ∧
    ((tReq .ready 0x0C01 ([7]))).posts = true ∧
    ((tReq .run 0x0C01 ([0]))).request 0 0x0C01 ([0]) ∧
    u8 ([0] : List Byte) 0 < 8 :=
  ⟨tReq_request _ _ _ (by decide) (by decide), by decide, by decide, tReq_request _ _ _ (by decide)
   (by decide), by decide⟩

theorem witness_RingWater :
    ((tReq .ready 0x0C02 ([1, 0])).modRings fun r => { r with sample := [0], armed := false }).request 0 0x0C02 ([1, 0]) ∧
    1 ≤ u16 ([1, 0] : List Byte) 0 ∧
    u16 ([1, 0] : List Byte) 0 ≤ 1 ∧
    u16 ([1, 0] : List Byte) 0 ≤ ((tReq .ready 0x0C02 ([1, 0])).modRings fun r => { r with sample := [0], armed := false }).rings.sample.length ∧
    ((tReq .ready 0x0C02 ([1, 0]))).request 0 0x0C02 ([1, 0]) ∧
    ((tReq .ready 0x0C02 ([1, 0]))).rings.sample.length < u16 ([1, 0] : List Byte) 0 ∧
    ((tReq .ready 0x0C02 ([1, 0]))).rings.sample.length + 1 = u16 ([1, 0] : List Byte) 0 ∧
    ({ armed := false, sample := [], water := 1 : Rings }).armed = false ∧
    2 * ({ armed := false, sample := [], water := 1 : Rings }).sample.length ≤ ({ armed := false, sample := [], water := 1 : Rings }).water :=
  ⟨tReq_request _ _ _ (by decide) (by decide), by decide, by decide, by decide, tReq_request _ _ _
   (by decide) (by decide), by and_intros <;> decide⟩

theorem witness_FullNoticeRing :
    (tNotices .ready 512).rings.notice.length = 512 ∧
    (tNotices .ready 512).core.dev ≠ .off ∧
    (tNotices .ready 512).core.dev ≠ .boot ∧
    Kind.alarm ≠ .ordinary :=
  ⟨tNotices_length _ _, by and_intros <;> decide⟩

theorem witness_FullSampleRing :
    (tSamples .run 8192).ringOpen = true ∧
    (tSamples .run 8192).rings.sgap = none ∧
    (tSamples .run 8192).rings.sample.length + (if needsExt 0 then 2 else 1) > 8192 ∧
    (tSamples .ready 0).ringOpen = true ∧
    (tSamples .ready 0).rings.sgap = none ∧
    (tSamples .ready 0).rings.sample.length + (if needsExt 0 then 2 else 1) ≤ 8192 :=
  ⟨by decide, by decide, by rw [tSamples_length]; decide, by and_intros <;> decide⟩

theorem witness_GapMarkers :
    (State.reset.modCore (fun c => { c with dev := .run }) |>.modRings fun r => { r with sgap := some 3, gapDue := true, ngap := some 4 }).rings.sgap = some 3 ∧
    (State.reset.modCore (fun c => { c with dev := .run }) |>.modRings fun r => { r with sgap := some 3, gapDue := true, ngap := some 4 }).rings.gapDue = true ∧
    (State.reset.modCore (fun c => { c with dev := .run }) |>.modRings fun r => { r with sgap := some 3, gapDue := true, ngap := some 4 }).ringOpen = true ∧
    (State.reset.modCore (fun c => { c with dev := .run }) |>.modRings fun r => { r with sgap := some 3, gapDue := true, ngap := some 4 }).rings.sample.length < 8192 ∧
    (State.reset.modCore (fun c => { c with dev := .run }) |>.modRings fun r => { r with sgap := some 3, gapDue := true, ngap := some 4 }).rings.ngap = some 4 ∧
    (State.reset.modCore (fun c => { c with dev := .run }) |>.modRings fun r => { r with sgap := some 3, gapDue := true, ngap := some 4 }).rings.notice.length < 480 ∧
    (State.reset.modCore (fun c => { c with dev := .run }) |>.modRings fun r => { r with sgap := some 3, gapDue := true, ngap := some 4 }).core.dev ≠ .off ∧
    (State.reset.modCore (fun c => { c with dev := .run }) |>.modRings fun r => { r with sgap := some 3, gapDue := true, ngap := some 4 }).core.dev ≠ .boot ∧
    (State.reset).rings.sgap = none ∧
    (State.reset).rings.ngap = none :=
  by and_intros <;> decide

theorem witness_SluiceAndLiveReads :
    ((tPorch .run State.reset).modRings fun r => { r with sample := [1, 2], notice := [3] }).acks = true ∧
    (∀ c a, ((tPorch .run State.reset).modRings fun r => { r with sample := [1, 2], notice := [3] }).faults.wordError c a = none) ∧
    ((tPorch .run State.reset).modRings fun r => { r with sample := [1, 2], notice := [3] }).faults.found = 0 ∧
    ((tPorch .run State.reset).modRings fun r => { r with sample := [1, 2], notice := [3] }).rings.sample = 1 :: [2] ∧
    ((tPorch .run State.reset).modRings fun r => { r with sample := [1, 2], notice := [3] }).rings.notice = 3 :: [] ∧
    (tPorch .ready State.reset).acks = true ∧
    (tPorch .ready State.reset).rings.sample = [] ∧
    (tPorch .ready State.reset).rings.notice = [] ∧
    (State.reset.modBus fun b => { b with pointer := 0x0200 }).bus.pointer = 0x0200 ∧
    (State.reset.modBus fun b => { b with pointer := 0x0210 }).bus.pointer = 0x0210 ∧
    (State.reset.modBus fun b => { b with pointer := 0x043F }).bus.pointer = 0x043F ∧
    (State.reset).acks = false ∧
    (State.reset).bus.addrValid = false :=
  ⟨by decide, fun _ _ => rfl, by and_intros <;> decide⟩

theorem witness_RegisterReads :
    (tPorch .run State.reset).acks = true ∧
    (State.reset.modBus fun b => { b with pointer := 0x0B }).bus.pointer = BitVec.ofNat 16 (0x0A + (1 : Fin 2).val) ∧
    (State.reset.modBus fun b => { b with pointer := 0x09 }).bus.pointer = BitVec.ofNat 16 (0x08 + (1 : Fin 2).val) ∧
    (State.reset.modBus fun b => { b with pointer := 0x17 }).bus.pointer = BitVec.ofNat 16 (0x14 + (3 : Fin 4).val) ∧
    (State.reset).acks = false ∧
    (State.reset).bus.addrValid = false :=
  by and_intros <;> decide

theorem witness_RegisterWrites :
    (tPorch .run State.reset).acks = true ∧
    (tPorch .run State.reset).mbox.slots[(3 : SlotId)].st.hostOwned = true ∧
    ([] : List Byte).length < 2 ∧
    attnCfgOk 0x00007703 = true ∧
    attnCfgOk 0x00000006 = false ∧
    ((tPorch .run State.reset).modSlot 0 fun x => { x with st := .queued }).acks = true ∧
    ((tPorch .run State.reset).modSlot 0 fun x => { x with st := .queued }).mbox.slots[(0 : SlotId)].st.hostOwned = false :=
  by and_intros <;> decide

theorem witness_StrapsGiveTheAddress :
    (State.reset).busSensed = true ∧
    (State.reset).bus.addrValid = false :=
  by and_intros <;> decide

theorem witness_BusEvents :
    (tPorch .run State.reset).busSensed = true ∧
    (tPorch .run State.reset).bus.addrValid = true ∧
    strapAddr 0 0 0 = (tPorch .run State.reset).bus.addr ∧
    strapAddr 7 7 7 ≠ (tPorch .run State.reset).bus.addr ∧
    (tPorch .run State.reset).bus.inTrans = false ∧
    ((tPorch .run State.reset).modBus Bus.join).busSensed = true ∧
    ((tPorch .run State.reset).modBus Bus.join).bus.inTrans = true ∧
    ((tPorch .run State.reset).modCore fun c => { c with reeveRuns := false }).takesGeneralCalls = true ∧
    ((tPorch .run State.reset).modCore fun c => { c with reeveRuns := false }).core.reeveRuns = false ∧
    (List.replicate 13 (0 : Byte)).length ≠ 12 ∧
    (State.reset.modCore fun c => { c with rstLow := true }).busSensed = false ∧
    (tPorch .held State.reset).takesGeneralCalls = true ∧
    (tPorch .held State.reset).core.reeveRuns = true ∧
    (List.replicate 12 (0 : Byte)).length = 12 ∧
    (tPorch .held State.reset).digestExpected ≠ some (List.replicate 12 0) ∧
    tDigest.digestExpected = some ([5, 0, 0, 0] ++ List.replicate 8 0xAB) ∧
    tDigest.takesGeneralCalls = true :=
  by and_intros <;> decide

theorem witness_AttentionMachine :
    (State.reset).bus.attn &&& Cause.mbox.mask = 0 ∧
    (State.reset).bus.readPending ≠ some (State.reset).core.lt ∧
    (State.reset).bus.attnMask &&& Cause.mbox.mask = 0 ∧
    (State.reset).bus.attnMask &&& Cause.wake.mask ≠ 0 ∧
    (State.reset).bus.machine = .idle ∧
    (State.reset).attemptDue = false ∧
    (State.reset).bus.wait ≠ .backoff ∧
    (State.reset).renotifyDue = false ∧
    (State.reset).core.doze = false ∧
    ((tPorch .run State.reset).modBus fun b => { b with attn := 1, busy := false, machine := .pending }).bus.attn &&& Cause.levee.mask ≠ 0 ∧
    ((tPorch .run State.reset).modBus fun b => { b with attn := 1, busy := false, machine := .pending }).attemptDue = true ∧
    ((tPorch .run State.reset).modBus fun b => { b with wait := .backoff, machine := .sent, attn := 1, attnCfg := 0x00010803, sentAt := -640, backoffFrom := -4 }).bus.wait = .backoff ∧
    50000 + 4000 * (((tPorch .run State.reset).modBus fun b => { b with wait := .backoff, machine := .sent, attn := 1, attnCfg := 0x00010803, sentAt := -640, backoffFrom := -4 }).bus.addr.toNat - 0x10) < 15625 * (((tPorch .run State.reset).modBus fun b => { b with wait := .backoff, machine := .sent, attn := 1, attnCfg := 0x00010803, sentAt := -640, backoffFrom := -4 }).since ((tPorch .run State.reset).modBus fun b => { b with wait := .backoff, machine := .sent, attn := 1, attnCfg := 0x00010803, sentAt := -640, backoffFrom := -4 }).bus.backoffFrom + 1) ∧
    ((tPorch .run State.reset).modBus fun b => { b with wait := .backoff, machine := .sent, attn := 1, attnCfg := 0x00010803, sentAt := -640, backoffFrom := -4 }).renotifyDue = true ∧
    (State.reset.modBus fun b => { b with readPending := some 0, failRun := 3 }).bus.readPending = some (State.reset.modBus fun b => { b with readPending := some 0, failRun := 3 }).core.lt ∧
    (State.reset.modBus fun b => { b with readPending := some 0, failRun := 3 }).bus.attnMask &&& Cause.wake.mask ≠ 0 ∧
    (State.reset.modBus fun b => { b with readPending := some 0, failRun := 3 }).bus.machine = .idle ∧
    ((tPorch .run State.reset).modCore fun c => { c with doze := true }).core.doze = true ∧
    ((tPorch .run State.reset).modCore fun c => { c with doze := true }).bus.addrValid = true ∧
    ((tPorch .run State.reset).modCore fun c => { c with doze := true }).core.waking = none :=
  by and_intros <;> decide

theorem witness_SysCommands :
    ((tReq .ready 0x0101 ([]))).request 0 0x0101 ([]) ∧
    ((tReq .ready 0x0101 ([]))).frame.started = false ∧
    ((tReq .run 0x0102 ([]))).request 0 0x0102 ([]) ∧
    ((tReq .ready 0x0103 ([]))).request 0 0x0103 ([]) ∧
    ((tReq .ready 0x0103 ([]))).core.dev = .ready ∧
    ((tReq .run 0x0103 ([]))).request 0 0x0103 ([]) ∧
    ((tReq .run 0x0103 ([]))).core.dev = .run ∧
    ((tReq .held 0x0104 ([]))).request 0 0x0104 ([]) ∧
    ((tReq .held 0x0104 ([]))).bolt.hasCommitted = false ∧
    (tBolted (tReq .held 0x0104 ([]))).request 0 0x0104 ([]) ∧
    (tBolted (tReq .held 0x0104 ([]))).bolt.hasCommitted = true ∧
    ((tReq .run 0x0105 ([]))).request 0 0x0105 ([]) ∧
    ((tReq .safe 0x0106 ([0x5A]))).request 0 0x0106 ([0x5A]) ∧
    u8 ([0x5A] : List Byte) 0 = 0x5A ∧
    ((tReq .safe 0x0106 ([0x5A]))).nvmBusy = false ∧
    ((tReq .safe 0x0106 ([0x5A])).modMbox fun m => { m with pend := [{ slot := 1, op := 0x1002, payload := [], wait := .boltCommit, since := 0 }] }).request 0 0x0106 ([0x5A]) ∧
    ((tReq .safe 0x0106 ([0x5A])).modMbox fun m => { m with pend := [{ slot := 1, op := 0x1002, payload := [], wait := .boltCommit, since := 0 }] }).nvmBusy = true ∧
    ((tReq .safe 0x0107 ([]))).request 0 0x0107 ([]) ∧
    ((tReq .safe 0x0107 ([]))).severeUncleared = false ∧
    ((tReq .safe 0x0107 ([])).modSource 7 fun x => { x with observed := true, inForce := .severe }).request 0 0x0107 ([]) ∧
    ((tReq .safe 0x0107 ([])).modSource 7 fun x => { x with observed := true, inForce := .severe }).severeUncleared = true ∧
    ((tReq .latched 0x0108 ([]))).request 0 0x0108 ([]) ∧
    (tReq .ready 0x0109 (tChunk 0 [1])).lastChunk 0 0x0109 0 [1] ∧
    (tReq .ready 0x0109 (tChunk 0 [1])).nvmAllowed = true ∧
    (tReq .ready 0x0109 (tChunk 0 [1]) |>.modLock fun l => { l with level := 1 }).lock.level ≠ 0 :=
  ⟨tReq_request _ _ _ (by decide) (by decide), by decide, tReq_request _ _ _ (by decide) (by
   decide), tReq_request _ _ _ (by decide) (by decide), by decide, tReq_request _ _ _ (by decide)
   (by decide), by decide, tReq_request _ _ _ (by decide) (by decide), by decide, tReq_request _ _ _
   (by decide) (by decide), tBolted_committed _, tReq_request _ _ _ (by decide) (by decide),
   tReq_request _ _ _ (by decide) (by decide), by decide, by decide, tReq_request _ _ _ (by decide)
   (by decide), by decide, tReq_request _ _ _ (by decide) (by decide), by decide, tReq_request _ _ _
   (by decide) (by decide), by decide, tReq_request _ _ _ (by decide) (by decide), tChunk_last _ _ _
   _ (by decide) (by decide) (by decide) (by decide), by and_intros <;> decide⟩

theorem witness_DeviceEvents :
    (State.reset.modCore fun c => { c with dev := .run, doze := true, waking := some { since := 0, byBus := false } }).core.waking = some { since := 0, byBus := false } ∧
    (State.reset.modCore fun c => { c with dev := .run, doze := true, waking := some { since := 0, byBus := false } }).core.doze = true ∧
    (State.reset.modCore fun c => { c with dev := .run, doze := true, waking := some { since := 0, byBus := false } }).core.dev = .run ∧
    (State.reset.modCore fun c => { c with dev := .ready, doze := true, refWasOn := true, waking := some { since := 0, byBus := true } }).core.waking = some { since := 0, byBus := true } ∧
    (State.reset.modCore fun c => { c with dev := .ready, doze := true, refWasOn := true, waking := some { since := 0, byBus := true } }).core.doze = true ∧
    (State.reset.modCore fun c => { c with dev := .ready, doze := true, refWasOn := true, waking := some { since := 0, byBus := true } }).core.dev = .ready ∧
    (State.reset.modCore fun c => { c with dev := .ready, doze := true, refWasOn := true, waking := some { since := 0, byBus := true } }).core.refWasOn = true ∧
    (State.reset.modCore fun c => { c with dev := .ready, doze := true, refWasOn := true, waking := some { since := 0, byBus := true } }).time.owed = [] ∧
    (State.reset).core.waking = none ∧
    ((State.reset).mbox.pend.find? (·.wait == .patch) = none ∨ (State.reset).nvmAllowed = false) ∧
    (State.reset).core.discPresent = false ∧
    (State.reset).discNow = false ∧
    (State.reset.modMbox fun m => { m with pend := [{ slot := 3, op := 0x0109, payload := [1], wait := .patch, since := 0 }] }).mbox.pend.find? (·.wait == .patch) = some { slot := 3, op := 0x0109, payload := [1], wait := .patch, since := 0 } ∧
    (State.reset.modMbox fun m => { m with pend := [{ slot := 3, op := 0x0109, payload := [1], wait := .patch, since := 0 }] }).nvmAllowed = true ∧
    (State.reset.modMbox fun m => { m with pend := [{ slot := 3, op := 0x0109, payload := [1], wait := .patch, since := 0 }] }).posts = true ∧
    (tDisc 1 0).disciplines = true ∧
    (tDisc 1 0).core.discPresent = true ∧
    (tDisc 1 0).discNow = false ∧
    (tDisc 0 64).disciplines = true ∧
    (tDisc 0 64).core.discPresent = false ∧
    (tDisc 0 64).discNow = true ∧
    (tDisc 0 64).core.discEver = false :=
  by and_intros <;> decide

theorem witness_PortEvents :
    (tPort 15 .ec3 .starting (State.reset.modPort 15 fun q => { q with ramping := true, settling := true })).ports[(15 : PortId)].ramping = true ∧
    (tPort 15 .ec3 .starting (State.reset.modPort 15 fun q => { q with ramping := true, settling := true })).ports[(15 : PortId)].driven = true ∧
    (tPort 15 .ec3 .starting (State.reset.modPort 15 fun q => { q with ramping := true, settling := true })).ports[(15 : PortId)].applied = (tPort 15 .ec3 .starting (State.reset.modPort 15 fun q => { q with ramping := true, settling := true })).ports[(15 : PortId)].target ∧
    (tPort 15 .ec3 .starting (State.reset.modPort 15 fun q => { q with ramping := true, settling := true })).ports[(15 : PortId)].state ≠ .stopping ∧
    (tPort 0 .ec3 .stopping (State.reset.modPort 0 fun q => { q with reachedAt := 7 })).stopDue 0 = true ∧
    (tPort 0 .ec3 .stopping (State.reset.modPort 0 fun q => { q with reachedAt := 7 })).core.stopping = false ∧
    (tPort 0 .ec3 .running ((State.reset.modPort 0 fun q => { q with settling := true, settleFrom := some 0, settle := 0, pinBad := 2, ringBad := 8, ceBad := 8 }).modCore fun c => { c with dev := .run })).settleDue 0 = true ∧
    (tPort 0 .ec3 .running ((State.reset.modPort 0 fun q => { q with settling := true, settleFrom := some 0, settle := 0, pinBad := 2, ringBad := 8, ceBad := 8 }).modCore fun c => { c with dev := .run })).ports[(0 : PortId)].driven = true ∧
    2 ≤ (tPort 0 .ec3 .running ((State.reset.modPort 0 fun q => { q with settling := true, settleFrom := some 0, settle := 0, pinBad := 2, ringBad := 8, ceBad := 8 }).modCore fun c => { c with dev := .run })).ports[(0 : PortId)].pinBad ∧
    8 ≤ (tPort 0 .ec3 .running ((State.reset.modPort 0 fun q => { q with settling := true, settleFrom := some 0, settle := 0, pinBad := 2, ringBad := 8, ceBad := 8 }).modCore fun c => { c with dev := .run })).ports[(0 : PortId)].ringBad ∧
    (tPort 0 .ec3 .running ((State.reset.modPort 0 fun q => { q with settling := true, settleFrom := some 0, settle := 0, pinBad := 2, ringBad := 8, ceBad := 8 }).modCore fun c => { c with dev := .run })).ports[(0 : PortId)].measures = true ∧
    (tPort 0 .ec3 .running ((State.reset.modPort 0 fun q => { q with settling := true, settleFrom := some 0, settle := 0, pinBad := 2, ringBad := 8, ceBad := 8 }).modCore fun c => { c with dev := .run })).ports[(0 : PortId)].mode.isEc = true ∧
    8 ≤ (tPort 0 .ec3 .running ((State.reset.modPort 0 fun q => { q with settling := true, settleFrom := some 0, settle := 0, pinBad := 2, ringBad := 8, ceBad := 8 }).modCore fun c => { c with dev := .run })).ports[(0 : PortId)].ceBad ∧
    (tPort 0 .ec3 .running ((State.reset.modPort 0 fun q => { q with settling := true, settleFrom := some 0, settle := 0, pinBad := 2, ringBad := 8, ceBad := 8 }).modCore fun c => { c with dev := .run })).ports[(0 : PortId)].ringNoticed = false ∧
    (tPort 0 .ec3 .running ((State.reset.modPort 0 fun q => { q with settling := true, settleFrom := some 0, settle := 0, pinBad := 2, ringBad := 8, ceBad := 8 }).modCore fun c => { c with dev := .run })).reeveActive = true ∧
    (tPort 0 .ec3 .running ((State.reset.modPort 0 fun q => { q with settling := true, settleFrom := some 0, settle := 0, pinBad := 2, ringBad := 8, ceBad := 8 }).modCore fun c => { c with dev := .run })).measuring = true ∧
    (tPort 0 .ec3 .running ((State.reset.modPort 0 fun q => { q with settling := true, settleFrom := some 0, settle := 0, pinBad := 2, ringBad := 8, ceBad := 8 }).modCore fun c => { c with dev := .run })).ports[(0 : PortId)].vreFrame ≠ some (tPort 0 .ec3 .running ((State.reset.modPort 0 fun q => { q with settling := true, settleFrom := some 0, settle := 0, pinBad := 2, ringBad := 8, ceBad := 8 }).modCore fun c => { c with dev := .run })).frame.number ∧
    (tPort 0 .ec3 .running ((State.reset.modPort 0 fun q => { q with settling := true, settleFrom := some 0, settle := 0, pinBad := 2, ringBad := 8, ceBad := 8 }).modCore fun c => { c with dev := .run })).ports[(0 : PortId)].vreFrame ≠ some ((tPort 0 .ec3 .running ((State.reset.modPort 0 fun q => { q with settling := true, settleFrom := some 0, settle := 0, pinBad := 2, ringBad := 8, ceBad := 8 }).modCore fun c => { c with dev := .run })).frame.number - 1) ∧
    (-5000 : Int).natAbs ≤ 5000 ∧
    5000 < (5001 : Int).natAbs ∧
    (tPort 0 .ec4 .running (State.reset.modPort 0 fun q => { q with ringNoticed := true, ceNoticed := true })).stopDue 0 = false ∧
    (tPort 0 .ec4 .running (State.reset.modPort 0 fun q => { q with ringNoticed := true, ceNoticed := true })).settleDue 0 = false ∧
    (tPort 0 .ec4 .running (State.reset.modPort 0 fun q => { q with ringNoticed := true, ceNoticed := true })).ports[(0 : PortId)].pinBad < 2 ∧
    (tPort 0 .ec4 .running (State.reset.modPort 0 fun q => { q with ringNoticed := true, ceNoticed := true })).measuring = false ∧
    (tPort 0 .ec4 .running (State.reset.modPort 0 fun q => { q with ringNoticed := true, ceNoticed := true })).ports[(0 : PortId)].measures = true ∧
    (tPort 0 .ec4 .running (State.reset.modPort 0 fun q => { q with ringNoticed := true, ceNoticed := true })).ports[(0 : PortId)].ceNoticed = true ∧
    (tVre 0 none).reeveActive = true ∧
    (tVre 0 none).measuring = true ∧
    (tVre 0 none).ports[(0 : PortId)].measures = true ∧
    (tVre 0 none).ports[(0 : PortId)].mode.isEc = true ∧
    (tVre 0 none).ports[(0 : PortId)].vreFrame ≠ some (tVre 0 none).frame.number ∧
    (tVre 0 none).ports[(0 : PortId)].vreFrame = some ((tVre 0 none).frame.number - 1) ∧
    (tVre 0 none).ports[(0 : PortId)].vreBad = 0 ∧
    1 ≤ (tVre 1 (some 6000)).ports[(0 : PortId)].vreBad ∧
    (∀ a, (tVre 1 (some 6000)).ports[(0 : PortId)].vreAge = some a → 6000 ≤ a) ∧
    (tVre 1 (some 5999)).ports[(0 : PortId)].vreAge = some 5999 ∧
    5999 < 6000 :=
  ⟨by decide, by decide, by decide, by decide, by decide, by decide, by decide, by decide, by
   decide, by decide, by decide, by decide, by decide, by decide, by decide, by decide, by decide,
   by decide, by decide, by decide, by decide, by decide, by decide, by decide, by decide, by
   decide, by decide, by decide, by decide, by decide, by decide, by decide, by decide, by decide,
   by rintro a ⟨⟩; decide, by and_intros <;> decide⟩

theorem witness_CommandsAtTheirBoundary :
    (∀ o ∈ [0x0203, 0x0204, 0x0206, 0x0208, 0x0304, 0x1203, 0x1202, 0x0105], (cmdRow o).any (fun r => r.states.contains .run)) ∧
    (∀ o ∈ [0x0203, 0x0105], (cmdRow o).any (fun r => !r.states.contains .safe) = (o == 0x0105)) ∧
    (cmdRow 0x0107).any (fun r => r.states.contains .safe) ∧
    (tPort 0 .mox .stopped State.reset).startable 0 = true ∧
    (tPort 0 .mox .stopped State.reset).core.stopping = false ∧
    (tPort 0 .mox .stopped State.reset).stopsNow = false ∧
    (tPort 0 .mox .stopped State.reset).ports[(0 : PortId)].mode.isEc = false ∧
    (State.reset.modCore fun c => { c with woke := true }).wakeNow = true ∧
    (State.reset.modCore fun c => { c with woke := true }).core.stopping = false ∧
    (State.reset.modSource 7 fun x => { x with observed := true, inForce := .severe }).severeUncleared = true ∧
    portAuxFault [0, 1] (State.reset.modSource 7 fun x => { x with observed := true, inForce := .severe }) ≠ none ∧
    portLayerFault [0, 0, 1, 0] (State.reset.modSource 7 fun x => { x with observed := true, inForce := .severe }) ≠ none ∧
    portRingFault [0, 1] (tPort 0 .mox .stopped State.reset) ≠ none ∧
    portAuxFault [0, 1] (tPort 1 .mox .running (State.modPort 0 (fun q => { q with rtd := true }) (tPort 0 .aux .running (tPort 2 .ec3 .running State.reset)))) = none ∧
    portRingFault [2, 3] (tPort 1 .mox .running (State.modPort 0 (fun q => { q with rtd := true }) (tPort 0 .aux .running (tPort 2 .ec3 .running State.reset)))) = none ∧
    portLayerFault [1, 0, 1, 0] (tPort 1 .mox .running (State.modPort 0 (fun q => { q with rtd := true }) (tPort 0 .aux .running (tPort 2 .ec3 .running State.reset)))) = none :=
  by and_intros <;> decide

theorem witness_TickAndBoundary :
    (State.reset.modCore fun c => { c with dev := .off }).core.dev = .off ∧
    (State.reset.modCore fun c => { c with rstLow := true }).core.dev ≠ .off ∧
    (State.reset.modCore fun c => { c with rstLow := true }).core.rstLow = true ∧
    (State.reset).core.rstLow = false ∧
    (State.reset).core.dev = .boot ∧
    (∀ (f : Source) (r : Reaction), (State.reset).faults.src[f].reaction = some r → r.acted = true) ∧
    (State.reset).mbox.rung = 0 ∧
    (State.reset).mbox.owed = [] ∧
    (∀ x ∈ (State.reset).mbox.pend, x.wait ≠ .boltCommit) ∧
    (tFrame 639 State.reset).core.dev ≠ .boot ∧
    (tFrame 639 State.reset).frame.started = true ∧
    (State.reset.modFrame fun f => { f with boundary := true }).frame.boundary = true ∧
    (tFrame 608 State.reset).reeveActive = true ∧
    (tFrame 608 State.reset).frame.tick = 608 ∧
    (tFrame 608 State.reset).plan.frozenAt = none :=
  by and_intros <;> decide

theorem witness_FsyncEvents :
    (State.reset.modFrame fun f => { f with edge := true, slip := some (-2), missed := 4, src := .following }).frame.edge = true ∧
    (State.reset.modFrame fun f => { f with edge := true, slip := some (-2), missed := 4, src := .following }).frame.slip = some (-2) ∧
    (State.reset.modFrame fun f => { f with edge := true, slip := some (-2), missed := 4, src := .following }).frame.src = .following ∧
    4 ≤ (State.reset.modFrame fun f => { f with edge := true, slip := some (-2), missed := 4, src := .following }).frame.missed ∧
    (State.reset.modFrame fun f => { f with edge := true, edgeIgnored := true }).frame.edge = true ∧
    (State.reset.modFrame fun f => { f with edge := true, edgeIgnored := true }).frame.slip = none ∧
    (State.reset.modFrame fun f => { f with edge := true, edgeIgnored := true }).frame.missed < 4 :=
  by and_intros <;> decide

theorem witness_QuietAndUnguardedNotices :
    16 ≤ (State.reset.modFrame fun f => { f with badRun := 16, badSince := some 6000, unguarded := 1, unguardedFrames := 360000 }).frame.badRun ∧
    (State.reset.modFrame fun f => { f with badRun := 16, badSince := some 6000, unguarded := 1, unguardedFrames := 360000 }).frame.badSince = some 6000 ∧
    (State.reset.modFrame fun f => { f with badRun := 16, badSince := some 6000, unguarded := 1, unguardedFrames := 360000 }).frame.unguarded ≠ 0 ∧
    360000 ≤ (State.reset.modFrame fun f => { f with badRun := 16, badSince := some 6000, unguarded := 1, unguardedFrames := 360000 }).frame.unguardedFrames ∧
    (State.reset.modFrame fun f => { f with badRun := 16, badSince := some 5999 }).frame.badSince = some 5999 ∧
    (State.reset.modFrame fun f => { f with badRun := 16, badSince := some 5999 }).frame.unguarded = 0 :=
  by and_intros <;> decide

theorem witness_FrameCommands :
    (tStaged .ready 0x1201 3 (List.replicate 159 0) [7]).lastChunk 0 0x1201 3 (List.replicate 159 0 ++ [7]) ∧
    (tStaged .ready 0x1201 3 (List.replicate 159 0) [7]).frame.active ≠ 3 ∧
    (tStaged .ready 0x1201 0 (List.replicate 159 0) [7]).lastChunk 0 0x1201 0 (List.replicate 159 0 ++ [7]) ∧
    (tStaged .ready 0x1201 0 (List.replicate 159 0) [7]).frame.active = 0 ∧
    ((tReq .run 0x1202 ([3, 0, 0, 0, 0, 0, 0, 0]))).request 0 0x1202 ([3, 0, 0, 0, 0, 0, 0, 0]) ∧
    frameSelectFault ([3, 0, 0, 0, 0, 0, 0, 0] : List Byte) ((tReq .run 0x1202 ([3, 0, 0, 0, 0, 0, 0, 0]))) = none ∧
    u8 ([3, 0, 0, 0, 0, 0, 0, 0] : List Byte) 1 = 0 ∧
    ((tReq .run 0x1202 ([3, 1, 0, 0, 255, 255, 255, 255]))).request 0 0x1202 ([3, 1, 0, 0, 255, 255, 255, 255]) ∧
    frameSelectFault ([3, 1, 0, 0, 255, 255, 255, 255] : List Byte) ((tReq .run 0x1202 ([3, 1, 0, 0, 255, 255, 255, 255]))) = none ∧
    u8 ([3, 1, 0, 0, 255, 255, 255, 255] : List Byte) 1 = 1 ∧
    ((tReq .ready 0x1203 ([8, 8, 8, 0]))).request 0 0x1203 ([8, 8, 8, 0]) ∧
    framePolderFault ([8, 8, 8, 0] : List Byte) = none ∧
    ((tReq .ready 0x1203 ([8, 8, 8, 0]))).core.dev ≠ .run ∧
    ((tReq .run 0x1203 ([0, 0, 0, 0]))).request 0 0x1203 ([0, 0, 0, 0]) ∧
    framePolderFault ([0, 0, 0, 0] : List Byte) = none ∧
    ((tReq .run 0x1203 ([0, 0, 0, 0]))).core.dev = .run ∧
    ((tReq .run 0x1204 ([15, 0, 0, 0, 0, 0, 0, 0]))).request 0 0x1204 ([15, 0, 0, 0, 0, 0, 0, 0]) ∧
    u16 ([15, 0, 0, 0, 0, 0, 0, 0] : List Byte) 0 < 16 ∧
    u16 ([15, 0, 0, 0, 0, 0, 0, 0] : List Byte) 2 = 0 ∧
    u8 ([15, 0, 0, 0, 0, 0, 0, 0] : List Byte) 4 ≤ 1 ∧
    firstNonZero ([15, 0, 0, 0, 0, 0, 0, 0] : List Byte) 5 3 = none ∧
    ((tReq .run 0x1205 ([0, 0, 0, 0, 1, 0, 0, 0]))).request 0 0x1205 ([0, 0, 0, 0, 1, 0, 0, 0]) ∧
    u16 ([0, 0, 0, 0, 1, 0, 0, 0] : List Byte) 0 = 0 ∧
    u8 ([0, 0, 0, 0, 1, 0, 0, 0] : List Byte) 4 = 1 ∧
    firstNonZero ([0, 0, 0, 0, 1, 0, 0, 0] : List Byte) 5 3 = none ∧
    ((tReq .safe 0x1205 (List.replicate 8 0))).request 0 0x1205 (List.replicate 8 0) ∧
    u8 (List.replicate 8 0 : List Byte) 4 = 0 :=
  ⟨tStaged_last _ _ _ _ _ (by decide) (by decide) (by decide) (by simp), by decide, tStaged_last _ _
   _ _ _ (by decide) (by decide) (by decide) (by simp), by decide, tReq_request _ _ _ (by decide)
   (by decide), by decide, by decide, tReq_request _ _ _ (by decide) (by decide), by decide, by
   decide, tReq_request _ _ _ (by decide) (by decide), by decide, by decide, tReq_request _ _ _ (by
   decide) (by decide), by decide, by decide, tReq_request _ _ _ (by decide) (by decide), by decide,
   by decide, by decide, by decide, tReq_request _ _ _ (by decide) (by decide), by decide, by
   decide, by decide, tReq_request _ _ _ (by decide) (by decide), by decide⟩

theorem witness_CalCommands :
    (tPort 0 .ec4 .running ((tReq .run 0x0901 ([0, 3, 7, 0])).modGas fun g => { g with models := g.models.set 0 [1] })).request 0 0x0901 ([0, 3, 7, 0]) ∧
    calBeginFault ([0, 3, 7, 0] : List Byte) (tPort 0 .ec4 .running ((tReq .run 0x0901 ([0, 3, 7, 0])).modGas fun g => { g with models := g.models.set 0 [1] })) = none ∧
    u8 ((tPort 0 .ec4 .running ((tReq .run 0x0901 ([0, 3, 7, 0])).modGas fun g => { g with models := g.models.set 0 [1] })).gas.model 0) 0 ≠ 0 ∧
    (tPort 0 .ec4 .running ((tReq .run 0x0901 ([0, 3, 7, 0])).modGas fun g => { g with models := g.models.set 0 [1] })).ports[(0 : PortId)].state = .running ∧
    (tPort 0 .ec4 .running ((tReq .run 0x0901 ([0, 3, 7, 0])).modGas fun g => { g with models := g.models.set 0 [1] })).calHold 0 = false ∧
    (tSession tStep ((tReq .run 0x0901 ([0, 0, 0, 0])).modSlot 0 fun x => { x with early := true })).request 0 0x0901 ([0, 0, 0, 0]) ∧
    (tSession tStep ((tReq .run 0x0901 ([0, 0, 0, 0])).modSlot 0 fun x => { x with early := true })).mbox.slots[(0 : SlotId)].early = true ∧
    (tSession tStep ((tReq .run 0x0901 ([0, 0, 0, 0])).modSlot 0 fun x => { x with early := true })).calHold 0 = true ∧
    (tPort 0 .ec4 .starting ((tReq .run 0x0901 ([0, 0, 0, 0])).modGas fun g => { g with models := g.models.set 0 [1] })).request 0 0x0901 ([0, 0, 0, 0]) ∧
    (tPort 0 .ec4 .starting ((tReq .run 0x0901 ([0, 0, 0, 0])).modGas fun g => { g with models := g.models.set 0 [1] })).mbox.slots[(0 : SlotId)].early = false ∧
    (tPort 0 .ec4 .starting ((tReq .run 0x0901 ([0, 0, 0, 0])).modGas fun g => { g with models := g.models.set 0 [1] })).ports[(0 : PortId)].state ≠ .running ∧
    tBegun.reeveActive = true ∧
    tBegun.core.dev ≠ .boot ∧
    tBegun.badWord 0 = none ∧
    requestFault tBegun.mbox.slots[(0 : SlotId)] tBegun.core.dev = none ∧
    tBegun.mbox.slots[(0 : SlotId)].op = 0x0901 ∧
    tBegun.beginRefusal tBegun.mbox.slots[(0 : SlotId)].payload = none ∧
    (tSession tStep (tReq .run 0x0902 ([0, 0, 1, 0]))).request 0 0x0902 ([0, 0, 1, 0]) ∧
    u8 ([0, 0, 1, 0] : List Byte) 1 = 0 ∧
    u16 ([0, 0, 1, 0] : List Byte) 2 ≠ 0 ∧
    (tSession tStep (tReq .run 0x0902 ([0, 0, 1, 0]))).stepRefusal 0 false ([0, 0, 1, 0] : List Byte) = none ∧
    (tSession tStep (tReq .run 0x0902 ([0, 0, 1, 0]))).cal.sessions[(0 : PortId)] = some tStep ∧
    (tSession tStep (tReq .run 0x0903 ([0, 0, 1, 0, 1, 0, 0, 0]))).request 0 0x0903 ([0, 0, 1, 0, 1, 0, 0, 0]) ∧
    (tSession tStep (tReq .run 0x0903 ([0, 0, 1, 0, 1, 0, 0, 0]))).stepRefusal 0 true ([0, 0, 1, 0, 1, 0, 0, 0] : List Byte) = none ∧
    (tSession tStep (tReq .run 0x0904 ([0, 0]))).request 0 0x0904 ([0, 0]) ∧
    (tSession tStep (tReq .run 0x0904 ([0, 0]))).commitRefusal 0 false = none ∧
    ((tReq .run 0x0904 ([0, 1]))).request 0 0x0904 ([0, 1]) ∧
    ((tReq .run 0x0904 ([0, 1]))).commitRefusal 0 true = some (.wrongState, 0) ∧
    (tSession tStep (tReq .run 0x0905 ([0]))).request 0 0x0905 ([0]) ∧
    (tSession tStep (tReq .run 0x0905 ([0]))).session 0 ≠ none ∧
    ((tReq .run 0x0905 ([15]))).request 0 0x0905 ([15]) ∧
    ((tReq .run 0x0905 ([15]))).session 15 = none ∧
    (tSession tStep (tReq .run 0x0906 ([0, 0, 7]))).request 0 0x0906 ([0, 0, 7]) ∧
    u8 ([0, 0, 7] : List Byte) 1 < (tSession tStep (tReq .run 0x0906 ([0, 0, 7]))).ports[(0 : PortId)].mode.inputs ∧
    u8 ([0, 0, 7] : List Byte) 2 < 8 ∧
    (tSession tStep (tReq .run 0x0906 ([0, 0, 7]))).calHold 0 = true ∧
    (tWarm (tReq .ready 0x0907 ([15, 0]))).request 0 0x0907 ([15, 0]) ∧
    (tWarm (tReq .ready 0x0907 ([15, 0]))).elecRefusal (.port 15) = none ∧
    ((tReq .ready 0x0907 ([15, 0]))).request 0 0x0907 ([15, 0]) ∧
    ((tReq .ready 0x0907 ([15, 0]))).elecRefusal (.port 15) = some .refCold ∧
    ((tReq .ready 0x0908 ([15, 2]))).request 0 0x0908 ([15, 2]) ∧
    u8 ([15, 2] : List Byte) 1 ≤ 2 ∧
    ((tReq .safe 0x0909 ([15]))).request 0 0x0909 ([15]) ∧
    ((tReq .safe 0x0909 ([15]))).nvmAllowed = true ∧
    ((tReq .safe 0x0909 ([15])).modTherm fun t => { t with state := 2 }).request 0 0x0909 ([15]) ∧
    ((tReq .safe 0x0909 ([15])).modTherm fun t => { t with state := 2 }).nvmAllowed = false :=
  ⟨tReq_request _ _ _ (by decide) (by decide), by decide, by decide, by decide, by decide,
   tReq_request _ _ _ (by decide) (by decide), by decide, by decide, tReq_request _ _ _ (by decide)
   (by decide), by decide, by decide, by decide, by decide, by decide, by decide, by decide, by
   decide, tReq_request _ _ _ (by decide) (by decide), by decide, by decide, by decide, by decide,
   tReq_request _ _ _ (by decide) (by decide), by decide, tReq_request _ _ _ (by decide) (by
   decide), by decide, tReq_request _ _ _ (by decide) (by decide), by decide, tReq_request _ _ _ (by
   decide) (by decide), by decide, tReq_request _ _ _ (by decide) (by decide), by decide,
   tReq_request _ _ _ (by decide) (by decide), by decide, by decide, by decide, tReq_request _ _ _
   (by decide) (by decide), by decide, tReq_request _ _ _ (by decide) (by decide), by decide,
   tReq_request _ _ _ (by decide) (by decide), by decide, tReq_request _ _ _ (by decide) (by
   decide), by decide, tReq_request _ _ _ (by decide) (by decide), by decide⟩

theorem witness_CalEvents :
    (((State.reset.modCore fun c => { c with dev := .run, lt := 3840000 * 240 }) |> tSession { begun := 0, avg := some { span := false, n := 1, c := 0, after := 0, gone := 1 } }).session 0).isSome = true ∧
    ((State.reset.modCore fun c => { c with dev := .run, lt := 3840000 * 240 }) |> tSession { begun := 0, avg := some { span := false, n := 1, c := 0, after := 0, gone := 1 } }).reeveActive = true ∧
    (((State.reset.modCore fun c => { c with dev := .run, lt := 3840000 * 240 }) |> tSession { begun := 0, avg := some { span := false, n := 1, c := 0, after := 0, gone := 1 } }).modFrame fun f => { f with tick := 1 }).frame.tick = 1 ∧
    ((State.reset.modCore fun c => { c with dev := .run, lt := 3840000 * 240 }) |> tSession { begun := 0, avg := some { span := false, n := 1, c := 0, after := 0, gone := 1 } }).core.sys.holdMin * 3840000 ≤ ((State.reset.modCore fun c => { c with dev := .run, lt := 3840000 * 240 }) |> tSession { begun := 0, avg := some { span := false, n := 1, c := 0, after := 0, gone := 1 } }).since 0 ∧
    (tSession tStep State.reset).session 0 = some tStep ∧
    (tSession tStep State.reset).since 0 < (tSession tStep State.reset).core.sys.holdMin * 3840000 ∧
    ((State.reset.modCore fun c => { c with dev := .ready }).modCal fun c => { c with runs := [{ target := .ref, gain := 0, left := some 0 }] }).cal.runs.find? (·.target == .ref) = some { target := .ref, gain := 0, left := some 0 } ∧
    ((State.reset.modCore fun c => { c with dev := .ready }).modCal fun c => { c with runs := [{ target := .ref, gain := 0, left := some 0 }] }).reeveActive = true ∧
    ((State.reset.modCore fun c => { c with dev := .ready }).modCal fun c => { c with runs := [{ target := .ref, gain := 0, left := some 0 }] }).frame.tick = 0 ∧
    ((State.reset.modCore fun c => { c with dev := .ready }).modCal fun c => { c with runs := [{ target := .ref, gain := 0, left := some 0 }] }).cal.runs.find? (·.target == .warp) = none ∧
    ((State.reset.modCore fun c => { c with dev := .ready }).modCal fun c => { c with runs := [{ target := .ref, gain := 0, left := some 0 }] }).elecWithin { target := .ref, gain := 0, left := some 0 } { offset := 0, gainPpm := 0, biasErr := 0, ref := Config.refTrim } = true ∧
    ((State.reset.modCore fun c => { c with dev := .ready }).modCal fun c => { c with runs := [{ target := .ref, gain := 0, left := some 0 }] }).elecWithin { target := .ref, gain := 0, left := some 0 } { offset := 0, gainPpm := 0, biasErr := 0, ref := Config.refTrim + 1001 } = false ∧
    (tWarm ((State.reset.modCore fun c => { c with dev := .ready }).modCal fun c => { c with stats := Vector.replicate 19 { age := 8640000 } })).reeveActive = true ∧
    (tWarm ((State.reset.modCore fun c => { c with dev := .ready }).modCal fun c => { c with stats := Vector.replicate 19 { age := 8640000 } })).core.dev = .ready ∧
    (tWarm ((State.reset.modCore fun c => { c with dev := .ready }).modCal fun c => { c with stats := Vector.replicate 19 { age := 8640000 } })).autoDue .ref = true ∧
    (tWarm ((State.reset.modCore fun c => { c with dev := .ready }).modCal fun c => { c with stats := Vector.replicate 19 { age := 8640000 } })).elecRefusal .ref = none ∧
    (State.reset).autoDue (.port 0) = false ∧
    (State.reset).selfDue .reference = false ∧
    (tWarm ((State.reset.modCore fun c => { c with dev := .run }).modCal fun c => { c with selfAge := Vector.replicate 2 6000 })).selfDue .reference = true ∧
    (tWarm ((State.reset.modCore fun c => { c with dev := .run }).modCal fun c => { c with selfAge := Vector.replicate 2 6000 })).selfDue .chargeStandard = true ∧
    (tWarm ((State.reset.modCore fun c => { c with dev := .run }).modCal fun c => { c with selfAge := Vector.replicate 2 6000 })).nvmAllowed = true ∧
    8640000 ≤ (State.reset.modCal fun c => { c with sinceStore := 8640000, stored := some { ElecSet.factory with ref := Config.refTrim + 1 } }).cal.sinceStore ∧
    (State.reset.modCal fun c => { c with sinceStore := 8640000, stored := some { ElecSet.factory with ref := Config.refTrim + 1 } }).elecSet ≠ (State.reset.modCal fun c => { c with sinceStore := 8640000, stored := some { ElecSet.factory with ref := Config.refTrim + 1 } }).cal.stored.getD ElecSet.factory :=
  ⟨by decide, by decide, by decide, by decide, by decide, by decide, by decide, by decide, by
   decide, by decide, tNear _, tFar _, by decide, by decide, by decide, by decide, by decide, by
   decide, by decide, by decide, by decide, by decide, tStore⟩

theorem witness_LeveeCommands :
    ((tReq .ready 0x0801 ([47] ++ List.replicate 23 0))).request 0 0x0801 ([47] ++ List.replicate 23 0) ∧
    leveeSetFault ([47] ++ List.replicate 23 0 : List Byte) = none ∧
    ((tReq .ready 0x0801 ([47] ++ List.replicate 23 0))).core.dev ≠ .run ∧
    ((tReq .run 0x0801 ([0] ++ List.replicate 23 0))).request 0 0x0801 ([0] ++ List.replicate 23 0) ∧
    leveeSetFault ([0] ++ List.replicate 23 0 : List Byte) = none ∧
    ((tReq .run 0x0801 ([0] ++ List.replicate 23 0))).core.dev = .run ∧
    ((tReq .run 0x0802 ([255, 255, 255, 255, 255, 255, 0, 0]))).request 0 0x0802 ([255, 255, 255, 255, 255, 255, 0, 0]) ∧
    firstNonZero ([255, 255, 255, 255, 255, 255, 0, 0] : List Byte) 6 2 = none ∧
    ((tReq .safe 0x0803 ([47, 1]))).request 0 0x0803 ([47, 1]) ∧
    leveeStatusFault ([47, 1] : List Byte) = none ∧
    ((tReq .safe 0x0803 ([41, 7]))).request 0 0x0803 ([41, 7]) ∧
    leveeStatusFault ([41, 7] : List Byte) = none :=
  ⟨tReq_request _ _ _ (by decide) (by decide), by decide, by decide, tReq_request _ _ _ (by decide)
   (by decide), by decide, by decide, tReq_request _ _ _ (by decide) (by decide), by decide,
   tReq_request _ _ _ (by decide) (by decide), by decide, tReq_request _ _ _ (by decide) (by
   decide), by decide⟩

theorem witness_LedgerCommands :
    (((tReq .run 0x0A02 [0, 0, 0, 0]).modSlot 0 fun x => { x with early := true }).modPlan fun x => { x with frozenAt := some 0 }).runs 0 0x0A02 = true ∧
    (((tReq .run 0x0A02 [0, 0, 0, 0]).modSlot 0 fun x => { x with early := true }).modPlan fun x => { x with frozenAt := some 0 }).mbox.slots[(0 : SlotId)].payload = [0, 0, 0, 0] ∧
    (((tReq .run 0x0A02 [0, 0, 0, 0]).modSlot 0 fun x => { x with early := true }).modPlan fun x => { x with frozenAt := some 0 }).mbox.slots[(0 : SlotId)].early = true ∧
    (((tReq .run 0x0A02 [0, 0, 0, 0]).modSlot 0 fun x => { x with early := true }).modPlan fun x => { x with frozenAt := some 0 }).plan.frozenAt ≠ none ∧
    ((tReq .run 0x0A01 [16, 39, 0, 0, 132, 3, 0, 0]).modSlot 0 fun x => { x with early := true }).runs 0 0x0A01 = true ∧
    ((tReq .run 0x0A01 [16, 39, 0, 0, 132, 3, 0, 0]).modSlot 0 fun x => { x with early := true }).mbox.slots[(0 : SlotId)].payload = [16, 39, 0, 0, 132, 3, 0, 0] ∧
    ((tReq .run 0x0A01 [16, 39, 0, 0, 132, 3, 0, 0]).modSlot 0 fun x => { x with early := true }).mbox.slots[(0 : SlotId)].early = true ∧
    ((tReq .run 0x0A01 [16, 39, 0, 0, 132, 3, 0, 0]).modSlot 0 fun x => { x with early := true }).plan.frozenAt = none ∧
    ((tReq .ready 0x0A01 ([100, 0, 100, 0, 50, 0, 0, 0]))).request 0 0x0A01 ([100, 0, 100, 0, 50, 0, 0, 0]) ∧
    ((tReq .ready 0x0A01 ([100, 0, 100, 0, 50, 0, 0, 0]))).mbox.slots[(0 : SlotId)].early = false ∧
    grantFault ([100, 0, 100, 0, 50, 0, 0, 0] : List Byte) = none ∧
    ((tReq .ready 0x0A01 ([100, 0, 100, 0, 50, 0, 0, 0]))).core.dev ≠ .run ∧
    ((tReq .run 0x0A01 ([16, 39, 0, 0, 132, 3, 0, 0]))).request 0 0x0A01 ([16, 39, 0, 0, 132, 3, 0, 0]) ∧
    ((tReq .run 0x0A01 ([16, 39, 0, 0, 132, 3, 0, 0]))).mbox.slots[(0 : SlotId)].early = false ∧
    grantFault ([16, 39, 0, 0, 132, 3, 0, 0] : List Byte) = none ∧
    ((tReq .run 0x0A01 ([16, 39, 0, 0, 132, 3, 0, 0]))).core.dev = .run ∧
    ((tReq .ready 0x0A02 ([15, 3, 0, 0]))).request 0 0x0A02 ([15, 3, 0, 0]) ∧
    u8 ([15, 3, 0, 0] : List Byte) 0 < 16 ∧
    u8 ([15, 3, 0, 0] : List Byte) 1 < 4 ∧
    ((tReq .ready 0x0A02 ([15, 3, 0, 0]))).core.dev ≠ .run ∧
    ((tReq .run 0x0A02 ([0, 0, 0, 0]))).request 0 0x0A02 ([0, 0, 0, 0]) ∧
    u8 ([0, 0, 0, 0] : List Byte) 0 < 16 ∧
    u8 ([0, 0, 0, 0] : List Byte) 1 < 4 ∧
    ((tReq .run 0x0A02 ([0, 0, 0, 0]))).core.dev = .run ∧
    ((tReq .safe 0x0A03 (List.replicate 8 0))).request 0 0x0A03 (List.replicate 8 0) ∧
    u16 (List.replicate 8 0 : List Byte) 0 = 0 ∧
    u8 (List.replicate 8 0 : List Byte) 4 = 0 ∧
    ((tReq .safe 0x0A03 ([0, 0, 0, 0, 1, 0, 0, 0]))).request 0 0x0A03 ([0, 0, 0, 0, 1, 0, 0, 0]) ∧
    u16 ([0, 0, 0, 0, 1, 0, 0, 0] : List Byte) 0 = 0 ∧
    u16 ([0, 0, 0, 0, 1, 0, 0, 0] : List Byte) 2 = 0 ∧
    u8 ([0, 0, 0, 0, 1, 0, 0, 0] : List Byte) 4 = 1 ∧
    firstNonZero ([0, 0, 0, 0, 1, 0, 0, 0] : List Byte) 5 3 = none :=
  ⟨by decide, by decide, by decide, by decide, by decide, by decide, by decide, by decide,
   tReq_request _ _ _ (by decide) (by decide), by decide, by decide, by decide, tReq_request _ _ _
   (by decide) (by decide), by decide, by decide, by decide, tReq_request _ _ _ (by decide) (by
   decide), by decide, by decide, by decide, tReq_request _ _ _ (by decide) (by decide), by decide,
   by decide, by decide, tReq_request _ _ _ (by decide) (by decide), by decide, by decide,
   tReq_request _ _ _ (by decide) (by decide), by and_intros <;> decide⟩

theorem witness_ThermCommands :
    ((tReq .safe 0x0B01 ([]))).request 0 0x0B01 ([]) ∧
    ((tReq .safe 0x0B02 ([]))).request 0 0x0B02 ([]) ∧
    ((tReq .run 0x0B03 ([255, 255, 0, 0]))).request 0 0x0B03 ([255, 255, 0, 0]) ∧
    ((tReq .safe 0x0B04 ([]))).request 0 0x0B04 ([]) ∧
    ((tReq .safe 0x0B04 ([]))).therm.forced = false ∧
    ((tReq .safe 0x0B04 ([])).modTherm fun t => { t with forced := true }).request 0 0x0B04 ([]) ∧
    ((tReq .safe 0x0B04 ([])).modTherm fun t => { t with forced := true }).therm.forced = true :=
  ⟨tReq_request _ _ _ (by decide) (by decide), tReq_request _ _ _ (by decide) (by decide),
   tReq_request _ _ _ (by decide) (by decide), tReq_request _ _ _ (by decide) (by decide), by
   decide, tReq_request _ _ _ (by decide) (by decide), by decide⟩

theorem witness_ThermalEvents :
    ((tPorch .run State.reset).modSensor 8 fun x => { x with rise := #v[0, 0, 8, 0] }).core.dev ≠ .off ∧
    ((tPorch .run State.reset).modSensor 8 fun x => { x with rise := #v[0, 0, 8, 0] }).therm.sensors[(8 : Fin 9)].crossDue 2 true = true ∧
    ((tPorch .run State.reset).modSensor 8 fun x => { x with rise := #v[0, 0, 8, 0] }).therm.sensors[(8 : Fin 9)].crossDue 0 true = false ∧
    ((tPorch .run State.reset).modSensor 8 fun x => { x with rise := #v[0, 0, 8, 0] }).therm.sensors[(8 : Fin 9)].rise[3] < 8 ∧
    ((tPorch .run State.reset).modSensor 0 fun x => { x with fall := #v[8, 0, 0], up := 1 }).therm.sensors[(0 : Fin 9)].crossDue 0 false = true ∧
    ((tPorch .run State.reset).modSensor 3 fun x => { x with rise := #v[8, 8, 8, 8], up := 7 }).core.dev ≠ .off ∧
    ((tPorch .run State.reset).modSensor 3 fun x => { x with rise := #v[8, 8, 8, 8], up := 7 }).core.dev ≠ .latched ∧
    ((tPorch .run State.reset).modSensor 3 fun x => { x with rise := #v[8, 8, 8, 8], up := 7 }).therm.sensors[(3 : Fin 9)].failed = false ∧
    ((tPorch .run State.reset).modSensor 3 fun x => { x with rise := #v[8, 8, 8, 8], up := 7 }).therm.sensors[(3 : Fin 9)].rise[3] = 8 ∧
    ((tPorch .run State.reset).modSensor 3 fun x => { x with rise := #v[8, 8, 8, 8], up := 7 }).therm.sensors[(3 : Fin 9)].up.getLsbD 3 = false ∧
    (tTickOne (State.reset.modSensor 8 fun x => { x with missedLast := 8 })).tickOne = true ∧
    (tTickOne (State.reset.modSensor 8 fun x => { x with missedLast := 8 })).therm.sensors[(8 : Fin 9)].failed = false ∧
    8 ≤ (tTickOne (State.reset.modSensor 8 fun x => { x with missedLast := 8 })).therm.sensors[(8 : Fin 9)].missedLast ∧
    (tTickOne State.reset).tickOne = true ∧
    (∀ t : Fin 9, (tTickOne State.reset).therm.sensors[t].failed = false ∧ (tTickOne State.reset).therm.sensors[t].missedLast < 8) ∧
    (tTickOne State.reset).therm.deviant = none ∧
    (tTickOne State.reset).core.oscSensor = (tTickOne State.reset).nearest 0 ∧
    (∀ t : Fin 9, (tTickOne (State.reset.modTherm fun t => { t with sensors := Vector.replicate 9 { missedLast := 8, mean := some 2500 } })).therm.sensors[t].failed = true ∨ 8 ≤ (tTickOne (State.reset.modTherm fun t => { t with sensors := Vector.replicate 9 { missedLast := 8, mean := some 2500 } })).therm.sensors[t].missedLast) ∧
    (tTickOne (State.reset.modTherm fun t => { t with sensors := Vector.replicate 9 { missedLast := 8, mean := some 2500 } })).therm.sensors[(tTickOne (State.reset.modTherm fun t => { t with sensors := Vector.replicate 9 { missedLast := 8, mean := some 2500 } })).nearest 0].mean = some 2500 ∧
    (tTickOne (State.reset.modTherm fun t => { t with sensors := Vector.replicate 9 { missedLast := 8, mean := some 2500 } })).core.refSensor = (tTickOne (State.reset.modTherm fun t => { t with sensors := Vector.replicate 9 { missedLast := 8, mean := some 2500 } })).nearest 0 ∧
    (tTickOne (State.reset.modSensor 0 fun x => { x with failed := true })).core.oscSensor ≠ (tTickOne (State.reset.modSensor 0 fun x => { x with failed := true })).nearest 0 ∧
    (State.reset).tickOne = false :=
  by and_intros <;> decide

theorem witness_FaultCommands :
    ((tReq .safe 0x0E01 ([56, 8]))).request 0 0x0E01 ([56, 8]) ∧
    faultReadFault ([56, 8] : List Byte) = none ∧
    ((tReq .run 0x0E02 ([255, 255, 255, 255, 255, 255, 127, 0]))).request 0 0x0E02 ([255, 255, 255, 255, 255, 255, 127, 0]) ∧
    u8 ([255, 255, 255, 255, 255, 255, 127, 0] : List Byte) 6 < 128 ∧
    u8 ([255, 255, 255, 255, 255, 255, 127, 0] : List Byte) 7 = 0 ∧
    (u64 ([255, 255, 255, 255, 255, 255, 127, 0] : List Byte) 0).testBit 54 = true ∧
    ((tReq .run 0x0E02 ([255, 255, 255, 255, 255, 255, 127, 0]))).faults.src[(54 : Source)].reaction = none ∧
    ((tReq .run 0x0E02 ([255, 255, 255, 255, 255, 255, 127, 0]))).faults.src[(54 : Source)].taken = false ∧
    (u64 ([255, 255, 255, 255, 255, 255, 127, 0] : List Byte) 0).testBit 63 = false ∧
    ((tReq .run 0x0E03 ([54, 3, 255, 1, 255, 255, 0, 0]))).request 0 0x0E03 ([54, 3, 255, 1, 255, 255, 0, 0]) ∧
    faultConfigFault ([54, 3, 255, 1, 255, 255, 0, 0] : List Byte) = none ∧
    ((tReq .run 0x0E03 ([54, 3, 255, 1, 255, 255, 0, 0]))).faults.src[(54 : Source)].reaction = none ∧
    ((tReq .run 0x0E03 ([0, 0, 1, 0, 1, 0, 0, 0])).modSource 0 fun x => { x with reaction := some { grace := 5 } }).request 0 0x0E03 ([0, 0, 1, 0, 1, 0, 0, 0]) ∧
    faultConfigFault ([0, 0, 1, 0, 1, 0, 0, 0] : List Byte) = none ∧
    ((tReq .run 0x0E03 ([0, 0, 1, 0, 1, 0, 0, 0])).modSource 0 fun x => { x with reaction := some { grace := 5 } }).faults.src[(0 : Source)].reaction ≠ none ∧
    ((tReq .safe 0x0E04 ([54, 1]))).request 0 0x0E04 ([54, 1]) ∧
    ((tReq .safe 0x0E04 ([54, 1]))).lock.level = 0 ∧
    ((tReq .safe 0x0E04 ([54, 1])).modLock fun l => { l with level := 1 }).request 0 0x0E04 ([54, 1]) ∧
    faultForceFault ([54, 1] : List Byte) ((tReq .safe 0x0E04 ([54, 1])).modLock fun l => { l with level := 1 }) = none ∧
    ((tReq .safe 0x0E05 (List.replicate 8 0))).request 0 0x0E05 (List.replicate 8 0) ∧
    ((tReq .safe 0x0E05 (List.replicate 8 0))).lock.level = 0 ∧
    ((tReq .safe 0x0E05 ([4, 0, 0, 0, 63, 0, 0, 0])).modLock fun l => { l with level := 2 }).request 0 0x0E05 ([4, 0, 0, 0, 63, 0, 0, 0]) ∧
    faultEccFault ([4, 0, 0, 0, 63, 0, 0, 0] : List Byte) ((tReq .safe 0x0E05 ([4, 0, 0, 0, 63, 0, 0, 0])).modLock fun l => { l with level := 2 }) = none ∧
    u8 ([4, 0, 0, 0, 63, 0, 0, 0] : List Byte) 1 = 0 ∧
    ((tReq .safe 0x0E05 ([1, 255, 0, 0, 255, 255, 0, 0])).modLock fun l => { l with level := 1 }).request 0 0x0E05 ([1, 255, 0, 0, 255, 255, 0, 0]) ∧
    faultEccFault ([1, 255, 0, 0, 255, 255, 0, 0] : List Byte) ((tReq .safe 0x0E05 ([1, 255, 0, 0, 255, 255, 0, 0])).modLock fun l => { l with level := 1 }) = none ∧
    u8 ([1, 255, 0, 0, 255, 255, 0, 0] : List Byte) 1 ≠ 0 ∧
    u8 ([1, 255, 0, 0, 255, 255, 0, 0] : List Byte) 0 ≠ 3 ∧
    ((tReq .safe 0x0E06 ([232, 3, 0, 0]))).request 0 0x0E06 ([232, 3, 0, 0]) ∧
    1 ≤ u16 ([232, 3, 0, 0] : List Byte) 0 ∧
    u16 ([232, 3, 0, 0] : List Byte) 0 ≤ 1000 :=
  ⟨tReq_request _ _ _ (by decide) (by decide), by decide, tReq_request _ _ _ (by decide) (by
   decide), by decide, by decide, by decide, by decide, by decide, by decide, tReq_request _ _ _ (by
   decide) (by decide), by decide, by decide, tReq_request _ _ _ (by decide) (by decide), by decide,
   by decide, tReq_request _ _ _ (by decide) (by decide), by decide, tReq_request _ _ _ (by decide)
   (by decide), by decide, tReq_request _ _ _ (by decide) (by decide), by decide, tReq_request _ _ _
   (by decide) (by decide), by decide, by decide, tReq_request _ _ _ (by decide) (by decide), by
   decide, by decide, by decide, tReq_request _ _ _ (by decide) (by decide), by and_intros <;>
   decide⟩

theorem witness_FaultEvents :
    (tFault 0 (fun x => { x with det := true, inForce := .grave })).core.dev ≠ .off ∧
    (tFault 0 (fun x => { x with det := true, inForce := .grave })).faults.src[(0 : Source)].eventDue = true ∧
    (∀ g, (tFault 0 (fun x => { x with det := true, inForce := .grave })).reactionEndDue g = false) ∧
    (tFault 0 (fun x => { x with det := true, inForce := .grave })).faults.src[(0 : Source)].inForce = .grave ∧
    ((tFault 43 (fun x => { x with det := true })).modSource 4 fun x => { x with reaction := some { grace := 5 } }).faults.src[(43 : Source)].eventDue = true ∧
    ((tFault 43 (fun x => { x with det := true })).modSource 4 fun x => { x with reaction := some { grace := 5 } }).faults.src[(43 : Source)].inForce ≠ .grave ∧
    ((tFault 43 (fun x => { x with det := true })).modSource 4 fun x => { x with reaction := some { grace := 5 } }).faults.mergedInto 43 = some 4 ∧
    ((tFault 43 (fun x => { x with det := true })).modSource 4 fun x => { x with reaction := some { grace := 5 } }).core.wdogTicks < 1280 ∧
    (∀ g, (tFault 53 (fun x => { x with det := true })).reactionEndDue g = false) ∧
    (tFault 53 (fun x => { x with det := true })).faults.src[(53 : Source)].eventDue = true ∧
    (tFault 53 (fun x => { x with det := true })).faults.mergedInto 53 = none ∧
    (tFault 53 (fun x => { x with det := true })).faults.src[(53 : Source)].count.inForce ≠ .grave ∧
    (tFault 53 (fun x => { x with det := true })).faults.src[(53 : Source)].count.inForce ≠ .severe ∧
    (tFault 53 (fun x => { x with det := true })).faults.src[(52 : Source)].eventDue = false ∧
    (tFault 43 (fun x => { x with det := true, inForce := .minor, n := 2, events := [0] })).faults.mergedInto 43 = none ∧
    (tFault 43 (fun x => { x with det := true, inForce := .minor, n := 2, events := [0] })).faults.src[(43 : Source)].eventDue = true ∧
    (tFault 43 (fun x => { x with det := true, inForce := .minor, n := 2, events := [0] })).faults.src[(43 : Source)].inForce ≠ .grave ∧
    (tFault 43 (fun x => { x with det := true, inForce := .minor, n := 2, events := [0] })).faults.src[(43 : Source)].count.inForce = .severe ∧
    (tFault 43 (fun x => { x with det := true, inForce := .minor, n := 2, events := [0] })).core.stopping = false ∧
    1280 ≤ (State.reset.modCore fun c => { c with wdogTicks := 1280 }).core.wdogTicks ∧
    (tFault 16 (fun x => { x with quietTicks := 8, reaction := some { grace := 2, age := 9, acted := true } })).faults.src[(16 : Source)].reaction = some { grace := 2, age := 9, acted := true } ∧
    (tFault 16 (fun x => { x with quietTicks := 8, reaction := some { grace := 2, age := 9, acted := true } })).handledDue 16 { grace := 2, age := 9, acted := true } = true ∧
    (tFault 16 (fun x => { x with reaction := some { grace := 0, age := 9, acted := true } })).faults.src[(16 : Source)].reaction = some { grace := 0, age := 9, acted := true } ∧
    (tFault 16 (fun x => { x with reaction := some { grace := 0, age := 9, acted := true } })).core.dev ≠ .boot ∧
    (tFault 16 (fun x => { x with reaction := some { grace := 0, age := 9, acted := true } })).core.dev ≠ .latched ∧
    blockCode 16 ≠ none ∧
    (tFault 16 (fun x => { x with reaction := some { grace := 0, age := 9, acted := true } })).core.stopping = false ∧
    (tFault 7 (fun x => { x with reaction := some { grace := 0 } })).faults.src[(7 : Source)].reaction = some { grace := 0 } ∧
    blockCode 7 = none ∧
    (tFault 7 (fun x => { x with reaction := some { grace := 0 } })).handledDue 7 { grace := 0 } = false ∧
    (tFault 7 (fun x => { x with reaction := some { grace := 1 } })).faults.src[(7 : Source)].reaction = some { grace := 1 } ∧
    ((tFault 16 (fun x => { x with det := true, reaction := some { grace := 0, action := some 0, checks := true, boundaries := 3 } })).modCore fun c => { c with lt := 8 }).faults.src[(16 : Source)].reaction = some { grace := 0, action := some 0, checks := true, boundaries := 3 } ∧
    ((tFault 16 (fun x => { x with det := true, reaction := some { grace := 0, action := some 0, checks := true, boundaries := 3 } })).modCore fun c => { c with lt := 8 }).since 0 = 8 ∧
    ((tFault 16 (fun x => { x with det := true, reaction := some { grace := 0, action := some 0, checks := true, boundaries := 3 } })).modCore fun c => { c with lt := 8 }).faults.src[(16 : Source)].det = true ∧
    ((tFault 16 (fun x => { x with det := true, reaction := some { grace := 0, action := some 0, checks := true, boundaries := 3 } })).modCore fun c => { c with lt := 8 }).core.dev ≠ .off ∧
    ((tFault 16 (fun x => { x with det := true, reaction := some { grace := 0, action := some 0, checks := true, boundaries := 3 } })).modCore fun c => { c with lt := 8 }).core.dev ≠ .latched ∧
    ((tFault 16 (fun x => { x with reaction := some { grace := 0, action := some 0, checks := true, boundaries := 2 } })).modCore fun c => { c with lt := 8 }).faults.src[(16 : Source)].reaction = some { grace := 0, action := some 0, checks := true, boundaries := 2 } ∧
    ((tFault 16 (fun x => { x with reaction := some { grace := 0, action := some 0, checks := true, boundaries := 2 } })).modCore fun c => { c with lt := 8 }).since 0 = 8 ∧
    ((tFault 16 (fun x => { x with reaction := some { grace := 0, action := some 0, checks := true, boundaries := 2 } })).modCore fun c => { c with lt := 8 }).faults.src[(16 : Source)].det = false ∧
    ((tFault 16 (fun x => { x with reaction := some { grace := 0, action := some 0, checks := true } })).modCore fun c => { c with lt := 7 }).since 0 ≠ 8 ∧
    ((tFault 16 (fun x => { x with reaction := some { grace := 0, action := some 0, checks := true } })).modCore fun c => { c with lt := 7 }).faults.src[(15 : Source)].reaction = none :=
  by and_intros <;> decide

theorem witness_BoltAndBoxCommands :
    ((tReq .ready 0x0F01 ([0, 0, 0, 0, 64, 0, 1, 0, 7]))).request 0 0x0F01 ([0, 0, 0, 0, 64, 0, 1, 0, 7]) ∧
    u16 ([0, 0, 0, 0, 64, 0, 1, 0, 7] : List Byte) 0 = 0 ∧
    u8 ([0, 0, 0, 0, 64, 0, 1, 0, 7] : List Byte) 7 = 0 ∧
    u8 ([0, 0, 0, 0, 64, 0, 1, 0, 7] : List Byte) 6 = 1 ∧
    u16 ([0, 0, 0, 0, 64, 0, 1, 0, 7] : List Byte) 2 = 0 ∧
    64 ≤ u16 ([0, 0, 0, 0, 64, 0, 1, 0, 7] : List Byte) 4 ∧
    u16 ([0, 0, 0, 0, 64, 0, 1, 0, 7] : List Byte) 4 ≤ 32768 ∧
    u16 ([0, 0, 0, 0, 64, 0, 1, 0, 7] : List Byte) 4 % 4 = 0 ∧
    (([0, 0, 0, 0, 64, 0, 1, 0, 7] : List Byte).drop 8).length < u16 ([0, 0, 0, 0, 64, 0, 1, 0, 7] : List Byte) 4 ∧
    ((tReq .ready 0x0F01 ([0, 0, 0, 0, 64, 0, 1, 0, 7]))).nvmAllowed = true ∧
    ((tReq .ready 0x0F01 ([0, 0, 0, 0, 0, 128, 1, 0])).modTherm fun t => { t with state := 1 }).request 0 0x0F01 ([0, 0, 0, 0, 0, 128, 1, 0]) ∧
    u16 ([0, 0, 0, 0, 0, 128, 1, 0] : List Byte) 4 ≤ 32768 ∧
    u16 ([0, 0, 0, 0, 0, 128, 1, 0] : List Byte) 4 % 4 = 0 ∧
    u8 ([0, 0, 0, 0, 0, 128, 1, 0] : List Byte) 6 = 1 ∧
    ((tReq .ready 0x0F01 ([0, 0, 0, 0, 0, 128, 1, 0])).modTherm fun t => { t with state := 1 }).nvmAllowed = false ∧
    (tStaged .ready 0x0F01 0 (List.replicate 63 0) [7]).lastChunk 0 0x0F01 0 (List.replicate 63 0 ++ [7]) ∧
    (tStaged .ready 0x0F01 0 (List.replicate 63 0) [7]).nvmAllowed = true ∧
    ((tStaged .ready 0x0F01 0 (List.replicate 63 0) [7]).stagingOf 0x0F01 0).isSome = true ∧
    ((tReq .ready 0x0F02 ([1, 0, 0, 0]))).request 0 0x0F02 ([1, 0, 0, 0]) ∧
    ((tReq .ready 0x0F02 ([1, 0, 0, 0]))).bolt.stagedSlot (BitVec.ofNat 32 (u32 ([1, 0, 0, 0] : List Byte) 0)) = none ∧
    (tBolt (tReq .ready 0x0F02 ([0, 0, 0, 0]))).request 0 0x0F02 ([0, 0, 0, 0]) ∧
    (tBolt (tReq .ready 0x0F02 ([0, 0, 0, 0]))).bolt.stagedSlot (BitVec.ofNat 32 (u32 ([0, 0, 0, 0] : List Byte) 0)) ≠ none ∧
    (tBolt (tReq .ready 0x0F02 ([0, 0, 0, 0]))).nvmAllowed = true ∧
    (tBolt ((tReq .ready 0x0F02 ([0, 0, 0, 0])).modTherm fun t => { t with state := 4 })).request 0 0x0F02 ([0, 0, 0, 0]) ∧
    (tBolt ((tReq .ready 0x0F02 ([0, 0, 0, 0])).modTherm fun t => { t with state := 4 })).bolt.stagedSlot (BitVec.ofNat 32 (u32 ([0, 0, 0, 0] : List Byte) 0)) ≠ none ∧
    (tBolt ((tReq .ready 0x0F02 ([0, 0, 0, 0])).modTherm fun t => { t with state := 4 })).nvmAllowed = false ∧
    ((tReq .safe 0x0F03 ([]))).request 0 0x0F03 ([]) ∧
    ((tReq .safe 0x1001 ([]))).request 0 0x1001 ([]) ∧
    ((tReq .safe 0x1002 ([0, 0, 0, 0])).modBox fun b => { b with recs := [(0, [7])] }).request 0 0x1002 ([0, 0, 0, 0]) ∧
    u16 ([0, 0, 0, 0] : List Byte) 0 < 1536 ∧
    ((tReq .safe 0x1002 ([0, 0, 0, 0])).modBox fun b => { b with recs := [(0, [7])] }).box.recs[u16 ([0, 0, 0, 0] : List Byte) 0]? = some (0, [7]) ∧
    (0 : Nat) < 1536 ∧
    ((tReq .safe 0x1002 ([255, 5, 0, 0]))).request 0 0x1002 ([255, 5, 0, 0]) ∧
    u16 ([255, 5, 0, 0] : List Byte) 0 < 1536 ∧
    ((tReq .safe 0x1002 ([255, 5, 0, 0]))).box.recs.length ≤ u16 ([255, 5, 0, 0] : List Byte) 0 ∧
    ((tReq .safe 0x1003 ([0xE5]))).request 0 0x1003 ([0xE5]) ∧
    ((tReq .safe 0x1003 ([0xE5]))).lock.level ≠ 2 ∧
    ((tReq .safe 0x1003 ([0xE5])).modLock fun l => { l with level := 2 }).request 0 0x1003 ([0xE5]) ∧
    ((tReq .safe 0x1003 ([0xE5])).modLock fun l => { l with level := 2 }).lock.level = 2 ∧
    u8 ([0xE5] : List Byte) 0 = 0xE5 ∧
    ((tReq .safe 0x1003 ([0xE5])).modLock fun l => { l with level := 2 }).nvmAllowed = true ∧
    (((tReq .safe 0x1003 ([0xE5])).modTherm fun t => { t with state := 1 }).modLock fun l => { l with level := 2 }).request 0 0x1003 ([0xE5]) ∧
    (((tReq .safe 0x1003 ([0xE5])).modTherm fun t => { t with state := 1 }).modLock fun l => { l with level := 2 }).lock.level = 2 ∧
    u8 ([0xE5] : List Byte) 0 = 0xE5 ∧
    (((tReq .safe 0x1003 ([0xE5])).modTherm fun t => { t with state := 1 }).modLock fun l => { l with level := 2 }).nvmAllowed = false :=
  ⟨tReq_request _ _ _ (by decide) (by decide), by decide, by decide, by decide, by decide, by
   decide, by decide, by decide, by decide, by decide, tReq_request _ _ _ (by decide) (by decide),
   by decide, by decide, by decide, by decide, tStaged_last _ _ _ _ _ (by decide) (by decide) (by
   decide) (by simp), by decide, by decide, tReq_request _ _ _ (by decide) (by decide), by decide,
   tReq_request _ _ _ (by decide) (by decide), by decide, by decide, tReq_request _ _ _ (by decide)
   (by decide), by decide, by decide, tReq_request _ _ _ (by decide) (by decide), tReq_request _ _ _
   (by decide) (by decide), tReq_request _ _ _ (by decide) (by decide), by decide, by decide, by
   decide, tReq_request _ _ _ (by decide) (by decide), by decide, by decide, tReq_request _ _ _ (by
   decide) (by decide), by decide, tReq_request _ _ _ (by decide) (by decide), by decide, by decide,
   by decide, tReq_request _ _ _ (by decide) (by decide), by and_intros <;> decide⟩

theorem witness_BoltAndBoxEvents :
    (tCommit).mbox.pend.find? (·.wait == .boltCommit) = some { slot := 3, op := 0x0F02, payload := [0, 0, 0, 0], wait := .boltCommit, since := 0 } ∧
    (tCommit).bolt.stagedSlot (BitVec.ofNat 32 (u32 [0, 0, 0, 0] 0)) = none ∧
    (tBolt tCommit).bolt.stagedSlot (BitVec.ofNat 32 (u32 [0, 0, 0, 0] 0)) = some true ∧
    (State.reset).mbox.pend.find? (·.wait == .boltCommit) = none ∧
    ((State.reset).box.erasing = false ∨ (State.reset).nvmAllowed = false) ∧
    (State.reset).stagedDue = false ∧
    (State.reset).heatEntryDue = false ∧
    (State.reset).heatCloseDue = false ∧
    (State.reset).box.pageErase = false ∧
    (tStagedRec.modBox fun b => { b with erasing := true, pageErase := true }).posts = true ∧
    (tStagedRec.modBox fun b => { b with erasing := true, pageErase := true }).box.erasing = true ∧
    (tStagedRec.modBox fun b => { b with erasing := true, pageErase := true }).nvmAllowed = true ∧
    (tStagedRec.modBox fun b => { b with erasing := true, pageErase := true }).box.pageErase = true ∧
    (tStagedRec).stagedDue = true ∧
    (tStagedRec).box.staged.tail = [] ∧
    (tStagedRec).box.overflow = some (mkRec State.reset 0x07 0) ∧
    (tStagedRec.modBox fun b => { b with overflow := none }).stagedDue = true ∧
    ((tStagedRec.modBox fun b => { b with overflow := none }).box.staged.tail ≠ [] ∨ (tStagedRec.modBox fun b => { b with overflow := none }).box.overflow = none) ∧
    (tStagedRec.modTherm fun t => { t with heatRise := 8 }).heatEntryDue = true ∧
    (tStagedRec.modTherm fun t => { t with heatRise := 8 }).box.heat = none ∧
    (State.reset.modTherm fun t => { t with heatRise := 8 }).heatEntryDue = true ∧
    (State.reset.modTherm fun t => { t with heatRise := 8 }).nvmAllowed = true ∧
    (State.reset.modTherm fun t => { t with heatRise := 8 }).box.erasing = false ∧
    (State.reset.modTherm fun t => { t with heatRise := 8 }).box.staged = [] ∧
    (((State.reset.modCore fun c => { c with dev := .ready }).modTherm fun t => { t with heatRise := 8 }).modBox fun b => { b with heat := some (none, 0, 0) }).heatEntryDue = true ∧
    (((State.reset.modCore fun c => { c with dev := .ready }).modTherm fun t => { t with heatRise := 8 }).modBox fun b => { b with heat := some (none, 0, 0) }).box.heat ≠ none ∧
    (((State.reset.modCore fun c => { c with dev := .ready }).modTherm fun t => { t with heatRise := 8 }).modBox fun b => { b with heat := some (none, 0, 0) }).heatCloseDue = true ∧
    (((State.reset.modCore fun c => { c with dev := .ready }).modTherm fun t => { t with heatRise := 8 }).modBox fun b => { b with heat := some (none, 0, 0) }).nvmAllowed = true ∧
    (((State.reset.modCore fun c => { c with dev := .ready }).modTherm fun t => { t with heatRise := 8 }).modBox fun b => { b with heat := some (none, 0, 0) }).box.erasing = false :=
  by and_intros <;> decide

theorem witness_TimeCommands :
    ((tReq .ready 0x0D01 ([1, 1] ++ List.replicate 18 0))).request 0 0x0D01 ([1, 1] ++ List.replicate 18 0) ∧
    domOf (u8 ([1, 1] ++ List.replicate 18 0 : List Byte) 0) = .tb ∧
    timeSetFault ([1, 1] ++ List.replicate 18 0 : List Byte) = none ∧
    ((tReq .ready 0x0D01 ([1, 1] ++ List.replicate 18 0))).timeSetPend .tb = none ∧
    u8 ([1, 1] ++ List.replicate 18 0 : List Byte) 1 = 1 ∧
    ((tReq .ready 0x0D01 (List.replicate 20 0))).request 0 0x0D01 (List.replicate 20 0) ∧
    domOf (u8 (List.replicate 20 0 : List Byte) 0) = .ta ∧
    timeSetFault (List.replicate 20 0 : List Byte) = none ∧
    ((tReq .ready 0x0D01 (List.replicate 20 0))).timeSetPend .ta = none ∧
    u8 (List.replicate 20 0 : List Byte) 1 = 0 ∧
    (tSetPend (.boundary 1) (tReq .ready 0x0D01 (List.replicate 20 0))).request 0 0x0D01 (List.replicate 20 0) ∧
    timeSetFault (List.replicate 20 0 : List Byte) = none ∧
    (tSetPend (.boundary 1) (tReq .ready 0x0D01 (List.replicate 20 0))).timeSetPend .ta ≠ none ∧
    ((tReq .run 0x0D02 ([0, 0, 0xFF, 0xBD, 0x24, 0x06, 0x01, 0x00]))).request 0 0x0D02 ([0, 0, 0xFF, 0xBD, 0x24, 0x06, 0x01, 0x00]) ∧
    domOf (u8 ([0, 0, 0xFF, 0xBD, 0x24, 0x06, 0x01, 0x00] : List Byte) 0) = .ta ∧
    timeIncrFault ([0, 0, 0xFF, 0xBD, 0x24, 0x06, 0x01, 0x00] : List Byte) = none ∧
    (((tReq .run 0x0D02 ([0, 0, 0xFF, 0xBD, 0x24, 0x06, 0x01, 0x00]))).dom .ta).reeve = false ∧
    ((tReq .run 0x0D02 ([1, 0, 0xFF, 0xBD, 0x24, 0x06, 0x01, 0x00])).modDom .tb fun x => { x with reeve := true }).request 0 0x0D02 ([1, 0, 0xFF, 0xBD, 0x24, 0x06, 0x01, 0x00]) ∧
    timeIncrFault ([1, 0, 0xFF, 0xBD, 0x24, 0x06, 0x01, 0x00] : List Byte) = none ∧
    (((tReq .run 0x0D02 ([1, 0, 0xFF, 0xBD, 0x24, 0x06, 0x01, 0x00])).modDom .tb fun x => { x with reeve := true }).dom .tb).reeve = true ∧
    ((tReq .safe 0x0D03 ([1, 1]))).request 0 0x0D03 ([1, 1]) ∧
    timeServoFault ([1, 1] : List Byte) = none ∧
    ((tReq .safe 0x0D04 ([0])).modDom .ta fun x => { x with valid := true }).request 0 0x0D04 ([0]) ∧
    u8 ([0] : List Byte) 0 < 2 ∧
    (((tReq .safe 0x0D04 ([0])).modDom .ta fun x => { x with valid := true }).dom .ta).valid = true ∧
    ((tReq .safe 0x0D04 ([1]))).request 0 0x0D04 ([1]) ∧
    u8 ([1] : List Byte) 0 < 2 ∧
    (((tReq .safe 0x0D04 ([1]))).dom .tb).valid = false ∧
    ((tReq .safe 0x0D05 ([1]))).request 0 0x0D05 ([1]) ∧
    (((tReq .safe 0x0D05 ([1]))).dom .tb).stamp = none ∧
    ((tReq .safe 0x0D05 ([0])).modDom .ta fun x => { x with stamp := some { frame := 0, tick := 641, clock := 959, lt := 0, time := 0 } }).request 0 0x0D05 ([0]) ∧
    (((tReq .safe 0x0D05 ([0])).modDom .ta fun x => { x with stamp := some { frame := 0, tick := 641, clock := 959, lt := 0, time := 0 } }).dom .ta).stamp = some { frame := 0, tick := 641, clock := 959, lt := 0, time := 0 } ∧
    ((tReq .run 0x0D06 ([15, 2, 4, 3] ++ List.replicate 20 0 ++ [1, 0, 0, 0]))).request 0 0x0D06 ([15, 2, 4, 3] ++ List.replicate 20 0 ++ [1, 0, 0, 0]) ∧
    timeTriggerFault ([15, 2, 4, 3] ++ List.replicate 20 0 ++ [1, 0, 0, 0] : List Byte) ((tReq .run 0x0D06 ([15, 2, 4, 3] ++ List.replicate 20 0 ++ [1, 0, 0, 0]))) = none ∧
    ((tReq .run 0x0D06 ([0, 0, 0, 0] ++ List.replicate 24 0))).request 0 0x0D06 ([0, 0, 0, 0] ++ List.replicate 24 0) ∧
    timeTriggerFault ([0, 0, 0, 0] ++ List.replicate 24 0 : List Byte) ((tReq .run 0x0D06 ([0, 0, 0, 0] ++ List.replicate 24 0))) = none ∧
    u8 ([0, 0, 0, 0] ++ List.replicate 24 0 : List Byte) 2 = 0 ∧
    ((tReq .safe 0x0D07 ([]))).request 0 0x0D07 ([]) :=
  ⟨tReq_request _ _ _ (by decide) (by decide), by decide, by decide, by decide, by decide,
   tReq_request _ _ _ (by decide) (by decide), by decide, by decide, by decide, by decide,
   tReq_request _ _ _ (by decide) (by decide), by decide, by decide, tReq_request _ _ _ (by decide)
   (by decide), by decide, by decide, by decide, tReq_request _ _ _ (by decide) (by decide), by
   decide, by decide, tReq_request _ _ _ (by decide) (by decide), by decide, tReq_request _ _ _ (by
   decide) (by decide), by decide, by decide, tReq_request _ _ _ (by decide) (by decide), by decide,
   by decide, tReq_request _ _ _ (by decide) (by decide), by decide, tReq_request _ _ _ (by decide)
   (by decide), by decide, tReq_request _ _ _ (by decide) (by decide), by decide, tReq_request _ _ _
   (by decide) (by decide), by decide, by decide, tReq_request _ _ _ (by decide) (by decide)⟩

theorem witness_TimeEvents :
    ((tPorch .run State.reset).modDom .tb fun x => { x with reeve := true, valid := true }).stamps = true ∧
    (((tPorch .run State.reset).modDom .tb fun x => { x with reeve := true, valid := true }).dom .tb).accepts (((tPorch .run State.reset).modDom .tb fun x => { x with reeve := true, valid := true }).core.lt - BitVec.ofNat 64 638) 959 = true ∧
    (((tPorch .run State.reset).modDom .tb fun x => { x with reeve := true, valid := true }).dom .tb).reeve = true ∧
    (((tPorch .run State.reset).modDom .tb fun x => { x with reeve := true, valid := true }).dom .tb).valid = true ∧
    (((tPorch .run State.reset).modDom .ta fun x => { x with hasLast := true }).modCore fun c => { c with lt := 63935 }).stamps = true ∧
    ((((tPorch .run State.reset).modDom .ta fun x => { x with hasLast := true }).modCore fun c => { c with lt := 63935 }).dom .ta).accepts ((((tPorch .run State.reset).modDom .ta fun x => { x with hasLast := true }).modCore fun c => { c with lt := 63935 }).core.lt - BitVec.ofNat 64 0) 959 = false ∧
    ((((tPorch .run State.reset).modDom .ta fun x => { x with hasLast := true }).modCore fun c => { c with lt := 63935 }).dom .ta).reeve = false ∧
    (((tPorch .run State.reset).modDom .ta fun x => { x with hasLast := true }).modCore fun c => { c with lt := 63935 }).ppsAbsentDue .ta = false ∧
    ((((tPorch .run State.reset).modDom .ta fun x => { x with hasLast := true }).modCore fun c => { c with lt := 63936 }).dom .ta).accepts ((((tPorch .run State.reset).modDom .ta fun x => { x with hasLast := true }).modCore fun c => { c with lt := 63936 }).core.lt - BitVec.ofNat 64 0) 0 = true ∧
    (((tPorch .run State.reset).modDom .ta fun x => { x with hasLast := true, present := true }).modCore fun c => { c with lt := 128000 }).ppsAbsentDue .ta = true ∧
    (State.reset).stamps = false ∧
    (State.reset).timeSetPend .ta = none ∧
    (State.reset).time.slewDone = false ∧
    (State.reset).time.triggers[(15 : Fin 16)] = none ∧
    ((tSetPend (.boundary 1) (tPorch .ready State.reset)).modFrame fun f => { f with boundary := true }).reeveActive = true ∧
    (((tSetPend (.boundary 1) (tPorch .ready State.reset)).modFrame fun f => { f with boundary := true }).timeSetPend .ta).map (·.wait) = some (.boundary 1) ∧
    (((tSetPend (.boundary 1) (tPorch .ready State.reset)).modFrame fun f => { f with boundary := true }).timeSetPend .ta).any (fun x => ((tSetPend (.boundary 1) (tPorch .ready State.reset)).modFrame fun f => { f with boundary := true }).timeSetDue x) = true ∧
    ((tSetPend (.boundary 1) State.reset).timeSetPend .ta).any (fun x => (tSetPend (.boundary 1) State.reset).timeSetDue x) = false ∧
    (((tSetPend (.timeEdge .ta) (tPorch .ready State.reset)).modDom .ta fun x => { x with setEdge := some (0, 959) }).modCore fun c => { c with lt := 2 }).reeveActive = true ∧
    ((((tSetPend (.timeEdge .ta) (tPorch .ready State.reset)).modDom .ta fun x => { x with setEdge := some (0, 959) }).modCore fun c => { c with lt := 2 }).timeSetPend .ta).map (·.wait) = some (.timeEdge .ta) ∧
    ((((tSetPend (.timeEdge .ta) (tPorch .ready State.reset)).modDom .ta fun x => { x with setEdge := some (0, 959) }).modCore fun c => { c with lt := 2 }).dom .ta).setEdge = some (0, 959) ∧
    (((tSetPend (.timeEdge .ta) (tPorch .ready State.reset)).modDom .ta fun x => { x with setEdge := some (0, 959) }).modCore fun c => { c with lt := 2 }).since 0 = 2 ∧
    (((tSetPend (.timeEdge .ta) State.reset).modCore fun c => { c with lt := 128000 }).timeSetPend .ta).map (·.wait) = some (.timeEdge .ta) ∧
    (((tSetPend (.timeEdge .ta) State.reset).modCore fun c => { c with lt := 128000 }).dom .ta).setEdge = none ∧
    128000 ≤ ((tSetPend (.timeEdge .ta) State.reset).modCore fun c => { c with lt := 128000 }).since 0 ∧
    ((tSetPend (.timeEdge .ta) State.reset).modCore fun c => { c with lt := 127999 }).since 0 < 128000 ∧
    (State.reset.modTime fun t => { t with slewDone := true }).time.slewDone = true ∧
    (tTrigger 4 false true (tPorch .run State.reset)).time.triggers[(15 : Fin 16)] = some (tTrig 4 false true) ∧
    (tTrigger 4 false true (tPorch .run State.reset)).triggersRun = true ∧
    (tTrigger 4 false true (tPorch .run State.reset)).trigReached (tTrig 4 false true) = true ∧
    (tTrigger 4 false true (tPorch .run State.reset)).measuring = true ∧
    (tTrig 4 false true).repeats = true ∧
    ((tTrigger 1 false false (tPorch .run tCold)).modCore fun c => { c with refOn := true, lt := 1600 }).time.triggers[(15 : Fin 16)] = some (tTrig 1 false false) ∧
    ((tTrigger 1 false false (tPorch .run tCold)).modCore fun c => { c with refOn := true, lt := 1600 }).seq.running = false ∧
    ((tTrigger 1 false false (tPorch .run tCold)).modCore fun c => { c with refOn := true, lt := 1600 }).refWarm = true ∧
    ((tTrigger 1 false false (tPorch .run tCold)).modCore fun c => { c with refOn := true, lt := 1600 }).convHeld = false ∧
    ((tTrigger 1 false false (tPorch .run tCold)).modCore fun c => { c with refOn := true, lt := 1600 }).measuring = true ∧
    ((tTrigger 2 true false (tPorch .run State.reset)).modCore fun c => { c with doze := true }).core.doze = true ∧
    (tTrig 2 true false).wake = true ∧
    ((tTrigger 2 true false (tPorch .run State.reset)).modCore fun c => { c with doze := true }).measuring = false ∧
    ((tTrigger 2 true false (tPorch .run State.reset)).modCore fun c => { c with doze := true }).trigReached (tTrig 2 true false) = true ∧
    ((tTrigger 3 false false (tPorch .ready State.reset)).modFrame fun f => { f with started := false }).trigReached (tTrig 3 false false) = false :=
  by and_intros <;> decide

theorem witness_LockCommandsAndEvents :
    ((tReq .ready 0x1101 (List.replicate 8 0)).modTherm fun t => { t with state := 1 }).request 0 0x1101 (List.replicate 8 0) ∧
    ((tReq .ready 0x1101 (List.replicate 8 0)).modTherm fun t => { t with state := 1 }).mbox.slots[(0 : SlotId)].early = false ∧
    ((tReq .ready 0x1101 (List.replicate 8 0)).modTherm fun t => { t with state := 1 }).nvmAllowed = false ∧
    ((tReq .ready 0x1103 (List.replicate 16 0)).modTherm fun t => { t with state := 1 }).request 0 0x1103 (List.replicate 16 0) ∧
    ((tReq .ready 0x1103 (List.replicate 16 0)).modTherm fun t => { t with state := 1 }).nvmAllowed = false ∧
    ((tReq .ready 0x1101 (password)).modLock fun l => { l with lockout := some (600, 0) }).request 0 0x1101 (password) ∧
    ((tReq .ready 0x1101 (password)).modLock fun l => { l with lockout := some (600, 0) }).nvmAllowed = true ∧
    ((tReq .ready 0x1101 (password)).modLock fun l => { l with lockout := some (600, 0) }).lock.lockout ≠ none ∧
    ((tReq .ready 0x1103 (List.replicate 16 0)).modLock fun l => { l with lockout := some (600, 0) }).request 0 0x1103 (List.replicate 16 0) ∧
    ((tReq .ready 0x1103 (List.replicate 16 0)).modLock fun l => { l with lockout := some (600, 0) }).nvmAllowed = true ∧
    ((tReq .ready 0x1103 (List.replicate 16 0)).modLock fun l => { l with lockout := some (600, 0) }).lock.lockout ≠ none ∧
    ((tReq .ready 0x1101 (password))).request 0 0x1101 (password) ∧
    ((tReq .ready 0x1101 (password))).mbox.slots[(0 : SlotId)].early = false ∧
    ((tReq .ready 0x1101 (password))).nvmAllowed = true ∧
    ((tReq .ready 0x1101 (password))).lock.lockout = none ∧
    ((tReq .ready 0x1101 (password)).modSlot 0 fun x => { x with early := true }).request 0 0x1101 (password) ∧
    ((tReq .ready 0x1101 (password)).modSlot 0 fun x => { x with early := true }).mbox.slots[(0 : SlotId)].early = true ∧
    (((tReq .ready 0x1103 (List.replicate 16 0)).modLock fun l => { l with fails := 255 }).modSlot 0 fun x => { x with early := true }).request 0 0x1103 (List.replicate 16 0) ∧
    (((tReq .ready 0x1103 (List.replicate 16 0)).modLock fun l => { l with fails := 255 }).modSlot 0 fun x => { x with early := true }).mbox.slots[(0 : SlotId)].early = true ∧
    (((tReq .ready 0x1103 (List.replicate 16 0)).modLock fun l => { l with fails := 255 }).modSlot 0 fun x => { x with early := true }).responseOk (List.replicate 16 0 : List Byte) = false ∧
    ((tReq .ready 0x1101 (password.map (· ^^^ 1))).modLock fun l => { l with fails := 3 }).request 0 0x1101 (password.map (· ^^^ 1)) ∧
    (password.map (· ^^^ 1) : List Byte) ≠ password ∧
    ((tReq .ready 0x1101 (password.map (· ^^^ 1))).modLock fun l => { l with fails := 3 }).lock.lockout = none ∧
    (State.reset).lockoutEndDue = false ∧
    (State.reset).lock.nonce = none ∧
    ((tReq .ready 0x1103 (List.replicate 16 0))).request 0 0x1103 (List.replicate 16 0) ∧
    ((tReq .ready 0x1103 (List.replicate 16 0))).responseOk (List.replicate 16 0 : List Byte) = false ∧
    ((tReq .ready 0x1103 (List.replicate 16 0))).nvmAllowed = true ∧
    ((tReq .ready 0x1103 (List.replicate 16 0))).lock.lockout = none ∧
    ((tReq .safe 0x1102 ([]))).request 0 0x1102 ([]) ∧
    ((tReq .safe 0x1104 ([]))).request 0 0x1104 ([]) ∧
    ((tReq .safe 0x1104 ([]))).lock.sealed = true ∧
    ((tReq .safe 0x1104 ([]))).lock.level = 0 ∧
    ((tReq .safe 0x1104 ([])).modLock fun l => { l with sealed := false, level := 2 }).request 0 0x1104 ([]) ∧
    ((tReq .safe 0x1104 ([])).modLock fun l => { l with sealed := false, level := 2 }).lock.sealed = false ∧
    ((tReq .safe 0x1104 ([])).modLock fun l => { l with sealed := false, level := 2 }).nvmAllowed = true ∧
    (((tReq .safe 0x1104 ([])).modTherm fun t => { t with state := 1 }).modLock fun l => { l with level := 1 }).request 0 0x1104 ([]) ∧
    (((tReq .safe 0x1104 ([])).modTherm fun t => { t with state := 1 }).modLock fun l => { l with level := 1 }).lock.level ≠ 0 ∧
    (((tReq .safe 0x1104 ([])).modTherm fun t => { t with state := 1 }).modLock fun l => { l with level := 1 }).nvmAllowed = false ∧
    ((State.reset.modLock fun l => { l with lockout := some (600, 0) }).modCore fun c => { c with lt := 38400000 }).lockoutEndDue = true ∧
    ((State.reset.modLock fun l => { l with nonce := some ([], 0) }).modCore fun c => { c with lt := 3840000 }).lock.nonce = some ([], 0) ∧
    3840000 ≤ ((State.reset.modLock fun l => { l with nonce := some ([], 0) }).modCore fun c => { c with lt := 3840000 }).since 0 ∧
    ((State.reset.modLock fun l => { l with nonce := some ([], 0) }).modCore fun c => { c with lt := 3839999 }).since 0 < 3840000 :=
  ⟨tReq_request _ _ _ (by decide) (by decide), by decide, by decide, tReq_request _ _ _ (by decide)
   (by decide), by decide, tReq_request _ _ _ (by decide) (by decide), by decide, by decide,
   tReq_request _ _ _ (by decide) (by decide), by decide, by decide, tReq_request _ _ _ (by decide)
   (by decide), by decide, by decide, by decide, request_early (tReq_request _ _ _ (by decide) (by
   decide)), by decide, request_early (tReq_request _ _ _ (by decide) (by decide)), by decide, by
   decide, tReq_request _ _ _ (by decide) (by decide), tWrong, by decide, by decide, by decide,
   tReq_request _ _ _ (by decide) (by decide), by decide, by decide, by decide, tReq_request _ _ _
   (by decide) (by decide), tReq_request _ _ _ (by decide) (by decide), by decide, by decide,
   tReq_request _ _ _ (by decide) (by decide), by decide, by decide, tReq_request _ _ _ (by decide)
   (by decide), by and_intros <;> decide⟩

/-- The right response to a nonce that is still valid: the other part of LockCommandsAndEvents. -/
theorem witness_LockCommandsAndEvents_response : ∀ nonce : List Byte,
    (tReq .ready 0x1103 (expectedResponse nonce)).request 0 0x1103 (expectedResponse nonce) ∧
    ((tReq .ready 0x1103 (expectedResponse nonce)).modLock fun l => { l with nonce := some (nonce, 0) }).responseOk
      (expectedResponse nonce) = true :=
  fun nonce => ⟨tReq_request _ _ _ (by decide) (by simp [expectedResponse]), tAnswer nonce⟩

theorem witness_TickEventsInOrder :
    (State.reset).faults.src[(54 : Source)].inForce = .grave ∧
    (State.reset).faults.src[(6 : Source)].inForce ≠ .grave ∧
    (tConv).laneOfInput 15 1 = some 0 ∧
    (tConv).convEntry (tCv 2 89) = some { cls := .port, port := 15, sig := 1, lane := some 0 } ∧
    (0x0C : Byte).getLsbD (2 : SlotId).val = true ∧
    (∀ m : SlotId, m < 2 → (0x0C : Byte).getLsbD m.val = false) :=
  by and_intros <;> decide

/-! ## Ill-formed commands, one for each check of WellFormed -/

theorem test_tick_well_formed : (Instr.tick tTick).wellFormed = true := by decide

theorem test_tick_refuses_temperature :
    (Instr.tick { tTick with temps := Vector.replicate 9 (some 32768) }).wellFormed = false ∧
    (Instr.tick { tTick with temps := Vector.replicate 9 (some (-32769)) }).wellFormed = false := by decide

theorem test_tick_refuses_absent_detector :
    (Instr.tick { tTick with detect := 1 <<< 55 }).wellFormed = false := by decide

theorem test_tick_refuses_two_measurements :
    (Instr.tick { tTick with heaters := List.replicate 2 { port := 3, vhsUv := 0, ihtNa := 0 } }).wellFormed =
      false := by decide

/-- spec/05, R111: at most 40 mA, 3.6 V and 60 mW. -/
theorem test_tick_refuses_overdrive :
    (Instr.tick { tTick with heaters := [{ port := 3, vhsUv := 1500000, ihtNa := 40000000 }] }).wellFormed = true ∧
    (Instr.tick { tTick with heaters := [{ port := 3, vhsUv := 1500001, ihtNa := 40000000 }] }).wellFormed = false ∧
    (Instr.tick { tTick with heaters := [{ port := 3, vhsUv := 0, ihtNa := 40000001 }] }).wellFormed = false ∧
    (Instr.tick { tTick with heaters := [{ port := 3, vhsUv := 3600001, ihtNa := 0 }] }).wellFormed = false := by decide

theorem test_brownout_refuses_above : (Instr.brownout 789).wellFormed = true ∧ (Instr.brownout 790).wellFormed = false := by
  decide

/-- R331: the clock stops in the first byte of a read, and the Rexia holds SDA. -/
theorem test_read_hangs_in_first_byte :
    (match exec (.stateRead ⟨some 0, 0⟩) (tPorch .ready State.reset) with
      | .next s => match exec .sdaTimeout s with
        | .next t => some (s.bus.rdata, s.bus.inTrans, t.bus.toutSda, t.bus.inTrans)
        | _ => none
      | _ => none) = some ([], true, true, false) := by decide

theorem test_ppsEdge_refuses_far : (Instr.ppsEdge .ta 639 0).wellFormed = false := by decide

theorem test_chunkStagingTimeout_refuses_sel : (Instr.chunkStagingTimeout 0x0701 1).wellFormed = false := by decide

/-! ## Worked examples of the spec -/

/-- spec/14, steps 1 and 2: the primary entry and its extension, as the host drains them. -/
theorem test_sample_entry_bytes :
    let s := (State.reset.modFrame fun f => { f with number := 12, tick := 610 }).modRings fun r => { r with sseq := 0x17 }
    toLE 8 (sampleEntry s 0xFCCCCD 4 0x84).toNat = [0xCD, 0xCC, 0xFC, 0x04, 0x84, 0x62, 0x32, 0x17] ∧
    toLE 8 (sampleEntry (s.modRings fun r => { r with sseq := 0x18 }) 0x001004 0xFE 0).toNat =
      [0x04, 0x10, 0x00, 0xFE, 0x00, 0x62, 0x32, 0x18] := by decide

/-- spec/14, step 4: the gap marker of 300 dropped entries. -/
theorem test_sample_gap_marker :
    let s := (State.reset.modFrame fun f => { f with number := 905, tick := 7 }).modRings fun r => { r with sseq := 0x6D }
    toLE 8 (sampleEntry s 300 0xFF 0).toNat = [0x2C, 0x01, 0x00, 0xFF, 0x00, 0x07, 0x24, 0x6D] := by decide

/-- spec/14, step 1: the flag word 0x1004 of SETTLING and RANGED. -/
theorem test_flags_byte : flagUnion [Flag.settling, Flag.ranged] = 0x1004 ∧ flagsByte 0x1004 = 0x84 := by decide

/-- spec/02, steps 1 and 2: the polder of ticks 416 to 623 with margins 2 and 1, and its windows. -/
theorem test_polder : trimRun 2 1 false false (416, 623) = some (418, 622) := by decide

theorem test_windows_of_polder : packPolders 64 16 [(418, 622)] =
    [{ start := 418, len := 64 }, { start := 482, len := 64 }, { start := 546, len := 64 }] := by decide

/-- The record of spec/10's example. -/
def tLevee : Levee :=
  { rec_ := [0x02, 0x00, 0x00, 0x03, 0x0C, 0xFE, 0xFF, 0xFF, 0xA0, 0x0F, 0x00, 0x00, 0xC8, 0x00, 0x00, 0x00,
             0x03, 0x10, 0x00, 0x00] }

theorem test_levee_record : leveeRecFault tLevee.rec_ = none ∧ tLevee.low = -500 ∧ tLevee.high = 4000 ∧
    tLevee.berm = 200 ∧ tLevee.dwell = 3 ∧ tLevee.action = 3 := by decide

/-- spec/10, step 1: the third value above HIGH decides the overtop, the second does not. -/
theorem test_levee_dwell : ((tLevee.take 0 4167 0).take 0 4210 0).evOut = false ∧
    (((tLevee.take 0 4167 0).take 0 4210 0).take 0 4050 0).evOut = true := by decide

/-- spec/10, step 4: 3900 lies within the berm, so the in-count stays at 0. -/
theorem test_levee_berm : (({ tLevee with evOut := true } : Levee).take 0 3900 0).inCount = 0 ∧
    (({ tLevee with evOut := true } : Levee).take 0 3750 0).inCount = 1 := by decide

/-- spec/21, step 2: the response to the fourth wrong password. -/
theorem test_lock_fourth_failure :
    lockedResponse false (State.reset.modLock fun l => { l with fails := 4, lockout := some (lockoutLength 4, 0) }) =
      [0x04, 0x00, 0x58, 0x02, 0x00, 0x00] := by decide

/-- spec/21, step 3: the refusal with 412 s of the lockout remaining. -/
theorem test_lock_refusal :
    lockedResponse true ((State.reset.modLock fun l => { l with fails := 4, lockout := some (600, 0) }).modCore
      fun c => { c with lt := 188 * 64000 }) = [0x04, 0x01, 0x9C, 0x01, 0x00, 0x00] := by decide

/-- spec/21, step 4: the lockout of the fifth failure lasts 1200 s. -/
theorem test_lockout_length : lockoutLength 5 = 1200 ∧ lockoutLength 14 = 614400 ∧ lockoutLength 15 = 614400 := by decide

/-- spec/18, steps 4 and 5: O falls by 219902 a tick, and the last 1042 units go in one. -/
theorem test_slew : slewStep nominalInc 703687442 = 703687442 - 219902 ∧ slewStep nominalInc 1042 = 0 ∧
    (703687442 : Int).tdiv 256 = 2748779 := by decide

/-- spec/08: output period and span of W15, and how many outputs settle. -/
theorem test_w15 : (weave 15).dt = 256 ∧ (weave 15).span = 8316 ∧ (weave 15).settle = 32 ∧ (weave 15).load 1 = 256 := by
  decide

/-- spec/04, steps 1 and 6: -3.2 nA on 16 nA and on 128 nA. -/
theorem test_current_code : currentCode 2 (-32 / 10000000000) = -1677722 ∧
    currentCode 3 (-32 / 10000000000) = -209715 := by decide +kernel

/-- spec/03, Tables 3-1 and 3-4: P0 in EC4 stopped and running, its ring copied to P0_F. -/
theorem test_pads :
    let s := tPort 0 .ec4 .stopped (tPorch .run State.reset)
    let r := (tPort 0 .ec4 .running (tPorch .run State.reset)).modCore fun c => { c with powered := true }
    s.pad 0 .a = .highZ ∧ s.innerRing 0 .a = .zeroNode ∧ s.joined 0 = [(.a, .c), (.b, .c)] ∧ r.pad 0 .a = .acts .we1 ∧
    r.innerRing 0 .d = .follows .d ∧ r.pad 0 .e = .ring (.follows [.a]) ∧ r.pad 0 .f = .ring .highZ ∧
    (r.modPort 0 fun q => { q with ring := 2 }).pad 0 .f = .ring (.follows [.a]) ∧
    (Mode.role true .aux .b, Mode.role false .aux .b) = (.sourceReturn, .unused) := by decide

/-- spec/20, Table 20-1: each region begins where the one before it ends, and the last ends at 512 KiB. -/
theorem test_nvm_map :
    let l : List NvmRegion := [.boltA, .boltB, .blackBox, .factory, .coefficients, .patches, .device, .reserved]
    (l.zip l.tail).all (fun x => x.1.offset + x.1.size == x.2.offset) = true ∧
    NvmRegion.reserved.offset + NvmRegion.reserved.size = 512 * 1024 ∧ boxPositions = 1536 := by decide

/-- spec/02, Table 2-2: a levee's event before the frame boundary, both before a doorbell and a read. -/
theorem test_order : State.reset.inOrder [.stateRead ⟨none, 1⟩, .dbellWrite 1, .frameBoundary, .leveeSettle 3, .leveeOvertop 2] =
    [.leveeOvertop 2, .leveeSettle 3, .frameBoundary, .dbellWrite 1, .stateRead ⟨none, 1⟩] := by decide

/-- The check values of CRC-32 (ISO-HDLC) and CRC-16 (IBM-3740) over "123456789", from the published
catalogue of CRC parameters. -/
theorem test_crc32 : crc32 [0x31, 0x32, 0x33, 0x34, 0x35, 0x36, 0x37, 0x38, 0x39] = 0xCBF43926 := by decide +kernel
theorem test_crc16 : crc16 [0x31, 0x32, 0x33, 0x34, 0x35, 0x36, 0x37, 0x38, 0x39] = 0x29B1 := by decide +kernel

/-- FIPS 180-4's example: SHA-256 of "abc". -/
theorem test_sha256 : (sha256 [0x61, 0x62, 0x63]).take 8 = [0xBA, 0x78, 0x16, 0xBF, 0x8F, 0x01, 0xCF, 0xEA] := by
  decide +kernel

end Sys2Proof.Machine
end

section
/-!
The full rings (spec/14, R301 and R305): what a notice and an output come to where the ring has no room
for them and, for an output, where it has; with the obligations these lemmas settle.
-/

namespace Sys2Proof.Machine

/-! ## Saturating counters -/

theorem satAdd_toNat {w : Nat} (c : BitVec w) (k : Nat) :
    (satAdd c k).toNat = min (c.toNat + k) (2 ^ w - 1) := by
  have hpos : 0 < 2 ^ w := Nat.two_pow_pos w
  rw [satAdd, BitVec.toNat_ofNat, Nat.mod_eq_of_lt (by omega)]

theorem satAdd_allOnes {w : Nat} (k : Nat) : satAdd (BitVec.allOnes w) k = BitVec.allOnes w := by
  apply BitVec.eq_of_toNat_eq
  rw [satAdd_toNat, BitVec.toNat_allOnes]
  omega

theorem satAdd_one_of_ne_allOnes {w : Nat} {c : BitVec w} (h : c ≠ BitVec.allOnes w) :
    satAdd c 1 = c + 1 := by
  have hlt : c.toNat < 2 ^ w := c.isLt
  have hmax : c.toNat ≠ 2 ^ w - 1 := fun e => h (BitVec.eq_of_toNat_eq (e.trans BitVec.toNat_allOnes.symm))
  rw [satAdd, Nat.min_eq_left (by omega), BitVec.ofNat_add, BitVec.ofNat_toNat, BitVec.setWidth_eq]
  rfl

/-! ## Notices -/

theorem notice_of_past_boot {code : W16} {k : Kind} {args : W64} {s : State}
    (hoff : s.core.dev ≠ .off) (hboot : s.core.dev ≠ .boot) :
    notice code k args s = emitNotice code k args s := by
  unfold notice
  split
  · contradiction
  · contradiction
  · rfl

/-- Alarm and fault notices have one answer to a full ring (R305). -/
theorem emitNotice_full {code : W16} {k : Kind} {args : W64} {s : State} (hk : k ≠ .ordinary)
    (hfull : 512 ≤ s.rings.notice.length) :
    emitNotice code k args s = s.modRings Rings.dropAlarm := by
  have hroom : ¬ s.rings.notice.length < 512 := Nat.not_lt.mpr hfull
  cases k with
  | ordinary => contradiction
  | alarm => exact if_neg hroom
  | fault => exact if_neg hroom

theorem Rings.dropAlarm_nalost (r : Rings) :
    r.dropAlarm.nalost = if r.nalost = 0xFFFF then 0xFFFF else r.nalost + 1 := by
  change satAdd r.nalost 1 = _
  split
  next h => rw [h]; exact satAdd_allOnes 1
  next h => exact satAdd_one_of_ne_allOnes h

/-- Settles O30: the notice is dropped by `Rings.dropAlarm`, which touches the count and the sequence number. -/
theorem fullNoticeRing : Obligations.FullNoticeRing := by
  intro s code k args hk hfull hoff hboot
  rw [notice_of_past_boot hoff hboot, emitNotice_full hk hfull.ge]
  exact ⟨rfl, s.rings.dropAlarm_nalost, rfl, rfl, rfl⟩

/-! ## Outputs -/

theorem sampleGap_of_no_gap {s : State} (hgap : s.rings.sgap = none) : sampleGap s = s := by
  unfold sampleGap
  rw [hgap]

theorem pushSample_sdrop {value : W24} {tag flags : Byte} {s : State} :
    (pushSample value tag flags s).rings.sdrop = s.rings.sdrop := by
  unfold pushSample
  dsimp only
  split
  · rw [attn_rings]
    rfl
  · rfl

theorem Rings.dropSample_sgap_of_no_gap {r : Rings} (n : Nat) (hgap : r.sgap = none) :
    (r.dropSample n).sgap = some n := by
  simp [Rings.dropSample, hgap]

section

variable {tag : Byte} {o : Out} {s : State} (hopen : s.ringOpen = true) (hgap : s.rings.sgap = none)
include hopen hgap

/-- With the ring open and no gap pending, the room for the output's entries decides (R301). -/
theorem emitSample_of_no_gap :
    emitSample tag o s =
      if s.rings.sample.length + (if needsExt o.flags then 2 else 1) ≤ 8192 then
        if needsExt o.flags then
          pushSample (o.flags.setWidth 24) 0xFE 0 (pushSample o.value tag (flagsByte o.flags) s)
        else pushSample o.value tag (flagsByte o.flags) s
      else s.modRings (Rings.dropSample (if needsExt o.flags then 2 else 1)) := by
  simp [emitSample, hopen, sampleGap_of_no_gap hgap, hgap]

theorem emitSample_overflow
    (hfull : s.rings.sample.length + (if needsExt o.flags then 2 else 1) > 8192) :
    emitSample tag o s = s.modRings (Rings.dropSample (if needsExt o.flags then 2 else 1)) := by
  rw [emitSample_of_no_gap hopen hgap, if_neg hfull.not_ge]

theorem emitSample_fits_length
    (hroom : s.rings.sample.length + (if needsExt o.flags then 2 else 1) ≤ 8192) :
    (emitSample tag o s).rings.sample.length =
      s.rings.sample.length + (if needsExt o.flags then 2 else 1) := by
  rw [emitSample_of_no_gap hopen hgap, if_pos hroom]
  split
  · rw [pushSample_length, pushSample_length]
  · rw [pushSample_length]

theorem emitSample_fits_sdrop
    (hroom : s.rings.sample.length + (if needsExt o.flags then 2 else 1) ≤ 8192) :
    (emitSample tag o s).rings.sdrop = s.rings.sdrop := by
  rw [emitSample_of_no_gap hopen hgap, if_pos hroom]
  split
  · rw [pushSample_sdrop, pushSample_sdrop]
  · rw [pushSample_sdrop]

end

/-- Settles O31, by the two cases of `emitSample_of_no_gap`. -/
theorem fullSampleRing : Obligations.FullSampleRing := by
  intro s tag o hopen hgap
  constructor
  · intro hfull
    rw [emitSample_overflow hopen hgap hfull]
    exact ⟨rfl, satAdd_toNat .., Rings.dropSample_sgap_of_no_gap _ hgap⟩
  · intro hroom
    exact ⟨emitSample_calm.samples, emitSample_fits_length hopen hgap hroom,
      emitSample_fits_sdrop hopen hgap hroom⟩

end Sys2Proof.Machine
end

section
-- One declaration after another: the whole text is compiled as one file, within a limit on memory.
set_option Elab.async false
/-!
What every command keeps (spec/01, R9, R299, R303): no command ends in a fault, the queue behind it stays, the buffers
stay within their capacities, LT moves with the tick and with power alone, and the lock belongs to the lock family. Each
is read off one case split over the commands, `exec_calm`, and the 25 commands that it leaves out.
-/

namespace Sys2Proof.Machine

/-! ## A step and its command -/

theorem step_cons (c : Instr) (s : State) : step { s with pending := c :: s.pending } = exec c s := rfl

theorem step_of_pending_nil {s : State} (h : s.pending = []) : step s = .next s := by
  unfold step
  rw [h]

theorem step_of_pending_cons {s : State} {c : Instr} {rest : List Instr} (h : s.pending = c :: rest) :
    step s = exec c { s with pending := rest } := by
  unfold step
  rw [h]

/-- Settles O1: a step takes the front of the queue. -/
theorem stepRunsFront : Obligations.StepRunsFront :=
  ⟨step_cons, fun _ => step_of_pending_nil⟩

/-- Each arm of `exec` answers a next state. -/
theorem exec_completes (c : Instr) (s : State) : ∃ t, exec c s = .next t := by
  cases c <;> exact ⟨_, rfl⟩

/-! ## Calm but for the lock -/

/-- From r to t the queue, LT and what the rings hold stay, as the capacities do; the lock may change. -/
structure CalmButLock (r t : State) : Prop extends Keeps r t where
  lt : t.core.lt = r.core.lt
  samples : r.rings.sample <+: t.rings.sample
  notices : r.rings.notice <+: t.rings.notice

theorem Calm.butLock {r t : State} (h : Calm r t) : CalmButLock r t := ⟨h.keeps, h.lt, h.samples, h.notices⟩

theorem CalmButLock.trans {r s t : State} (h : CalmButLock r s) (k : CalmButLock s t) : CalmButLock r t :=
  ⟨h.toKeeps.trans k.toKeeps, k.lt.trans h.lt, h.samples.trans k.samples, h.notices.trans k.notices⟩

theorem CalmButLock.calm {r s t : State} (h : CalmButLock r s) (k : Calm s t) : CalmButLock r t := h.trans k.butLock

theorem modLock_calmButLock (f : Lock → Lock) (s : State) : CalmButLock s (s.modLock f) :=
  ⟨modLock_keeps f s, rfl, List.prefix_rfl, List.prefix_rfl⟩

theorem beginAttempt_calmButLock {n : SlotId} {s : State} : CalmButLock s (beginAttempt n s) := by
  unfold beginAttempt
  dsimp only
  split
  · exact (modLock_calmButLock _ _).calm (modSlot_calm ..)
  · exact (Calm.refl s).butLock

theorem attemptFailed_calmButLock {n : SlotId} {event : Nat} {s : State} :
    CalmButLock s (attemptFailed n event s) := by
  unfold attemptFailed
  dsimp only
  split
  · exact (modLock_calmButLock _ _).calm
      (((lockRecord_calm.trans notice_calm).trans notice_calm).trans post_calm)
  · exact ((lockRecord_calm.trans notice_calm).trans post_calm).butLock

theorem attemptWon_calmButLock {n : SlotId} {event : Nat} {level : Fin 3} {s : State} :
    CalmButLock s (attemptWon n event level s) := by
  unfold attemptWon
  dsimp only
  split
  · exact (modLock_calmButLock _ _).calm ((lockRecord_calm.trans notice_calm).trans postStatus_calm)
  · exact (modLock_calmButLock _ _).calm (lockRecord_calm.trans postStatus_calm)

theorem judgeAttempt_calmButLock {n : SlotId} {event : Nat} {level : Fin 3} {ok : Bool} {use : State → State}
    {s : State} (h_use : ∀ s, CalmButLock s (use s)) : CalmButLock s (judgeAttempt n event level ok use s) := by
  unfold judgeAttempt
  split
  · exact (h_use s).trans attemptWon_calmButLock
  · exact (h_use s).trans attemptFailed_calmButLock

theorem lockAttempt_calmButLock {n : SlotId} {event : Nat} {level : Fin 3} {ok : Bool} {use : State → State}
    {s : State} (h_use : ∀ s, CalmButLock s (use s)) : CalmButLock s (lockAttempt n event level ok use s) := by
  unfold lockAttempt
  extract_lets t
  have h_begun : CalmButLock s t := by
    unfold t
    split
    · exact (Calm.refl s).butLock
    · exact beginAttempt_calmButLock
  clear_value t
  split
  · exact h_begun.trans (judgeAttempt_calmButLock h_use)
  · split
    · exact postStatus_calm.butLock
    · exact (lockRecord_calm.trans post_calm).butLock

theorem sealLock_calmButLock {s : State} : CalmButLock s (sealLock s) := by
  unfold sealLock
  exact (modLock_calmButLock _ _).calm ((sealReleases_calm.trans lockRecord_calm).trans notice_calm)

theorem onSlot_calmButLock {n : SlotId} {op : Nat} {f : List Byte → State → State} {s : State}
    (h_f : ∀ p s, CalmButLock s (f p s)) : CalmButLock s (onSlot n op f s) := by
  unfold onSlot
  split
  · exact h_f _ s
  · exact (Calm.refl s).butLock

/-- The commands of the lock and the dispatch, which counts an attempt. -/
def lockCommand : Instr → Bool
  | .lockPassword _ | .lockChallenge _ | .lockResponse _ | .lockSeal _ | .nonceExpiry | .lockoutEnd
  | .commandDispatch => true
  | _ => false

theorem execCommandDispatch_calmButLock {s t : State} (h : execCommandDispatch s = .next t) : CalmButLock s t := by
  unfold execCommandDispatch at h
  cases h
  split
  · split
    · exact ((modMbox_calm ..).trans dispatchSlot_calm).butLock.trans beginAttempt_calmButLock
    · exact (Calm.refl s).butLock
  · exact (Calm.refl s).butLock

theorem execNonceExpiry_calmButLock {s t : State} (h : execNonceExpiry s = .next t) : CalmButLock s t := by
  unfold execNonceExpiry at h
  cases h
  split
  · split
    · exact modLock_calmButLock _ s
    · exact (Calm.refl s).butLock
  · exact (Calm.refl s).butLock

theorem execLockoutEnd_calmButLock {s t : State} (h : execLockoutEnd s = .next t) : CalmButLock s t := by
  unfold execLockoutEnd at h
  cases h
  split
  · exact modLock_calmButLock _ s
  · exact (Calm.refl s).butLock

theorem execLockSeal_calmButLock {n : SlotId} {s t : State} (h : execLockSeal n s = .next t) : CalmButLock s t := by
  unfold execLockSeal at h
  cases h
  refine onSlot_calmButLock fun _ s => ?_
  split
  · exact postStatus_calm.butLock
  · split
    · exact postStatus_calm.butLock
    · exact sealLock_calmButLock.calm postStatus_calm

theorem lockCommand_cases {c : Instr} (h : lockCommand c = true) :
    (∃ n, c = .lockPassword n) ∨ (∃ n, c = .lockChallenge n) ∨ (∃ n, c = .lockResponse n) ∨ (∃ n, c = .lockSeal n) ∨
      c = .nonceExpiry ∨ c = .lockoutEnd ∨ c = .commandDispatch := by
  unfold lockCommand at h
  split at h
  · exact .inl ⟨_, rfl⟩
  · exact .inr (.inl ⟨_, rfl⟩)
  · exact .inr (.inr (.inl ⟨_, rfl⟩))
  · exact .inr (.inr (.inr (.inl ⟨_, rfl⟩)))
  · exact .inr (.inr (.inr (.inr (.inl rfl))))
  · exact .inr (.inr (.inr (.inr (.inr (.inl rfl)))))
  · exact .inr (.inr (.inr (.inr (.inr (.inr rfl)))))
  · cases h

/-- A command of the lock leaves all but the lock calm. -/
theorem exec_calmButLock {c : Instr} {s t : State} (hc : lockCommand c = true) (h : exec c s = .next t) :
    CalmButLock s t := by
  obtain ⟨n, rfl⟩ | ⟨n, rfl⟩ | ⟨n, rfl⟩ | ⟨n, rfl⟩ | rfl | rfl | rfl := lockCommand_cases hc
  · cases h
    exact onSlot_calmButLock fun _ _ => lockAttempt_calmButLock fun s => (Calm.refl s).butLock
  · cases h
    exact onSlot_calmButLock fun _ s =>
      ((drawFree_calm s).butLock.trans (modLock_calmButLock _ _)).calm postOk_calm
  · cases h
    exact onSlot_calmButLock fun _ _ => lockAttempt_calmButLock fun s => modLock_calmButLock _ s
  · exact execLockSeal_calmButLock h
  · exact execNonceExpiry_calmButLock h
  · exact execLockoutEnd_calmButLock h
  · exact execCommandDispatch_calmButLock h

/-! ## The commands by what they leave alone -/

/-- The commands that begin a BOOT, a reset or OFF. -/
def restarts : Instr → Bool
  | .powerOn | .brownout _ | .resetNLow | .resetNRelease | .sysResetBootDelay => true
  | _ => false

/-- The commands that may take entries from a ring or move FT, but leave LT: reads of the porch, RING_CLEAR, the events
of faults and the end of BOOT. -/
def stirs : Instr → Bool
  | .stateRead _ | .attnRead _ | .busRead _ | .sampleSluiceRead _ _ | .noticeSluiceRead _ _ | .liveValueRead _ _
  | .ringClear _ | .faultEvent _ | .watchdogTimeout | .bootTimeout | .graceExpiry _ | .bootEnd => true
  | _ => false

def isTick : Instr → Bool
  | .tick _ => true
  | _ => false

theorem eq_tick_of_isTick {c : Instr} (h : isTick c = true) : ∃ i, c = .tick i := by
  unfold isTick at h
  split at h
  · exact ⟨_, rfl⟩
  · cases h

theorem restarts_cases {c : Instr} (h : restarts c = true) :
    c = .powerOn ∨ (∃ v, c = .brownout v) ∨ c = .resetNLow ∨ c = .resetNRelease ∨ c = .sysResetBootDelay := by
  unfold restarts at h
  split at h
  · exact .inl rfl
  · exact .inr (.inl ⟨_, rfl⟩)
  · exact .inr (.inr (.inl rfl))
  · exact .inr (.inr (.inr (.inl rfl)))
  · exact .inr (.inr (.inr (.inr rfl)))
  · cases h

/-- A command that is none of the above, and not TICK, leaves everything calm. -/
def quietCommand (c : Instr) : Bool := !isTick c && !lockCommand c && !restarts c && !stirs c

theorem exec_calm {c : Instr} {s t : State} (hc : quietCommand c = true) (h : exec c s = .next t) : Calm s t := by
  cases c with
  | bootPorchAnswer => exact execBootPorchAnswer_calm h
  | frameBoundary => exact execFrameBoundary_calm h
  | planFreeze => exact execPlanFreeze_calm h
  | fsyncEdge => exact execFsyncEdge_calm h
  | fsyncMissed => exact execFsyncMissed_calm h
  | fsyncLost => exact execFsyncLost_calm h
  | fsyncReacquired => exact execFsyncReacquired_calm h
  | fsyncWaitTimeout => exact execFsyncWaitTimeout_calm h
  | quietChange high pulse => exact execQuietChange_calm h
  | patternDisagreeNotice => exact execPatternDisagreeNotice_calm h
  | unguardedHourlyNotice => exact execUnguardedHourlyNotice_calm h
  | disciplineSourceStopped => exact execDisciplineSourceStopped_calm h
  | disciplineSourcePresent => exact execDisciplineSourcePresent_calm h
  | conversionComplete c => exact execConversionComplete_calm h
  | windowComplete p j => exact execWindowComplete_calm h
  | lowSignalStepDown p j => exact execLowSignalStepDown_calm h
  | clipDetected p j positive => exact execClipDetected_calm h
  | urgentConversionDone n v err => exact execUrgentConversionDone_calm h
  | converterSelfTest c g => exact execConverterSelfTest_calm h
  | railDeparture r => exact execRailDeparture_calm h
  | referenceResume => exact execReferenceResume_calm h
  | seamConverged => exact execSeamConverged_calm h
  | seamStaleTimeout => exact execSeamStaleTimeout_calm h
  | seamTrainingEnd spursMet => exact execSeamTrainingEnd_calm h
  | syncNFall => exact execSyncNFall_calm h
  | weaveSyncRelease => exact execWeaveSyncRelease_calm h
  | biasTargetReached p => exact execBiasTargetReached_calm h
  | portStopped p => exact execPortStopped_calm h
  | cellSettlingEnd p => exact execCellSettlingEnd_calm h
  | protectionTrip p => exact execProtectionTrip_calm h
  | ringDriverLimit p => exact execRingDriverLimit_calm h
  | ceCompliance p => exact execCeCompliance_calm h
  | vreError p uv => exact execVreError_calm h
  | heaterStepStart p => exact execHeaterStepStart_calm h
  | profileIterationEnd p => exact execProfileIterationEnd_calm h
  | heaterTrip p => exact execHeaterTrip_calm h
  | heaterLimitNotice p => exact execHeaterLimitNotice_calm h
  | featureCapture p => exact execFeatureCapture_calm h
  | gauzeLeadInEnd p => exact execGauzeLeadInEnd_calm h
  | gauzeIntegrationEnd p => exact execGauzeIntegrationEnd_calm h
  | gauzePlanEnd p => exact execGauzePlanEnd_calm h
  | gauzeFallEnd p => exact execGauzeFallEnd_calm h
  | cellHealthFit p => exact execCellHealthFit_calm h
  | adaptStore p => exact execAdaptStore_calm h
  | gasComputation => exact execGasComputation_calm h
  | gasComputationMiss => exact execGasComputationMiss_calm h
  | leveeOvertop k => exact execLeveeOvertop_calm h
  | leveeSettle k => exact execLeveeSettle_calm h
  | calStepEnd p => exact execCalStepEnd_calm h
  | calHoldLimit p => exact execCalHoldLimit_calm h
  | elecCalEnd t m => exact execElecCalEnd_calm h
  | autoElecCal t => exact execAutoElecCal_calm h
  | periodicSelfTest k ppm => exact execPeriodicSelfTest_calm h
  | thermalCrossing t l rising => exact execThermalCrossing_calm h
  | thermalShutdown t => exact execThermalShutdown_calm h
  | sensorCrossCheck => exact execSensorCrossCheck_calm h
  | oscRefCompensation => exact execOscRefCompensation_calm h
  | heatEntry => exact execHeatEntry_calm h
  | heatClose => exact execHeatClose_calm h
  | stagedRecordsWrite => exact execStagedRecordsWrite_calm h
  | sampleGapMarker => exact execSampleGapMarker_calm h
  | noticeGapMarker => exact execNoticeGapMarker_calm h
  | busWrite v => exact execBusWrite_calm h
  | attnmaskWrite v => exact execAttnmaskWrite_calm h
  | attncfgWrite v => exact execAttncfgWrite_calm h
  | dbellWrite v => exact execDbellWrite_calm h
  | registerWrite data => exact execRegisterWrite_calm h
  | chunkStagingTimeout op sel => exact execChunkStagingTimeout_calm h
  | generalCallSync => exact execGeneralCallSync_calm h
  | digestCheck data => exact execDigestCheck_calm h
  | dozeWakeByBus => exact execDozeWakeByBus_calm h
  | wakeComplete => exact execWakeComplete_calm h
  | sclTimeout => exact execSclTimeout_calm h
  | sdaTimeout => exact execSdaTimeout_calm h
  | busFreeIdle => exact execBusFreeIdle_calm h
  | attentionAttempt o => exact execAttentionAttempt_calm h
  | attentionBackoffExpiry => exact execAttentionBackoffExpiry_calm h
  | renotifyExpiry => exact execRenotifyExpiry_calm h
  | reactionHandled f => exact execReactionHandled_calm h
  | actionCheck f => exact execActionCheck_calm h
  | reactionEnd f => exact execReactionEnd_calm h
  | ppsEdge d ticksBack clock => exact execPpsEdge_calm h
  | ppsAbsent d => exact execPpsAbsent_calm h
  | timeSetApply d => exact execTimeSetApply_calm h
  | timeSetEdgeTimeout d => exact execTimeSetEdgeTimeout_calm h
  | timeTrigger k => exact execTimeTrigger_calm h
  | slewComplete => exact execSlewComplete_calm h
  | boltCommitMarkProgrammed verified => exact execBoltCommitMarkProgrammed_calm h
  | boxEraseDone => exact execBoxEraseDone_calm h
  | patchProgrammed => exact execPatchProgrammed_calm h
  | portMode n => exact execPortMode_calm h
  | portBias n => exact execPortBias_calm h
  | portRange n => exact execPortRange_calm h
  | portWindow n => exact execPortWindow_calm h
  | portSettle n => exact execPortSettle_calm h
  | portAux n => exact execPortAux_calm h
  | portRing n => exact execPortRing_calm h
  | portLayer n => exact execPortLayer_calm h
  | portStartCommand n => exact execPortStartCommand_calm h
  | portStop n => exact execPortStop_calm h
  | portStatus n => exact execPortStatus_calm h
  | heatPlate n => exact execHeatPlate_calm h
  | heatProfile n => exact execHeatProfile_calm h
  | heatStart n => exact execHeatStart_calm h
  | heatStop n => exact execHeatStop_calm h
  | heatStatus n => exact execHeatStatus_calm h
  | gauzePlan n => exact execGauzePlan_calm h
  | gauzeStart n => exact execGauzeStart_calm h
  | gauzeStop n => exact execGauzeStop_calm h
  | gauzeRead n => exact execGauzeRead_calm h
  | gauzeHealth n => exact execGauzeHealth_calm h
  | gauzeHealthSetReferences n => exact execGauzeHealthSetReferences_calm h
  | gauzeHealthSetSpreads n => exact execGauzeHealthSetSpreads_calm h
  | gauzeStatus n => exact execGauzeStatus_calm h
  | gauzeCap n => exact execGauzeCap_calm h
  | seqLoad n => exact execSeqLoad_calm h
  | seqMode n => exact execSeqMode_calm h
  | seqUrgent n => exact execSeqUrgent_calm h
  | seqRef n => exact execSeqRef_calm h
  | seqStart n => exact execSeqStart_calm h
  | seqStatus n => exact execSeqStatus_calm h
  | weaveSet n => exact execWeaveSet_calm h
  | weaveCoef n => exact execWeaveCoef_calm h
  | weaveDelay n => exact execWeaveDelay_calm h
  | weaveSync n => exact execWeaveSync_calm h
  | weaveSyncResponse n => exact execWeaveSyncResponse_calm h
  | weavePhase n => exact execWeavePhase_calm h
  | weaveStatus n => exact execWeaveStatus_calm h
  | weaveRead n => exact execWeaveRead_calm h
  | gasModel n => exact execGasModel_calm h
  | gasMatrix n => exact execGasMatrix_calm h
  | gasChannel n => exact execGasChannel_calm h
  | gasEnv n => exact execGasEnv_calm h
  | gasRead n => exact execGasRead_calm h
  | gasStatus n => exact execGasStatus_calm h
  | gasAdaptRead n => exact execGasAdaptRead_calm h
  | gasAdaptFreeze n => exact execGasAdaptFreeze_calm h
  | gasAdaptRelease n => exact execGasAdaptRelease_calm h
  | leveeSet n => exact execLeveeSet_calm h
  | leveeAck n => exact execLeveeAck_calm h
  | leveeStatus n => exact execLeveeStatus_calm h
  | calBegin n => exact execCalBegin_calm h
  | calZero n => exact execCalZero_calm h
  | calSpan n => exact execCalSpan_calm h
  | calCommit n => exact execCalCommit_calm h
  | calAbort n => exact execCalAbort_calm h
  | calRange n => exact execCalRange_calm h
  | calElec n => exact execCalElec_calm h
  | calStatus n => exact execCalStatus_calm h
  | calClear n => exact execCalClear_calm h
  | framePattern n => exact execFramePattern_calm h
  | frameSelect n => exact execFrameSelect_calm h
  | framePolder n => exact execFramePolder_calm h
  | frameWindows n => exact execFrameWindows_calm h
  | frameStatus n => exact execFrameStatus_calm h
  | sysStart n => exact execSysStart_calm h
  | sysStop n => exact execSysStop_calm h
  | sysHold n => exact execSysHold_calm h
  | sysRelease n => exact execSysRelease_calm h
  | sysDoze n => exact execSysDoze_calm h
  | sysReset n => exact execSysReset_calm h
  | sysRecover n => exact execSysRecover_calm h
  | sysInfo n => exact execSysInfo_calm h
  | sysPatch n => exact execSysPatch_calm h
  | ringWater n => exact execRingWater_calm h
  | timeSet n => exact execTimeSet_calm h
  | timeIncr n => exact execTimeIncr_calm h
  | timeServo n => exact execTimeServo_calm h
  | timeSelect n => exact execTimeSelect_calm h
  | timePps n => exact execTimePps_calm h
  | timeTriggerCommand n => exact execTimeTriggerCommand_calm h
  | timeStatus n => exact execTimeStatus_calm h
  | ledgerGrant n => exact execLedgerGrant_calm h
  | ledgerRank n => exact execLedgerRank_calm h
  | ledgerStatus n => exact execLedgerStatus_calm h
  | thermRead n => exact execThermRead_calm h
  | thermStatus n => exact execThermStatus_calm h
  | thermPolicy n => exact execThermPolicy_calm h
  | thermAck n => exact execThermAck_calm h
  | faultRead n => exact execFaultRead_calm h
  | faultClear n => exact execFaultClear_calm h
  | faultConfig n => exact execFaultConfig_calm h
  | faultForce n => exact execFaultForce_calm h
  | faultEcc n => exact execFaultEcc_calm h
  | faultGrace n => exact execFaultGrace_calm h
  | boltStage n => exact execBoltStage_calm h
  | boltCommit n => exact execBoltCommit_calm h
  | boltInfo n => exact execBoltInfo_calm h
  | boxInfo n => exact execBoxInfo_calm h
  | boxRead n => exact execBoxRead_calm h
  | boxErase n => exact execBoxErase_calm h
  | busStartCondition idle afterStart sclLow => exact execBusStartCondition_calm h
  | busStopCondition => exact execBusStopCondition_calm h
  | causeLatchRetentionLoss => exact execCauseLatchRetentionLoss_calm h
  | electricalCoefficientStore => exact execElectricalCoefficientStore_calm h
  | pageEraseComplete => exact execPageEraseComplete_calm h
  | _ => cases hc

theorem exec_quiet {c : Instr} {s t : State} (hc : stirs c = true) (h : exec c s = .next t) : Quiet s t := by
  cases c with
  | stateRead r => exact execStateRead_quiet h
  | attnRead r => exact execAttnRead_quiet h
  | busRead r => exact execBusRead_quiet h
  | sampleSluiceRead first n => exact execSampleSluiceRead_quiet h
  | noticeSluiceRead first n => exact execNoticeSluiceRead_quiet h
  | liveValueRead first n => exact execLiveValueRead_quiet h
  | ringClear n => exact execRingClear_quiet h
  | faultEvent f => exact execFaultEvent_quiet h
  | watchdogTimeout => exact execWatchdogTimeout_quiet h
  | bootTimeout => exact execBootTimeout_quiet h
  | graceExpiry f => exact execGraceExpiry_quiet h
  | bootEnd => exact execBootEnd_quiet h
  | _ => cases hc

theorem exec_keeps_of_restarts {c : Instr} {s t : State} (hc : restarts c = true) (h : exec c s = .next t) :
    Keeps s t := by
  obtain rfl | ⟨v, rfl⟩ | rfl | rfl | rfl := restarts_cases hc
  · exact execPowerOn_keeps h
  · exact execBrownout_keeps h
  · exact execResetNLow_keeps h
  · exact execResetNRelease_keeps h
  · exact execSysResetBootDelay_keeps h

/-- The five kinds of commands: what each leaves alone is the lemma named with it. -/
theorem command_kinds (c : Instr) :
    (∃ i, c = .tick i) ∨ lockCommand c = true ∨ restarts c = true ∨ stirs c = true ∨ quietCommand c = true := by
  cases ht : isTick c
  · unfold quietCommand
    cases lockCommand c <;> cases restarts c <;> cases stirs c <;> simp [ht]
  · exact .inl (eq_tick_of_isTick ht)

theorem exec_keeps {c : Instr} {s t : State} (h : exec c s = .next t) : Keeps s t := by
  obtain ⟨i, rfl⟩ | hc | hc | hc | hc := command_kinds c
  · exact (execTick_guard h).keeps
  · exact (exec_calmButLock hc h).toKeeps
  · exact exec_keeps_of_restarts hc h
  · exact (exec_quiet hc h).keeps
  · exact (exec_calm hc h).keeps

theorem Keeps.inv {r t : State} (h : Keeps r t) (hr : r.Inv) : t.Inv := by
  obtain ⟨⟨hsample, hnotice⟩, hstaged⟩ := hr
  exact ⟨⟨h.sample hsample, h.notice hnotice⟩, h.staged hstaged⟩

/-- Settles O22: every arm of `exec` is a next state, and each kind of command keeps the queue. -/
theorem everyCommandCompletes : Obligations.EveryCommandCompletes := by
  intro c s
  obtain ⟨t, h⟩ := exec_completes c s
  exact ⟨t, h, (exec_keeps h).pending⟩

/-- Settles O21: the buffers of `State.Inv` are those of `Keeps`. -/
theorem stepKeepsInv : Obligations.StepKeepsInv := by
  intro s hs
  cases hp : s.pending with
  | nil => exact ⟨s, step_of_pending_nil hp, hs⟩
  | cons c rest =>
    obtain ⟨t, h⟩ := exec_completes c { s with pending := rest }
    exact ⟨t, (step_of_pending_cons hp).trans h, (exec_keeps h).inv hs⟩

/-- Settles O20: the buffers are empty after reset. -/
theorem invAtReset : Obligations.InvAtReset := by
  refine ⟨⟨?_, ?_⟩, ?_⟩ <;> exact Nat.zero_le _

/-! ## The course of a tick -/

/-- A tick outside reset up to the advance of LT. -/
def tickEntered (i : TickIn) (s : State) : State :=
  tickClock i (tickPins (tickGauze (eachPort notePort (ringLate s))))

/-- A tick outside reset up to the frame scheduler's advance. -/
def tickFramed (i : TickIn) (s : State) : State :=
  let t := (postOwed (tickEntered i s)).modFaults Faults.release
  if (ringLate s).core.dev != .boot then tickFrame i.fsync t else t

/-- A tick outside reset up to what the reeve does in it. -/
def tickSampled (i : TickIn) (s : State) : State :=
  let t := tickHeat i (ringLate s).core.lt (ringLate s).vhtOn (tickPorts i (tickTherm i.temps (tickFramed i s)))
  let t := tickFaults i (if (ringLate s).core.dev != .boot then tickRun i t else t)
  commitHeld (t.modRings fun r => { r with gapDue := r.sgap.isSome && decide (r.sample.length < 8192) })

/-- The staged calibration record is written by a reeve that runs. -/
def writeStagedCal (s : State) : State := if s.reeveActive then calStagedWrite s else s

theorem tickPowered_eq (i : TickIn) (s : State) :
    tickPowered i s = writeStagedCal (digestLate (serveReactions (tickSampled i s))) := rfl

theorem ite_calm {p : Prop} [Decidable p] {s t : State} (h : Calm s t) : Calm s (if p then t else s) := by
  split
  · exact h
  · exact Calm.refl s

/-- Up to the advance of LT all is calm. -/
theorem tickEntered_calm_before {s : State} :
    Calm s (tickPins (tickGauze (eachPort notePort (ringLate s)))) :=
  ringLate_calm.trans ((eachPort_calm fun _ _ => notePort_calm).trans (tickGauze_calm.trans tickPins_calm))

theorem tickEntered_lt {i : TickIn} {s : State} : (tickEntered i s).core.lt = s.core.lt + 1 := by
  change (tickPins (tickGauze (eachPort notePort (ringLate s)))).core.lt + 1 = s.core.lt + 1
  rw [tickEntered_calm_before.lt]

theorem tickFramed_quiet {i : TickIn} {s : State} : Quiet (tickEntered i s) (tickFramed i s) := by
  have h : Quiet (tickEntered i s) ((postOwed (tickEntered i s)).modFaults Faults.release) :=
    (postOwed_calm.trans (modFaults_calm ..)).quiet
  unfold tickFramed
  dsimp only
  split
  · exact h.trans tickFrame_quiet
  · exact h

/-- Behind the scheduler's advance a tick is calm up to what the reeve does in it. -/
theorem tickSampled_calm {i : TickIn} {s : State} : Calm (tickFramed i s) (tickSampled i s) := by
  have h := tickTherm_calm (temps := i.temps) (s := tickFramed i s) |>.trans
    ((tickPorts_calm (i := i)).trans
      (tickHeat_calm (i := i) (now := (ringLate s).core.lt) (vht := (ringLate s).vhtOn)))
  exact h.trans ((ite_calm tickRun_calm).trans
    (tickFaults_calm.trans ((modRings_calm _ _ rfl rfl).trans commitHeld_calm)))

theorem writeStagedCal_calm {s : State} : Calm s (writeStagedCal s) := ite_calm calStagedWrite_calm

theorem tickPowered_lt {i : TickIn} {s : State} : (tickPowered i s).core.lt = s.core.lt + 1 := by
  have h : Quiet (tickEntered i s) (tickPowered i s) :=
    tickFramed_quiet.trans (tickSampled_calm.quiet.trans
      (serveReactions_quiet.trans (digestLate_calm.trans writeStagedCal_calm).quiet))
  rw [h.lt, tickEntered_lt]

/-! ## LT -/

theorem execTick_lt {i : TickIn} {s t : State} (h : execTick i s = .next t) :
    t.core.lt = if s.core.dev = .off then s.core.lt else s.core.lt + 1 := by
  unfold execTick at h
  cases h
  split
  · rfl
  · split
    · rfl
    · exact tickPowered_lt

theorem execPowerOn_lt {s t : State} (h : execPowerOn s = .next t) :
    t.core.lt = if s.core.dev = .off then 0 else s.core.lt := by
  unfold execPowerOn at h
  cases h
  by_cases hoff : s.core.dev = .off
  · simp only [hoff, ne_eq, not_true_eq_false, if_false, if_true]
    split <;> rfl
  · simp only [hoff, ne_eq, not_false_eq_true, if_false, if_true]

theorem execBrownout_lt {v : Nat} {s t : State} (h : execBrownout v s = .next t) :
    t.core.lt = if s.core.dev = .off then s.core.lt else 0 := by
  unfold execBrownout at h
  cases h
  split <;> rfl

theorem execResetNLow_lt {s t : State} (h : execResetNLow s = .next t) : t.core.lt = s.core.lt := by
  unfold execResetNLow at h
  cases h
  dsimp only
  split <;> rfl

theorem execResetNRelease_lt {s t : State} (h : execResetNRelease s = .next t) : t.core.lt = s.core.lt := by
  unfold execResetNRelease at h
  cases h
  dsimp only
  split <;> rfl

theorem execSysResetBootDelay_lt {s t : State} (h : execSysResetBootDelay s = .next t) : t.core.lt = s.core.lt := by
  unfold execSysResetBootDelay at h
  cases h
  split
  · split <;> rfl
  · rfl

/-- Where neither time passes nor power comes or goes, LT stays. -/
theorem exec_lt {c : Instr} {s t : State} (htick : isTick c = false) (hrestart : restarts c = false)
    (h : exec c s = .next t) : t.core.lt = s.core.lt := by
  obtain ⟨i, rfl⟩ | hc | hc | hc | hc := command_kinds c
  · cases htick
  · exact (exec_calmButLock hc h).lt
  · rw [hrestart] at hc
    cases hc
  · exact (exec_quiet hc h).lt
  · exact (exec_calm hc h).lt

/-- Settles O25: `exec_lt` for all but TICK and the restarts. -/
theorem localTimeMovesWithTheTick : Obligations.LocalTimeMovesWithTheTick := by
  intro c s t h
  cases c with
  | tick i => exact execTick_lt h
  | powerOn => exact execPowerOn_lt h
  | brownout v => exact execBrownout_lt h
  | resetNLow => exact execResetNLow_lt h
  | resetNRelease => exact execResetNRelease_lt h
  | sysResetBootDelay => exact execSysResetBootDelay_lt h
  | _ => exact exec_lt rfl rfl h

/-! ## The lock -/

/-- A slot that is still RUNNING behind its dispatch is as it was, but for that. -/
theorem dispatchSlot_slot {n : SlotId} {s : State} (h : ((dispatchSlot n s).mbox.slots[n]'n.isLt).st = .running) :
    (dispatchSlot n s).mbox.slots[n]'n.isLt = { (s.mbox.slots[n]'n.isLt) with st := .running } := by
  have hpost : ∀ (u : State) (st : Status) (d : Nat), ((post n st d [] u).mbox.slots[n]'n.isLt).st = .running →
      (post n st d [] u).mbox.slots[n]'n.isLt = u.mbox.slots[n]'n.isLt := by
    intro u st d hu
    unfold post at hu ⊢
    split at hu
    · simp [Slot.posted] at hu
    · rename_i hposts
      rw [if_neg hposts]
      rfl
  unfold dispatchSlot at h ⊢
  dsimp only at h ⊢
  split at h
  · rw [hpost _ _ _ h, State.modSlot_same]
  · split at h
    · rw [hpost _ _ _ h, State.modSlot_same]
    · exact State.modSlot_same ..

theorem dispatchSlot_therm {n : SlotId} {s : State} : (dispatchSlot n s).therm = s.therm := by
  unfold dispatchSlot
  dsimp only
  split
  · simp [State.modSlot]
  · split <;> simp [State.modSlot]

/-- An attempt begins only where writes are allowed and no lockout is in force; it counts. -/
theorem beginAttempt_lock {n : SlotId} {s : State} (h : (beginAttempt n s).lock ≠ s.lock) :
    (s.mbox.slots[n]'n.isLt).st = .running ∧ ((s.mbox.slots[n]'n.isLt).op = 0x1101 ∨ (s.mbox.slots[n]'n.isLt).op = 0x1103) ∧
      s.nvmAllowed = true ∧ s.lock.lockout = none ∧
      beginAttempt n s = (s.modLock fun l =>
        { l with attempts := satAdd l.attempts 1, fails := satNat 255 (l.fails + 1) }).modSlot n
          fun x => { x with early := true } := by
  unfold beginAttempt at h ⊢
  dsimp only at h ⊢
  split at h
  · rename_i hbegin
    obtain ⟨hst, hop, hnvm, hlock⟩ := hbegin
    exact ⟨hst, hop, hnvm, hlock, if_pos ⟨hst, hop, hnvm, hlock⟩⟩
  · exact absurd rfl h

theorem execCommandDispatch_cases {s t : State} (h : execCommandDispatch s = .next t) :
    t = s ∨ ∃ n q, s.mbox.queue = n :: q ∧
      t = beginAttempt n (dispatchSlot n (s.modMbox fun m => { m with queue := q })) := by
  unfold execCommandDispatch at h
  cases h
  split
  · split
    · next n q hq => exact .inr ⟨n, q, hq, rfl⟩
    · exact .inl rfl
  · exact .inl rfl

theorem execCommandDispatch_lock {s t : State} (h : execCommandDispatch s = .next t) (hlock : t.lock ≠ s.lock) :
    s.lock.lockout = none ∧ s.nvmAllowed = true ∧
      ∃ n q, s.mbox.queue = n :: q ∧ ((s.mbox.slots[n]'n.isLt).op = 0x1101 ∨ (s.mbox.slots[n]'n.isLt).op = 0x1103) ∧
        (t.mbox.slots[n]'n.isLt).st = .running ∧
        t.lock = { s.lock with attempts := satAdd s.lock.attempts 1, fails := satNat 255 (s.lock.fails + 1) } := by
  obtain rfl | ⟨n, q, hq, rfl⟩ := execCommandDispatch_cases h
  · exact absurd rfl hlock
  · have hkept : (dispatchSlot n (s.modMbox fun m => { m with queue := q })).lock = s.lock :=
      dispatchSlot_calm.lock
    have htherm : (dispatchSlot n (s.modMbox fun m => { m with queue := q })).therm = s.therm :=
      dispatchSlot_therm
    obtain ⟨hst, hop, hnvm, hout, heq⟩ := beginAttempt_lock (hkept.symm ▸ hlock)
    rw [dispatchSlot_slot hst] at hop
    rw [hkept] at hout
    rw [State.nvmAllowed, htherm] at hnvm
    refine ⟨hout, hnvm, n, q, hq, hop, ?_, ?_⟩
    · rw [heq, State.modSlot_same]
      exact hst
    · rw [heq, State.modSlot_lock, State.modLock_lock, hkept]

theorem movesLock_of_restarts {c : Instr} (h : restarts c = true) : movesLock c = true := by
  obtain rfl | ⟨v, rfl⟩ | rfl | rfl | rfl := restarts_cases h <;> rfl

theorem movesLock_of_lockCommand {c : Instr} (hc : c ≠ .commandDispatch) (h : lockCommand c = true) :
    movesLock c = true := by
  obtain ⟨n, rfl⟩ | ⟨n, rfl⟩ | ⟨n, rfl⟩ | ⟨n, rfl⟩ | rfl | rfl | hd := lockCommand_cases h
  case inr.inr.inr.inr.inr.inr => exact absurd hd hc
  all_goals rfl

theorem exec_lock {c : Instr} {s t : State} (hc : movesLock c = false) (hdispatch : c ≠ .commandDispatch)
    (h : exec c s = .next t) : t.lock = s.lock := by
  obtain ⟨i, rfl⟩ | hk | hk | hk | hk := command_kinds c
  · exact (execTick_guard h).lock
  · exact absurd (movesLock_of_lockCommand hdispatch hk) (by rw [hc]; decide)
  · exact absurd (movesLock_of_restarts hk) (by rw [hc]; decide)
  · exact (exec_quiet hk h).lock
  · exact (exec_calm hk h).lock

/-- Settles O24: `exec_lock` for all commands but the dispatch, which counts an attempt. -/
theorem onlyTheLockMovesTheLock : Obligations.OnlyTheLockMovesTheLock := by
  intro c s t hc h
  refine ⟨fun hd => exec_lock hc hd h, fun hd => ?_⟩
  subst hd
  exact execCommandDispatch_lock h

end Sys2Proof.Machine
end

section
-- One declaration after another: the whole text is compiled as one file, within a limit on memory.
set_option Elab.async false
/-!
Entries held in a ring stay (spec/14, R301, R308): what the commands that are not calm do to the rings. A ring is
emptied by the action on an error in it alone, so TICK has to be followed to the point at which the reeve takes the
actions it owes: nothing before it in the tick makes a reaction wait for its action.
-/

namespace Sys2Proof.Machine

/-! ## Reactions whose action the reeve owes -/


/-- The source's reaction waits for an action that the reeve has not taken (R408). -/
def FSource.unserved (x : FSource) : Bool := (x.reaction.filter (·.action.isNone)).any fun r => !r.acted

/-- The reactions that wait for an action that the reeve has not taken, by source. -/
def Faults.unserved (f : Faults) (n : Source) : Bool := (f.src[n]'n.isLt).unserved

theorem Faults.unserved_congr {f g : Faults} (h : g.src = f.src) : g.unserved = f.unserved := by
  funext n
  rw [Faults.unserved, h]
  rfl

theorem Faults.wordWritten_src (c : Fin 5) (a : Nat) (f : Faults) : (f.wordWritten c a).src = f.src := by
  unfold Faults.wordWritten
  dsimp only
  split
  · split <;> rfl
  · rfl

@[simp] theorem Faults.wordWritten_unserved (c : Fin 5) (a : Nat) (f : Faults) :
    (f.wordWritten c a).unserved = f.unserved := Faults.unserved_congr (Faults.wordWritten_src c a f)

theorem foldl_wordWritten_unserved {α : Type} (c : Fin 5) (a : α → Nat) (l : List α) (f : Faults) :
    (l.foldl (fun f x => f.wordWritten c (a x)) f).unserved = f.unserved := by
  induction l generalizing f with
  | nil => rfl
  | cons x l ih => simp [ih]

@[simp] theorem Faults.slotWritten_unserved (n : SlotId) (k : Nat) (f : Faults) :
    (f.slotWritten n k).unserved = f.unserved := foldl_wordWritten_unserved ..

@[simp] theorem Faults.nvmWritten_unserved (o k : Nat) (f : Faults) :
    (f.nvmWritten o k).unserved = f.unserved := foldl_wordWritten_unserved ..

@[simp] theorem foldl_unserved {α : Type} (F : State → α → State) (l : List α) (s : State)
    (h : ∀ s x, (F s x).faults.unserved = s.faults.unserved) : (l.foldl F s).faults.unserved = s.faults.unserved := by
  induction l generalizing s with
  | nil => rfl
  | cons x l ih => exact (ih _).trans (h s x)

@[simp] theorem eachPort_unserved (F : PortId → State → State) (s : State)
    (h : ∀ p s, (F p s).faults.unserved = s.faults.unserved) : (eachPort F s).faults.unserved = s.faults.unserved :=
  foldl_unserved _ _ _ fun s p => h p s

@[simp] theorem overInputs_unserved (F : PortId → Fin 2 → State → State) (s : State)
    (h : ∀ p i s, (F p i s).faults.unserved = s.faults.unserved) : (overInputs F s).faults.unserved = s.faults.unserved := by
  unfold overInputs
  exact foldl_unserved _ _ _ fun s x => by simp [h]

@[simp] theorem ite_unserved {p : Prop} [Decidable p] (s t : State) :
    (if p then s else t).faults.unserved = if p then s.faults.unserved else t.faults.unserved := by split <;> rfl


theorem Faults.unserved_of_unserved {f g : Faults} (h : ∀ n : Source, (g.src[n]'n.isLt).unserved = (f.src[n]'n.isLt).unserved) :
    g.unserved = f.unserved := funext h

@[simp] theorem leveesEnter_unserved (s : State) : (leveesEnter s).faults.unserved = s.faults.unserved := rfl

theorem FSource.boundary_unserved (whole : Bool) (x : FSource) : (x.boundary whole).unserved = x.unserved := by
  unfold FSource.boundary FSource.unserved
  cases x.reaction with
  | none => rfl
  | some r => cases h : r.action <;> simp [h]

theorem FSource.tick_unserved (boot now : Bool) (x : FSource) : (x.tick boot now).unserved = x.unserved := by
  unfold FSource.tick FSource.unserved
  cases x.reaction with
  | none => rfl
  | some r => cases h : r.action <;> simp [h]

@[simp] theorem Faults.boundary_unserved (whole : Bool) (f : Faults) : (f.boundary whole).unserved = f.unserved :=
  funext fun n => by simp [Faults.unserved, Faults.boundary, FSource.boundary_unserved]

@[simp] theorem Faults.tick_unserved (boot : Bool) (now : BitVec 64) (f : Faults) :
    (f.tick boot now).unserved = f.unserved :=
  funext fun n => by simp [Faults.unserved, Faults.tick, FSource.tick_unserved]

@[simp] theorem Faults.found_unserved (f : Faults) (x : BitVec 64) : { f with found := x }.unserved = f.unserved := rfl

@[simp] theorem Faults.release_unserved (f : Faults) : f.release.unserved = f.unserved := rfl

@[simp] theorem pushNotice_unserved (code : W16) (kind : Nat) (args : W64) (s : State) :
    (pushNotice code kind args s).faults.unserved = s.faults.unserved := by simp [pushNotice]

@[simp] theorem pushNoticeGap_unserved (n : Nat) (s : State) :
    (pushNoticeGap n s).faults.unserved = s.faults.unserved := by simp [pushNoticeGap]

@[simp] theorem noticeGap_unserved (s : State) :
    (noticeGap s).faults.unserved = s.faults.unserved := by
  unfold noticeGap
  split <;> simp

@[simp] theorem emitNotice_unserved (code : W16) (kind : Kind) (args : W64) (s : State) :
    (emitNotice code kind args s).faults.unserved = s.faults.unserved := by
  unfold emitNotice
  split <;> simp

@[simp] theorem notice_unserved (code : W16) (kind : Kind) (args : W64) (s : State) :
    (notice code kind args s).faults.unserved = s.faults.unserved := by
  unfold notice
  split <;> simp

@[simp] theorem postNow_unserved (n : SlotId) (st : Status) (detail : Nat) (resp : List Byte) (s : State) :
    (postNow n st detail resp s).faults.unserved = s.faults.unserved := by simp [postNow]

@[simp] theorem post_unserved (n : SlotId) (st : Status) (detail : Nat) (resp : List Byte) (s : State) :
    (post n st detail resp s).faults.unserved = s.faults.unserved := by simp [post]

@[simp] theorem postStatus_unserved (n : SlotId) (st : Status) (s : State) :
    (postStatus n st s).faults.unserved = s.faults.unserved := by simp [postStatus]

@[simp] theorem postOwed_unserved (s : State) : (postOwed s).faults.unserved = s.faults.unserved := by simp [postOwed]

@[simp] theorem completeWhere_unserved (p : Pend → Bool) (st : Status) (s : State) :
    (completeWhere p st s).faults.unserved = s.faults.unserved := by simp [completeWhere]

@[simp] theorem programRecord_unserved (r : Rec) (s : State) :
    (programRecord r s).faults.unserved = s.faults.unserved := by simp [programRecord]

@[simp] theorem boxRecord_unserved (type : Byte) (args : W64) (s : State) :
    (boxRecord type args s).faults.unserved = s.faults.unserved := by simp [boxRecord]

@[simp] theorem raiseInjected_unserved (n : Source) (s : State) :
    (raiseInjected n s).faults.unserved = s.faults.unserved := by
  funext k
  rw [Faults.unserved, Faults.unserved]
  by_cases h : k = n
  · subst h
    rw [raiseInjected, State.modSource_same]
    rfl
  · rw [raiseInjected, State.modSource_other h]

@[simp] theorem readWords_unserved (checker : Fin 5) (at_ : Nat → Bool) (ue ce : Source) (s : State) :
    (readWords checker at_ ue ce s).2.faults.unserved = s.faults.unserved := by
  unfold readWords
  dsimp only
  split <;> split <;> simp

@[simp] theorem mboxDetect_unserved (n : SlotId) (s : State) :
    (mboxDetect n s).faults.unserved = s.faults.unserved := by simp [mboxDetect]

@[simp] theorem dispatchSlot_unserved (n : SlotId) (s : State) :
    (dispatchSlot n s).faults.unserved = s.faults.unserved := by
  unfold dispatchSlot
  dsimp only
  split
  · simp
  · split <;> simp

@[simp] theorem beginHold_unserved (k : PortId) (p : List Byte) (begun : W64) (s : State) :
    (beginHold k p begun s).faults.unserved = s.faults.unserved := by simp [beginHold]

@[simp] theorem pullSync_unserved (s : State) : (pullSync s).faults.unserved = s.faults.unserved := by simp [pullSync]

@[simp] theorem atDoorbell_unserved (n : SlotId) (s : State) :
    (atDoorbell n s).faults.unserved = s.faults.unserved := by simp [atDoorbell]

@[simp] theorem doorbell_unserved (n : SlotId) (s : State) :
    (doorbell n s).faults.unserved = s.faults.unserved := by simp [doorbell]

@[simp] theorem dbell_unserved (v : Byte) (s : State) :
    (dbell v s).faults.unserved = s.faults.unserved := by simp [dbell]

@[simp] theorem ring_unserved (v : Byte) (s : State) :
    (ring v s).faults.unserved = s.faults.unserved := by simp [ring]

@[simp] theorem ringLate_unserved (s : State) : (ringLate s).faults.unserved = s.faults.unserved := by simp [ringLate]

@[simp] theorem notePort_unserved (p : PortId) (s : State) :
    (notePort p s).faults.unserved = s.faults.unserved := by simp [notePort]

@[simp] theorem gauzeDiscardFor_unserved (k : Nat) (p : PortId) (s : State) :
    (gauzeDiscardFor k p s).faults.unserved = s.faults.unserved := by simp [gauzeDiscardFor]

@[simp] theorem gauzeDiscard_unserved (p : PortId) (s : State) :
    (gauzeDiscard p s).faults.unserved = s.faults.unserved := by simp [gauzeDiscard]

@[simp] theorem tickGauze_unserved (s : State) :
    (tickGauze s).faults.unserved = s.faults.unserved := by simp [tickGauze]

@[simp] theorem tickPins_unserved (s : State) : (tickPins s).faults.unserved = s.faults.unserved := by simp [tickPins]

@[simp] theorem tickClock_unserved (i : TickIn) (s : State) :
    (tickClock i s).faults.unserved = s.faults.unserved := by simp [tickClock]

@[simp] theorem closeFigures_unserved (s : State) :
    (closeFigures s).faults.unserved = s.faults.unserved := by simp [closeFigures]

@[simp] theorem tickFrame_unserved (fsync : Bool) (s : State) :
    (tickFrame fsync s).faults.unserved = s.faults.unserved := by
  unfold tickFrame
  dsimp only
  split <;> simp

@[simp] theorem setTherm_unserved (new : Fin 5) (cause : Nat) (s : State) :
    (setTherm new cause s).faults.unserved = s.faults.unserved := by simp [setTherm]

@[simp] theorem thermUpdate_unserved (cause : Nat) (s : State) :
    (thermUpdate cause s).faults.unserved = s.faults.unserved := by simp [thermUpdate]

@[simp] theorem tickTherm_unserved (temps : Vector (Option Int) 9) (s : State) :
    (tickTherm temps s).faults.unserved = s.faults.unserved := by simp [tickTherm]

@[simp] theorem tickPorts_unserved (i : TickIn) (s : State) :
    (tickPorts i s).faults.unserved = s.faults.unserved := by simp [tickPorts]

@[simp] theorem drive_unserved (p : PortId) (s : State) :
    (drive p s).faults.unserved = s.faults.unserved := by simp [drive]

@[simp] theorem tickHeat_unserved (i : TickIn) (now : W64) (vht : Bool) (s : State) :
    (tickHeat i now vht s).faults.unserved = s.faults.unserved := by simp [tickHeat]

@[simp] theorem startTraining_unserved (s : State) :
    (startTraining s).faults.unserved = s.faults.unserved := by simp [startTraining]

@[simp] theorem tickSeam_unserved (s : State) : (tickSeam s).faults.unserved = s.faults.unserved := by simp [tickSeam]

@[simp] theorem rollRecords_unserved (s : State) : (rollRecords s).faults.unserved = s.faults.unserved :=
  overInputs_unserved _ _ fun _ _ _ => rfl

@[simp] theorem gasRoll_unserved (s : State) : (gasRoll s).faults.unserved = s.faults.unserved := by simp [gasRoll]

@[simp] theorem calFrame_unserved (s : State) : (calFrame s).faults.unserved = s.faults.unserved := by simp [calFrame]

@[simp] theorem tickGas_unserved (s : State) : (tickGas s).faults.unserved = s.faults.unserved := by simp [tickGas]

@[simp] theorem breachTick_unserved (s : State) :
    (breachTick s).faults.unserved = s.faults.unserved := by
  unfold breachTick
  dsimp only
  rw [overInputs_unserved _ _ (fun p i s => by rw [State.modInput_faults])]
  simp only [ite_unserved, State.modFrame_faults, ite_self]

@[simp] theorem ceilingNotice_unserved (p : PortId) (i : Fin 2) (s : State) :
    (ceilingNotice p i s).faults.unserved = s.faults.unserved := by simp [ceilingNotice]

@[simp] theorem changeRange_unserved (p : PortId) (i : Fin 2) (r : Fin 8) (s : State) :
    (changeRange p i r s).faults.unserved = s.faults.unserved := by simp [changeRange]

@[simp] theorem takeStep_unserved (p : PortId) (i : Fin 2) (s : State) :
    (takeStep p i s).faults.unserved = s.faults.unserved := by simp [takeStep]

@[simp] theorem openInput_unserved (p : PortId) (i : Fin 2) (w : Win) (s : State) :
    (openInput p i w s).faults.unserved = s.faults.unserved := by simp [openInput]

@[simp] theorem openWindows_unserved (s : State) : (openWindows s).faults.unserved = s.faults.unserved := by
  unfold openWindows
  split
  · refine overInputs_unserved _ _ fun p i s => ?_
    split
    · split <;> simp
    · rfl
  · rfl

@[simp] theorem coverInput_unserved (p : PortId) (i : Fin 2) (s : State) :
    (coverInput p i s).faults.unserved = s.faults.unserved := by simp [coverInput]

@[simp] theorem closeInput_unserved (p : PortId) (i : Fin 2) (s : State) :
    (closeInput p i s).faults.unserved = s.faults.unserved := by
  unfold closeInput
  dsimp only
  split <;> simp

@[simp] theorem windowsTick_unserved (quiet : Bool) (s : State) :
    (windowsTick quiet s).faults.unserved = s.faults.unserved := by simp [windowsTick]

@[simp] theorem tickRun_unserved (i : TickIn) (s : State) :
    (tickRun i s).faults.unserved = s.faults.unserved := by simp [tickRun]

@[simp] theorem tickFaults_unserved (i : TickIn) (s : State) :
    (tickFaults i s).faults.unserved = s.faults.unserved := by
  unfold tickFaults
  simp

@[simp] theorem commitHeld_unserved (s : State) :
    (commitHeld s).faults.unserved = s.faults.unserved := by simp [commitHeld]

@[simp] theorem stopProfile_unserved (p : PortId) (s : State) :
    (stopProfile p s).faults.unserved = s.faults.unserved := by simp [stopProfile]

@[simp] theorem stopProfiles_unserved (c : PortId → Bool) (s : State) :
    (stopProfiles c s).faults.unserved = s.faults.unserved := by simp [stopProfiles]

@[simp] theorem calNotice_unserved (p : PortId) (cause : Nat) (s : State) :
    (calNotice p cause s).faults.unserved = s.faults.unserved := by simp [calNotice]

@[simp] theorem holdOver_unserved (p : PortId) (s : State) :
    (holdOver p s).faults.unserved = s.faults.unserved := by simp [holdOver]

@[simp] theorem dropSession_unserved (p : PortId) (s : State) :
    (dropSession p s).faults.unserved = s.faults.unserved := by simp [dropSession]

@[simp] theorem endSession_unserved (p : PortId) (cause : Nat) (s : State) :
    (endSession p cause s).faults.unserved = s.faults.unserved := by
  unfold endSession
  split <;> simp

@[simp] theorem endElec_unserved (t : CalTarget) (s : State) :
    (endElec t s).faults.unserved = s.faults.unserved := by
  unfold endElec
  split <;> simp

@[simp] theorem portLeaves_unserved (p : PortId) (s : State) :
    (portLeaves p s).faults.unserved = s.faults.unserved := by simp [portLeaves]

@[simp] theorem closeRun_unserved (p : PortId) (s : State) :
    (closeRun p s).faults.unserved = s.faults.unserved := by simp [closeRun]

@[simp] theorem endGauze_unserved (p : PortId) (s : State) :
    (endGauze p s).faults.unserved = s.faults.unserved := by simp [endGauze]

@[simp] theorem dropPort_unserved (p : PortId) (st : PortState) (s : State) :
    (dropPort p st s).faults.unserved = s.faults.unserved := by simp [dropPort]

@[simp] theorem forcePort_unserved (p : PortId) (st : PortState) (s : State) :
    (forcePort p st s).faults.unserved = s.faults.unserved := by simp [forcePort]

@[simp] theorem calLeaves_unserved (s : State) :
    (calLeaves s).faults.unserved = s.faults.unserved := by simp [calLeaves]

@[simp] theorem elecLeaves_unserved (s : State) :
    (elecLeaves s).faults.unserved = s.faults.unserved := by simp [elecLeaves]

@[simp] theorem stopConverters_unserved (s : State) :
    (stopConverters s).faults.unserved = s.faults.unserved := by simp [stopConverters]

@[simp] theorem endMeasuring_unserved (s : State) :
    (endMeasuring s).faults.unserved = s.faults.unserved := by simp [endMeasuring]

@[simp] theorem dropUrgent_unserved (s : State) :
    (dropUrgent s).faults.unserved = s.faults.unserved := by simp [dropUrgent]

@[simp] theorem skipAction_unserved (k : Fin 16) (reason : Nat) (s : State) :
    (skipAction k reason s).faults.unserved = s.faults.unserved := by simp [skipAction]

@[simp] theorem skipOwed_unserved (s : State) : (skipOwed s).faults.unserved = s.faults.unserved := by simp [skipOwed]

@[simp] theorem leaveTwill_unserved (s : State) :
    (leaveTwill s).faults.unserved = s.faults.unserved := by simp [leaveTwill]

@[simp] theorem leveesLeave_unserved (s : State) :
    (leveesLeave s).faults.unserved = s.faults.unserved := by simp [leveesLeave]

@[simp] theorem enterDev_unserved (d : Dev) (s : State) :
    (enterDev d s).faults.unserved = s.faults.unserved := by simp [enterDev]

@[simp] theorem finishStop_unserved (s : State) :
    (finishStop s).faults.unserved = s.faults.unserved := by simp [finishStop]

@[simp] theorem shutPort_unserved (p : PortId) (s : State) :
    (shutPort p s).faults.unserved = s.faults.unserved := by simp [shutPort]

@[simp] theorem shutGroup_unserved (g : Nat) (c : Port → Bool) (s : State) :
    (shutGroup g c s).faults.unserved = s.faults.unserved := by simp [shutGroup]

@[simp] theorem freeSlots_unserved (s : State) : (freeSlots s).faults.unserved = s.faults.unserved :=
  foldl_wordWritten_unserved 4 id _ _

@[simp] theorem emptyRing_unserved (sample : Bool) (s : State) :
    (emptyRing sample s).faults.unserved = s.faults.unserved := by simp [emptyRing]

/-! ## Rings that only grow -/

/-- From r to t every entry held in either ring stays where it is. -/
def Grows (r t : State) : Prop := r.rings.sample <+: t.rings.sample ∧ r.rings.notice <+: t.rings.notice

theorem Calm.grows {r t : State} (h : Calm r t) : Grows r t := ⟨h.samples, h.notices⟩

theorem Grows.refl (s : State) : Grows s s := ⟨List.prefix_rfl, List.prefix_rfl⟩

theorem Grows.trans {r s t : State} (h : Grows r s) (k : Grows s t) : Grows r t :=
  ⟨h.1.trans k.1, h.2.trans k.2⟩

theorem grows_of_rings_eq {r t : State} (h : t.rings = r.rings) : Grows r t := by
  rw [Grows, h]
  exact ⟨List.prefix_rfl, List.prefix_rfl⟩

theorem not_ringSource {f : Source} (h : ringSource f = false) : ¬(f.val = 14 ∨ f.val = 15) := by
  simp only [ringSource, Bool.or_eq_false_iff, decide_eq_false_iff_not] at h
  obtain ⟨h14, h15⟩ := h
  rintro (e | e)
  · exact h14 (Fin.ext e)
  · exact h15 (Fin.ext e)

/-- The reeve's action on a source that is not a ring's. -/
theorem reeveAction_calm {f : Source} {s : State} (h : ringSource f = false) : Calm s (reeveAction f s) := by
  unfold reeveAction
  dsimp only
  rw [if_neg (c := f.val = 14 ∨ f.val = 15) (not_ringSource h)]
  repeat' split
  · exact modCore_calm _ _ rfl rfl
  · exact stopProfiles_calm
  · exact modFaults_calm _ _
  · exact shutPort_calm
  · exact shutGroup_calm
  · exact stopProfiles_calm
  · exact freeSlots_calm
  · exact Calm.refl s

/-- The collector's action on a source that is not a ring's. -/
theorem blockAction_calm {f : Source} {s : State} (h : ringSource f = false) : Calm s (blockAction f s) := by
  unfold blockAction
  dsimp only
  rw [if_neg (c := f.val = 14 ∨ f.val = 15) (not_ringSource h)]
  repeat' split
  · exact holdHeaters_calm
  · exact (modFaults_calm _ _).trans haltConverters_calm
  · exact shutPort_calm
  · exact shutGroup_calm
  · exact freeSlots_calm
  · exact Calm.refl s

theorem interrupt_calm {f : Source} {s : State} (h : ringSource f = false) : Calm s (interrupt f s) := by
  unfold interrupt
  split
  · exact (reeveAction_calm h).trans (modSource_calm ..)
  · exact Calm.refl s

theorem takeEvent_calm {f : Source} {s : State} (h : ringSource f = false) : Calm s (takeEvent f s) := by
  have hcount : ∀ x y : FSource, Calm s (eventNotices f x y (s.modSource f FSource.count)) := fun _ _ =>
    (modSource_calm ..).trans eventNotices_calm
  unfold takeEvent
  dsimp only
  split
  · exact (hcount _ _).trans graveEvent_calm
  · split
    · exact mergeEvent_calm
    · split
      · exact (hcount _ _).trans (beginReaction_calm.trans (interrupt_calm h))
      · exact hcount _ _

theorem faultEvent_calm {f : Source} {s : State} (h : ringSource f = false) : Calm s (faultEvent f s) := by
  unfold faultEvent
  split
  · exact endReactions_calm.trans (takeEvent_calm h)
  · exact Calm.refl s

theorem expire_calm {f : Source} {s : State} (h : ringSource f = false) : Calm s (expire f s) := by
  unfold expire
  split
  · exact (blockAction_calm h).trans (markAction_calm.trans (notice_calm.trans boxRecord_calm))
  · exact enterSafe_calm

theorem execWatchdogTimeout_calm {s t : State} (h : execWatchdogTimeout s = .next t) : Calm s t := by
  unfold execWatchdogTimeout at h
  cases h
  exact ite_calm (raise_calm.trans (faultEvent_calm rfl))

theorem execBootTimeout_calm {s t : State} (h : execBootTimeout s = .next t) : Calm s t := by
  unfold execBootTimeout at h
  cases h
  exact ite_calm (raise_calm.trans (faultEvent_calm rfl))

theorem execGraceExpiry_calm {f : Source} {s t : State} (hf : ringSource f = false)
    (h : execGraceExpiry f s = .next t) : Calm s t := by
  unfold execGraceExpiry at h
  cases h
  split
  · exact ite_calm (expire_calm hf)
  · exact Calm.refl s

/-- The end of BOOT moves FT where frames run by the bolt, but no ring's entry. -/
theorem endBoot_grows {s : State} : Grows s (endBoot s) := by
  unfold endBoot
  extract_lets last r s1 s2 s3 s4
  have hr : Calm s r.1 := redoErase_calm.trans putInForce_calm
  clear_value r last
  have h1 : Calm s s1 := hr.trans (bootSettings_calm.trans bootRecords_calm)
  clear_value s1
  have h3 : Calm s s3 := h1.trans ((modCore_calm _ _ rfl rfl).trans (setDev_calm.trans (flushHeld_calm.trans ring_calm)))
  clear_value s3
  have h4 : Grows s s4 := by
    unfold s4
    split
    · exact h3.grows.trans (grows_of_rings_eq rfl)
    · exact h3.grows
  split
  · exact h4.trans autostart_calm.grows
  · exact h4

theorem execBootEnd_grows {s t : State} (h : execBootEnd s = .next t) : Grows s t := by
  unfold execBootEnd at h
  cases h
  split
  · exact endBoot_grows
  · exact Grows.refl s

/-! ## A tick in which no ring's action is owed -/

theorem ringActionOwed_eq_false {s : State} :
    s.ringActionOwed = false ↔ ∀ f, ringSource f = true → s.faults.unserved f = false := by
  unfold State.ringActionOwed
  rw [List.any_eq_false]
  simp only [List.mem_finRange, forall_const, Bool.and_eq_true, not_and, Bool.not_eq_true]
  rfl

theorem tickFramed_unserved {i : TickIn} {s : State} : (tickFramed i s).faults.unserved = s.faults.unserved := by
  unfold tickFramed tickEntered
  dsimp only
  split <;> simp

/-- Nothing that a tick does before the reeve's turn makes a reaction wait. -/
theorem tickSampled_unserved {i : TickIn} {s : State} : (tickSampled i s).faults.unserved = s.faults.unserved := by
  unfold tickSampled
  simp [tickFramed_unserved]

theorem reeveAction_unserved {f : Source} {s : State} :
    (reeveAction f s).faults.unserved = s.faults.unserved := by
  unfold reeveAction
  dsimp only
  repeat' split
  · rfl
  · simp
  · rfl
  · simp
  · simp
  · simp
  · simp
  · simp
  · rfl

theorem FSource.acted_unserved (x : FSource) :
    FSource.unserved { x with reaction := x.reaction.map fun (r : Reaction) => { r with acted := true } } = false := by
  unfold FSource.unserved
  cases x.reaction with
  | none => rfl
  | some r => cases h : r.action <;> simp [h]

/-- The reeve's action ends a wait, and begins none. -/
theorem unserved_of_interrupt {f g : Source} {s : State} (h : (interrupt f s).faults.unserved g = true) :
    s.faults.unserved g = true := by
  unfold interrupt at h
  split at h
  · rw [← reeveAction_unserved (f := f)]
    by_cases hg : g = f
    · subst hg
      rw [Faults.unserved, State.modSource_same] at h
      rw [FSource.acted_unserved] at h
      cases h
    · rwa [Faults.unserved, State.modSource_other hg] at h
  · exact h

theorem serveReactions_grows {s : State} (h : s.ringActionOwed = false) : Grows s (serveReactions s) := by
  have hfold : ∀ (l : List Source) (u : State), u.ringActionOwed = false →
      Grows u (l.foldl (fun s f =>
        if (s.awaits f).any fun r => !r.acted && decide (1 ≤ r.age) then interrupt f s else s) u) := by
    intro l
    induction l with
    | nil => exact fun u _ => Grows.refl u
    | cons f l ih =>
      intro u hu
      rw [List.foldl_cons]
      split
      · next hwaits =>
        have hf : ringSource f = false := by
          by_contra hring
          have hserved := ringActionOwed_eq_false.1 hu f (by simpa using hring)
          have hwait : u.faults.unserved f = true := by
            obtain ⟨r, hr, hdue⟩ := (Option.any_eq_true ..).1 hwaits
            rw [Bool.and_eq_true] at hdue
            exact (Option.any_eq_true ..).2 ⟨r, hr, hdue.1⟩
          rw [hserved] at hwait
          cases hwait
        refine (interrupt_calm hf).grows.trans (ih _ (ringActionOwed_eq_false.2 fun g hg => ?_))
        rw [Bool.eq_false_iff]
        exact fun hw => absurd (unserved_of_interrupt hw) (by rw [ringActionOwed_eq_false.1 hu g hg]; decide)
      · exact ih u hu
  unfold serveReactions
  split
  · exact hfold _ s h
  · exact Grows.refl s

theorem tickFrame_grows {fsync : Bool} {s : State} : Grows s (tickFrame fsync s) := by
  unfold tickFrame
  dsimp only
  split <;> exact grows_of_rings_eq rfl

theorem tickClock_grows {i : TickIn} {s : State} : Grows s (tickClock i s) :=
  grows_of_rings_eq (State.modCore_rings ..)

theorem tickFramed_grows {i : TickIn} {s : State} : Grows s (tickFramed i s) := by
  have h : Grows s ((postOwed (tickEntered i s)).modFaults Faults.release) :=
    tickEntered_calm_before.grows.trans
      (tickClock_grows.trans (postOwed_calm.trans (modFaults_calm ..)).grows)
  unfold tickFramed
  dsimp only
  split
  · exact h.trans tickFrame_grows
  · exact h

theorem tickReset_grows {i : TickIn} {s : State} : Grows s (tickReset i s) := by
  unfold tickReset
  exact Grows.trans (s := s.modCore fun c => { c with lt := c.lt + 1 }) (grows_of_rings_eq rfl)
    (modFaults_calm _ _).grows

theorem execTick_grows {i : TickIn} {s t : State} (howed : s.ringActionOwed = false)
    (h : execTick i s = .next t) : Grows s t := by
  unfold execTick at h
  cases h
  split
  · exact Grows.refl s
  · split
    · exact tickReset_grows
    · have hserved : (tickSampled i s).ringActionOwed = false := by
        rw [ringActionOwed_eq_false] at howed ⊢
        rwa [tickSampled_unserved]
      rw [tickPowered_eq]
      exact tickFramed_grows.trans (tickSampled_calm.grows.trans
        ((serveReactions_grows hserved).trans (digestLate_calm.trans writeStagedCal_calm).grows))

/-! ## All commands -/

theorem emptiesRings_of_restarts {c : Instr} (h : restarts c = true) : emptiesRings c = true := by
  obtain rfl | ⟨v, rfl⟩ | rfl | rfl | rfl := restarts_cases h <;> rfl

/-- Of the commands that leave LT without being calm, those that do not empty a ring. -/
theorem exec_grows_of_stirs {c : Instr} {s t : State} (hk : stirs c = true) (hc : emptiesRings c = false)
    (h : exec c s = .next t) : Grows s t := by
  cases c with
  | faultEvent f =>
    cases h
    exact (faultEvent_calm hc).grows
  | watchdogTimeout => exact (execWatchdogTimeout_calm h).grows
  | bootTimeout => exact (execBootTimeout_calm h).grows
  | graceExpiry f => exact (execGraceExpiry_calm hc h).grows
  | bootEnd => exact execBootEnd_grows h
  | stateRead r => cases hc
  | attnRead r => cases hc
  | busRead r => cases hc
  | sampleSluiceRead first n => cases hc
  | noticeSluiceRead first n => cases hc
  | liveValueRead first n => cases hc
  | ringClear n => cases hc
  | _ => cases hk

/-- Settles O23: all commands but TICK and the end of BOOT that are not named are calm, or calm but for the lock. -/
theorem entriesAreNeverOverwritten : Obligations.EntriesAreNeverOverwritten := by
  intro c s t hc htick h
  obtain ⟨i, rfl⟩ | hk | hk | hk | hk := command_kinds c
  · exact execTick_grows (htick i rfl) h
  · exact ⟨(exec_calmButLock hk h).samples, (exec_calmButLock hk h).notices⟩
  · exact absurd (emptiesRings_of_restarts hk) (by rw [hc]; decide)
  · exact exec_grows_of_stirs hk hc h
  · exact (exec_calm hk h).grows

end Sys2Proof.Machine
end

section
-- One declaration after another: the whole text is compiled as one file, within a limit on memory.
set_option Elab.async false
/-!
What a posting writes (spec/16, R344, Table 16-1): the bytes of the slot, the attention cause, and what waits no longer;
with the rings' commands (R314, R315, R490).
-/

namespace Sys2Proof.Machine

/-! ## Bytes -/

theorem leNat_toLE (n v : Nat) : leNat (toLE n v) = v % 256 ^ n := by
  induction n generalizing v with
  | zero => simp [toLE, leNat, Nat.mod_one]
  | succ n ih =>
    rw [toLE, leNat, ih, BitVec.toNat_ofNat, Nat.pow_succ' (m := 256), Nat.mod_mul]

theorem slotBytes_toList {l : List Byte} (h : l.length = 64) : (slotBytes l).toList = l := by
  apply List.ext_getElem
  · simp [h]
  · intro i hi hl
    simp only [slotBytes, Vector.toList_ofFn, List.getElem_ofFn]
    exact (List.getElem_eq_getD 0).symm

theorem overwrite_eq {l d : List Byte} {off : Nat} (h : off + d.length ≤ l.length) :
    overwrite l off d = l.take off ++ d ++ l.drop (off + d.length) := by
  rw [overwrite, List.take_of_length_le (by omega : d.length ≤ l.length - off)]

theorem slice_append_of_length {a b c : List Byte} {i n : Nat} (hi : a.length = i) (hn : b.length = n) :
    slice (a ++ (b ++ c)) i n = b := by
  subst hi hn
  rw [slice, List.drop_left, List.take_left]

theorem u8_append_of_length {a c : List Byte} {x : Byte} {i : Nat} (hi : a.length = i) :
    u8 (a ++ x :: c) i = x.toNat := by
  subst hi
  simp [u8]

/-- The 64 bytes of a slot after a posting, part by part (Table 16-1). -/
theorem Slot.posted_bytes {st : SlotState} {code : Byte} {d : Nat} {resp : List Byte} (h : resp.length ≤ 56) (x : Slot) :
    (x.posted st code d resp).bytes.toList =
      x.bytes.toList.take 4 ++ (code :: (BitVec.ofNat 8 resp.length :: (toLE 2 d ++ (resp ++
        x.bytes.toList.drop (8 + resp.length))))) := by
  have hlen : x.bytes.toList.length = 64 := Vector.length_toList
  have hhead : ([code, BitVec.ofNat 8 resp.length] ++ toLE 2 d).length = 4 := rfl
  have hfirst : (overwrite x.bytes.toList 4 ([code, BitVec.ofNat 8 resp.length] ++ toLE 2 d)).length = 64 := by
    rw [overwrite_length _ _ _ (by omega), hlen]
  have hsecond : (overwrite (overwrite x.bytes.toList 4 ([code, BitVec.ofNat 8 resp.length] ++ toLE 2 d)) 8
      resp).length = 64 := by
    rw [overwrite_length _ _ _ (by omega), hfirst]
  have htake : (x.bytes.toList.take 4).length = 4 := by rw [List.length_take]; omega
  unfold Slot.posted
  rw [slotBytes_toList hsecond, overwrite_eq (by omega), overwrite_eq (by omega)]
  have hsplit : (x.bytes.toList.take 4 ++ ([code, BitVec.ofNat 8 resp.length] ++ toLE 2 d)).length = 8 := by
    rw [List.length_append, htake, hhead]
  rw [List.take_left' hsplit, List.drop_append, List.drop_eq_nil_of_le (by rw [hsplit]; omega), hsplit, hhead,
    List.drop_drop, show 4 + 4 + (8 + resp.length - 8) = 8 + resp.length by omega]
  simp [toLE]

section
variable {st : SlotState} {code : Byte} {d : Nat} {resp : List Byte} (h : resp.length ≤ 56) (x : Slot)

theorem Slot.take_length : (x.bytes.toList.take 4).length = 4 := by
  rw [List.length_take, Vector.length_toList]
  rfl

include h

theorem Slot.posted_code : u8 (x.posted st code d resp).bytes.toList 4 = code.toNat := by
  rw [Slot.posted_bytes h]
  exact u8_append_of_length x.take_length

theorem Slot.posted_rlen : u8 (x.posted st code d resp).bytes.toList 5 = resp.length := by
  rw [Slot.posted_bytes h, List.append_cons, u8_append_of_length (by rw [List.length_append, x.take_length]; rfl),
    BitVec.toNat_ofNat]
  exact Nat.mod_eq_of_lt (by omega)

theorem Slot.posted_detail : u16 (x.posted st code d resp).bytes.toList 6 = d % 65536 := by
  rw [Slot.posted_bytes h, List.append_cons, List.append_cons, u16,
    slice_append_of_length (by simp) (toLE_length 2 d), leNat_toLE]
  rfl

theorem Slot.posted_response : slice (x.posted st code d resp).bytes.toList 8 resp.length = resp := by
  rw [Slot.posted_bytes h, List.append_cons, List.append_cons, ← List.append_assoc _ (toLE 2 d),
    slice_append_of_length (by simp [toLE_length]) rfl]

theorem Slot.posted_request : slice (x.posted st code d resp).bytes.toList 0 4 = slice x.bytes.toList 0 4 := by
  rw [Slot.posted_bytes h]
  exact slice_append_of_length (a := []) rfl x.take_length

end

/-! ## Postings -/

theorem postNow_done {n : SlotId} {st : Status} {d : Nat} {resp : List Byte} {s : State} :
    (postNow n st d resp s).mbox.slots[n]'n.isLt = (s.mbox.slots[n]'n.isLt).posted .done st.code d resp :=
  postNow_slot n st d resp s

/-- Settles O27, by the parts of the slot's bytes. -/
theorem postingIsOneTick : Obligations.PostingIsOneTick := by
  intro s n d resp hposts hd hresp
  refine ⟨fun st => ⟨_, rfl, ?_⟩, fun op p w f => ⟨_, rfl, ?_⟩⟩
  · have hslot : (post n st d resp s).mbox.slots[n]'n.isLt = (s.mbox.slots[n]'n.isLt).posted .done st.code d resp :=
      post_slot hposts st d resp
    rw [hslot]
    refine ⟨rfl, Slot.posted_code hresp _, Slot.posted_rlen hresp _, ?_, Slot.posted_response hresp _,
      Slot.posted_request hresp _, post_attn hposts st d resp, ?_, fun m hm => post_slot_ne hm st d resp s,
      by simp, by simp⟩
    · rw [Slot.posted_detail hresp, Nat.mod_eq_of_lt hd]
    · intro x hx
      rw [post_pend, List.mem_filter] at hx
      exact bne_iff_ne.1 hx.2
  · have hslot : (pendOn n op p w f s).mbox.slots[n]'n.isLt =
        (s.mbox.slots[n]'n.isLt).posted .pending Status.pending.code 0 (toLE 4 f.toNat) := pendOn_slot n op p w f s
    have hframe : (toLE 4 f.toNat).length ≤ 56 := by rw [toLE_length]; omega
    rw [hslot]
    refine ⟨rfl, Slot.posted_code hframe _, ?_, pendOn_pend n op p w f s, by simp, fun m hm => ?_⟩
    · have hresp := Slot.posted_response (st := .pending) (code := Status.pending.code) (d := 0) hframe (s.mbox.slots[n]'n.isLt)
      rw [toLE_length] at hresp
      rw [u32, hresp, leNat_toLE]
      exact Nat.mod_eq_of_lt f.isLt
    · have hne : n.val ≠ m.val := fun e => hm (Fin.ext e.symm)
      simp [pendOn, postPending, State.modSlot, hne]

end Sys2Proof.Machine
end

section
-- One declaration after another: the whole text is compiled as one file, within a limit on memory.
set_option Elab.async false
/-!
The rings' own commands and their gap markers (spec/14, R298 to R305, R314, R315, R490).
-/

namespace Sys2Proof.Machine

/-! ## Requests -/

/-- A request of a row's command: the row's effect is taken. -/
theorem onSlot_request {n : SlotId} {op : Nat} {f : List Byte → State → State} {s : State} {p : List Byte}
    (h : s.request n op p) : onSlot n op f s = f p s := onSlot_eq h.1 h.2

theorem posts_of_reeveActive {s : State} (h : s.reeveActive = true) : s.posts = true := by
  simp only [State.reeveActive, Bool.and_eq_true] at h
  obtain ⟨⟨⟨⟨⟨hruns, hdoze⟩, -⟩, hposted⟩, -⟩, -⟩ := h
  simp [State.posts, hruns, hposted, Bool.not_eq_true' _ ▸ hdoze]

/-- A row that is not the hardware's acts while the reeve executes. -/
theorem reeveActive_of_request {n : SlotId} {op : Nat} {s : State} {p : List Byte} (h : s.request n op p)
    (hack : op ≠ 0x0802) (hclear : op ≠ 0x0C01) : s.reeveActive = true := by
  have hruns := h.1
  simp only [State.runs, Bool.and_eq_true, Bool.or_eq_true, beq_iff_eq] at hruns
  obtain ⟨-, (hactive | e) | e⟩ := hruns
  · exact hactive
  · exact absurd e hack
  · exact absurd e hclear

theorem posts_of_request {n : SlotId} {op : Nat} {s : State} {p : List Byte} (h : s.request n op p)
    (hack : op ≠ 0x0802) (hclear : op ≠ 0x0C01) : s.posts = true :=
  posts_of_reeveActive (reeveActive_of_request h hack hclear)

theorem postStatus_done {n : SlotId} {s : State} {st : Status} (h : s.posts = true) :
    ((postStatus n st s).mbox.slots[n]'n.isLt).st = .done ∧
      u8 ((postStatus n st s).mbox.slots[n]'n.isLt).bytes.toList 4 = st.code.toNat := by
  have hslot : (postStatus n st s).mbox.slots[n]'n.isLt = (s.mbox.slots[n]'n.isLt).posted .done st.code 0 [] :=
    post_slot h st 0 []
  rw [hslot]
  exact ⟨rfl, Slot.posted_code (Nat.zero_le _) _⟩

/-! ## RING.CLEAR -/

section
variable (b : Nat) (r : Rings)

theorem Rings.clear_sseq : (r.clear b).sseq = r.sseq := by
  unfold Rings.clear Rings.rearm
  dsimp only
  repeat' split
  all_goals rfl

theorem Rings.clear_nseq : (r.clear b).nseq = r.nseq := by
  unfold Rings.clear Rings.rearm
  dsimp only
  repeat' split
  all_goals rfl

theorem Rings.clear_water : (r.clear b).water = r.water := by
  unfold Rings.clear Rings.rearm
  dsimp only
  repeat' split
  all_goals rfl

theorem Rings.clear_counters :
    ((r.clear b).sdrop, (r.clear b).ndrop, (r.clear b).nalost) =
      if b.testBit 0 then (0, 0, 0) else (r.sdrop, r.ndrop, r.nalost) := by
  unfold Rings.clear Rings.rearm
  dsimp only
  repeat' split
  all_goals rfl

theorem Rings.clear_samples :
    ((r.clear b).sample, (r.clear b).sgap) = if b.testBit 1 then ([], none) else (r.sample, r.sgap) := by
  unfold Rings.clear Rings.rearm
  dsimp only
  repeat' split
  all_goals rfl

theorem Rings.clear_notices :
    ((r.clear b).notice, (r.clear b).ngap) = if b.testBit 2 then ([], none) else (r.notice, r.ngap) := by
  unfold Rings.clear Rings.rearm
  dsimp only
  repeat' split
  all_goals rfl

end

theorem execRingClear_eq {n : SlotId} {p : List Byte} {s : State} (h : s.request n 0x0C01 p) (hp : u8 p 0 < 8) :
    execRingClear n s = .next (postStatus n .ok (s.modRings (Rings.clear (u8 p 0)))) := by
  unfold execRingClear
  rw [onSlot_request h, if_neg (not_not.2 (Nat.div_eq_of_lt hp))]

/-- Settles O28: the three parts of the effect are those of `Rings.clear`. -/
theorem ringClear : Obligations.RingClear := by
  intro s n p h hp
  refine ⟨_, execRingClear_eq h hp, postStatus_done (s := s.modRings _), ?_⟩
  rw [postStatus_rings, State.modRings_rings]
  have hcounters := s.rings.clear_counters (u8 p 0)
  have hsamples := s.rings.clear_samples (u8 p 0)
  have hnotices := s.rings.clear_notices (u8 p 0)
  refine ⟨Rings.clear_sseq .., Rings.clear_nseq .., Rings.clear_water .., ?_, ?_, ?_, ?_, ?_, ?_, ?_⟩
  · intro hb
    simpa [hb] using hcounters
  · intro hb
    simpa [hb] using hcounters
  · intro hb
    simpa [hb] using hsamples
  · intro hb
    simpa [hb] using hsamples
  · intro hb
    simpa [hb] using hnotices
  · intro hb
    simpa [hb] using hnotices
  · intro hboot
    simp [State.immediate, hboot]

/-! ## RING.WATER -/

theorem execRingWater_eq {n : SlotId} {p : List Byte} {s : State} (h : s.request n 0x0C02 p) (hlo : 1 ≤ u16 p 0)
    (hhi : u16 p 0 ≤ 8192) : execRingWater n s = .next (postStatus n .ok (applyRingWater p s)) := by
  have hfault : ringWaterFault p = none := if_neg (by omega)
  unfold execRingWater
  rw [onSlot_request h, hfault]
  rfl

theorem applyRingWater_posts {p : List Byte} {s : State} : (applyRingWater p s).posts = s.posts := by
  unfold applyRingWater
  split
  · rw [State.posts, attn_core]
    rfl
  · rfl

/-- The entry with which SLEVEL rises to the watermark sets the cause and disarms it (R315). -/
theorem pushSample_reaches_water {v : W24} {tag fl : Byte} {s : State} (harmed : s.rings.armed = true)
    (hlevel : s.rings.sample.length + 1 = s.rings.water) :
    (pushSample v tag fl s).bus.attn.getLsbD 3 = true ∧ (pushSample v tag fl s).rings.armed = false := by
  have hreach : (pushSample v tag fl s).rings.armed = false ∧
      (pushSample v tag fl s).bus.attn = s.bus.attn ||| Cause.sWater.mask := by
    unfold pushSample
    dsimp only
    rw [if_pos (by simp [harmed, hlevel])]
    simp
  exact ⟨by rw [hreach.2, BitVec.getLsbD_or]; exact Bool.or_true _, hreach.1⟩

/-- Settles O29, by whether SLEVEL lies at the new watermark. -/
theorem ringWater : Obligations.RingWater := by
  intro s n p h hlo hhi
  have hposts : (applyRingWater p s).posts = true :=
    applyRingWater_posts.trans (posts_of_request h (by decide) (by decide))
  have hattn : (postStatus n .ok (applyRingWater p s)).bus.attn = (applyRingWater p s).bus.attn ||| 0x10 :=
    post_attn hposts ..
  refine ⟨fun hlevel => ⟨_, execRingWater_eq h hlo hhi, ?_⟩, fun hlevel => ⟨_, execRingWater_eq h hlo hhi, ?_⟩, ?_⟩
  · have heq : applyRingWater p s = attn .sWater (s.modRings fun r => { r with water := u16 p 0, armed := false }) :=
      if_pos hlevel
    rw [postStatus_rings, hattn, heq]
    refine ⟨by simp, ?_, by simp, by simp, ?_⟩
    · rw [attn_attn, BitVec.getLsbD_or, BitVec.getLsbD_or]
      simp [Cause.mask, Cause.bit]
    · exact (postStatus_done (heq ▸ hposts)).1
  · have heq : applyRingWater p s = s.modRings fun r => { r with water := u16 p 0, armed := true } :=
      if_neg (by omega)
    rw [postStatus_rings, hattn]
    refine ⟨by rw [heq]; rfl, by rw [heq]; rfl, by rw [heq]; rfl, by rw [heq]; rfl, (postStatus_done hposts).1, ?_⟩
    intro v tag fl hreach
    refine pushSample_reaches_water ?_ ?_
    · rw [postStatus_rings, heq]
      rfl
    · rw [postStatus_rings, hreach, heq]
      rfl
  · intro r hr
    simp [Rings.rearm, hr]

/-! ## Gap markers -/

theorem BitVec.toNat_div_mod {w : Nat} (e : BitVec w) (k m : Nat) :
    e.toNat / 2 ^ k % 2 ^ m = ((e >>> k).setWidth m).toNat := by
  rw [BitVec.toNat_setWidth, BitVec.toNat_ushiftRight, Nat.shiftRight_eq_div_pow]

theorem sampleEntry_value (s : State) (v : W24) (tag fl : Byte) : (sampleEntry s v tag fl).setWidth 24 = v := by
  apply BitVec.eq_of_getLsbD_eq
  intro i hi
  have h24 : i < 24 := hi
  simp [sampleEntry, h24]

theorem sampleEntry_tag (s : State) (v : W24) (tag fl : Byte) :
    ((sampleEntry s v tag fl) >>> 24).setWidth 8 = tag := by
  apply BitVec.eq_of_getLsbD_eq
  intro i hi
  have h8 : i < 8 := hi
  simp [sampleEntry, h8, show 24 + i < 32 by omega, show 24 + i < 40 by omega, show 24 + i < 50 by omega,
    show 24 + i < 56 by omega, show 24 + i < 64 by omega]

theorem pushSample_rings (v : W24) (tag fl : Byte) (s : State) :
    ∃ armed, (pushSample v tag fl s).rings = { s.rings with
      sample := s.rings.sample ++ [sampleEntry s v tag fl], sseq := s.rings.sseq + 1
      swr := (s.rings.swr + 1) % 8192, armed } := by
  unfold pushSample
  dsimp only
  split
  · exact ⟨false, by simp⟩
  · exact ⟨s.rings.armed, rfl⟩

theorem getElem_ofNat_eq_testBit {w n i : Nat} (h : i < w) : (BitVec.ofNat w n)[i] = n.testBit i := by
  rw [← BitVec.getLsbD_eq_getElem, BitVec.getLsbD_ofNat, decide_eq_true h, Bool.true_and]

theorem noticeEntry_code (s : State) (code : W16) (kind : Nat) (args : W64) :
    (noticeEntry s code kind args).setWidth 16 = code := by
  apply BitVec.eq_of_getLsbD_eq
  intro i hi
  have h16 : i < 16 := hi
  simp [noticeEntry, h16]

theorem noticeEntry_kind (s : State) (code : W16) (kind : Nat) (args : W64) :
    ((noticeEntry s code kind args) >>> 24).setWidth 2 = BitVec.ofNat 2 kind := by
  apply BitVec.eq_of_getLsbD_eq
  intro i hi
  have h2 : i < 2 := hi
  have hcode : code.getLsbD (24 + i) = false := BitVec.getLsbD_of_ge _ _ (by omega)
  have hseq : s.rings.nseq.getLsbD (24 + i - 16) = false := BitVec.getLsbD_of_ge _ _ (by omega)
  have hkind : (kind % 4).testBit i = kind.testBit i := by
    rw [show 4 = 2 ^ 2 from rfl, Nat.testBit_mod_two_pow, decide_eq_true h2, Bool.true_and]
  simp [noticeEntry, getElem_ofNat_eq_testBit, h2, hcode, hseq, hkind, show 24 + i < 32 by omega, show 24 + i < 42 by omega,
    show 24 + i < 64 by omega, show 24 + i < 128 by omega]

theorem noticeEntry_args (s : State) (code : W16) (kind : Nat) (args : W64) :
    ((noticeEntry s code kind args) >>> 64).setWidth 64 = args := by
  apply BitVec.eq_of_getLsbD_eq
  intro i hi
  have h64 : i < 64 := hi
  have hcode : code.getLsbD (64 + i) = false := BitVec.getLsbD_of_ge _ _ (by omega)
  have hseq : s.rings.nseq.getLsbD (64 + i - 16) = false := BitVec.getLsbD_of_ge _ _ (by omega)
  have hbit : ∀ (x k m : Nat), x % 2 ^ m < 2 ^ m → k + m ≤ 64 → (x % 2 ^ m).testBit (64 + i - k) = false :=
    fun x k m hx hk => Nat.testBit_lt_two_pow (lt_of_lt_of_le hx (Nat.pow_le_pow_right (by decide) (by omega)))
  have hkind := hbit kind 24 2 (Nat.mod_lt _ (by decide)) (by decide)
  have htick := hbit s.frame.tick 32 10 (Nat.mod_lt _ (by decide)) (by decide)
  have hframe := hbit s.frame.number.toNat 42 22 (Nat.mod_lt _ (by decide)) (by decide)
  norm_num at hkind htick hframe
  simp [noticeEntry, getElem_ofNat_eq_testBit, h64, hcode, hseq, hkind, htick, hframe, show 64 + i < 128 by omega]

theorem pushNotice_rings (code : W16) (kind : Nat) (args : W64) (s : State) :
    (pushNotice code kind args s).rings = { s.rings with
      notice := s.rings.notice ++ [noticeEntry s code kind args], nseq := s.rings.nseq + 1
      nwr := (s.rings.nwr + 1) % 512 } := by
  unfold pushNotice
  dsimp only
  split
  · simp
  · rfl

theorem noticeEntry_argW (s : State) (code : W16) (kind n : Nat) :
    (noticeEntry s code kind (argW 0 n)).toNat / 2 ^ 64 % 2 ^ 32 = n % 2 ^ 32 := by
  have hmod : ∀ x : Nat, x % 2 ^ 32 = x % 2 ^ 64 % 2 ^ 32 := fun x =>
    (Nat.mod_mod_of_dvd x (by decide)).symm
  rw [hmod, BitVec.toNat_div_mod, noticeEntry_args, argW]
  simp [Nat.mod_mod_of_dvd]

/-- A SAMPLE gap's marker (R302). -/
theorem sampleGap_due {s : State} {k : Nat} (hgap : s.rings.sgap = some k) (hdue : s.rings.gapDue = true)
    (hopen : s.ringOpen = true) (hroom : s.rings.sample.length < 8192) :
    sampleGap s = pushSample (BitVec.ofNat 24 (satNat 0xFFFFFF k)) 0xFF 0
      (s.modRings fun r => { r with sgap := none, gapDue := false }) := by
  unfold sampleGap
  rw [hgap]
  exact if_pos (by simp [hdue, hopen, hroom])

theorem sampleGap_not_due {s : State}
    (h : s.rings.sgap = none ∨ s.rings.gapDue = false ∨ s.ringOpen = false ∨ 8192 ≤ s.rings.sample.length) :
    sampleGap s = s := by
  unfold sampleGap
  split
  · next k hgap =>
    refine if_neg fun hdue => ?_
    simp only [Bool.and_eq_true, decide_eq_true_eq] at hdue
    obtain ⟨⟨hdue, hopen⟩, hroom⟩ := hdue
    obtain h | h | h | h := h
    · rw [hgap] at h
      cases h
    · rw [hdue] at h
      cases h
    · rw [hopen] at h
      cases h
    · omega
  · rfl

/-- A NOTICE gap's marker (R304). -/
theorem noticeGap_due {s : State} {k : Nat} (hgap : s.rings.ngap = some k) (hroom : s.rings.notice.length < 480) :
    noticeGap s = pushNoticeGap k s := by
  unfold noticeGap
  rw [hgap]
  exact if_pos hroom

theorem noticeGap_not_due {s : State} (h : s.rings.ngap = none ∨ 480 ≤ s.rings.notice.length) : noticeGap s = s := by
  unfold noticeGap
  split
  · next k hgap =>
    refine if_neg fun hroom => ?_
    obtain h | h := h
    · rw [hgap] at h
      cases h
    · omega
  · rfl

/-- Settles O32: the markers are what `sampleGap` and `noticeGap` push. -/
theorem gapMarkers : Obligations.GapMarkers := by
  intro s
  refine ⟨fun k hgap hdue hopen hroom => ?_, fun h => ?_, fun k hgap hroom hoff hboot => ?_, fun h => ?_⟩
  · obtain ⟨armed, hrings⟩ := pushSample_rings (BitVec.ofNat 24 (satNat 0xFFFFFF k)) 0xFF 0
      (s.modRings fun r => { r with sgap := none, gapDue := false })
    refine ⟨_, sampleEntry (s.modRings fun r => { r with sgap := none, gapDue := false })
      (BitVec.ofNat 24 (satNat 0xFFFFFF k)) 0xFF 0, congrArg Host.Outcome.next (sampleGap_due hgap hdue hopen hroom), ?_⟩
    rw [hrings]
    refine ⟨rfl, ?_, ?_, rfl, rfl, rfl, rfl⟩
    · rw [← BitVec.toNat_setWidth, sampleEntry_value, BitVec.toNat_ofNat]
      exact Nat.mod_eq_of_lt (by rw [satNat]; omega)
    · rw [show (256 : Nat) = 2 ^ 8 from rfl, BitVec.toNat_div_mod, sampleEntry_tag]
      rfl
  · exact congrArg Host.Outcome.next (sampleGap_not_due h)
  · have hexec : execNoticeGapMarker s = .next (pushNoticeGap k s) := by
      unfold execNoticeGapMarker
      rw [if_neg (by simp [hoff, hboot]), noticeGap_due hgap hroom]
    refine ⟨_, noticeEntry (s.modRings fun r => { r with ngap := none }) 0x0C01 3 (argW 0 (satNat 0xFFFFFFFF k)),
      hexec, ?_⟩
    rw [pushNoticeGap, pushNotice_rings]
    refine ⟨rfl, ?_, ?_, ?_, rfl, rfl, rfl⟩
    · rw [show (65536 : Nat) = 2 ^ 16 from rfl, ← BitVec.toNat_setWidth, noticeEntry_code]
      rfl
    · rw [show (4 : Nat) = 2 ^ 2 from rfl, BitVec.toNat_div_mod, noticeEntry_kind]
      rfl
    · rw [noticeEntry_argW]
      exact Nat.mod_eq_of_lt (by rw [satNat]; omega)
  · change execNoticeGapMarker s = .next s
    unfold execNoticeGapMarker
    split
    · rfl
    · next hdev =>
      rw [noticeGap_not_due]
      rw [not_or] at hdev
      obtain h | h | h | h := h
      · exact .inl h
      · exact .inr h
      · exact absurd h hdev.1
      · exact absurd h hdev.2

end Sys2Proof.Machine
end

section
-- One declaration after another: the whole text is compiled as one file, within a limit on memory.
set_option Elab.async false
/-!
The start of BOOT (spec/22), the order of a tick's events (Table 2-2), and the bus port: straps, START and STOP,
timeouts, the attention machine (spec/15).
-/

namespace Sys2Proof.Machine

/-! ## Reset -/

/-- Settles O19: each field is the default of its record, and the vectors hold one value everywhere. -/
theorem resetState : Obligations.ResetState := by
  refine ⟨rfl, rfl, rfl, rfl, rfl, rfl, rfl, rfl, rfl, rfl, rfl, rfl, rfl, rfl, fun n => ?_, rfl, rfl, rfl,
    fun f => ?_, fun p => ?_, rfl, rfl⟩
  · exact congrArg Slot.st (Vector.getElem_replicate ..)
  · have hsrc : State.reset.faults.src[f]'f.isLt = FSource.default f := Vector.getElem_ofFn ..
    rw [hsrc]
    exact ⟨rfl, rfl⟩
  · exact congrArg Port.state (Vector.getElem_ofFn ..)

/-! ## The order of a tick's events -/

theorem before_total (s : State) (a b : Instr) : s.before a b = true ∨ s.before b a = true := by
  rw [before_iff, before_iff]
  omega

theorem before_trans {s : State} {a b c : Instr} (hab : s.before a b = true) (hbc : s.before b c = true) :
    s.before a c = true := by
  rw [before_iff] at *
  omega

/-- The tick's events are sorted by class, then by source. -/
theorem inOrder_pairwise (s : State) (evs : List Instr) :
    (s.inOrder evs).Pairwise fun a b => s.before a b = true := by
  have htotal : Std.Total fun a b => s.before a b = true := ⟨before_total s⟩
  have htrans : IsTrans Instr fun a b => s.before a b = true := ⟨fun _ _ _ => before_trans⟩
  exact List.pairwise_insertionSort (fun a b => s.before a b = true) evs

theorem place_dbellWrite_lowest {s : State} {n : SlotId} {v : Byte} (h : v.getLsbD n.val = true)
    (hlow : ∀ m : SlotId, m < n → v.getLsbD m.val = false) : s.place (.dbellWrite v) = (.doorbells, n.val) := by
  rw [place_dbellWrite]
  match n with
  | 0 => rw [if_pos (c := v.getLsbD 0 = true) h]; rfl
  | 1 => rw [if_neg (by simpa using hlow 0 (by decide)), if_pos (c := v.getLsbD 1 = true) h]; rfl
  | 2 => rw [if_neg (by simpa using hlow 0 (by decide)), if_neg (by simpa using hlow 1 (by decide)), if_pos (c := v.getLsbD 2 = true) h]; rfl
  | 3 =>
    rw [if_neg (by simpa using hlow 0 (by decide)), if_neg (by simpa using hlow 1 (by decide)),
      if_neg (by simpa using hlow 2 (by decide))]
    rfl

/-- Settles O60: the queue is the insertion sort of the events by place, and the places are Table 2-2's. -/
theorem tickEventsInOrder : Obligations.TickEventsInOrder := by
  refine ⟨fun i evs s => ⟨s.inOrder evs, rfl, List.perm_insertionSort _ _, ?_⟩, by decide, fun s => ?_⟩
  · exact (inOrder_pairwise s evs).imp fun h => (before_iff s _ _).mp h
  · refine ⟨fun _ => rfl, fun _ => ⟨rfl, rfl⟩, fun f h => ?_, fun _ _ _ => ⟨rfl, rfl⟩, fun f h => ?_, fun _ => rfl,
      fun _ => ⟨rfl, rfl⟩, rfl, rfl, fun _ _ => ⟨rfl, rfl⟩, rfl, fun _ => rfl, fun p i l h => ?_, fun x e l he hl => ?_,
      fun n v h hlow => place_dbellWrite_lowest h hlow, fun _ => rfl⟩
    · rw [place_faultEvent, if_pos h]
    · rw [place_faultEvent, if_neg h]
    · rw [place_windowComplete, h]
      rfl
    · rw [place_conversionComplete, he]
      simp [hl]

/-! ## Straps (R320) -/

theorem strapCode_le (a b c : Bool) : strapCode a b c ≤ 3 := by
  cases a <;> cases b <;> cases c <;> decide

/-- The address has room for the three codes (R320). -/
theorem strapAddr_toNat (idle start low : BitVec 3) : (strapAddr idle start low).toNat =
    0x10 + strapCode (idle.getLsbD 0) (start.getLsbD 0) (low.getLsbD 0) +
      4 * strapCode (idle.getLsbD 1) (start.getLsbD 1) (low.getLsbD 1) +
      16 * strapCode (idle.getLsbD 2) (start.getLsbD 2) (low.getLsbD 2) := by
  have h0 := strapCode_le (idle.getLsbD 0) (start.getLsbD 0) (low.getLsbD 0)
  have h1 := strapCode_le (idle.getLsbD 1) (start.getLsbD 1) (low.getLsbD 1)
  have h2 := strapCode_le (idle.getLsbD 2) (start.getLsbD 2) (low.getLsbD 2)
  unfold strapAddr
  dsimp only
  rw [BitVec.toNat_ofNat]
  exact Nat.mod_eq_of_lt (by omega)

theorem strapAddr_bounds (idle start low : BitVec 3) :
    0x10 ≤ (strapAddr idle start low).toNat ∧ (strapAddr idle start low).toNat ≤ 0x4F := by
  have h0 := strapCode_le (idle.getLsbD 0) (start.getLsbD 0) (low.getLsbD 0)
  have h1 := strapCode_le (idle.getLsbD 1) (start.getLsbD 1) (low.getLsbD 1)
  have h2 := strapCode_le (idle.getLsbD 2) (start.getLsbD 2) (low.getLsbD 2)
  rw [strapAddr_toNat]
  omega

theorem execBusStartCondition_sensed {s : State} (h : s.busSensed = true) (idle start low : BitVec 3) :
    exec (.busStartCondition idle start low) s =
      .next (classStraps (strapAddr idle start low) (s.modBus Bus.startSeen)) :=
  congrArg Host.Outcome.next (if_pos h)

/-- Settles O36: the address is a number in base 4 with the three codes as its digits. -/
theorem strapsGiveTheAddress : Obligations.StrapsGiveTheAddress := by
  refine ⟨by decide, fun idle start low => ?_⟩
  have haddr := strapAddr_toNat idle start low
  obtain ⟨hlo, hhi⟩ := strapAddr_bounds idle start low
  refine ⟨haddr, hlo, hhi, fun s hsensed hfirst => ⟨_, execBusStartCondition_sensed hsensed idle start low, ?_⟩⟩
  have hclass : classStraps (strapAddr idle start low) (s.modBus Bus.startSeen) =
      (s.modBus Bus.startSeen).modBus fun b => { b with addr := strapAddr idle start low, addrValid := true } :=
    if_pos (by simp [Bus.startSeen, hfirst])
  rw [hclass]
  exact ⟨rfl, haddr⟩

/-! ## What a cause and a notice leave of the bus port -/

/-- A cause set in ATTN changes the bus port in the cause, the machine and its count of failures alone. -/
theorem Bus.setCause_keeps {α : Type} {f : Bus → α}
    (hf : ∀ (b : Bus) a m r, f { b with attn := a, machine := m, failRun := r } = f b) (now : W64) (m : W16) (b : Bus) :
    f (b.setCause now m) = f b := by
  unfold Bus.setCause
  split
  · rfl
  · dsimp only
    split
    · exact hf b _ b.machine b.failRun
    · split
      · exact hf b _ _ b.failRun
      · unfold Bus.maskedRise
        split
        · exact hf b _ _ _
        · exact hf b _ _ _
        · exact hf b _ b.machine b.failRun
        · exact hf b _ b.machine b.failRun

theorem attn_keeps_bus {α : Type} {f : Bus → α}
    (hf : ∀ (b : Bus) a m r, f { b with attn := a, machine := m, failRun := r } = f b) (c : Cause) (s : State) :
    f (attn c s).bus = f s.bus :=
  Bus.setCause_keeps hf _ _ _

theorem pushNotice_keeps_bus {α : Type} {f : Bus → α}
    (hf : ∀ (b : Bus) a m r, f { b with attn := a, machine := m, failRun := r } = f b)
    (code : W16) (k : Nat) (args : W64) (s : State) : f (pushNotice code k args s).bus = f s.bus := by
  unfold pushNotice
  dsimp only
  split
  · exact attn_keeps_bus hf ..
  · rfl

theorem noticeGap_keeps_bus {α : Type} {f : Bus → α}
    (hf : ∀ (b : Bus) a m r, f { b with attn := a, machine := m, failRun := r } = f b) (s : State) :
    f (noticeGap s).bus = f s.bus := by
  unfold noticeGap pushNoticeGap
  split
  · split
    · exact pushNotice_keeps_bus hf ..
    · rfl
  · rfl

/-- A notice changes the bus port only as the causes do that it sets. -/
theorem notice_keeps_bus {α : Type} {f : Bus → α}
    (hf : ∀ (b : Bus) a m r, f { b with attn := a, machine := m, failRun := r } = f b)
    (code : W16) (k : Kind) (args : W64) (s : State) : f (notice code k args s).bus = f s.bus := by
  unfold notice
  split
  · rfl
  · rfl
  · unfold emitNotice
    split
    · dsimp only
      split
      · exact (pushNotice_keeps_bus hf ..).trans (noticeGap_keeps_bus hf s)
      · exact noticeGap_keeps_bus hf s
    · split
      · exact (attn_keeps_bus hf ..).trans (pushNotice_keeps_bus hf ..)
      · rfl
    · split
      · exact (attn_keeps_bus hf ..).trans (pushNotice_keeps_bus hf ..)
      · rfl

/-! ## START, STOP, timeouts, the digest check -/

theorem Bus.startSeen_addr (b : Bus) : b.startSeen.addr = b.addr := rfl
theorem Bus.startSeen_addrValid (b : Bus) : b.startSeen.addrValid = b.addrValid := rfl

theorem classStraps_same {s : State} {a : BitVec 7} (hvalid : s.bus.addrValid = true) (h : a = s.bus.addr) :
    classStraps a s = s := by
  unfold classStraps
  rw [hvalid, if_neg (by decide), if_neg (not_not.mpr h.symm)]

theorem classStraps_other {s : State} {a : BitVec 7} (hvalid : s.bus.addrValid = true) (h : a ≠ s.bus.addr) :
    classStraps a s = notice 0x0103 .ordinary (argB 0 a.toNat) (s.modBus fun b => { b with addrMis := true }) := by
  unfold classStraps
  rw [hvalid, if_neg (by decide), if_pos (Ne.symm h)]

theorem Bus.stopSeen_eq (now : W64) (b : Bus) : b.stopSeen now =
    if b.wait = .forStop ∨ b.wait = .forFree then
      { b with busy := false, inTrans := false, wait := .backoff, backoffFrom := now }
    else { b with busy := false, inTrans := false } := rfl

theorem Bus.freed_eq (now : W64) (b : Bus) : b.freed now =
    if b.wait = .forFree then { b with busy := false, wait := .backoff, backoffFrom := now }
    else { b with busy := false } := rfl

theorem takesPart_of {s : State} (hsensed : s.busSensed = true) (hin : s.bus.inTrans = true) : s.takesPart = true := by
  rw [State.takesPart, hsensed, hin]
  rfl

/-- What a timeout leaves (R330, R331): the flag is `f`'s, the rest is the timeout's. -/
theorem busTimeout_attn (f : Bus → Bus) (s : State) (h : (f s.bus).attn = s.bus.attn) :
    (busTimeout f s).bus.attn = s.bus.attn ||| 0x100 := by
  rw [busTimeout, attn_attn]
  exact congrArg (· ||| _) h

theorem busTimeout_bus {α : Type} {g : Bus → α}
    (hg : ∀ (b : Bus) a m r, g { b with attn := a, machine := m, failRun := r } = g b) (f : Bus → Bus) (s : State) :
    g (busTimeout f s).bus = g { f s.bus with busy := true, inTrans := false, rdata := [] } :=
  attn_keeps_bus hg ..

@[simp] theorem busTimeout_core (f : Bus → Bus) (s : State) : (busTimeout f s).core = s.core := by simp [busTimeout]
@[simp] theorem busTimeout_rings (f : Bus → Bus) (s : State) : (busTimeout f s).rings = s.rings := by simp [busTimeout]
@[simp] theorem busTimeout_mbox (f : Bus → Bus) (s : State) : (busTimeout f s).mbox = s.mbox := by simp [busTimeout]

theorem execSclTimeout_of_part {s : State} (h : s.takesPart = true) :
    exec .sclTimeout s = .next (busTimeout (fun b => { b with toutScl := true }) s) :=
  congrArg Host.Outcome.next (if_pos h)

theorem execSdaTimeout_of_part {s : State} (h : s.takesPart = true) :
    exec .sdaTimeout s = .next (busTimeout (fun b => { b with toutSda := true }) s) :=
  congrArg Host.Outcome.next (if_pos h)

theorem timeouts_of_no_part {s : State} (h : s.takesPart = false) :
    exec .sclTimeout s = .next s ∧ exec .sdaTimeout s = .next s :=
  ⟨congrArg Host.Outcome.next (if_neg (by simp [h])), congrArg Host.Outcome.next (if_neg (by simp [h]))⟩

section
variable {s : State} {data : List Byte} (htakes : s.takesGeneralCalls = true)
include htakes

theorem execDigestCheck_compared (hlen : data.length = 12) (hruns : s.core.reeveRuns = true) :
    exec (.digestCheck data) s = .next (compareDigest data s) := by
  change execDigestCheck data s = _
  unfold execDigestCheck
  rw [htakes, if_neg (by decide), if_neg (not_not.mpr hlen), if_pos hruns]

theorem execDigestCheck_kept (hlen : data.length = 12) (hruns : s.core.reeveRuns = false) :
    exec (.digestCheck data) s = .next (s.modBus fun b => { b with digestAsked := some data }) := by
  change execDigestCheck data s = _
  unfold execDigestCheck
  rw [htakes, if_neg (by decide), if_neg (not_not.mpr hlen), if_neg (by simp [hruns])]

theorem execDigestCheck_ignored (hlen : data.length ≠ 12) :
    exec (.digestCheck data) s = .next (s.modBus fun b => { b with inTrans := true }) := by
  change execDigestCheck data s = _
  unfold execDigestCheck
  rw [htakes, if_neg (by decide), if_pos hlen]
  rfl

end

/-- Settles O37: each event of the bus by the equation of its command. -/
theorem busEvents : Obligations.BusEvents := by
  intro s
  refine ⟨fun hsensed => ⟨fun idle st low hvalid => ⟨fun heq => ?_, fun hne => ?_⟩, ?_, ?_⟩, fun hsensed hin => ?_,
    fun hin => ?_, fun hsensed a b c => ?_, fun data htakes hruns hlen => ?_, fun data htakes hruns hlen => ?_,
    fun data htakes hlen => execDigestCheck_ignored htakes hlen⟩
  · rw [execBusStartCondition_sensed hsensed, classStraps_same (s := s.modBus Bus.startSeen) hvalid heq]
    rfl
  · rw [execBusStartCondition_sensed hsensed, classStraps_other (s := s.modBus Bus.startSeen) hvalid hne]
    refine ⟨_, rfl, ?_, ?_, ?_, by simp, by simp⟩
    · rw [notice_keeps_bus (f := Bus.addrMis) fun _ _ _ _ => rfl]
      rfl
    · rw [notice_keeps_bus (f := Bus.addr) fun _ _ _ _ => rfl]
      rfl
    · rw [notice_keeps_bus (f := Bus.busy) fun _ _ _ _ => rfl]
      rfl
  · exact congrArg Host.Outcome.next (if_pos hsensed)
  · exact congrArg Host.Outcome.next (if_pos hsensed)
  · have hpart := takesPart_of hsensed hin
    refine ⟨⟨_, execSclTimeout_of_part hpart, busTimeout_bus (g := Bus.toutScl) (fun _ _ _ _ => rfl) _ s,
        busTimeout_bus (g := Bus.toutSda) (fun _ _ _ _ => rfl) _ s, busTimeout_attn _ s rfl,
        busTimeout_bus (g := Bus.busy) (fun _ _ _ _ => rfl) _ s,
        busTimeout_bus (g := Bus.inTrans) (fun _ _ _ _ => rfl) _ s,
        busTimeout_bus (g := Bus.rdata) (fun _ _ _ _ => rfl) _ s, by simp, by simp, by simp⟩,
      ⟨_, execSdaTimeout_of_part hpart, busTimeout_bus (g := Bus.toutSda) (fun _ _ _ _ => rfl) _ s,
        busTimeout_bus (g := Bus.toutScl) (fun _ _ _ _ => rfl) _ s, busTimeout_attn _ s rfl,
        busTimeout_bus (g := Bus.busy) (fun _ _ _ _ => rfl) _ s,
        busTimeout_bus (g := Bus.inTrans) (fun _ _ _ _ => rfl) _ s,
        busTimeout_bus (g := Bus.rdata) (fun _ _ _ _ => rfl) _ s, by simp, by simp, by simp⟩⟩
  · exact timeouts_of_no_part (by simp [State.takesPart, hin])
  · have hout := timeouts_of_no_part (s := s) (by simp [State.takesPart, hsensed])
    have hneg : ¬ s.busSensed = true := by simp [hsensed]
    exact ⟨congrArg Host.Outcome.next (if_neg hneg), congrArg Host.Outcome.next (if_neg hneg),
      congrArg Host.Outcome.next (if_neg hneg), hout⟩
  · rw [execDigestCheck_compared htakes hlen hruns]
    exact ⟨fun h => congrArg Host.Outcome.next (if_pos h), fun h => congrArg Host.Outcome.next (if_neg h)⟩
  · exact execDigestCheck_kept htakes hlen hruns

/-! ## The attention machine (R335 to R339) -/

theorem attn_of_set {c : Cause} {s : State} (h : s.bus.attn &&& c.mask ≠ 0) : attn c s = s := by
  have hbus : s.bus.setCause s.core.lt c.mask = s.bus := if_pos (by simpa using h)
  rw [attn, State.modBus, hbus]

section
variable {c : Cause} {s : State} (hclear : s.bus.attn &&& c.mask = 0)
include hclear

theorem attn_bus_of_unmasked (hmask : s.bus.attnMask &&& c.mask = 0) :
    (attn c s).bus = { s.bus with attn := s.bus.attn ||| c.mask } := by
  change s.bus.setCause s.core.lt c.mask = _
  unfold Bus.setCause
  rw [if_neg (by simp [hclear])]
  exact if_pos (by simp [hmask])

/-- A masked cause rising moves IDLE and HALTED on (R337). -/
theorem attn_machine_rises (hmask : s.bus.attnMask &&& c.mask ≠ 0)
    (hidle : s.bus.machine = .idle ∨ s.bus.machine = .halted) :
    (attn c s).bus.machine = .pending ∧
      (attn c s).bus.failRun = if s.bus.readPending = some s.core.lt then s.bus.failRun else 0 := by
  change (s.bus.setCause s.core.lt c.mask).machine = _ ∧ (s.bus.setCause s.core.lt c.mask).failRun = _
  unfold Bus.setCause
  rw [if_neg (by simp [hclear])]
  dsimp only
  rw [if_neg (by simpa using hmask)]
  by_cases hread : s.bus.readPending = some s.core.lt
  · rw [if_pos (by simp [hread]), if_pos hread]
    exact ⟨rfl, rfl⟩
  · rw [if_neg (by simpa using hread), if_neg hread]
    obtain h | h := hidle <;> simp [Bus.maskedRise, h]

end

theorem execAttentionAttempt_due {s : State} (h : s.attemptDue = true) (o : AttemptEnd) :
    exec (.attentionAttempt o) s = .next (attempt o s) :=
  congrArg Host.Outcome.next (if_pos h)

theorem satAdd_byte (b : Byte) : (satAdd b 1).toNat = min (b.toNat + 1) 255 := satAdd_toNat b 1

theorem wakeEvent_byBus {s : State} (hdoze : s.core.doze = true) (h : s.core.waking = none) :
    wakeEvent true s = s.modCore fun c => { c with waking := some { since := s.core.lt, byBus := true } } := by
  unfold wakeEvent
  dsimp only
  rw [if_pos rfl, if_pos (by simp [hdoze, h])]
  rfl

theorem wakeEvent_byBus_of_awake {s : State} (h : s.core.doze = false ∨ s.core.waking.isSome = true) :
    wakeEvent true s = s := by
  have hno : (s.core.doze && s.core.waking.isNone) = false := by
    obtain h | h := h
    · rw [h, Bool.false_and]
    · rw [Option.isNone_eq_false_iff.mpr h, Bool.and_false]
  unfold wakeEvent
  dsimp only
  rw [if_pos rfl, if_neg (by simp [hno])]

/-- Settles O38: causes by `attn`'s cases, attempts by `attempt`'s. -/
theorem attentionMachine : Obligations.AttentionMachine := by
  intro s
  refine ⟨fun c hclear => ⟨attn_attn c s, attn_machine_rises hclear, fun hmask => ?_⟩, fun c h => attn_of_set h,
    fun hdue => ?_, fun hdue o => ?_, fun hwait hover => ?_, fun hwait => ?_, fun hdue => ?_, fun hdue => ?_,
    fun hdoze hvalid hwaking => ?_, fun h => ?_⟩
  · rw [attn_bus_of_unmasked hclear hmask]
  · refine ⟨execAttentionAttempt_due hdue _, ⟨_, execAttentionAttempt_due hdue _, satAdd_byte _, rfl, rfl, ?_, rfl, rfl⟩,
      ⟨_, execAttentionAttempt_due hdue _, busTimeout_bus (g := Bus.toutScl) (fun _ _ _ _ => rfl) _ s, ?_,
        busTimeout_bus (g := Bus.wait) (fun _ _ _ _ => rfl) _ s, busTimeout_attn _ s rfl⟩,
      ⟨_, execAttentionAttempt_due hdue _, satAdd_byte _, rfl, rfl, rfl, rfl⟩⟩
    · change (if 16 ≤ s.bus.failRun + 1 then AttnState.halted else s.bus.machine) = _
      simp only [Nat.reduceLeDiff]
    · rw [attempt, busTimeout_bus (g := Bus.nfail) (fun _ _ _ _ => rfl)]
      exact satAdd_byte _
  · exact congrArg Host.Outcome.next (if_neg (by simp [hdue]))
  · exact congrArg Host.Outcome.next (if_pos ⟨hwait, decide_eq_true hover⟩)
  · exact congrArg Host.Outcome.next (if_neg fun h => hwait h.1)
  · exact congrArg Host.Outcome.next (if_pos hdue)
  · exact congrArg Host.Outcome.next (if_neg (by simp [hdue]))
  · have hwake : exec .dozeWakeByBus s = .next (wakeEvent true s) :=
      congrArg Host.Outcome.next (if_pos (by simp [hdoze, hvalid]))
    rw [hwake, wakeEvent_byBus hdoze hwaking]
  · change execDozeWakeByBus s = _
    unfold execDozeWakeByBus
    rw [wakeEvent_byBus_of_awake h, ite_self]

end Sys2Proof.Machine
end

section
-- One declaration after another: the whole text is compiled as one file, within a limit on memory.
set_option Elab.async false
/-!
Reads of the porch (R307 to R311, R322 to R327): one byte at a time, by the register, sluice or live value the byte
lies in.
-/

namespace Sys2Proof.Machine

/-! ## Where a byte lies -/

/-- The registers of Table 15-2 lie below 0x70, whatever they hold. -/
theorem registerAt_none {a : Nat} (h : 0x70 ≤ a) (s : State) : s.registerAt a = none := by
  have hstat : s.mbox.stat.length = 4 := by simp [Mbox.stat]
  have htsnap : s.tsnap.length = 32 := by simp [State.tsnap, toLE_length]
  have hlock : s.lockBytes.length = 16 := by simp [State.lockBytes, toLE_length]
  have hid : idBytes.length = 8 := rfl
  rw [State.registerAt, List.find?_eq_none]
  intro r hr
  simp only [State.registers, List.mem_cons, List.not_mem_nil, or_false] at hr
  rw [decide_eq_true_eq]
  rintro ⟨-, hlt⟩
  rcases hr with rfl | rfl | rfl | rfl | rfl | rfl | rfl | rfl | rfl | rfl | rfl | rfl | rfl | rfl <;>
    simp [hstat, htsnap, hlock, hid, toLE_length] at hlt <;> omega

theorem registerAt_state {a : Nat} (h : 0x08 ≤ a ∧ a < 0x0A) (s : State) :
    s.registerAt a = some (0x08, toLE 2 s.stateWord) := by
  have hid : ¬ a < idBytes.length := by
    change ¬ a < 8
    omega
  simp [State.registerAt, State.registers, toLE_length, h, hid]

theorem registerAt_attn {a : Nat} (h : 0x0A ≤ a ∧ a < 0x0C) (s : State) :
    s.registerAt a = some (0x0A, toLE 2 s.bus.attn.toNat) := by
  have hid : ¬ a < idBytes.length := by
    change ¬ a < 8
    omega
  simp [State.registerAt, State.registers, toLE_length, h, hid, show ¬ a < 10 by omega]

theorem registerAt_bus {a : Nat} (h : 0x14 ≤ a ∧ a < 0x18) (s : State) :
    s.registerAt a = some (0x14, toLE 4 s.bus.word) := by
  have hid : ¬ a < idBytes.length := by
    change ¬ a < 8
    omega
  simp [State.registerAt, State.registers, toLE_length, h, hid, show ¬ a < 10 by omega,
    show ¬ a < 12 by omega, show ¬ a < 14 by omega, show ¬ a < 20 by omega]

/-! ## Registers -/

theorem Rd.step_register {x : Rd} {base : Nat} {present : List Byte} (haddr : x.addr < 65536)
    (h : x.s.registerAt x.addr = some (base, present)) : x.step = x.register base present := by
  unfold Rd.step
  dsimp only
  rw [Nat.mod_eq_of_lt haddr, h]

/-- What the bytes of a register clear that are read after its first in the same transaction (R326). -/
def clearsFrom (a : Nat) : Nat → State → State
  | 0, s => s
  | n + 1, s => clearsFrom (a + 1) n (readClears a true s)

/-- The rest of a register whose first byte this transaction has read (R324). -/
theorem Rd.run_latched {base : Nat} {d : List Byte} (hlen : base + d.length ≤ 65536)
    (hspan : ∀ a (s : State), base ≤ a → a < base + d.length → ∃ p, s.registerAt a = some (base, p)) :
    ∀ (n : Nat) (x : Rd), x.first = some (base, d) → base < x.addr → x.addr + n ≤ base + d.length →
      x.run n = { s := clearsFrom x.addr n x.s, addr := x.addr + n, first := some (base, d)
                  data := x.data ++ slice d (x.addr - base) n } := by
  intro n
  induction n with
  | zero =>
    intro x hfirst _ _
    obtain ⟨s, addr, first, data⟩ := x
    cases hfirst
    simp [Rd.run, clearsFrom, slice]
  | succ n ih =>
    intro x hfirst hlo hhi
    obtain ⟨p, hp⟩ := hspan x.addr x.s (by omega) (by omega)
    have hstep : x.step = { s := readClears x.addr true x.s, addr := x.addr + 1, first := some (base, d)
                            data := x.data ++ [d.getD (x.addr - base) 0] } := by
      rw [Rd.step_register (by omega) hp]
      unfold Rd.register
      dsimp only
      rw [if_neg (by omega), Rd.byte, Rd.hasFirst, hfirst]
      simp
    rw [Rd.run, hstep, ih _ rfl (by dsimp only; omega) (by dsimp only; omega)]
    have hget : d.getD (x.addr - base) 0 = d[x.addr - base]'(by omega) := (List.getElem_eq_getD 0).symm
    have hslice : slice d (x.addr - base) (n + 1) =
        d.getD (x.addr - base) 0 :: slice d (x.addr + 1 - base) n := by
      rw [slice, slice, List.drop_eq_getElem_cons (by omega : x.addr - base < d.length), List.take_succ_cons, hget,
        show x.addr - base + 1 = x.addr + 1 - base by omega]
    rw [hslice, List.append_assoc, List.singleton_append, clearsFrom, show x.addr + 1 + n = x.addr + (n + 1) by omega]

/-- A register read from its first byte: its bytes as it stood, and what they clear (R324, R326). -/
theorem readAt_register {s : State} {base n : Nat} {d : List Byte} (hacks : s.acks = true)
    (h : s.registerAt base = some (base, d)) (hlen : base + d.length ≤ 65536)
    (hspan : ∀ a (s : State), base ≤ a → a < base + d.length → ∃ p, s.registerAt a = some (base, p))
    (hn : n + 1 ≤ d.length) :
    readAt (some base) (n + 1) s = (clearsFrom base (n + 1) s).modBus fun b =>
      { b.join with rdata := d.take (n + 1), pointer := BitVec.ofNat 16 (base + (n + 1)) } := by
  have hstep : (Rd.mk s base none []).step = { s := readClears base true s, addr := base + 1, first := some (base, d)
                                               data := [d.getD 0 0] } := by
    rw [Rd.step_register (by dsimp only; omega) h]
    unfold Rd.register
    dsimp only
    rw [if_pos rfl]
    simp [Rd.byte, Rd.hasFirst]
  have htake : d.take (n + 1) = d.getD 0 0 :: slice d 1 n := by
    cases d with
    | nil => simp at hn
    | cons x xs => simp [slice]
  unfold readAt
  rw [if_pos hacks]
  dsimp only [Option.getD_some]
  rw [Rd.run, hstep, Rd.run_latched hlen hspan n _ rfl (by dsimp only; omega) (by dsimp only; omega)]
  dsimp only
  rw [htake, Nat.add_sub_cancel_left, show base + 1 + n = base + (n + 1) by omega]
  rfl

/-- One byte of a register behind its first: as it stands, and what it clears alone (R326). -/
theorem readAt_register_byte {s : State} {base a : Nat} {d : List Byte} (hacks : s.acks = true) (ha : a < 65536)
    (hbase : base < a) (h : s.registerAt a = some (base, d)) :
    readAt (some a) 1 s = (readClears a false s).modBus fun b =>
      { b.join with rdata := [d.getD (a - base) 0], pointer := BitVec.ofNat 16 (a + 1) } := by
  have hstep : (Rd.mk s a none []).step = { s := readClears a false s, addr := a + 1, first := none
                                            data := [d.getD (a - base) 0] } := by
    rw [Rd.step_register (by dsimp only; omega) h]
    unfold Rd.register
    dsimp only
    rw [if_neg (by omega)]
    simp [Rd.byte, Rd.hasFirst]
  unfold readAt
  rw [if_pos hacks]
  dsimp only [Option.getD_some]
  rw [Rd.run, Rd.run, hstep]

section
variable {s : State} {n : Nat} (hacks : s.acks = true)
include hacks

theorem execStateRead_first (hn : n + 1 ≤ 2) : exec (.stateRead ⟨some 0, n + 1⟩) s =
    .next ((clearsFrom 0x08 (n + 1) s).modBus fun b =>
      { b.join with rdata := (toLE 2 s.stateWord).take (n + 1), pointer := BitVec.ofNat 16 (0x08 + (n + 1)) }) :=
  congrArg Host.Outcome.next (readAt_register hacks (registerAt_state (by decide) s) (by rw [toLE_length]; decide)
    (fun a s hlo hhi => ⟨_, registerAt_state ⟨hlo, hhi.trans_eq (by simp [toLE_length])⟩ s⟩) (by rwa [toLE_length]))

theorem execAttnRead_first (hn : n + 1 ≤ 2) : exec (.attnRead ⟨some 0, n + 1⟩) s =
    .next ((clearsFrom 0x0A (n + 1) s).modBus fun b =>
      { b.join with rdata := (toLE 2 s.bus.attn.toNat).take (n + 1), pointer := BitVec.ofNat 16 (0x0A + (n + 1)) }) :=
  congrArg Host.Outcome.next (readAt_register hacks (registerAt_attn (by decide) s) (by rw [toLE_length]; decide)
    (fun a s hlo hhi => ⟨_, registerAt_attn ⟨hlo, hhi.trans_eq (by simp [toLE_length])⟩ s⟩) (by rwa [toLE_length]))

theorem execBusRead_first (hn : n + 1 ≤ 4) : exec (.busRead ⟨some 0, n + 1⟩) s =
    .next ((clearsFrom 0x14 (n + 1) s).modBus fun b =>
      { b.join with rdata := (toLE 4 s.bus.word).take (n + 1), pointer := BitVec.ofNat 16 (0x14 + (n + 1)) }) :=
  congrArg Host.Outcome.next (readAt_register hacks (registerAt_bus (by decide) s) (by rw [toLE_length]; decide)
    (fun a s hlo hhi => ⟨_, registerAt_bus ⟨hlo, hhi.trans_eq (by simp [toLE_length])⟩ s⟩) (by rwa [toLE_length]))

theorem execStateRead_second : exec (.stateRead ⟨some 1, 1⟩) s = .next (s.modBus fun b =>
    { b.join with rdata := (toLE 2 s.stateWord).drop 1, pointer := 0x000A }) :=
  congrArg Host.Outcome.next (readAt_register_byte hacks (by decide) (by decide)
    (registerAt_state (a := 0x09) (by decide) s))

theorem execAttnRead_second : exec (.attnRead ⟨some 1, 1⟩) s = .next (s.modBus fun b =>
    { b.join with rdata := (toLE 2 s.bus.attn.toNat).drop 1, pointer := 0x000C }) :=
  congrArg Host.Outcome.next (readAt_register_byte hacks (by decide) (by decide)
    (registerAt_attn (a := 0x0B) (by decide) s))

theorem execBusRead_last : exec (.busRead ⟨some 3, 1⟩) s =
    .next ((s.modBus fun b => { b with arbLost := 0 }).modBus fun b =>
      { b.join with rdata := (toLE 4 s.bus.word).drop 3, pointer := 0x0018 }) :=
  congrArg Host.Outcome.next (readAt_register_byte hacks (by decide) (by decide)
    (registerAt_bus (a := 0x17) (by decide) s))

end

/-! ## From the pointer, and without an acknowledge -/

/-- A read without a pointer write begins where the pointer stands (R323). -/
theorem readAt_pointer {s : State} {a n : Nat} (h : s.bus.pointer = BitVec.ofNat 16 a) (ha : a < 65536) :
    readAt none n s = readAt (some a) n s := by
  have haddr : s.bus.pointer.toNat = a := by rw [h, BitVec.toNat_ofNat, Nat.mod_eq_of_lt ha]
  unfold readAt
  rw [Option.getD_none, Option.getD_some, haddr]

/-- A Rexia without an address takes nothing (R328). -/
theorem readAt_refused {s : State} (hacks : s.acks = false) (haddr : s.bus.addrValid = false) (a : Option Nat) (n : Nat) :
    readAt a n s = s.modBus fun b => { b with rdata := [], inTrans := false } := by
  unfold readAt
  rw [if_neg (by simp [hacks])]
  exact if_neg (by simp [haddr])

/-- Settles O34: each read by `readAt_register` or `readAt_register_byte`. -/
theorem registerReads : Obligations.RegisterReads := by
  intro s
  refine ⟨fun hacks => ⟨⟨_, execStateRead_first hacks (by decide), rfl, rfl, rfl, rfl, rfl, rfl, rfl⟩,
    ⟨_, execStateRead_first hacks (by decide), rfl, rfl, rfl⟩, ⟨_, execStateRead_second hacks, rfl, rfl, rfl⟩,
    ⟨_, execAttnRead_first hacks (by decide), rfl, rfl, rfl, rfl, rfl, rfl, rfl, rfl⟩,
    ⟨_, execAttnRead_first hacks (by decide), rfl, rfl, rfl⟩, ⟨_, execAttnRead_second hacks, rfl, rfl, rfl⟩,
    ⟨_, execBusRead_first hacks (by decide), rfl, rfl, rfl, rfl, rfl, rfl, rfl⟩,
    ⟨_, execBusRead_first hacks (by decide), rfl, rfl, rfl⟩, ⟨_, execBusRead_last hacks, rfl, rfl, rfl⟩⟩,
    fun m => ⟨fun k hk => ?_, fun k hk => ?_, fun k hk => ?_⟩, fun hacks haddr => ?_⟩
  · exact congrArg Host.Outcome.next (readAt_pointer hk (by dsimp only; omega))
  · exact congrArg Host.Outcome.next (readAt_pointer hk (by dsimp only; omega))
  · exact congrArg Host.Outcome.next (readAt_pointer hk (by dsimp only; omega))
  · exact ⟨_, congrArg Host.Outcome.next (readAt_refused hacks haddr _ _), rfl, rfl,
      congrArg Host.Outcome.next (readAt_refused hacks haddr _ _),
      congrArg Host.Outcome.next (readAt_refused hacks haddr _ _), rfl, rfl⟩

/-! ## Sluices -/

theorem Rd.step_sample {x : Rd} (h : 0x200 ≤ x.addr ∧ x.addr < 0x208) :
    x.step = x.sluice 0x200 8 latchSample popSample (fun s => toLE 8 s.rings.slatch.toNat) := by
  unfold Rd.step
  dsimp only
  rw [Nat.mod_eq_of_lt (by omega : x.addr < 65536), registerAt_none (by omega)]
  exact if_pos h

theorem Rd.step_notice {x : Rd} (h : 0x210 ≤ x.addr ∧ x.addr < 0x220) :
    x.step = x.sluice 0x210 16 latchNotice popNotice (fun s => toLE 16 s.rings.nlatch.toNat) := by
  unfold Rd.step
  dsimp only
  rw [Nat.mod_eq_of_lt (by omega : x.addr < 65536), registerAt_none (by omega)]
  exact (if_neg (by omega)).trans (if_pos h)

section
variable {base n : Nat} {latch pop : State → State} {entry : State → List Byte}
  (hstep : ∀ x : Rd, base ≤ x.addr → x.addr < base + n → x.step = x.sluice base n latch pop entry)
include hstep

/-- The rest of an entry whose first byte this transaction has read: the last byte pops it (R307). -/
theorem Rd.run_sluice {d : List Byte} : ∀ (k : Nat) (x : Rd), x.first = some (base, d) → base < x.addr →
    x.addr + (k + 1) = base + n → (entry x.s).length = n →
    x.run (k + 1) = { s := pop x.s, addr := base, first := none
                      data := x.data ++ (entry x.s).drop (x.addr - base) } := by
  intro k
  induction k with
  | zero =>
    intro x hfirst hlo hend hlen
    have hdrop : (entry x.s).drop (x.addr - base) = [(entry x.s).getD (x.addr - base) 0] := by
      rw [List.drop_eq_getElem_cons (by omega : x.addr - base < (entry x.s).length),
        List.drop_eq_nil_of_le (by omega), List.getElem_eq_getD 0]
    have hne : ¬ x.addr = base := by omega
    have hlast : x.addr = base + n - 1 := by omega
    have hhas : x.hasFirst base = true := by simp [Rd.hasFirst, hfirst]
    rw [Rd.run, Rd.run, hstep x (by omega) (by omega), hdrop]
    unfold Rd.sluice
    dsimp only
    rw [if_neg hne, if_pos hlast, if_pos hhas]
  | succ k ih =>
    intro x hfirst hlo hend hlen
    have hdrop : (entry x.s).drop (x.addr - base) =
        (entry x.s).getD (x.addr - base) 0 :: (entry x.s).drop (x.addr + 1 - base) := by
      rw [List.drop_eq_getElem_cons (by omega : x.addr - base < (entry x.s).length), List.getElem_eq_getD 0,
        show x.addr - base + 1 = x.addr + 1 - base by omega]
    have hnext : x.step = { x with addr := x.addr + 1
                                   data := x.data ++ [(entry x.s).getD (x.addr - base) 0] } := by
      have hne : ¬ x.addr = base := by omega
      have hmid : ¬ x.addr = base + n - 1 := by omega
      rw [hstep x (by omega) (by omega)]
      unfold Rd.sluice
      dsimp only
      rw [if_neg hne, if_neg hmid]
    rw [Rd.run, hnext, ih { x with addr := x.addr + 1, data := x.data ++ [(entry x.s).getD (x.addr - base) 0] } hfirst
      (by dsimp only; omega) (by dsimp only; omega) hlen, hdrop, List.append_assoc, List.singleton_append]

/-- A whole entry read from the sluice's first byte: latched, driven, popped (R307). -/
theorem readAt_sluice {s : State} {k : Nat} (hacks : s.acks = true) (hn : n = k + 2)
    (hlen : (entry (latch s)).length = n) :
    readAt (some base) n s = (pop (latch s)).modBus fun b =>
      { b.join with rdata := entry (latch s), pointer := BitVec.ofNat 16 base } := by
  have hfirst : (Rd.mk s base none []).step = { s := latch s, addr := base + 1, first := some (base, entry (latch s))
                                                data := [(entry (latch s)).getD 0 0] } := by
    rw [hstep _ (le_refl base) (by dsimp only; omega)]
    unfold Rd.sluice
    dsimp only
    have hmid : ¬ base = base + n - 1 := by omega
    rw [if_pos rfl]
    dsimp only
    rw [if_neg hmid, Nat.sub_self, List.nil_append]
  have hall : entry (latch s) = (entry (latch s)).getD 0 0 :: (entry (latch s)).drop 1 := by
    rw [← List.getElem_eq_getD (h := by omega) 0, ← List.drop_eq_getElem_cons (by omega), List.drop_zero]
  subst hn
  unfold readAt
  rw [if_pos hacks]
  dsimp only [Option.getD_some]
  rw [Rd.run, hfirst, Rd.run_sluice hstep k _ rfl (by dsimp only; omega) (by dsimp only; omega) hlen]
  dsimp only
  rw [Nat.add_sub_cancel_left, List.singleton_append, ← hall]

/-- A byte inside the sluice reads what is latched and pops nothing (R308). -/
theorem readAt_sluice_inside {s : State} {a : Nat} (hacks : s.acks = true) (hlo : base < a) (hhi : a < base + n) :
    ∃ pointer, readAt (some a) 1 s = s.modBus fun b =>
      { b.join with rdata := [(entry s).getD (a - base) 0], pointer } := by
  unfold readAt
  rw [if_pos hacks]
  dsimp only [Option.getD_some]
  rw [Rd.run, Rd.run, hstep _ hlo.le hhi]
  have hne : ¬ a = base := by omega
  unfold Rd.sluice
  dsimp only
  rw [if_neg hne]
  split
  · exact ⟨_, rfl⟩
  · exact ⟨_, rfl⟩

end

/-- No word found bad, no word injected: a read of words is their read alone (R401, R415). -/
theorem readWords_sound {s : State} (hwords : ∀ c a, s.faults.wordError c a = none) (hfound : s.faults.found = 0)
    (c : Fin 5) (p : Nat → Bool) (ue ce : Source) : readWords c p ue ce s = (false, s) := by
  have hinjected : s.faults.injected = [] := by
    match hx : s.faults.injected with
    | [] => rfl
    | (c, a, b) :: l =>
      have h := hwords c a
      simp [Faults.wordError, hx] at h
  have hsame : (s.modFaults fun f => { f with found := f.found &&& ~~~(1#64 <<< ue.val) }) = s := by
    have hclear : s.faults.found &&& ~~~(1#64 <<< ue.val) = s.faults.found := by
      rw [hfound]
      exact BitVec.zero_and
    exact congrArg (fun w => s.modFaults fun f => { f with found := w }) hclear
  unfold readWords
  simp only [hinjected, hfound, List.filter_nil, List.map_nil, List.contains_nil]
  simp only [Bool.false_and, Bool.false_eq_true, if_false, Bool.or_false, hsame]
  exact congrArg (·, s) (BitVec.getLsbD_zero ..)

section
variable {s : State} (hwords : ∀ c a, s.faults.wordError c a = none) (hfound : s.faults.found = 0)
include hwords hfound

theorem latchSample_oldest {e : SampleEntry} {l : List SampleEntry} (h : s.rings.sample = e :: l) :
    latchSample s = s.modRings fun r => { r with slatch := e } := by
  unfold latchSample
  rw [h]
  dsimp only
  rw [readWords_sound hwords hfound]
  rfl

theorem latchNotice_oldest {e : NoticeEntry} {l : List NoticeEntry} (h : s.rings.notice = e :: l) :
    latchNotice s = s.modRings fun r => { r with nlatch := e } := by
  unfold latchNotice
  rw [h]
  dsimp only
  rw [readWords_sound hwords hfound]
  rfl

end

theorem latchSample_empty {s : State} (h : s.rings.sample = []) :
    latchSample s = s.modRings fun r => { r with slatch := emptySample } := by
  unfold latchSample
  rw [h]

theorem latchNotice_empty {s : State} (h : s.rings.notice = []) :
    latchNotice s = s.modRings fun r => { r with nlatch := 0 } := by
  unfold latchNotice
  rw [h]

theorem execSampleSluiceRead_whole {s : State} (hacks : s.acks = true) : exec (.sampleSluiceRead (some 0) 8) s =
    .next ((popSample (latchSample s)).modBus fun b =>
      { b.join with rdata := toLE 8 (latchSample s).rings.slatch.toNat, pointer := 0x0200 }) :=
  congrArg Host.Outcome.next (readAt_sluice (entry := fun s => toLE 8 s.rings.slatch.toNat) (base := 0x200) (n := 8)
    (k := 6) (fun _ hlo hhi => Rd.step_sample ⟨hlo, hhi⟩) hacks rfl (toLE_length ..))

theorem execNoticeSluiceRead_whole {s : State} (hacks : s.acks = true) : exec (.noticeSluiceRead (some 0) 16) s =
    .next ((popNotice (latchNotice s)).modBus fun b =>
      { b.join with rdata := toLE 16 (latchNotice s).rings.nlatch.toNat, pointer := 0x0210 }) :=
  congrArg Host.Outcome.next (readAt_sluice (entry := fun s => toLE 16 s.rings.nlatch.toNat) (base := 0x210) (n := 16)
    (k := 14) (fun _ hlo hhi => Rd.step_notice ⟨hlo, hhi⟩) hacks rfl (toLE_length ..))

/-! ## Live values (R311) -/

theorem liveTag_of {a k : Nat} (hlo : 0x300 + 4 * k ≤ a) (hhi : a < 0x300 + 4 * k + 4) (hk : k < 80) :
    liveTag a = some k := by
  unfold liveTag
  rw [if_pos (by omega)]
  exact congrArg some (by omega)

theorem Rd.step_live {x : Rd} {k : Nat} (hlo : 0x300 + 4 * k ≤ x.addr) (hhi : x.addr < 0x300 + 4 * k + 4)
    (hk : k < 80) : x.step = x.live k := by
  unfold Rd.step
  dsimp only
  rw [Nat.mod_eq_of_lt (by omega : x.addr < 65536), registerAt_none (by omega)]
  dsimp only
  rw [if_neg (by omega), if_neg (by omega), liveTag_of hlo hhi hk]

theorem Live.bytes_length (l : Live) : l.bytes.length = 4 := by
  simp [Live.bytes, toLE_length]

/-- The rest of a live value latched in this transaction. -/
theorem Rd.run_live {k : Nat} (hk : k < 80) {l : Live} : ∀ (n : Nat) (x : Rd),
    x.first = some (0x300 + 4 * k, l.bytes) → 0x300 + 4 * k ≤ x.addr → x.addr + n = 0x300 + 4 * k + 4 →
    (x.run n).s = x.s ∧ (x.run n).data = x.data ++ l.bytes.drop (x.addr - (0x300 + 4 * k)) := by
  intro n
  induction n with
  | zero =>
    intro x _ _ hend
    rw [Rd.run, List.drop_eq_nil_of_le (by rw [Live.bytes_length]; omega), List.append_nil]
    exact ⟨rfl, rfl⟩
  | succ n ih =>
    intro x hfirst hlo hend
    have hstep : x.step = { x with addr := x.addr + 1
                                   data := x.data ++ [l.bytes.getD (x.addr - (0x300 + 4 * k)) 0] } := by
      rw [Rd.step_live hlo (by omega) hk]
      unfold Rd.live
      dsimp only
      rw [if_pos (by simp [Rd.hasFirst, hfirst]), Rd.byte, hfirst]
      dsimp only
      rw [if_pos rfl]
    have hlt : x.addr - (0x300 + 4 * k) < l.bytes.length := by rw [Live.bytes_length]; omega
    rw [Rd.run, hstep]
    obtain ⟨hs, hdata⟩ := ih { x with addr := x.addr + 1
                                      data := x.data ++ [l.bytes.getD (x.addr - (0x300 + 4 * k)) 0] } hfirst
      (by dsimp only; omega) (by dsimp only; omega)
    refine ⟨hs, hdata.trans ?_⟩
    dsimp only
    rw [List.append_assoc, List.singleton_append, ← List.getElem_eq_getD (h := hlt) 0,
      show x.addr + 1 - (0x300 + 4 * k) = x.addr - (0x300 + 4 * k) + 1 by omega, ← List.drop_eq_getElem_cons]

/-- Flag word, tag and GEN of the live value with tag k are latched (R311). -/
def latchLive (k : Nat) (s : State) : State :=
  s.modRings fun r =>
    { r with lvFlags := (s.liveOf k).flags, lvTag := BitVec.ofNat 8 k, lvGen := (s.liveOf k).gen }

/-- A whole live value: latched at its first byte (R311). -/
theorem readAt_live {s : State} {k : Nat} (hacks : s.acks = true) (hk : k < 80) :
    ∃ pointer, readAt (some (0x300 + 4 * k)) 4 s = (latchLive k s).modBus fun b =>
      { b.join with rdata := (s.liveOf k).bytes, pointer } := by
  let y : Rd := { s := latchLive k s, addr := 0x300 + 4 * k, first := some (0x300 + 4 * k, (s.liveOf k).bytes) }
  have hfirst : (Rd.mk s (0x300 + 4 * k) none []).step = y.step := by
    rw [Rd.step_live (k := k) (le_refl _) (by dsimp only; omega) hk,
      Rd.step_live (x := y) (k := k) (le_refl _) (by dsimp only [y]; omega) hk]
    simp [y, Rd.live, Rd.hasFirst, latchLive]
  obtain ⟨hs, hdata⟩ := Rd.run_live hk (l := s.liveOf k) 4 y rfl (le_refl _) rfl
  unfold readAt
  rw [if_pos hacks]
  dsimp only [Option.getD_some]
  rw [Rd.run, hfirst, ← Rd.run, hs, hdata, Nat.sub_self, List.drop_zero]
  exact ⟨_, rfl⟩

/-- Settles O33: a sluice by `readAt_sluice`, a live value by `readAt_live`. -/
theorem sluiceAndLiveReads : Obligations.SluiceAndLiveReads := by
  intro s
  refine ⟨fun hacks hwords hfound => ⟨fun e l h => ⟨_, execSampleSluiceRead_whole hacks, ?_⟩,
    fun h => ⟨_, execSampleSluiceRead_whole hacks, ?_⟩, fun first hfirst => ?_,
    fun e l h => ⟨_, execNoticeSluiceRead_whole hacks, ?_⟩, fun h => ⟨_, execNoticeSluiceRead_whole hacks, ?_⟩,
    fun k => ?_⟩, fun m => ⟨fun h => ?_, fun h => ?_, fun h => ?_⟩, fun hacks haddr => ?_⟩
  · rw [latchSample_oldest hwords hfound h]
    exact ⟨rfl, congrArg List.tail h, rfl, rfl, rfl, rfl⟩
  · rw [latchSample_empty h]
    exact ⟨rfl, congrArg List.tail h⟩
  · obtain ⟨pointer, hread⟩ := readAt_sluice_inside (entry := fun s => toLE 8 s.rings.slatch.toNat) (base := 0x200)
      (n := 8) (a := 0x200 + first.val) (fun _ hlo hhi => Rd.step_sample ⟨hlo, hhi⟩) hacks (by omega) (by omega)
    refine ⟨_, congrArg Host.Outcome.next hread, ?_, rfl⟩
    rw [Nat.add_sub_cancel_left]
    rfl
  · rw [latchNotice_oldest hwords hfound h]
    exact ⟨rfl, congrArg List.tail h, rfl, rfl, rfl, rfl⟩
  · rw [latchNotice_empty h]
    exact ⟨show toLE 16 0 = List.replicate 16 0 by decide, congrArg List.tail h⟩
  · obtain ⟨pointer, hread⟩ := readAt_live (s := s) hacks k.isLt
    exact ⟨_, congrArg Host.Outcome.next hread, rfl, rfl, rfl, rfl, rfl, rfl, rfl⟩
  · exact congrArg Host.Outcome.next (readAt_pointer h (by decide))
  · exact congrArg Host.Outcome.next (readAt_pointer h (by decide))
  · exact congrArg Host.Outcome.next (readAt_pointer h (by decide))
  · exact ⟨_, congrArg Host.Outcome.next (readAt_refused hacks haddr _ _), rfl, rfl⟩

end Sys2Proof.Machine
end

section
-- One declaration after another: the whole text is compiled as one file, within a limit on memory.
set_option Elab.async false
/-!
Writes to the porch (R325 to R327, R336, R337, R343): the registers of the bus port and the bytes of a slot.
-/

namespace Sys2Proof.Machine

theorem writeTransaction_eq {s : State} (hacks : s.acks = true) (lo hi : Byte) (rest : List Byte) :
    writeTransaction (lo :: hi :: rest) s =
      (rest.foldl Wr.step { s := s.modBus Bus.join, addr := leNat [lo, hi] }).s.modBus fun b =>
        { b with pointer := BitVec.ofNat 16 (rest.foldl Wr.step { s := s.modBus Bus.join, addr := leNat [lo, hi] }).addr } :=
  if_pos hacks

/-- One byte of a multi-byte register (R325). -/
theorem Wr.step_register {x : Wr} (h : x.addr = 0x0C ∨ x.addr = 0x0D ∨ 0x10 ≤ x.addr ∧ x.addr < 0x18) (b : Byte) :
    x.step b = { x with s := Wr.commit { x with buf := (x.addr, b) :: x.buf } x.addr
                        addr := x.addr + 1, buf := (x.addr, b) :: x.buf } := by
  have hnext : nextAddr x.addr = x.addr + 1 := by
    unfold nextAddr
    rw [if_neg (by omega), if_neg (by omega), Nat.mod_eq_of_lt (by omega)]
  unfold Wr.step
  dsimp only
  rw [if_neg (by omega), if_neg (by omega), if_pos (by omega), hnext]

/-- The bytes in a row of a register of n bytes, the last of them not yet written: nothing is registered (R325). -/
theorem Wr.commit_pending {x : Wr} {a : Nat} (h : a ≠ 0x0D ∧ a ≠ 0x13 ∧ a ≠ 0x17) : x.commit a = x.s := by
  unfold Wr.commit
  rw [if_neg h.1, if_neg h.2.1, if_neg h.2.2]

/-- The four bytes of the register at `base`, ATTNCFG or BUS. -/
theorem Wr.foldl_four {base : Nat} (h : base = 0x10 ∨ base = 0x14) (s : State) (b0 b1 b2 b3 : Byte) :
    [b0, b1, b2, b3].foldl Wr.step { s := s, addr := base } =
      { s := Wr.commit { s := s, addr := base + 3
                         buf := [(base + 3, b3), (base + 2, b2), (base + 1, b1), (base, b0)] } (base + 3)
        addr := base + 4, buf := [(base + 3, b3), (base + 2, b2), (base + 1, b1), (base, b0)] } := by
  have hstep : ∀ (a : Nat) (buf : List (Nat × Byte)) (b : Byte), base ≤ a → a < base + 3 →
      Wr.step { s := s, addr := a, buf } b = { s := s, addr := a + 1, buf := (a, b) :: buf } := by
    intro a buf b hlo hhi
    rw [Wr.step_register (by dsimp only; omega)]
    dsimp only
    rw [Wr.commit_pending (by omega)]
  rw [List.foldl_cons, hstep base [] b0 (by omega) (by omega), List.foldl_cons, hstep _ _ b1 (by omega) (by omega),
    List.foldl_cons, hstep _ _ b2 (by omega) (by omega), List.foldl_cons, List.foldl_nil,
    Wr.step_register (by dsimp only; omega)]

/-- What a write transaction of whole registers leaves: `f` on the port, and the pointer behind it. -/
def registerWritten (f : State → State) (pointer : W16) (s : State) : State :=
  (f (s.modBus Bus.join)).modBus fun b => { b with pointer }

section
variable {s : State} (hacks : s.acks = true)
include hacks

theorem execBusWrite_eq (v : W32) : exec (.busWrite v) s =
    .next (registerWritten (writeBus (BitVec.ofNat 32 (leNat [BitVec.ofNat 8 v.toNat]))) 0x18 s) :=
  congrArg Host.Outcome.next ((writeTransaction_eq hacks 0x14 0x00 (toLE 4 v.toNat)).trans
    (congrArg (fun x : Wr => x.s.modBus fun b => { b with pointer := BitVec.ofNat 16 x.addr })
      (Wr.foldl_four (.inr rfl) (s.modBus Bus.join) ..)))

theorem execAttnmaskWrite_eq (v : W16) : exec (.attnmaskWrite v) s =
    .next (registerWritten (writeAttnMask (BitVec.ofNat 16 (leNat (toLE 2 v.toNat)))) 0x0E s) :=
  congrArg Host.Outcome.next (writeTransaction_eq hacks 0x0C 0x00 (toLE 2 v.toNat))

theorem execAttncfgWrite_eq (v : W32) : exec (.attncfgWrite v) s =
    .next (registerWritten (writeAttnCfg (BitVec.ofNat 32 (leNat (toLE 4 v.toNat)))) 0x14 s) :=
  congrArg Host.Outcome.next ((writeTransaction_eq hacks 0x10 0x00 (toLE 4 v.toNat)).trans
    (congrArg (fun x : Wr => x.s.modBus fun b => { b with pointer := BitVec.ofNat 16 x.addr })
      (Wr.foldl_four (.inl rfl) (s.modBus Bus.join) ..)))

end

theorem ofNat_leNat_toLE {w n : Nat} (hw : 2 ^ w = 256 ^ n) (v : BitVec w) : BitVec.ofNat w (leNat (toLE n v.toNat)) = v := by
  rw [leNat_toLE, ← hw, Nat.mod_eq_of_lt v.isLt, BitVec.ofNat_toNat, BitVec.setWidth_eq]

theorem lowByte_bit (v : W32) {k : Nat} (hk : k < 8) :
    (BitVec.ofNat 32 (leNat [BitVec.ofNat 8 v.toNat])).getLsbD k = v.getLsbD k := by
  have hlow : BitVec.ofNat 32 (leNat [BitVec.ofNat 8 v.toNat]) = (v.setWidth 8).setWidth 32 := by
    apply BitVec.eq_of_toNat_eq
    simp [leNat]
  rw [hlow, BitVec.getLsbD_setWidth, BitVec.getLsbD_setWidth, decide_eq_true hk, decide_eq_true (by omega : k < 32),
    Bool.true_and, Bool.true_and]

/-- A mask bit that becomes 1 over a cause already set moves the machine as a rise does (R337). -/
theorem Bus.maskedRise_machine (b : Bus) : b.maskedRise.machine = (match b.machine with
    | .idle => .pending
    | .halted => .pending
    | .pending => .pending
    | .sent => .sent) := by
  unfold Bus.maskedRise
  split <;> simp_all

theorem Bus.maskedRise_keeps {α : Type} {f : Bus → α} (hf : ∀ (b : Bus) m r, f { b with machine := m, failRun := r } = f b)
    (b : Bus) : f b.maskedRise = f b := by
  unfold Bus.maskedRise
  split
  · exact hf b _ _
  · exact hf b _ _
  · rfl
  · rfl

/-! ## Slot bytes -/

/-- A write of one slot byte. -/
theorem execRegisterWrite_slot {s : State} (hacks : s.acks = true) {n : SlotId} {k : Nat} (hk : k < 64) (b : Byte) :
    ∃ pointer, exec (.registerWrite (toLE 2 (0x100 + 64 * n.val + k) ++ [b])) s =
      .next ((writeSlotByte (0x100 + 64 * n.val + k) b false (s.modBus Bus.join)).modBus fun c =>
        { c with pointer }) := by
  have hn : n.val < 4 := n.isLt
  have haddr : leNat (toLE 2 (0x100 + 64 * n.val + k)) = 0x100 + 64 * n.val + k := by
    rw [leNat_toLE]
    exact Nat.mod_eq_of_lt (by omega)
  have hstep : Wr.step { s := s.modBus Bus.join, addr := leNat (toLE 2 (0x100 + 64 * n.val + k)) } b =
      { s := writeSlotByte (0x100 + 64 * n.val + k) b false (s.modBus Bus.join)
        addr := nextAddr (0x100 + 64 * n.val + k), word := some ((0x100 + 64 * n.val + k - 0x100) / 4) } := by
    rw [haddr]
    unfold Wr.step
    dsimp only
    rw [if_neg (by omega), if_pos (by omega)]
    rfl
  have hwrite := writeTransaction_eq hacks (BitVec.ofNat 8 (0x100 + 64 * n.val + k))
    (BitVec.ofNat 8 ((0x100 + 64 * n.val + k) / 256)) [b]
  refine ⟨BitVec.ofNat 16 (nextAddr (0x100 + 64 * n.val + k)), congrArg Host.Outcome.next (hwrite.trans ?_)⟩
  change ((Wr.step { s := s.modBus Bus.join, addr := leNat (toLE 2 (0x100 + 64 * n.val + k)) } b).s.modBus fun c =>
    { c with pointer := BitVec.ofNat 16
              (Wr.step { s := s.modBus Bus.join, addr := leNat (toLE 2 (0x100 + 64 * n.val + k)) } b).addr }) = _
  rw [hstep]

section
variable {s : State} {n : SlotId} {a : Nat} (ha : Fin.ofNat 4 ((a - 0x100) / 64) = n) (b : Byte)
include ha

theorem writeSlotByte_refused (h : (s.mbox.slots[n]'n.isLt).st.hostOwned = false) : writeSlotByte a b false s = s := by
  subst ha
  exact if_neg (ne_true_of_eq_false h)

theorem writeSlotByte_taken (h : (s.mbox.slots[n]'n.isLt).st.hostOwned = true) : writeSlotByte a b false s =
    (s.modFaults fun f => f.wordWritten 4 ((a - 0x100) / 4)).modSlot n fun x =>
      { x with bytes := slotBytes (x.bytes.toList.set (a % 64) b) } := by
  subst ha
  exact if_pos h

end

theorem slot_of_address {n : SlotId} {k : Nat} (hk : k < 64) :
    Fin.ofNat 4 ((0x100 + 64 * n.val + k - 0x100) / 64) = n := by
  apply Fin.ext
  rw [Fin.val_ofNat]
  omega

/-- Settles O35: each register by the equation of its command, a slot byte by its owner. -/
theorem registerWrites : Obligations.RegisterWrites := by
  intro s hacks
  refine ⟨fun v => ⟨_, execBusWrite_eq hacks v, ?_, ?_, rfl, rfl, rfl, rfl, rfl, rfl, rfl⟩,
    fun v => ⟨_, execAttnmaskWrite_eq hacks v, ?_⟩, fun v => ⟨_, execAttncfgWrite_eq hacks v, ?_⟩,
    fun data hlen => ?_, fun n k b hk => ?_⟩
  · exact congrArg (s.bus.toutScl && !·) (lowByte_bit v (by decide))
  · exact congrArg (s.bus.toutSda && !·) (lowByte_bit v (by decide))
  · rw [ofNat_leNat_toLE (by decide)]
    by_cases hrise : s.bus.attn &&& (v &&& 0x03FF) &&& ~~~s.bus.attnMask = 0
    · have hbus : (registerWritten (writeAttnMask v) 0x0E s).bus =
          { s.bus.join with attnMask := v &&& 0x03FF, pointer := 0x0E } :=
        congrArg (fun b : Bus => { b with pointer := 0x0E }) (if_neg (by simpa [Bus.join] using hrise))
      rw [hbus, if_pos hrise]
      exact ⟨rfl, rfl, rfl, rfl, rfl, rfl⟩
    · have hbus : (registerWritten (writeAttnMask v) 0x0E s).bus =
          { ({ s.bus.join with attnMask := v &&& 0x03FF } : Bus).maskedRise with pointer := 0x0E } :=
        congrArg (fun b : Bus => { b with pointer := 0x0E }) (if_pos (by simpa [Bus.join] using hrise))
      rw [hbus, if_neg hrise]
      refine ⟨?_, ?_, ?_, Bus.maskedRise_machine _, rfl, rfl⟩
      · exact Bus.maskedRise_keeps (f := Bus.attnMask) (fun _ _ _ => rfl) _
      · exact Bus.maskedRise_keeps (f := Bus.attn) (fun _ _ _ => rfl) _
      · exact Bus.maskedRise_keeps (f := Bus.attnCfg) (fun _ _ _ => rfl) _
  · rw [ofNat_leNat_toLE (by decide)]
    have hbus : (registerWritten (writeAttnCfg v) 0x14 s).bus = { s.bus.join with
        attnCfg := if attnCfgOk v then v &&& 0x00FF7F07 else s.bus.attnCfg, pointer := 0x14 } := by
      by_cases hok : attnCfgOk v = true
      · rw [if_pos hok]
        exact congrArg (fun b : Bus => { b with pointer := 0x14 }) (if_pos hok)
      · rw [if_neg hok]
        exact congrArg (fun b : Bus => { b with pointer := 0x14 }) (if_neg hok)
    rw [hbus]
    exact ⟨rfl, rfl, rfl, rfl, rfl, rfl⟩
  · refine congrArg Host.Outcome.next ((if_pos hacks).trans ?_)
    match data with
    | [] => rfl
    | [_] => rfl
  · obtain ⟨pointer, hexec⟩ := execRegisterWrite_slot hacks (n := n) hk b
    refine ⟨_, hexec, ?_⟩
    cases hown : (s.mbox.slots[n]'n.isLt).st.hostOwned
    · rw [writeSlotByte_refused (slot_of_address hk) b (s := s.modBus Bus.join) hown]
      exact ⟨fun h => absurd h (by decide), fun _ => rfl, fun _ _ => rfl, rfl, rfl, rfl⟩
    · rw [writeSlotByte_taken (slot_of_address hk) b (s := s.modBus Bus.join) hown,
        show (0x100 + 64 * n.val + k) % 64 = k by omega]
      refine ⟨fun _ => ?_, fun h => absurd h (by decide), fun m hm => ?_, rfl, rfl, rfl⟩
      · simp [State.modSlot, slotBytes_toList]
      · have hne : n.val ≠ m.val := fun e => hm (Fin.ext e.symm)
        simp [State.modSlot, hne]

end Sys2Proof.Machine
end

section
-- One declaration after another: the whole text is compiled as one file, within a limit on memory.
set_option Elab.async false
/-!
The PORT family (spec/03, Table 16-5): each command by the checks its fields pass and the branch its state takes.
-/

namespace Sys2Proof.Machine

/-- A request without a fault goes on. -/
theorem orRefuse_none {n : SlotId} {r : Option Nat} {k : State → State} {s : State} (h : r = none) (st : Status) :
    orRefuse n (r.map (st, ·)) k s = k s := by
  rw [h]
  rfl

theorem Mode.hasRing_of_ne {m : Mode} (hmox : m ≠ .mox) (hirt : m ≠ .irt) : m.hasRing = true := by
  simp [Mode.hasRing, hmox, hirt]

theorem measures_iff (q : Port) : q.measures = true ↔ q.state = .starting ∨ q.state = .running := by
  simp [Port.measures]

theorem measures_of_idle {q : Port} (hstarting : q.state ≠ .starting) (hrunning : q.state ≠ .running) :
    q.measures = false := by
  simp [Port.measures, hstarting, hrunning]

section
variable {p : List Byte} {k : PortId} (hk : u8 p 0 = k.val)
include hk

theorem portNo_of_field : portNo (u8 p 0) = k := by rw [hk, portNo_val]

/-! ## The checks a request in range passes -/

theorem portModeFault_none (hmode : u8 p 1 ≤ 6) (hrtd : u8 p 2 = 0 ∨ (u8 p 1 = 6 ∧ u8 p 2 = 1)) (h3 : u8 p 3 = 0) :
    portModeFault p = none := by
  unfold portModeFault
  rw [portFault_none hk, if_neg (by omega), if_neg (by omega), firstNonZero_one h3]
  rfl

theorem portBiasFault_none {s : State} (hmode : (s.ports[k]'k.isLt).mode.isEc = true ∨ (s.ports[k]'k.isLt).state = .disabled)
    (h1 : u8 p 1 = 0) (hbias : (s16 p 2).natAbs ≤ 16384)
    (hplan : ∀ x, (s.gauze[k]'k.isLt).plan = some x → biasFits (s16 p 2) x.ampSum = true) (hlo : 1 ≤ u16 p 4)
    (hhi : u16 p 4 ≤ 1000) (hvlo : 40 ≤ u8 p 6) (hvhi : u8 p 6 ≤ 100) (h7 : u8 p 7 = 0) :
    portBiasFault p s = none := by
  obtain rfl := portNo_of_field hk
  have hfits : s.gauze[portNo (u8 p 0)].plan.any (fun x => !biasFits (s16 p 2) x.ampSum) = false := by
    rw [Option.any_eq_false]
    intro x hx
    rw [hplan x hx]
    decide
  unfold portBiasFault
  dsimp only
  rw [portFault_none hk, if_pos hmode, firstNonZero_one h1, hfits,
    if_neg (show ¬ (16384 < (s16 p 2).natAbs ∨ false = true) by simp; omega),
    if_neg (show ¬ (u16 p 4 = 0 ∨ 1000 < u16 p 4) by omega), if_neg (show ¬ (u8 p 6 < 40 ∨ 100 < u8 p 6) by omega),
    firstNonZero_one h7]
  rfl

theorem portRangeFault_none {i : Fin 2} (hi : u8 p 1 = i.val) (hlo : u8 p 2 ≤ u8 p 4) (hhi : u8 p 4 ≤ u8 p 3)
    (h7 : u8 p 3 ≤ 7) (hs : 1 ≤ u8 p 5) : portRangeFault p = none := by
  unfold portRangeFault
  rw [portFault_none hk, if_neg (by omega), if_neg (by omega), if_neg (by omega), if_neg (by omega), if_neg (by omega)]
  rfl

theorem portWindowFault_none (hmin : 1 ≤ u8 p 2) (hlen : u8 p 2 ≤ u8 p 1) (hmax : u8 p 1 ≤ 64) (h3 : u8 p 3 = 0) :
    portWindowFault p = none := by
  unfold portWindowFault
  rw [portFault_none hk, if_neg (by omega), if_neg (by omega), firstNonZero_one h3]
  rfl

theorem portSettleFault_none (h1 : u8 p 1 ≤ 60) (h2 : u16 p 2 ≤ 1440) : portSettleFault p = none := by
  unfold portSettleFault
  rw [portFault_none hk, if_neg (by omega), if_neg (by omega)]
  rfl

theorem portAuxFault_none {s : State} (hmode : (s.ports[k]'k.isLt).mode = .aux) (hrtd : (s.ports[k]'k.isLt).rtd = true)
    (h1 : u8 p 1 ≤ 2) : portAuxFault p s = none := by
  obtain rfl := portNo_of_field hk
  unfold portAuxFault
  rw [portFault_none hk, if_pos ⟨hmode, hrtd⟩, if_neg (by omega)]
  rfl

theorem portRingFault_none {s : State} (hmox : (s.ports[k]'k.isLt).mode ≠ .mox) (hirt : (s.ports[k]'k.isLt).mode ≠ .irt)
    (h1 : u8 p 1 ≤ 3) : portRingFault p s = none := by
  obtain rfl := portNo_of_field hk
  unfold portRingFault
  rw [portFault_none hk, if_pos (Mode.hasRing_of_ne hmox hirt), if_neg (by omega)]
  rfl

theorem portLayerFault_none {s : State} (hmode : (s.ports[k]'k.isLt).mode = .mox) (h1 : u8 p 1 = 0)
    (hv : (s16 p 2).natAbs ≤ 1000) : portLayerFault p s = none := by
  obtain rfl := portNo_of_field hk
  unfold portLayerFault
  rw [portFault_none hk, if_pos hmode, firstNonZero_one h1, if_neg (by omega)]
  rfl

/-! ## The commands, their checks passed -/

variable {s : State} {n : SlotId}

theorem execPortMode_valid (h : s.request n 0x0201 p) (hfault : portModeFault p = none)
    (hstate : (s.ports[k]'k.isLt).state = .disabled ∨ (s.ports[k]'k.isLt).state = .stopped) :
    exec (.portMode n) s = .next (pendBoundary n 0x0201 p 1 s) := by
  obtain rfl := portNo_of_field hk
  change execPortMode n s = _
  unfold execPortMode
  rw [onSlot_request h, orRefuse_none hfault]
  rw [if_pos hstate]

theorem execPortBias_valid (h : s.request n 0x0202 p) (hfault : portBiasFault p s = none) :
    exec (.portBias n) s = .next (if (s.ports[k]'k.isLt).measures then pendBoundary n 0x0202 p 1 s
      else postStatus n .ok (s.modPort k (Port.rebias s.core.lt p))) := by
  obtain rfl := portNo_of_field hk
  change execPortBias n s = _
  unfold execPortBias
  rw [onSlot_request h]
  rw [hfault]
  dsimp only [applyPortBias]

omit hk in
theorem execPortRange_valid (h : s.request n 0x0203 p) (hfault : portRangeFault p = none) :
    exec (.portRange n) s = .next (planCommand n 0x0203 applyPortRange p s) := by
  change execPortRange n s = _
  unfold execPortRange
  rw [onSlot_request h, orRefuse_none hfault]

omit hk in
theorem execPortWindow_valid (h : s.request n 0x0204 p) (hfault : portWindowFault p = none) :
    exec (.portWindow n) s = .next (planCommand n 0x0204 applyPortWindow p s) := by
  change execPortWindow n s = _
  unfold execPortWindow
  rw [onSlot_request h, orRefuse_none hfault]

omit hk in
theorem execPortSettle_valid (h : s.request n 0x0205 p) (hfault : portSettleFault p = none) :
    exec (.portSettle n) s = .next (postStatus n .ok (applyPortSettle p s)) := by
  change execPortSettle n s = _
  unfold execPortSettle
  rw [onSlot_request h, orRefuse_none hfault]

omit hk in
theorem execPortAux_valid (h : s.request n 0x0206 p) (hfault : portAuxFault p s = none) :
    exec (.portAux n) s = .next (unlessRunning n 0x0206 applyPortAux p s) := by
  change execPortAux n s = _
  unfold execPortAux
  rw [onSlot_request h]
  rw [hfault]

omit hk in
theorem execPortRing_valid (h : s.request n 0x0207 p) (hfault : portRingFault p s = none) :
    exec (.portRing n) s = .next (unlessRunning n 0x0207 applyPortRing p s) := by
  change execPortRing n s = _
  unfold execPortRing
  rw [onSlot_request h]
  rw [hfault]

omit hk in
theorem execPortLayer_valid (h : s.request n 0x0208 p) (hfault : portLayerFault p s = none) :
    exec (.portLayer n) s = .next (unlessRunning n 0x0208 applyPortLayer p s) := by
  change execPortLayer n s = _
  unfold execPortLayer
  rw [onSlot_request h]
  rw [hfault]

theorem unlessRunning_running (hstate : (s.ports[k]'k.isLt).state = .running) (op : Nat) (apply : List Byte → State → State) :
    unlessRunning n op apply p s = pendBoundary n op p 1 s := by
  obtain rfl := portNo_of_field hk
  unfold unlessRunning
  rw [if_pos hstate]

theorem unlessRunning_other (hstate : (s.ports[k]'k.isLt).state ≠ .running) (op : Nat) (apply : List Byte → State → State) :
    unlessRunning n op apply p s = postStatus n .ok (apply p s) := by
  obtain rfl := portNo_of_field hk
  unfold unlessRunning
  rw [if_neg hstate]

theorem execPortStart_startable (h : s.request n 0x0209 p) (hstart : s.startable k = true) :
    exec (.portStartCommand n) s = .next (pendBoundary n 0x0209 p (if s.modePending k then 2 else 1) s) := by
  obtain rfl := portNo_of_field hk
  change execPortStartCommand n s = _
  unfold execPortStartCommand
  rw [onSlot_request h, orRefuse_none (portFault_none hk)]
  dsimp only
  rw [if_pos hstart]
  split <;> rfl

theorem execPortStop_started (h : s.request n 0x020A p) (hstate : (s.ports[k]'k.isLt).measures = true) :
    exec (.portStop n) s = .next (pendBoundary n 0x020A p 1 s) := by
  obtain rfl := portNo_of_field hk
  change execPortStop n s = _
  unfold execPortStop
  rw [onSlot_request h, orRefuse_none (portFault_none hk)]
  rw [if_pos hstate]

theorem execPortStatus_eq (h : s.request n 0x020B p) : exec (.portStatus n) s = .next (postOk n (s.portStatus k) s) := by
  obtain rfl := portNo_of_field hk
  change execPortStatus n s = _
  unfold execPortStatus
  rw [onSlot_request h, orRefuse_none (portFault_none hk)]

end

theorem planCommand_run {n : SlotId} {s : State} (h : s.core.dev = .run) (op : Nat) (apply : List Byte → State → State)
    (p : List Byte) : planCommand n op apply p s = pendBoundary n op p (s.planBoundaries n) s := if_pos h

theorem planCommand_other {n : SlotId} {s : State} (h : s.core.dev ≠ .run) (op : Nat)
    (apply : List Byte → State → State) (p : List Byte) :
    planCommand n op apply p s = postStatus n .ok (apply p s) := if_neg h

/-- A bias of a port that does not measure takes its settings alone (R90). -/
theorem Port.rebias_idle {q : Port} (h : q.measures = false) (now : W64) (p : List Byte) :
    q.rebias now p = { q with bias := s16 p 2, rate := u16 p 4, vcm := u8 p 6 } := by
  simp only [Port.measures, Bool.or_eq_false_iff, beq_eq_false_iff_ne] at h
  unfold Port.rebias
  dsimp only
  rw [if_neg h.2, if_neg h.1]
  rfl

theorem modPort_congr {p : PortId} {f g : Port → Port} {s : State} (h : f (s.ports[p]'p.isLt) = g (s.ports[p]'p.isLt)) :
    s.modPort p f = s.modPort p g :=
  congrArg (fun q => s.modPorts fun v => v.set p q) h

/-- Settles O2: each setting passes its checks and applies. -/
theorem portSettingsApplyAtOnce : Obligations.PortSettingsApplyAtOnce := by
  intro s n p k hk
  have hport := portNo_of_field hk
  refine ⟨fun i h hdev hi hlo hhi h7 hs => ?_, fun h hdev hmin hlen hmax h3 => ?_, fun h h1 h2 => ?_,
    fun h hmode hrtd hstate h1 => ?_, fun h hmox hirt hstate h1 => ?_, fun h hmode hstate h1 hv => ?_⟩
  · have hinput : Fin.ofNat 2 (u8 p 1) = i := by
      rw [hi]
      exact Fin.ext (Nat.mod_eq_of_lt i.isLt)
    rw [execPortRange_valid h (portRangeFault_none hk hi hlo hhi h7 hs), planCommand_other hdev, applyPortRange, hport,
      hinput]
    rfl
  · rw [execPortWindow_valid h (portWindowFault_none hk hmin hlen hmax h3), planCommand_other hdev, applyPortWindow,
      hport]
  · rw [execPortSettle_valid h (portSettleFault_none hk h1 h2), applyPortSettle, hport]
  · rw [execPortAux_valid h (portAuxFault_none hk hmode hrtd h1), unlessRunning_other hk hstate, applyPortAux, hport]
  · rw [execPortRing_valid h (portRingFault_none hk hmox hirt h1), unlessRunning_other hk hstate, applyPortRing, hport]
  · rw [execPortLayer_valid h (portLayerFault_none hk hmode h1 hv), unlessRunning_other hk hstate, applyPortLayer,
      hport]

/-- Settles O3: each command passes its checks and waits; a bias of a port that does not measure applies. -/
theorem portCommandsWaitForTheirBoundary : Obligations.PortCommandsWaitForTheirBoundary := by
  intro s n p k hk
  refine ⟨fun h hmode hrtd h3 hstate => execPortMode_valid hk h (portModeFault_none hk hmode hrtd h3) hstate,
    fun h hmode h1 hbias hplan hlo hhi hvlo hvhi h7 => ⟨fun hstate => ?_, fun hstarting hrunning => ?_⟩,
    fun i h hdev hi hlo hhi h7 hs => ?_, fun h hdev hmin hlen hmax h3 => ?_,
    fun hstate => ⟨fun h hmode hrtd h1 => ?_, fun h hmox hirt h1 => ?_, fun h hmode h1 hv => ?_⟩,
    fun h hstart => execPortStart_startable hk h hstart, fun h hstate => ?_⟩
  · rw [execPortBias_valid hk h (portBiasFault_none hk hmode h1 hbias hplan hlo hhi hvlo hvhi h7),
      if_pos ((measures_iff _).mpr hstate)]
  · have hidle := measures_of_idle hstarting hrunning
    rw [execPortBias_valid hk h (portBiasFault_none hk hmode h1 hbias hplan hlo hhi hvlo hvhi h7),
      if_neg (ne_true_of_eq_false hidle), modPort_congr (g := fun q => { q with bias := s16 p 2, rate := u16 p 4, vcm := u8 p 6 })
        (Port.rebias_idle hidle _ _)]
  · rw [execPortRange_valid h (portRangeFault_none hk hi hlo hhi h7 hs), planCommand_run hdev]
  · rw [execPortWindow_valid h (portWindowFault_none hk hmin hlen hmax h3), planCommand_run hdev]
  · rw [execPortAux_valid h (portAuxFault_none hk hmode hrtd h1), unlessRunning_running hk hstate]
  · rw [execPortRing_valid h (portRingFault_none hk hmox hirt h1), unlessRunning_running hk hstate]
  · rw [execPortLayer_valid h (portLayerFault_none hk hmode h1 hv), unlessRunning_running hk hstate]
  · exact execPortStop_started hk h ((measures_iff _).mpr hstate)

/-! ## PORT.STATUS -/

theorem toNat_byte {x : Nat} (h : x < 256) : (BitVec.ofNat 8 x).toNat = x := Nat.mod_eq_of_lt h

theorem bits_lt (l : List Bool) : bits l < 2 ^ l.length := by
  induction l with
  | nil => decide
  | cons b l ih =>
    have hb : boolNat b ≤ 1 := by cases b <;> decide
    rw [bits, List.length_cons, Nat.pow_succ]
    omega

theorem toNat_bits {l : List Bool} (h : l.length ≤ 8) : (BitVec.ofNat 8 (bits l)).toNat = bits l :=
  toNat_byte ((bits_lt l).trans_le (Nat.pow_le_pow_right (by decide) h))

theorem PortState.code_le (x : PortState) : x.code ≤ 6 := by cases x <;> decide
theorem Mode.code_le (m : Mode) : m.code ≤ 6 := by cases m <;> decide
theorem boolNat_le (b : Bool) : boolNat b ≤ 1 := by cases b <;> decide

theorem inputRange_toNat (q : Port) (i : Fin 2) :
    (inputRange q i).toNat = if i.val < q.mode.inputs then (q.inputs[i]'i.isLt).range.val else 0xFF := by
  unfold inputRange
  split
  · exact toNat_byte (by omega)
  · rfl

/-- Settles O4: the response is `State.portStatus`, read byte by byte. -/
theorem portStatusReportsThePort : Obligations.PortStatusReportsThePort := by
  intro s n p k hk h
  have hstate := (s.ports[k]'k.isLt).state.code_le
  have hmode := (s.ports[k]'k.isLt).mode.code_le
  have hrtd := boolNat_le ((s.ports[k]'k.isLt).mode == .aux && (s.ports[k]'k.isLt).rtd)
  refine ⟨s.portStatus k, execPortStatus_eq hk h, rfl, toNat_byte (by omega), ?_, fun i => ?_, rfl, rfl,
    toNat_bits (show 5 ≤ 8 by decide), rfl, rfl, rfl⟩
  · change (BitVec.ofNat 8 ((s.ports[k]'k.isLt).mode.code + 16 * boolNat ((s.ports[k]'k.isLt).mode == .aux && (s.ports[k]'k.isLt).rtd))).toNat = _
    rw [toNat_byte (by omega)]
    by_cases haux : (s.ports[k]'k.isLt).mode = .aux ∧ (s.ports[k]'k.isLt).rtd = true
    · rw [if_pos haux, haux.1, haux.2]
      rfl
    · rw [if_neg haux, show ((s.ports[k]'k.isLt).mode == .aux && (s.ports[k]'k.isLt).rtd) = false by simpa using haux]
      rfl
  · match i with
    | 0 => exact inputRange_toNat (s.ports[k]'k.isLt) 0
    | 1 => exact inputRange_toNat (s.ports[k]'k.isLt) 1

end Sys2Proof.Machine
end

section
-- One declaration after another: the whole text is compiled as one file, within a limit on memory.
set_option Elab.async false
/-!
Chunked objects that are complete (R349), and the HEAT family (spec/05, Table 16-6).
-/

namespace Sys2Proof.Machine

/-! ## The last chunk of an object -/

/-- A chunk that continues what is staged has no fault. -/
theorem continueFault_none {g : Staging} {p : List Byte} (hsel : g.sel = u16 p 0) (hlen : g.data.length = u16 p 2)
    (hcomplete : g.complete = false) (htotal : g.total = u16 p 4) (hflags : u8 p 6 = 0) :
    continueFault (some g) p = none := by
  unfold continueFault
  dsimp only
  rw [if_neg (not_not.mpr hsel), if_neg (by simp [hlen, hcomplete]), if_neg (not_not.mpr htotal), hflags]
  rfl

section
variable {c : ChunkCmd} {n : SlotId} {sel : Nat} {s : State} {p : List Byte} (hsel : u16 p 0 = sel)
  (h7 : u8 p 7 = 0) (hbar : c.bar s = none) (hlate : c.late s = none)
include hsel h7 hbar hlate

/-- The only chunk of an object (R349). -/
theorem chunk_only (htotal : u16 p 4 = (p.drop 8).length) (hflags : u8 p 6 = 1) (hoff : u16 p 2 = 0)
    (hselOk : c.selOk sel = true) (htotalOk : c.totalOk sel (p.drop 8).length = true) :
    chunk c n p s = c.done n sel (p.drop 8)
      (c.onChunk (p.drop 8) (c.onFirst (p.drop 8).length (dropStaging c.op sel s))) := by
  subst hsel
  unfold chunk
  dsimp only
  rw [hbar]
  dsimp only
  generalize p.drop 8 = o at *
  rw [hflags, hoff, htotal, hlate, h7]
  simp [hselOk, htotalOk, Nat.testBit]

/-- The chunk that completes what is staged (R349). -/
theorem chunk_continued {g : Staging} (hstaged : s.stagingOf c.op sel = some g) (hgsel : g.sel = sel)
    (hgtotal : g.total = u16 p 4) (hglen : g.data.length = u16 p 2) (hcomplete : g.complete = false)
    (htotal : u16 p 4 = (g.data ++ p.drop 8).length) (hflags : u8 p 6 = 0) :
    chunk c n p s = c.done n sel (g.data ++ p.drop 8) (c.onChunk (p.drop 8) (dropStaging c.op sel s)) := by
  subst hsel
  have hnone := continueFault_none hgsel hglen hcomplete hgtotal hflags
  unfold chunk
  dsimp only
  rw [hbar]
  dsimp only
  rw [hflags, hstaged, htotal, hlate, h7]
  simp [hnone]

end

/-- The last chunk of an object of a command that does nothing with its chunks: the object is taken (R349). -/
theorem onSlot_lastChunk {c : ChunkCmd} {n : SlotId} {op sel : Nat} {o : List Byte} {s : State}
    (h : s.lastChunk n op sel o) (hop : c.op = BitVec.ofNat 16 op) (hfirst : c.onFirst = fun _ s => s)
    (hchunk : c.onChunk = fun _ s => s) (hselOk : c.selOk sel = true) (htotalOk : c.totalOk sel o.length = true)
    (hbar : c.bar s = none) (hlate : c.late s = none) :
    onSlot n op (fun p s => chunk c n p s) s = c.done n sel o (dropStaging c.op sel s) := by
  obtain ⟨p, hreq, hsel, htotal, h7, ⟨hflags, hoff, rfl⟩ | ⟨hflags, g, hstaged, hgsel, hgtotal, hglen, hcomplete, rfl⟩⟩ := h
  · rw [onSlot_request hreq, chunk_only hsel h7 hbar hlate htotal hflags hoff hselOk htotalOk, hfirst, hchunk]
  · rw [onSlot_request hreq, chunk_continued hsel h7 hbar hlate (hop ▸ hstaged) hgsel hgtotal hglen hcomplete htotal
      hflags, hchunk]

/-! ## HEAT commands -/

section
variable {p : List Byte} {k : PortId} (hk : u8 p 0 = k.val) {s : State} {n : SlotId}
include hk

theorem execHeatPlate_valid (h : s.request n 0x0301 p) (hfault : heatPlateFault p = none) :
    exec (.heatPlate n) s = .next (if s.plateFree k then
      postStatus n .ok (s.modHeater k fun h => { h with plate := parsePlate p }) else postStatus n .wrongState s) := by
  obtain rfl := portNo_of_field hk
  change execHeatPlate n s = _
  unfold execHeatPlate
  rw [onSlot_request h, orRefuse_none hfault]
  rfl

theorem execHeatStart_startable (h : s.request n 0x0303 p) (hstart : s.profileStartable k = true) :
    exec (.heatStart n) s = .next (pendBoundary n 0x0303 p 1 s) := by
  obtain rfl := portNo_of_field hk
  change execHeatStart n s = _
  unfold execHeatStart
  rw [onSlot_request h, orRefuse_none (portFault_none hk), if_pos hstart]

theorem execHeatStop_running (h : s.request n 0x0304 p) (hstate : (s.ports[k]'k.isLt).state = .running) :
    exec (.heatStop n) s = .next (pendBoundary n 0x0304 p 1 s) := by
  obtain rfl := portNo_of_field hk
  change execHeatStop n s = _
  unfold execHeatStop
  rw [onSlot_request h, orRefuse_none (portFault_none hk), if_pos hstate]

theorem execHeatStatus_eq (h : s.request n 0x0305 p) :
    exec (.heatStatus n) s = .next (postOk n ((s.heat[k]'k.isLt).status s.core.lt) s) := by
  obtain rfl := portNo_of_field hk
  change execHeatStatus n s = _
  unfold execHeatStatus
  rw [onSlot_request h, orRefuse_none (portFault_none hk)]

end

theorem heatProfileDone_valid {n : SlotId} {k : PortId} {sel : Nat} (hsel : portNo sel = k) {o : List Byte} {s : State}
    (hfault : profileFault (s.heat[k]'k.isLt).plate o = none) :
    heatProfileDone n sel o s = postStatus n .ok (applyProfile k (parseProfile o) s) := by
  subst hsel
  unfold heatProfileDone
  dsimp only
  rw [hfault]

theorem execHeatProfile_last {n : SlotId} {k : PortId} {o : List Byte} {s : State} (h : s.lastChunk n 0x0302 k.val o)
    (hfault : profileFault (s.heat[k]'k.isLt).plate o = none) (hlo : 12 ≤ o.length) (hhi : o.length ≤ 516)
    (hmod : o.length % 8 = 4) : exec (.heatProfile n) s =
      .next (postStatus n .ok (applyProfile k (parseProfile o) (dropStaging 0x0302 k.val s))) := by
  have hdone : onSlot n 0x0302 (fun p s => chunk heatProfileCmd n p s) s =
      heatProfileDone n k.val o (dropStaging 0x0302 k.val s) :=
    onSlot_lastChunk h rfl rfl rfl (decide_eq_true k.isLt) (decide_eq_true ⟨hlo, hhi, hmod⟩) rfl rfl
  change execHeatProfile n s = _
  unfold execHeatProfile
  rw [hdone, heatProfileDone_valid (s := dropStaging 0x0302 k.val s) (portNo_val k) hfault]

/-- Temperature and resistance without a current (log 61). -/
theorem Heater.status_no_current {h : Heater} (hi : h.ihtNa = 0) (now : W64) :
    slice (h.status now) 4 2 = [0, 0] ∧ slice (h.status now) 8 4 = [0, 0, 0, 0] := by
  have hr : resistanceOf h.vhsUv h.ihtNa = none := if_pos hi
  have hzero : roundRat 0 = 0 := by
    have hfloor : (0 : Rat).floor = 0 := rfl
    norm_num [roundRat, hfloor]
  unfold Heater.status
  dsimp only
  rw [hr]
  dsimp only [Option.bind_none, Option.getD_none]
  rw [show (10 : Rat) * 0 = 0 by norm_num, hzero]
  exact ⟨rfl, rfl⟩

theorem Heater.status_resistance {h : Heater} (hi : h.ihtNa ≠ 0) (now : W64) {r : Rat}
    (hr : r = (h.vhsUv : Rat) * 1000000 / h.ihtNa) :
    slice (h.status now) 8 4 = toLE 4 (satNat 0xFFFFFFFF (roundRat r).toNat) ∧
      slice (h.status now) 4 2 = toLEInt 2 (satInt 16 (roundRat (10 * (h.plate.temperature r (h.setTemp now)).getD 0))) := by
  have hsome : resistanceOf h.vhsUv h.ihtNa = some r := by rw [hr]; exact if_neg hi
  unfold Heater.status
  dsimp only
  rw [hsome]
  exact ⟨rfl, rfl⟩

/-- Settles O5: each command passes its checks; the response is `Heater.status`, read byte by byte. -/
theorem heatCommands : Obligations.HeatCommands := by
  intro s n p k hk
  refine ⟨fun h hfault => ⟨fun hfree => ?_, fun hfree => ?_⟩, fun o h hfault hlo hhi hmod => ?_,
    fun pr h hstate hload hruns htrip => ?_, fun h hstate => execHeatStop_running hk h hstate,
    fun h => ⟨_, execHeatStatus_eq hk h, rfl, ?_, rfl, ?_, ?_, rfl, fun hi r hr => Heater.status_resistance hi _ hr,
      fun hi => Heater.status_no_current hi _, rfl⟩⟩
  · rw [execHeatPlate_valid hk h hfault, if_pos hfree]
    rfl
  · rw [execHeatPlate_valid hk h hfault, if_neg (ne_true_of_eq_false hfree)]
  · rw [execHeatProfile_last h hfault hlo hhi hmod]
    rfl
  · refine execHeatStart_startable hk h ?_
    unfold State.profileStartable
    rw [hstate, htrip, hload]
    exact hruns
  · change (if (s.heat[k]'k.isLt).trip.isSome then (2 : Byte) else if (s.heat[k]'k.isLt).run = .stopped then 0 else 1).toNat = _
    split
    · rfl
    · split <;> rfl
  · cases htrip : (s.heat[k]'k.isLt).trip with
    | none => exact congrArg (fun t : Option Trip => (BitVec.ofNat 8 ((t.map tripCode).getD 0)).toNat) htrip
    | some c =>
      refine (congrArg (fun t : Option Trip => (BitVec.ofNat 8 ((t.map tripCode).getD 0)).toNat) htrip).trans ?_
      cases c <;> rfl
  · change (boolByte (s.heat[k]'k.isLt).limit.isSome).toNat = _
    cases (s.heat[k]'k.isLt).limit.isSome <;> rfl

/-! ## Heater events -/

theorem modHeater_same (p : PortId) (f : Heater → Heater) (s : State) : (s.modHeater p f).heat[p]'p.isLt = f (s.heat[p]'p.isLt) :=
  Vector.getElem_set_self ..

@[simp] theorem deferralNotice_heat (p : PortId) (kind cause : Nat) (s : State) :
    (deferralNotice p kind cause s).heat = s.heat := by
  unfold deferralNotice
  dsimp only
  split <;> simp

@[simp] theorem deferralNotice_ports (p : PortId) (kind cause : Nat) (s : State) :
    (deferralNotice p kind cause s).ports = s.ports := by
  unfold deferralNotice
  dsimp only
  split <;> simp

@[simp] theorem deferralNotice_mbox (p : PortId) (kind cause : Nat) (s : State) :
    (deferralNotice p kind cause s).mbox = s.mbox := by
  unfold deferralNotice
  dsimp only
  split <;> simp

@[simp] theorem countCut_heat (p : PortId) (s : State) : (countCut p s).heat = s.heat := by
  unfold countCut
  dsimp only
  split <;> simp

@[simp] theorem countCut_ports (p : PortId) (s : State) : (countCut p s).ports = s.ports := by
  unfold countCut
  dsimp only
  split <;> simp

@[simp] theorem countCut_mbox (p : PortId) (s : State) : (countCut p s).mbox = s.mbox := by
  unfold countCut
  dsimp only
  split <;> simp

/-- The drive's decision changes what drives, and the probe tick. -/
theorem drive_heat (p : PortId) (s : State) : (drive p s).heat[p]'p.isLt =
    { (s.heat[p]'p.isLt) with
      drove := (s.heat[p]'p.isLt).calls && s.heatAllowed p
      probe := ((s.heat[p]'p.isLt).calls && s.heatAllowed p) && !(s.heat[p]'p.isLt).before } :=
  modHeater_same ..

theorem heatAllowed_of_off {s : State} (h : s.therm.heatersOff = true) (p : PortId) : s.heatAllowed p = false := by
  unfold State.heatAllowed
  dsimp only
  rw [h]
  simp

/-- A step that ends leaves its span behind and nothing else. -/
theorem Heater.close_eq (now : W64) (h : Heater) : ∃ e, h.close now = { h with spanEnd := e } := by
  unfold Heater.close
  split
  · split
    · dsimp only
      split
      · exact ⟨h.spanEnd, rfl⟩
      · exact ⟨_, rfl⟩
    · exact ⟨h.spanEnd, rfl⟩
  · exact ⟨h.spanEnd, rfl⟩

theorem beginDue_none {p : PortId} {s : State} (h : (s.heat[p]'p.isLt).due = none) : beginDue p s = s := by
  unfold beginDue
  dsimp only
  rw [h]

section
variable {p : PortId} {s : State} {d : Nat} (hdue : (s.heat[p]'p.isLt).due = some d)
include hdue

theorem beginDue_moved
    (h : ((s.heat[p]'p.isLt).differs d && s.coupledCover (s.heat[p]'p.isLt).plate.coupled s.frame.tick) = true) :
    beginDue p s = s := by
  unfold beginDue
  dsimp only
  rw [hdue]
  exact if_pos h

theorem beginDue_begins
    (h : ((s.heat[p]'p.isLt).differs d && s.coupledCover (s.heat[p]'p.isLt).plate.coupled s.frame.tick) = false) :
    beginDue p s = countCut p (drive p (s.modHeater p (Heater.enter s.core.lt d))) := by
  unfold beginDue
  dsimp only
  rw [hdue]
  exact if_neg (ne_true_of_eq_false h)

end

/-- A step due, whether it begins or is moved, leaves the run, the position and the iteration's flag (R125). -/
theorem beginDue_keeps {α : Type} {f : Heater → α} {p : PortId} {s : State}
    (hf : ∀ (h : Heater) e now k d b, f { h with spanEnd := e, step := 0, since := now, due := none, lead := none
                                                 skipped := k, drove := d, probe := b } = f { h with step := 0 })
    (hdue : (s.heat[p]'p.isLt).due = some 0) (hstep : (s.heat[p]'p.isLt).step = 0) : f ((beginDue p s).heat[p]'p.isLt) = f (s.heat[p]'p.isLt) := by
  cases hmoved : (s.heat[p]'p.isLt).differs 0 && s.coupledCover (s.heat[p]'p.isLt).plate.coupled s.frame.tick
  · rw [beginDue_begins hdue hmoved, countCut_heat, drive_heat, modHeater_same]
    obtain ⟨e, he⟩ := (s.heat[p]'p.isLt).close_eq s.core.lt
    rw [Heater.enter, he]
    exact (hf (s.heat[p]'p.isLt) e _ _ _ _).trans (congrArg (fun k => f { (s.heat[p]'p.isLt) with step := k }) hstep.symm)
  · rw [beginDue_moved hdue hmoved]

section
variable {h : Heater} {pr : Profile} (hpr : h.profile = some pr)
include hpr

/-- A ONCE_OFF profile stops (R124). -/
theorem Heater.iterate_onceOff (hmode : pr.endMode = .onceOff) (now : W64) (t : Nat) : ∃ n,
    h.iterate now t =
      ({ h with iterEnd := false, due := none, skipped := n : Heater }.endOnce now, false) := by
  unfold Heater.iterate
  rw [hpr]
  dsimp only
  rw [hmode]
  exact ⟨_, rfl⟩

/-- A ONCE_HOLD profile holds its last setpoint (R120). -/
theorem Heater.iterate_onceHold (hmode : pr.endMode = .onceHold) (now : W64) (t : Nat) : ∃ e n,
    h.iterate now t =
      ({ h with iterEnd := false, due := none, skipped := n, spanEnd := e, run := .held }, false) := by
  unfold Heater.iterate
  rw [hpr]
  dsimp only
  rw [hmode]
  dsimp only
  obtain ⟨e, he⟩ := Heater.close_eq now { h with iterEnd := false, due := none
                                                 skipped := countUp h.skipped (h.unbegun pr) }
  rw [hpr] at he
  exact ⟨e, _, by rw [he]⟩

/-- A LOOP profile without a replacement returns to the start of its timeline (R120). -/
theorem Heater.iterate_loop (hmode : pr.endMode = .loop) (hnext : h.nextProfile = none) (now : W64) (t : Nat) : ∃ n l,
    h.iterate now t =
      ({ h with iterEnd := false, skipped := n, pos := 0, adj := 0, lead := l, step := 0, due := some 0 }, false) := by
  unfold Heater.iterate
  rw [hpr]
  dsimp only
  rw [hmode]
  dsimp only
  rw [hnext]
  exact ⟨_, _, rfl⟩

/-- A frame-locked replacement waits for a boundary (R124). -/
theorem Heater.iterate_waits (hmode : pr.endMode = .loop) {nx : Profile} (hnext : h.nextProfile = some nx)
    (hlocked : nx.locked = true) (now : W64) {t : Nat} (ht : t ≠ 0) : ∃ e n,
    h.iterate now t =
      ({ h with iterEnd := false, due := none, skipped := n, spanEnd := e, run := .waiting }, false) := by
  unfold Heater.iterate
  rw [hpr]
  dsimp only
  rw [hmode]
  dsimp only
  rw [hnext]
  dsimp only
  rw [if_pos (by simp [hlocked, ht])]
  obtain ⟨e, he⟩ := Heater.close_eq now { h with iterEnd := false, due := none
                                                 skipped := countUp h.skipped (h.unbegun pr) }
  rw [hpr, hnext] at he
  exact ⟨e, _, by rw [he]⟩

end

/-- An iteration that ends without a replacement. -/
theorem execProfileIterationEnd_kept {p : PortId} {s : State} {h : Heater} (hend : (s.heat[p]'p.isLt).iterEnd = true)
    (hiter : (s.heat[p]'p.isLt).iterate s.core.lt s.frame.tick = (h, false)) :
    exec (.profileIterationEnd p) s = .next (beginDue p (s.modHeater p fun _ => h)) := by
  change execProfileIterationEnd p s = _
  unfold execProfileIterationEnd
  rw [if_pos hend]
  unfold iterate
  dsimp only
  rw [hiter]
  rfl

/-- As `execProfileIterationEnd_kept`, with nothing due behind it. -/
theorem execProfileIterationEnd_ended {p : PortId} {s : State} {h : Heater} (hend : (s.heat[p]'p.isLt).iterEnd = true)
    (hiter : (s.heat[p]'p.isLt).iterate s.core.lt s.frame.tick = (h, false)) (hdue : h.due = none) :
    exec (.profileIterationEnd p) s = .next (s.modHeater p fun _ => h) := by
  rw [execProfileIterationEnd_kept hend hiter, beginDue_none (by rw [modHeater_same]; exact hdue)]

theorem execHeaterTrip_due {p : PortId} {s : State} {c : Trip} (h : (s.heat[p]'p.isLt).tripDue = some c) :
    exec (.heaterTrip p) s = .next (raise (groupSource 36 p)
      (notice 0x0302 .ordinary (argB 0 p.val ||| argB 1 (tripCode c)) (s.modHeater p fun h =>
        { h with trip := some c, tripped := true, tripDue := none, drove := false, probe := false }))) := by
  change execHeaterTrip p s = _
  unfold execHeaterTrip
  rw [h]
  rfl

theorem execHeaterLimitNotice_due {p : PortId} {s : State} {l : HeatLimit} (hl : (s.heat[p]'p.isLt).limit = some l)
    (hticks : 64000 ≤ (s.heat[p]'p.isLt).limitTicks) (hage : ∀ a, (s.heat[p]'p.isLt).limitAge = some a → 6000 ≤ a) :
    exec (.heaterLimitNotice p) s = .next (notice 0x0301 .ordinary (argB 0 p.val ||| argB 1 (limitCode l))
      (s.modHeater p fun h => { h with limitAge := some 0 })) := by
  have hold : ((s.heat[p]'p.isLt).limitAge.map fun a => decide (6000 ≤ a)).getD true = true := by
    cases ha : (s.heat[p]'p.isLt).limitAge with
    | none => rfl
    | some a => exact decide_eq_true (hage a ha)
  change execHeaterLimitNotice p s = _
  unfold execHeaterLimitNotice
  dsimp only
  rw [hl]
  exact congrArg Host.Outcome.next (if_pos ⟨hticks, hold⟩)

section
variable {p : PortId} {s : State} {x : SpanEnd} (hx : (s.heat[p]'p.isLt).spanEnd = some x)
include hx

theorem execFeatureCapture_missing (h : x.within (s.heat[p]'p.isLt).results = []) :
    exec (.featureCapture p) s = .next (s.modHeater p fun h => { h with spanEnd := none }) := by
  change execFeatureCapture p s = _
  unfold execFeatureCapture
  rw [hx]
  dsimp only
  rw [h]
  rfl

/-- The feature passed is the mean of the results in its span (R131). -/
theorem execFeatureCapture_passed (h : x.within (s.heat[p]'p.isLt).results ≠ []) : ∃ f : Feature,
    exec (.featureCapture p) s = .next ((s.modHeater p fun h => { h with spanEnd := none }).modGas fun g =>
      { g with passed := g.passed.set p
                ((x.feature, f) :: g.passed[p].filter fun e => e.1 != x.feature || e.2.flags != f.flags) }) ∧
    f.age = 0 ∧ f.value = ((x.within (s.heat[p]'p.isLt).results).map (·.value)).sum / (x.within (s.heat[p]'p.isLt).results).length := by
  change ∃ f : Feature, execFeatureCapture p s = _ ∧ _
  unfold execFeatureCapture
  rw [hx]
  dsimp only
  rw [if_neg (by simpa using h)]
  exact ⟨_, rfl, rfl, rfl⟩

end

/-- Settles O6: a step due by `beginDue`, an iteration's end by `Heater.iterate`'s cases. -/
theorem heaterEvents : Obligations.HeaterEvents := by
  intro s k
  refine ⟨fun d hdue => ⟨fun hmoved => congrArg Host.Outcome.next (beginDue_moved hdue hmoved), fun hbegins => ?_⟩,
    fun pr hend hpr => ⟨fun hmode => ?_, fun hmode => ?_, fun hmode hnext => ?_, fun nx hmode hnext hlocked htick => ?_⟩,
    fun c hc => execHeaterTrip_due hc, fun l hl hticks hage => execHeaterLimitNotice_due hl hticks hage,
    fun x hx => ⟨execFeatureCapture_missing hx, fun h => ?_⟩⟩
  · refine ⟨_, congrArg Host.Outcome.next (beginDue_begins hdue hbegins), ?_⟩
    obtain ⟨e, he⟩ := (s.heat[k]'k.isLt).close_eq s.core.lt
    rw [countCut_heat, countCut_ports, countCut_mbox, drive_heat, modHeater_same, Heater.enter, he]
    refine ⟨rfl, rfl, rfl, rfl, rfl, fun hoff => ?_, rfl, rfl, rfl⟩
    dsimp only
    rw [heatAllowed_of_off (s := s.modHeater k _) hoff, Bool.and_false]
  · obtain ⟨n, hiter⟩ := Heater.iterate_onceOff hpr hmode s.core.lt s.frame.tick
    refine ⟨_, execProfileIterationEnd_ended hend hiter rfl, ?_⟩
    rw [modHeater_same]
    exact ⟨rfl, rfl, rfl, rfl⟩
  · obtain ⟨e, k, hiter⟩ := Heater.iterate_onceHold hpr hmode s.core.lt s.frame.tick
    refine ⟨_, execProfileIterationEnd_ended hend hiter rfl, ?_⟩
    rw [modHeater_same]
    exact ⟨rfl, rfl, rfl⟩
  · obtain ⟨n, l, hiter⟩ := Heater.iterate_loop hpr hmode hnext s.core.lt s.frame.tick
    have hsame := modHeater_same k (fun _ => { (s.heat[k]'k.isLt) with
      iterEnd := false, skipped := n, pos := 0, adj := 0, lead := l, step := 0, due := some 0 }) s
    refine ⟨_, execProfileIterationEnd_kept hend hiter, ?_⟩
    have hkeeps {α : Type} {f : Heater → α} hf := beginDue_keeps (f := f) hf (congrArg Heater.due hsame)
      (congrArg Heater.step hsame)
    refine ⟨?_, ?_, ?_, ?_⟩
    · rw [hkeeps (f := Heater.run) fun _ _ _ _ _ _ => rfl, hsame]
    · rw [hkeeps (f := Heater.step) fun _ _ _ _ _ _ => rfl, hsame]
    · rw [hkeeps (f := Heater.pos) fun _ _ _ _ _ _ => rfl, hsame]
    · rw [hkeeps (f := Heater.iterEnd) fun _ _ _ _ _ _ => rfl, hsame]
  · obtain ⟨e, n, hiter⟩ := Heater.iterate_waits hpr hmode hnext hlocked s.core.lt htick
    refine ⟨_, execProfileIterationEnd_ended hend hiter rfl, ?_⟩
    rw [modHeater_same]
    exact ⟨rfl, hnext, rfl⟩
  · obtain ⟨f, hexec, hage, hvalue⟩ := execFeatureCapture_passed hx h
    refine ⟨_, f, hexec, ?_, ?_, hage, hvalue⟩
    · exact congrArg Heater.spanEnd (modHeater_same k (fun h => { h with spanEnd := none }) s)
    · exact Vector.getElem_set_self ..

end Sys2Proof.Machine
end

section
-- One declaration after another: the whole text is compiled as one file, within a limit on memory.
set_option Elab.async false
/-!
The GAUZE family (spec/06, Table 16-7): its commands, its readings, and the events of a run.
-/

namespace Sys2Proof.Machine

/-! ## One port's gauze -/

theorem modGauzeAt_same (p : PortId) (f : Gauze → Gauze) (s : State) : (s.modGauzeAt p f).gauze[p]'p.isLt = f (s.gauze[p]'p.isLt) :=
  Vector.getElem_set_self ..

theorem modGauzeAt_modGauzeAt (p : PortId) (f g : Gauze → Gauze) (s : State) :
    (s.modGauzeAt p f).modGauzeAt p g = s.modGauzeAt p fun x => g (f x) := by
  have hset : (s.modGauzeAt p f).gauze.set p (g ((s.modGauzeAt p f).gauze[p]'p.isLt)) = s.gauze.set p (g (f (s.gauze[p]'p.isLt))) := by
    rw [modGauzeAt_same]
    exact Vector.set_set ..
  exact congrArg (fun v => s.modGauze fun _ => v) hset

theorem modGauzeAt_const (p : PortId) (f : Gauze → Gauze) (s : State) :
    s.modGauzeAt p f = s.modGauzeAt p fun _ => f (s.gauze[p]'p.isLt) := rfl

/-! ## Commands -/

theorem floatFault_none {m : Nat} {ok : F32 → Bool} {p : List Byte}
    (h : ∀ i < m, F32.finite (f32At p (4 + 4 * i)) = true ∧ ok (f32At p (4 + 4 * i)) = true) :
    floatFault ((List.range m).map fun i => 4 + 4 * i) ok p = none := by
  rw [floatFault, List.find?_eq_none]
  intro o ho
  obtain ⟨i, hi, rfl⟩ := List.mem_map.mp ho
  obtain ⟨hfinite, hok⟩ := h i (List.mem_range.mp hi)
  rw [hfinite, hok]
  decide

section
variable {s : State} {n : SlotId} {p : List Byte} {k : PortId}

theorem gauzePlanDone_valid {sel : Nat} (hsel : portNo sel = k) {o : List Byte} (hmode : (s.ports[k]'k.isLt).mode.hasGauze = true)
    (hfault : tonePlanFault (s.ports[k]'k.isLt).mode.isEc (s.ports[k]'k.isLt).bias o = none) (hidle : (s.gauze[k]'k.isLt).phase = .idle) :
    gauzePlanDone n sel o s =
      postStatus n .ok (s.modGauzeAt k fun g => { g with plan := some (parseTonePlan o) }) := by
  subst hsel
  unfold gauzePlanDone
  dsimp only
  rw [hmode, hfault, if_neg (by decide)]
  exact if_neg (by rw [Gauze.running, hidle]; decide)

theorem execGauzePlan_last {o : List Byte} (h : s.lastChunk n 0x0401 k.val o) (hlo : 24 ≤ o.length)
    (hhi : o.length ≤ 80) (hmod : o.length % 8 = 0) : exec (.gauzePlan n) s =
      .next (gauzePlanDone n k.val o (dropStaging 0x0401 k.val s)) :=
  congrArg Host.Outcome.next (onSlot_lastChunk (c := gauzePlanCmd) h rfl rfl rfl (decide_eq_true k.isLt)
    (decide_eq_true ⟨hlo, hhi, hmod⟩) rfl rfl)

variable (hk : u8 p 0 = k.val)
include hk

theorem execGauzeStart_admitted (h : s.request n 0x0402 p) (hmeasures : (s.ports[k]'k.isLt).measures = true)
    (hmode : (s.ports[k]'k.isLt).mode.hasGauze = true) (hrefusal : s.gauzeRefusal k = none) :
    exec (.gauzeStart n) s =
      .next (pendBoundary n 0x0402 p (2 - s.boundariesSince (s.mbox.slots[n]'n.isLt).rung) s) := by
  obtain rfl := portNo_of_field hk
  have hnone : gauzeStartRefusal (portNo (u8 p 0)) s = none := by
    unfold gauzeStartRefusal
    dsimp only
    rw [hrefusal, hmeasures, hmode]
    rfl
  change execGauzeStart n s = _
  unfold execGauzeStart
  rw [onSlot_request h, orRefuse_none (portFault_none hk), hnone]
  rfl

theorem execGauzeStop_running (h : s.request n 0x0403 p) (hphase : (s.gauze[k]'k.isLt).phase ≠ .idle) :
    exec (.gauzeStop n) s = .next (pendBoundary n 0x0403 p 1 s) := by
  obtain rfl := portNo_of_field hk
  change execGauzeStop n s = _
  unfold execGauzeStop
  rw [onSlot_request h, orRefuse_none (portFault_none hk)]
  exact congrArg Host.Outcome.next (if_pos (bne_iff_ne.mpr hphase))

theorem execGauzeCap_valid (h : s.request n 0x0407 p) (hmode : (s.ports[k]'k.isLt).mode = .cap)
    (hzero : ∀ i < 3, u8 p (1 + i) = 0) (hfinite : ∀ i < 5, F32.finite (f32At p (4 + 4 * i)) = true) :
    exec (.gauzeCap n) s = .next (if s.core.dev = .run then pendBoundary n 0x0407 p 1 s
      else postStatus n .ok (applyGauzeCap p s)) := by
  obtain rfl := portNo_of_field hk
  have hfloat : floatFault [4, 8, 12, 16, 20] (fun _ => true) p = none :=
    floatFault_none (m := 5) fun i hi => ⟨hfinite i hi, rfl⟩
  have hfault : gauzeCapFault p s = none := by
    unfold gauzeCapFault
    rw [if_neg (by omega), if_neg (not_not.mpr hmode), firstNonZero_none hzero, hfloat]
    rfl
  change execGauzeCap n s = _
  unfold execGauzeCap
  rw [onSlot_request h, hfault]

end

/-- Settles O7: each command passes its checks and loads, waits or applies. -/
theorem gauzeCommands : Obligations.GauzeCommands := by
  intro s n p k hk
  refine ⟨fun o h hmode hidle hfault hlo hhi hmod => ?_, fun h hstate hmode hrefusal => ⟨fun hsame => ?_, fun hpast => ?_⟩,
    fun h hphase => execGauzeStop_running hk h hphase, fun h hmode hzero hfinite => ⟨fun hrun => ?_, fun hrun => ?_⟩⟩
  · rw [execGauzePlan_last h hlo hhi hmod,
      gauzePlanDone_valid (s := dropStaging 0x0401 k.val s) (portNo_val k) hmode hfault hidle]
  · rw [execGauzeStart_admitted hk h ((measures_iff _).mpr hstate) hmode hrefusal, State.boundariesSince,
      decide_eq_false (by omega)]
    rfl
  · rw [execGauzeStart_admitted hk h ((measures_iff _).mpr hstate) hmode hrefusal, State.boundariesSince,
      decide_eq_true hpast]
    rfl
  · rw [execGauzeCap_valid hk h hmode hzero hfinite, if_pos hrun]
  · rw [execGauzeCap_valid hk h hmode hzero hfinite, if_neg hrun, applyGauzeCap, portNo_of_field hk]

/-! ## Readings -/

section
variable {s : State} {n : SlotId} {p : List Byte} {k : PortId} (hk : u8 p 0 = k.val)
include hk

theorem execGauzeRead_tone (h : s.request n 0x0404 p) (htone : u8 p 1 ≤ 7) : exec (.gauzeRead n) s =
    .next (postOk n ((((s.gauze[k]'k.isLt).results[u8 p 1]?).map ToneResult.bytes).getD []) s) := by
  obtain rfl := portNo_of_field hk
  have hfault : gauzeReadFault p = none := by
    unfold gauzeReadFault
    rw [if_neg (by omega), if_neg (by omega)]
  change execGauzeRead n s = _
  unfold execGauzeRead
  rw [onSlot_request h, orRefuse_none hfault]
  exact congrArg Host.Outcome.next (if_neg (by omega))

theorem execGauzeRead_humidity (h : s.request n 0x0404 p) (hff : u8 p 1 = 0xFF) {v : Nat} {fl : W16}
    (hrh : (s.gauze[k]'k.isLt).rh = some (v, fl)) : exec (.gauzeRead n) s = .next (postOk n
      (toLE 2 v ++ toLE 2 fl.toNat ++ toLE 2 (satNat 65535 (s.gauze[k]'k.isLt).rhAge)) s) := by
  obtain rfl := portNo_of_field hk
  have hfault : gauzeReadFault p = none := by
    unfold gauzeReadFault
    rw [if_neg (by omega), if_neg (by omega)]
  change execGauzeRead n s = _
  unfold execGauzeRead
  rw [onSlot_request h, orRefuse_none hfault]
  dsimp only
  rw [if_pos hff, hrh]

theorem gauzeHealthFault_none (hop : u8 p 1 ≤ 2) (hzero : ∀ i < 2, u8 p (2 + i) = 0) : gauzeHealthFault p = none := by
  unfold gauzeHealthFault
  rw [if_neg (by omega), if_neg (by omega), firstNonZero_none hzero]

theorem execGauzeHealth_report (h : s.request n 0x0405 p) (hop : u8 p 1 = 0) (hzero : ∀ i < 2, u8 p (2 + i) = 0) :
    exec (.gauzeHealth n) s = .next (postOk n ((s.gauze[k]'k.isLt).health.getD {}).bytes s) := by
  obtain rfl := portNo_of_field hk
  change execGauzeHealth n s = _
  unfold execGauzeHealth
  rw [onSlot_request h, if_neg (by omega), gauzeHealthFault_none hk (by omega) hzero]

theorem execGauzeHealthSetReferences_valid (h : s.request n 0x0405 p) (hop : u8 p 1 = 1)
    (hzero : ∀ i < 2, u8 p (2 + i) = 0)
    (hrefs : ∀ i < 3, F32.finite (f32At p (4 + 4 * i)) = true ∧ 0 < F32.toRat (f32At p (4 + 4 * i))) :
    exec (.gauzeHealthSetReferences n) s = .next (postStatus n .ok (s.modGauzeAt k fun g =>
      { g with refs := some { rs := f32At p 4, rct := f32At p 8, cdl := f32At p 12 }, refsWanted := false })) := by
  obtain rfl := portNo_of_field hk
  have hfloat : floatFault [4, 8, 12] (fun x => 0 < F32.toRat x) p = none :=
    floatFault_none (m := 3) fun i hi => ⟨(hrefs i hi).1, decide_eq_true (hrefs i hi).2⟩
  have hfault : healthRefsFault p = none := by
    rw [healthRefsFault, gauzeHealthFault_none hk (by omega) hzero, hfloat]
    rfl
  change execGauzeHealthSetReferences n s = _
  unfold execGauzeHealthSetReferences
  rw [onSlot_request h, if_pos hop, hfault]

theorem execGauzeHealthSetSpreads_valid (h : s.request n 0x0405 p) (hop : u8 p 1 = 2)
    (hzero : ∀ i < 2, u8 p (2 + i) = 0) (hspread : ∀ i < 3, F32.finite (f32At p (4 + 4 * i)) = true ∧
      F32.le 0x3F8CCCCD (f32At p (4 + 4 * i)) = true ∧ F32.le (f32At p (4 + 4 * i)) 0x41200000 = true)
    (hthreshold : u16 p 16 ≤ 1000) :
    exec (.gauzeHealthSetSpreads n) s = .next (postStatus n .ok (s.modGauzeAt k fun g =>
      { g with spread := { rs := f32At p 4, rct := f32At p 8, cdl := f32At p 12 }, threshold := u16 p 16 })) := by
  obtain rfl := portNo_of_field hk
  have hfloat : floatFault [4, 8, 12] (fun x => F32.le 0x3F8CCCCD x && F32.le x 0x41200000) p = none :=
    floatFault_none (m := 3) fun i hi => ⟨(hspread i hi).1, Bool.and_eq_true_iff.mpr (hspread i hi).2⟩
  have hfault : healthSpreadsFault p = none := by
    rw [healthSpreadsFault, gauzeHealthFault_none hk (by omega) hzero, hfloat, if_neg (by omega)]
    rfl
  change execGauzeHealthSetSpreads n s = _
  unfold execGauzeHealthSetSpreads
  rw [onSlot_request h, if_pos hop, hfault]

theorem execGauzeStatus_eq (h : s.request n 0x0406 p) : exec (.gauzeStatus n) s = .next (postOk n
    ([BitVec.ofNat 8 (s.gauze[k]'k.isLt).phase.code, BitVec.ofNat 8 (s.channelsUsed none)] ++
      toLE 2 (s.gauze[k]'k.isLt).completed.toNat ++ toLE 4 (s.gauze[k]'k.isLt).discarded.toNat ++
      toLE 4 (s.gauze[k]'k.isLt).skipped.toNat) s) := by
  obtain rfl := portNo_of_field hk
  change execGauzeStatus n s = _
  unfold execGauzeStatus
  rw [onSlot_request h, orRefuse_none (portFault_none hk)]

end

/-- Settles O8: each reading is the response its command builds. -/
theorem gauzeReadings : Obligations.GauzeReadings := by
  intro s n p k hk
  refine ⟨fun h => ⟨fun htone hnone => ?_, fun r htone hsome => ?_,
    fun v fl hff hrh => execGauzeRead_humidity hk h hff hrh⟩,
    fun h hzero => ⟨fun hop => execGauzeHealth_report hk h hop hzero,
      fun hop hrefs => execGauzeHealthSetReferences_valid hk h hop hzero hrefs,
      fun hop hspread hthreshold => execGauzeHealthSetSpreads_valid hk h hop hzero hspread hthreshold⟩,
    fun h => execGauzeStatus_eq hk h⟩
  · rw [execGauzeRead_tone hk h htone, hnone]
    rfl
  · rw [execGauzeRead_tone hk h htone, hsome]
    rfl

/-! ## The events of a run -/

/-- The engine after the results of run `r` have been taken (R148, R156). -/
def Gauze.withResults (p : PortId) (s : State) (r : GauzeRun) (g : Gauze) : Gauze :=
  let pl := s.tonePlan p
  let x := (s.gauze[p]'p.isLt).withRun r
  let fl := x.integrationFlags pl
  let cap := (s.ports[p]'p.isLt).mode == .cap
  let rh := pl.lowest.map fun y => humidity x.cap (s.portTemp p) (toneCapacitance p (s.toneFound p x y))
  { g with
    results := pl.tones.map fun y => toneResult p pl (r.serial + 1) fl y (s.toneFound p x y), resultsF0 := pl.f0
    completed := countUp g.completed 1, fitDue := g.fitDue || pl.fit
    rh := if cap then (rh.map (·, fl)).or g.rh else g.rh
    rhAge := if cap then 0 else g.rhAge, rhNew := g.rhNew || cap }

theorem takeResults_eq (p : PortId) (r : GauzeRun) (s : State) :
    takeResults p r s = s.modGauzeAt p (Gauze.withResults p s r) := by
  unfold takeResults Gauze.withResults
  simp only [List.map_map, Function.comp_def]

theorem Gauze.withRun_run (g : Gauze) : g.withRun g.run = g := rfl

/-- What an integration that completes leaves of the engine, the next one discarded or not (R147, R148). -/
theorem completeIntegration_eq (p : PortId) (s : State) : ∃ charge volts : List Demod,
    completeIntegration p s = s.modGauzeAt p fun _ =>
      let g := Gauze.withResults p s (s.gauze[p]'p.isLt).run (s.gauze[p]'p.isLt)
      let g' := { g with spoilt := false, serial := g.serial + 1, charge, volts
                         intStart := g.intStart + (s.tonePlan p).m }
      if (s.gauze[p]'p.isLt).spoilt && ((s.tonePlan p).count == 0 || decide ((s.gauze[p]'p.isLt).serial + 1 < (s.tonePlan p).count)) then
        g'.discard ((s.gauze[p]'p.isLt).periods s.core.lt (s.tonePlan p).f0 + 1)
      else g' := by
  let later := fun (l : List Demod) => l.filter fun x =>
    decide ((s.gauze[p]'p.isLt).periodClock (s.tonePlan p).f0 ((s.gauze[p]'p.isLt).intStart + (s.tonePlan p).m) ≤ x.clk)
  refine ⟨later (s.gauze[p]'p.isLt).charge, later (s.gauze[p]'p.isLt).volts, ?_⟩
  unfold completeIntegration
  dsimp only
  rw [takeResults_eq, modGauzeAt_modGauzeAt, modGauzeAt_const]
  rfl

theorem integrationDone_of {p : PortId} {s : State} (hphase : (s.gauze[p]'p.isLt).phase = .integ)
    (hover : (s.gauze[p]'p.isLt).intStart + (s.tonePlan p).m ≤ (s.gauze[p]'p.isLt).periods s.core.lt (s.tonePlan p).f0)
    (hcount : (s.tonePlan p).count = 0 ∨ (s.gauze[p]'p.isLt).serial < (s.tonePlan p).count) : s.integrationDone p = true := by
  have hlt : s.core.lt + BitVec.ofNat 64 0 = s.core.lt := BitVec.add_zero _
  unfold State.integrationDone State.integrationOver
  dsimp only
  rw [hlt, hphase, decide_eq_true hover, decide_eq_true hcount]
  rfl

/-- No results are due of a run whose integration has not ended. -/
theorem integrationDone_of_running {p : PortId} {s : State} (h : (s.gauze[p]'p.isLt).phase = .integ →
    (s.gauze[p]'p.isLt).periods s.core.lt (s.tonePlan p).f0 < (s.gauze[p]'p.isLt).intStart + (s.tonePlan p).m) :
    s.integrationDone p = false := by
  have hlt : s.core.lt + BitVec.ofNat 64 0 = s.core.lt := BitVec.add_zero _
  by_cases hphase : (s.gauze[p]'p.isLt).phase = .integ
  · have hnot := h hphase
    have hover : s.integrationOver 0 p = false := by
      unfold State.integrationOver
      dsimp only
      rw [hlt]
      exact decide_eq_false (by omega)
    unfold State.integrationDone
    dsimp only
    rw [hover, Bool.and_false, Bool.false_and]
  · unfold State.integrationDone
    dsimp only
    rw [beq_eq_false_iff_ne.mpr hphase, Bool.false_and, Bool.false_and]

theorem execGauzeIntegrationEnd_done {p : PortId} {s : State} (hended : (s.gauze[p]'p.isLt).ended = none)
    (hdone : s.integrationDone p = true) : exec (.gauzeIntegrationEnd p) s = .next (completeIntegration p s) := by
  change execGauzeIntegrationEnd p s = _
  unfold execGauzeIntegrationEnd
  rw [hended]
  exact congrArg Host.Outcome.next (if_pos hdone)

/-- The results of a run that its boundary has ended (R147). -/
theorem execGauzeIntegrationEnd_ended {p : PortId} {s : State} {r : GauzeRun} (hended : (s.gauze[p]'p.isLt).ended = some r)
    (hrunning : (s.gauze[p]'p.isLt).phase = .integ →
      (s.gauze[p]'p.isLt).periods s.core.lt (s.tonePlan p).f0 < (s.gauze[p]'p.isLt).intStart + (s.tonePlan p).m) :
    exec (.gauzeIntegrationEnd p) s =
      .next (s.modGauzeAt p fun _ => { Gauze.withResults p s r (s.gauze[p]'p.isLt) with ended := none }) := by
  have hstate : (takeResults p r s).modGauzeAt p (fun g => { g with ended := none }) =
      s.modGauzeAt p fun _ => { Gauze.withResults p s r (s.gauze[p]'p.isLt) with ended := none } := by
    rw [takeResults_eq, modGauzeAt_modGauzeAt, modGauzeAt_const]
  have hsame := modGauzeAt_same p (fun _ => { Gauze.withResults p s r (s.gauze[p]'p.isLt) with ended := none }) s
  have hplan : (s.modGauzeAt p fun _ => { Gauze.withResults p s r (s.gauze[p]'p.isLt) with ended := none }).tonePlan p =
      s.tonePlan p := by
    unfold State.tonePlan
    rw [hsame]
    rfl
  have hdone : (s.modGauzeAt p fun _ => { Gauze.withResults p s r (s.gauze[p]'p.isLt) with ended := none }).integrationDone p =
      false := by
    apply integrationDone_of_running
    rw [hplan, hsame]
    exact hrunning
  change execGauzeIntegrationEnd p s = _
  unfold execGauzeIntegrationEnd
  rw [hended]
  dsimp only
  rw [hstate, hdone]
  rfl

theorem endGauze_of_fall {p : PortId} {s : State} (h : (s.gauze[p]'p.isLt).phase = .fall) :
    endGauze p s = completeWhere (·.wait == .gauzeFall p) .ok
      (s.modGauzeAt p fun g => { g with phase := .idle, withheld := false }) := by
  have hdone : s.integrationDone p = false :=
    integrationDone_of_running fun hinteg => absurd (h.symm.trans hinteg) (by decide)
  have hintegrating : s.integrating 0 p = false := by
    unfold State.integrating
    dsimp only
    rw [h]
    rfl
  have hclose : closeRun p s = s := by
    unfold closeRun gauzeDiscard gauzeDiscardFor
    dsimp only
    rw [hdone, hintegrating]
    rfl
  unfold endGauze
  rw [hclose]

/-! ## The cell-health fit -/

theorem gauze_at {v w : Vector Gauze 16} (h : v = w) (p : PortId) : v[p]'p.isLt = w[p]'p.isLt := by rw [h]

/-- A notice of a low HI leaves the report and what is due. -/
theorem healthNotice_gauze (p : PortId) (hi : Nat) (s : State) :
    ∃ low, (healthNotice p hi s).gauze[p]'p.isLt = { (s.gauze[p]'p.isLt) with hiLow := low } := by
  unfold healthNotice
  dsimp only
  split
  · split
    · exact ⟨(s.gauze[p]'p.isLt).hiLow, rfl⟩
    · exact ⟨true, (gauze_at (notice_gauze ..) p).trans (modGauzeAt_same ..)⟩
  · split
    · exact ⟨false, modGauzeAt_same ..⟩
    · exact ⟨(s.gauze[p]'p.isLt).hiLow, rfl⟩

theorem adaptFrom_gauze (p : PortId) (c r : CellFit) (fl : W16) (s : State) : (adaptFrom p c r fl s).gauze = s.gauze := by
  unfold adaptFrom
  dsimp only
  split
  · rfl
  · split
    · rfl
    · rfl

/-- The report of a fit that stands with the references `refs` (R154). -/
def Health.standing (c : CellFit) (residual : Nat) (fl : W16) (spread : CellFit) (refs : Option CellFit) : Health :=
  { cell := c, residual := residual, flags := fl
    hi := (refs.map fun r => healthIndex c r spread).getD 0, status := if refs.isSome then 0 else 3 }

theorem keepFit_gauze (p : PortId) (c : CellFit) (s : State) : ∃ good, (keepFit p c s).gauze[p]'p.isLt =
    { (s.gauze[p]'p.isLt) with
      goodFits := good, refs := if (s.gauze[p]'p.isLt).refsWanted then some c else (s.gauze[p]'p.isLt).refs, refsWanted := false } := by
  unfold keepFit
  rw [modGauzeAt_same]
  exact ⟨_, rfl⟩

/-- A fit that stands: the report by the references there are, which only a wish for some replaces (R253, R154). -/
theorem takeFit_gauze (p : PortId) (c : CellFit) (residual : Nat) (fl : W16) (s : State) :
    ∃ low good refs wanted, (takeFit p c residual fl s).gauze[p]'p.isLt =
      { (s.gauze[p]'p.isLt) with
        hiLow := low, goodFits := good, refs, refsWanted := wanted
        health := some (Health.standing c residual fl (s.gauze[p]'p.isLt).spread refs) } ∧
      ((s.gauze[p]'p.isLt).refsWanted = false → refs = (s.gauze[p]'p.isLt).refs) := by
  obtain ⟨good, refs, wanted, hkept, hrefs⟩ : ∃ good refs wanted, (if fitClean fl then keepFit p c s else s).gauze[p]'p.isLt =
      { (s.gauze[p]'p.isLt) with goodFits := good, refs, refsWanted := wanted } ∧
        ((s.gauze[p]'p.isLt).refsWanted = false → refs = (s.gauze[p]'p.isLt).refs) := by
    split
    · obtain ⟨good, hgood⟩ := keepFit_gauze p c s
      exact ⟨good, _, _, hgood, fun h => if_neg (ne_true_of_eq_false h)⟩
    · exact ⟨_, _, _, rfl, fun _ => rfl⟩
  unfold takeFit
  dsimp only
  generalize (if fitClean fl then keepFit p c s else s) = s' at hkept
  rw [hkept]
  dsimp only
  cases refs with
  | none =>
    refine ⟨(s.gauze[p]'p.isLt).hiLow, good, none, wanted, ?_, hrefs⟩
    dsimp only
    rw [modGauzeAt_same, hkept]
    rfl
  | some r =>
    obtain ⟨low, hlow⟩ := healthNotice_gauze p (healthIndex c r (s.gauze[p]'p.isLt).spread) (s'.modGauzeAt p fun g =>
      { g with health := some { cell := c, hi := healthIndex c r (s.gauze[p]'p.isLt).spread, residual, flags := fl, status := 0 } })
    refine ⟨low, good, some r, wanted, ?_, hrefs⟩
    dsimp only
    rw [gauze_at (adaptFrom_gauze ..) p, hlow, modGauzeAt_same, hkept]
    rfl

theorem rejectFit_health (p : PortId) (cause : Fin 4) (residual : Nat) (fl : W16) (s : State) :
    (rejectFit p cause residual fl s).gauze[p]'p.isLt = { (s.gauze[p]'p.isLt) with
      health := some { ((s.gauze[p]'p.isLt).health.getD {}) with residual := residual, flags := fl, status := cause } } := by
  unfold rejectFit
  exact (gauze_at (notice_gauze ..) p).trans (modGauzeAt_same ..)

theorem execCellHealthFit_due {p : PortId} {s : State} (hdue : (s.gauze[p]'p.isLt).fitDue = true) (hreeve : s.reeveActive = true) :
    exec (.cellHealthFit p) s = .next (
      let t := s.modGauzeAt p fun g => { g with fitDue := false }
      let fl := flagUnion ((s.gauze[p]'p.isLt).results.map (·.flags))
      let residual := (roundRat (10000 * (s.cellFound p).2)).toNat
      if 5 < 100 * (s.cellFound p).2 then rejectFit p 1 residual fl t
      else if !cellOk (s.cellFound p).1 then rejectFit p 2 residual fl t
      else takeFit p (s.cellFound p).1 residual fl t) := by
  change execCellHealthFit p s = _
  unfold execCellHealthFit
  dsimp only
  rw [hdue, hreeve]
  rfl

/-- The report of a fit that is rejected (R153). -/
def Health.rejected (residual : Nat) (fl : W16) (cause : Fin 4) (old : Option Health) : Health :=
  { (old.getD {}) with residual := residual, flags := fl, status := cause }

section
variable {p : PortId} {s : State} (hdue : (s.gauze[p]'p.isLt).fitDue = true) (hreeve : s.reeveActive = true)
include hdue hreeve

theorem cellHealthFit_rejected {cause : Fin 4} (h : 5 < 100 * (s.cellFound p).2 ∧ cause = 1 ∨
    ¬ 5 < 100 * (s.cellFound p).2 ∧ cellOk (s.cellFound p).1 = false ∧ cause = 2) :
    ∃ t, exec (.cellHealthFit p) s = .next t ∧ (t.gauze[p]'p.isLt).fitDue = false ∧ (t.gauze[p]'p.isLt).health =
      some (Health.rejected (roundRat (10000 * (s.cellFound p).2)).toNat
        (flagUnion ((s.gauze[p]'p.isLt).results.map (·.flags))) cause (s.gauze[p]'p.isLt).health) := by
  have hsame := modGauzeAt_same p (fun g => { g with fitDue := false }) s
  refine ⟨_, (execCellHealthFit_due hdue hreeve).trans (congrArg Host.Outcome.next (a₂ := rejectFit p cause
    (roundRat (10000 * (s.cellFound p).2)).toNat (flagUnion ((s.gauze[p]'p.isLt).results.map (·.flags)))
    (s.modGauzeAt p fun g => { g with fitDue := false })) ?_), ?_, ?_⟩
  · obtain ⟨hbad, rfl⟩ | ⟨hgood, hbounds, rfl⟩ := h
    · exact if_pos hbad
    · exact (if_neg hgood).trans (if_pos (by rw [hbounds]; rfl))
  · rw [rejectFit_health, hsame]
  · rw [rejectFit_health, hsame]
    rfl

theorem cellHealthFit_stands (hgood : ¬ 5 < 100 * (s.cellFound p).2) (hbounds : cellOk (s.cellFound p).1 = true) :
    exec (.cellHealthFit p) s = .next (takeFit p (s.cellFound p).1 (roundRat (10000 * (s.cellFound p).2)).toNat
      (flagUnion ((s.gauze[p]'p.isLt).results.map (·.flags))) (s.modGauzeAt p fun g => { g with fitDue := false })) :=
  (execCellHealthFit_due hdue hreeve).trans (congrArg Host.Outcome.next
    ((if_neg hgood).trans (if_neg (by rw [hbounds]; decide))))

end

/-- Settles O9: each event by the equation of its command. -/
theorem gauzeEvents : Obligations.GauzeEvents := by
  intro s k
  refine ⟨fun hphase hlead => congrArg Host.Outcome.next (if_pos ⟨hphase, hlead⟩),
    fun hended hphase hover hcount => ?_, fun r hended hrunning => ?_,
    fun hphase hcount hserial => congrArg Host.Outcome.next (if_pos ⟨hphase, hcount, hserial⟩),
    fun hphase hfall => ?_, fun hdue hreeve => ?_, fun hreeve hnvm hold hstored => ?_⟩
  · obtain ⟨charge, volts, heq⟩ := completeIntegration_eq k s
    refine ⟨_, (execGauzeIntegrationEnd_done hended (integrationDone_of hphase hover hcount)).trans
      (congrArg Host.Outcome.next heq), ?_⟩
    dsimp only
    split
    · next hagain =>
      obtain ⟨hspoilt, hmore⟩ := Bool.and_eq_true_iff.mp hagain
      exact ⟨rfl, rfl, fun h => absurd (hspoilt.symm.trans h) (by decide), fun _ _ => ⟨rfl, rfl⟩, hphase, rfl, rfl, rfl⟩
    · next hagain =>
      refine ⟨rfl, rfl, fun _ => ⟨rfl, rfl⟩, fun hspoilt hmore => ?_, hphase, rfl, rfl, rfl⟩
      refine absurd ?_ hagain
      rw [hspoilt, Bool.true_and, Bool.or_eq_true, beq_iff_eq, decide_eq_true_eq]
      exact hmore
  · exact ⟨_, execGauzeIntegrationEnd_ended hended hrunning, rfl, rfl, rfl, rfl, rfl, rfl⟩
  · exact congrArg Host.Outcome.next ((if_pos ⟨hphase, hfall⟩).trans (endGauze_of_fall hphase))
  · by_cases hbad : 5 < 100 * (s.cellFound k).2
    · obtain ⟨t, hexec, hfit, hhealth⟩ := cellHealthFit_rejected hdue hreeve (.inl ⟨hbad, rfl⟩)
      exact ⟨t, _, hexec, hfit, hhealth, rfl, rfl, fun _ => ⟨rfl, rfl, rfl⟩, fun h => absurd hbad (not_lt.mpr h),
        fun h => absurd hbad (not_lt.mpr h)⟩
    · cases hbounds : cellOk (s.cellFound k).1
      · obtain ⟨t, hexec, hfit, hhealth⟩ := cellHealthFit_rejected hdue hreeve (.inr ⟨hbad, hbounds, rfl⟩)
        exact ⟨t, _, hexec, hfit, hhealth, rfl, rfl, fun h => absurd h hbad, fun _ _ => ⟨rfl, rfl, rfl⟩,
          fun _ h => absurd h (by decide)⟩
      · have hexec := cellHealthFit_stands hdue hreeve hbad hbounds
        obtain ⟨low, good, refs, wanted, htaken, hrefs⟩ := takeFit_gauze k (s.cellFound k).1
          (roundRat (10000 * (s.cellFound k).2)).toNat (flagUnion ((s.gauze[k]'k.isLt).results.map (·.flags)))
          (s.modGauzeAt k fun g => { g with fitDue := false })
        rw [modGauzeAt_same] at htaken hrefs
        refine ⟨_, _, hexec, congrArg Gauze.fitDue htaken, congrArg Gauze.health htaken, rfl, rfl,
          fun h => absurd h hbad, fun _ h => absurd h (by decide), fun _ _ => ⟨rfl, fun hnone hwanted => ?_,
            fun r hsome hwanted => ?_⟩⟩
        · rw [hrefs hwanted, hnone]
          exact ⟨rfl, rfl⟩
        · rw [hrefs hwanted, hsome]
          exact ⟨rfl, rfl⟩
  · exact congrArg Host.Outcome.next (if_pos (by
      rw [hreeve, hnvm, decide_eq_true hold, bne_iff_ne.mpr hstored]
      rfl))

end Sys2Proof.Machine
end

section
-- One declaration after another: the whole text is compiled as one file, within a limit on memory.
set_option Elab.async false
/-!
The gas engine and the levees (spec/09, spec/10): the GAS family (Table 16-10), the computation and its misses, and the
events of a comparator.
-/

namespace Sys2Proof.Machine

/-! ## Commands -/

theorem gasModelDone_run {n : SlotId} {sel : Nat} {o : List Byte} {s : State} (hfault : gasModelFault o = none)
    (hrun : s.core.dev = .run) : gasModelDone n sel o s = pendBoundary n 0x0701 (BitVec.ofNat 8 sel :: o) 1 s := by
  unfold gasModelDone
  rw [hfault]
  exact if_pos hrun

theorem portNo_byte (k : PortId) (o : List Byte) : portNo (u8 (BitVec.ofNat 8 k.val :: o) 0) = k := by
  have hbyte : u8 (BitVec.ofNat 8 k.val :: o) 0 = k.val := toNat_byte (by omega)
  rw [hbyte, portNo_val]

theorem gasModelDone_other {n : SlotId} {k : PortId} {o : List Byte} {s : State} (hfault : gasModelFault o = none)
    (hrun : s.core.dev ≠ .run) (hquantity : s.quantityFault k o = none) :
    gasModelDone n k.val o s = postStatus n .ok (setModel k o s) := by
  have happly : applyGasModel (BitVec.ofNat 8 k.val :: o) s = .ok (setModel k o s) := by
    unfold applyGasModel
    rw [portNo_byte, List.drop_one, List.tail_cons, hquantity]
  unfold gasModelDone
  rw [hfault]
  dsimp only
  rw [if_neg hrun, happly]

theorem setModel_adapt (k : PortId) (o : List Byte) (s : State) :
    (setModel k o s).gas.adapt[k]'k.isLt = (s.gas.adapt[k]'k.isLt).freeze (u8 o 4 == 0) :=
  Vector.getElem_set_self (xs := s.gas.adapt) ..

theorem execGasModel_last {n : SlotId} {k : PortId} {o : List Byte} {s : State} (h : s.lastChunk n 0x0701 k.val o)
    (hlen : o.length = 120 ∨ o.length = 636) :
    exec (.gasModel n) s = .next (gasModelDone n k.val o (dropStaging 0x0701 k.val s)) :=
  congrArg Host.Outcome.next (onSlot_lastChunk (c := gasModelCmd) h rfl rfl rfl (decide_eq_true k.isLt)
    (decide_eq_true hlen) rfl rfl)

theorem execGasMatrix_last {n : SlotId} {o : List Byte} {s : State} (h : s.lastChunk n 0x0702 0 o)
    (hlen : o.length = 1024) (hfault : s.matrixFault o = none) :
    exec (.gasMatrix n) s = .next (if s.core.dev = .run then pendBoundary n 0x0702 o 1 (dropStaging 0x0702 0 s)
      else postStatus n .ok (applyGasMatrix o (dropStaging 0x0702 0 s))) := by
  have hdone : onSlot n 0x0702 (fun p s => chunk gasMatrixCmd n p s) s = gasMatrixDone n 0 o (dropStaging 0x0702 0 s) :=
    onSlot_lastChunk h rfl rfl rfl rfl (beq_iff_eq.mpr hlen) rfl rfl
  have hsame : (dropStaging 0x0702 0 s).matrixFault o = none := hfault
  change execGasMatrix n s = _
  unfold execGasMatrix
  rw [hdone]
  unfold gasMatrixDone
  rw [hsame]
  rfl

theorem gasChannelFault_none {p : List Byte} {k : PortId} (hk : u8 p 0 = k.val) (h1 : u8 p 1 ≤ 3) (h2 : u8 p 2 ≤ 4)
    (h3 : u8 p 3 ≤ 1) (hname : (slice p 4 8).findIdx? (fun b => b.getLsbD 7) = none)
    (hoffset : F32.finite (f32At p 12) = true) : gasChannelFault p = none := by
  unfold gasChannelFault
  rw [if_neg (by omega), if_neg (by omega), if_neg (by omega), if_neg (by omega), hname, hoffset]
  rfl

theorem execGasChannel_valid {n : SlotId} {p : List Byte} {s : State} (h : s.request n 0x0703 p)
    (hfault : gasChannelFault p = none) : exec (.gasChannel n) s =
      .next (if s.core.dev = .run then pendBoundary n 0x0703 p 1 s else postStatus n .ok (applyGasChannel p s)) := by
  change execGasChannel n s = _
  unfold execGasChannel
  rw [onSlot_request h, orRefuse_none hfault]

theorem execGasEnv_valid {n : SlotId} {p : List Byte} {s : State} (h : s.request n 0x0704 p) (h0 : u8 p 0 ≤ 1)
    (h1 : u8 p 1 = 0) : exec (.gasEnv n) s = .next (postStatus n .ok (applyGasEnv p s)) := by
  have hfault : gasEnvFault p = none := by
    unfold gasEnvFault
    rw [if_neg (by omega), firstNonZero_one h1]
  change execGasEnv n s = _
  unfold execGasEnv
  rw [onSlot_request h, orRefuse_none hfault]

/-- Settles O10: each command passes its checks and waits or loads. -/
theorem gasCommands : Obligations.GasCommands := by
  intro s n p k hk
  refine ⟨fun o h hfault hlen => ⟨fun hrun => ?_, fun hrun hquantity => ?_⟩,
    fun o h hfault hlen => ⟨fun hrun => ?_, fun hrun => ?_⟩,
    fun h h1 h2 h3 hname hoffset => ⟨fun hrun => ?_, fun hrun => ?_⟩, fun h h1 => ⟨fun h0 => ?_, fun h0 => ?_⟩⟩
  · rw [execGasModel_last h hlen, gasModelDone_run (s := dropStaging 0x0701 k.val s) hfault hrun]
  · refine ⟨_, (execGasModel_last h hlen).trans (congrArg Host.Outcome.next
      (gasModelDone_other (s := dropStaging 0x0701 k.val s) hfault hrun hquantity)), rfl, ?_, ?_, rfl, rfl, rfl, rfl⟩
    · exact congrArg Adapt.frozen (setModel_adapt k o (dropStaging 0x0701 k.val s))
    · have ha := congrArg Adapt.a (setModel_adapt k o (dropStaging 0x0701 k.val s))
      exact ha
  · rw [execGasMatrix_last h hlen hfault, if_pos hrun]
  · exact ⟨_, (execGasMatrix_last h hlen hfault).trans (congrArg Host.Outcome.next (if_neg hrun)), rfl, rfl, rfl, rfl, rfl⟩
  · rw [execGasChannel_valid h (gasChannelFault_none hk h1 h2 h3 hname hoffset), if_pos hrun]
  · obtain rfl := portNo_of_field hk
    exact ⟨_, (execGasChannel_valid h (gasChannelFault_none hk h1 h2 h3 hname hoffset)).trans
      (congrArg Host.Outcome.next (if_neg hrun)), rfl, rfl, rfl, rfl⟩
  · rw [execGasEnv_valid h (by omega) h1]
    exact congrArg (fun g => Host.Outcome.next (postStatus n .ok (s.modGas fun _ => g))) (if_pos h0)
  · rw [execGasEnv_valid h (by omega) h1]
    exact congrArg (fun g => Host.Outcome.next (postStatus n .ok (s.modGas fun _ => g))) (if_neg (by omega))

/-! ## Readings -/

section
variable {s : State} {n : SlotId} {p : List Byte} {k : PortId} (hk : u8 p 0 = k.val)
include hk

theorem execGasRead_eq (h : s.request n 0x0705 p) :
    exec (.gasRead n) s = .next (postOk n (s.gas.outs[k].toList.flatMap SeriesOut.bytes) s) := by
  obtain rfl := portNo_of_field hk
  change execGasRead n s = _
  unfold execGasRead
  rw [onSlot_request h, if_neg (by omega)]
  rfl

theorem gasAdaptFault_none (hop : u8 p 1 ≤ 2) : gasAdaptFault p = none := by
  unfold gasAdaptFault
  rw [if_neg (by omega), if_neg (by omega)]

theorem execGasAdaptRead_eq (h : s.request n 0x0707 p) (hop : u8 p 1 = 0) :
    exec (.gasAdaptRead n) s = .next (postOk n (s.gas.adapt[k]'k.isLt).bytes s) := by
  obtain rfl := portNo_of_field hk
  change execGasAdaptRead n s = _
  unfold execGasAdaptRead
  rw [onSlot_request h, if_neg (by omega), gasAdaptFault_none hk (by omega)]
  rfl

theorem execGasAdaptFreeze_eq (h : s.request n 0x0707 p) (hop : u8 p 1 = 1) : exec (.gasAdaptFreeze n) s =
    .next (postOk n ((setFrozen p true s).gas.adapt[k]'k.isLt).bytes (setFrozen p true s)) := by
  obtain rfl := portNo_of_field hk
  change execGasAdaptFreeze n s = _
  unfold execGasAdaptFreeze
  rw [onSlot_request h, if_neg (not_not.mpr hop), gasAdaptFault_none hk (by omega)]
  rfl

theorem execGasAdaptRelease_eq (h : s.request n 0x0707 p) (hop : u8 p 1 = 2) : exec (.gasAdaptRelease n) s =
    .next (postOk n ((setFrozen p false s).gas.adapt[k]'k.isLt).bytes (setFrozen p false s)) := by
  obtain rfl := portNo_of_field hk
  change execGasAdaptRelease n s = _
  unfold execGasAdaptRelease
  rw [onSlot_request h, if_neg (not_not.mpr hop), gasAdaptFault_none hk (by omega)]
  rfl

theorem setFrozen_eq (b : Bool) : setFrozen p b s =
    s.modGas fun _ => { s.gas with adapt := s.gas.adapt.set k ((s.gas.adapt[k]'k.isLt).freeze b) } := by
  obtain rfl := portNo_of_field hk
  rfl

theorem setFrozen_adapt (b : Bool) : (setFrozen p b s).gas.adapt[k]'k.isLt = (s.gas.adapt[k]'k.isLt).freeze b := by
  rw [setFrozen_eq hk]
  exact Vector.getElem_set_self ..

end

/-- Settles O11: each reading is the response its command builds. -/
theorem gasReadings : Obligations.GasReadings := by
  intro s n p k hk
  refine ⟨fun h => ⟨_, execGasRead_eq hk h, rfl⟩, fun q h => congrArg Host.Outcome.next (onSlot_request h),
    fun h => ⟨fun hop => execGasAdaptRead_eq hk h hop,
      fun hop => ⟨_, execGasAdaptFreeze_eq hk h hop, ?_, ?_⟩, fun hop => ⟨_, execGasAdaptRelease_eq hk h hop, ?_, ?_⟩⟩⟩
  · exact setFrozen_adapt hk true
  · rw [setFrozen_adapt hk true]
    exact setFrozen_eq hk true
  · exact setFrozen_adapt hk false
  · rw [setFrozen_adapt hk false]
    exact setFrozen_eq hk false

/-! ## What a computation leaves alone (R206) -/

/-- What the host has loaded into the engine, its account of misses, the ports and the mailbox. -/
def State.gasKept (s : State) : Vector (List Byte) 16 × List F32 × Vector Channel 16 × Bool ×
    Option (W32 × Nat × Bool) × W32 × Vector Port 16 × Mbox :=
  (s.gas.models, s.gas.matrix, s.gas.channels, s.gas.due, s.gas.missRun, s.gas.missed, s.ports, s.mbox)

theorem NoticeOnly.gasKept {s t : State} (h : NoticeOnly s t) : t.gasKept = s.gasKept := by
  rw [h]
  rfl

@[simp] theorem notice_gasKept (code : W16) (k : Kind) (args : W64) (s : State) :
    (notice code k args s).gasKept = s.gasKept := (notice_only ..).gasKept

theorem foldl_gasKept {α : Type} {f : State → α → State} (h : ∀ s a, (f s a).gasKept = s.gasKept) (l : List α)
    (s : State) : (l.foldl f s).gasKept = s.gasKept := by
  induction l generalizing s with
  | nil => rfl
  | cons a l ih => rw [List.foldl_cons, ih, h]

@[simp] theorem leveeFeed_gasKept (kind index series : Nat) (v : Int) (fl : W16) (s : State) :
    (leveeFeed kind index series v fl s).gasKept = s.gasKept := by
  unfold leveeFeed
  split
  · rfl
  · rfl

/-- The temperature comparators change, and nothing else (R231). -/
theorem leveeFeed_levees (kind index series : Nat) (v : Int) (fl : W16) (s : State) :
    ∃ c, leveeFeed kind index series v fl s = s.modLevees fun _ => c := by
  unfold leveeFeed
  split
  · exact ⟨_, rfl⟩
  · exact ⟨s.levees, rfl⟩

theorem foldl_levees {α : Type} {f : State → α → State} (h : ∀ s a, ∃ c, f s a = s.modLevees fun _ => c) (l : List α)
    (s : State) : ∃ c, l.foldl f s = s.modLevees fun _ => c := by
  induction l generalizing s with
  | nil => exact ⟨s.levees, rfl⟩
  | cons a l ih =>
    obtain ⟨c, hc⟩ := h s a
    obtain ⟨d, hd⟩ := ih (f s a)
    exact ⟨d, by rw [List.foldl_cons, hd, hc]; rfl⟩

theorem leveeTemps_levees (s : State) : ∃ c, leveeTemps s = s.modLevees fun _ => c := by
  have hfold : ∀ (s : State) (t : Fin 9), ∃ c, (match (s.therm.sensors[t]'t.isLt).failed, (s.therm.sensors[t]'t.isLt).mean with
      | false, some m => leveeFeed 3 t.val 0 m 0 s
      | _, _ => s) = s.modLevees fun _ => c := by
    intro s t
    split
    · exact leveeFeed_levees ..
    · exact ⟨s.levees, rfl⟩
  obtain ⟨c, hc⟩ := foldl_levees hfold (List.finRange 9) s
  unfold leveeTemps
  dsimp only
  split
  · obtain ⟨d, hd⟩ := leveeFeed_levees 3 9 0 _ 0 (s.modLevees fun _ => c)
    exact ⟨d, (congrArg _ hc).trans hd⟩
  · exact ⟨c, hc⟩

theorem pushSample_only (v : W24) (tag fl : Byte) (s : State) : NoticeOnly s (pushSample v tag fl s) := by
  unfold pushSample
  dsimp only
  split <;> rfl

theorem sampleGap_only (s : State) : NoticeOnly s (sampleGap s) := by
  unfold sampleGap
  split
  · split
    · exact NoticeOnly.trans (b := s.modRings _) rfl (pushSample_only ..)
    · rfl
  · rfl

theorem emitSample_only (tag : Byte) (o : Out) (s : State) : NoticeOnly s (emitSample tag o s) := by
  unfold emitSample
  split
  · rfl
  · dsimp only
    refine (sampleGap_only s).trans ?_
    generalize (if needsExt o.flags = true then 2 else 1) = n
    split
    · split
      · exact (pushSample_only ..).trans (pushSample_only ..)
      · exact pushSample_only ..
    · rfl

@[simp] theorem emitSample_gasKept (tag : Byte) (o : Out) (s : State) : (emitSample tag o s).gasKept = s.gasKept :=
  (emitSample_only ..).gasKept

@[simp] theorem boxRecord_gasKept (type : Byte) (args : W64) (s : State) :
    (boxRecord type args s).gasKept = s.gasKept := by
  simp [State.gasKept]

@[simp] theorem applyAdapt_gasKept (p : PortId) (s : State) : (applyAdapt p s).gasKept = s.gasKept := by
  unfold applyAdapt
  dsimp only
  split
  · rfl
  · split
    · rfl
    · refine Eq.trans (b := State.gasKept (if _ then boxRecord _ _ _ else _)) rfl ?_
      split
      · rw [boxRecord_gasKept]
        split
        · rfl
        · exact notice_gasKept ..
      · split
        · rfl
        · exact notice_gasKept ..

@[simp] theorem envNotice_gasKept (p : PortId) (q : Nat) (c : Option Bool) (s : State) :
    (envNotice p q c s).gasKept = s.gasKept := by
  unfold envNotice
  split
  · split
    · exact notice_gasKept ..
    · rfl
  · rfl

theorem setValue_gasKept (p : PortId) (v : PortValue) (s : State) :
    (s.modGas (Gas.setValue p v)).gasKept = s.gasKept := rfl

@[simp] theorem computePort_gasKept (p : PortId) (s : State) : (computePort p s).gasKept = s.gasKept := by
  have henv : (envNotice p 1 (s.envResolve p false).change (envNotice p 0 (s.envResolve p true).change
      (s.modGas fun g => { g with envT := g.envT.set p (s.envResolve p true).use
                                  envH := g.envH.set p (s.envResolve p false).use }))).gasKept = s.gasKept := by
    rw [envNotice_gasKept, envNotice_gasKept]
    rfl
  unfold computePort
  dsimp only
  split
  · exact henv
  · split
    · exact henv
    · split
      · split
        · rw [notice_gasKept]
          exact henv
        · exact henv
      · split
        · exact henv
        · rw [notice_gasKept]
          exact henv

@[simp] theorem emitGas_gasKept (j : Fin 16) (k : Fin 5) (v exact24 : Int) (fl : W16) (cov chg : Nat) (s : State) :
    (emitGas j k v exact24 fl cov chg s).gasKept = s.gasKept := by
  unfold emitGas
  extract_lets v24 fl' o' s1 s2 c out tag s3
  have hlive : s3.gasKept = s.gasKept := by
    have hfeed : s2.gasKept = s.gasKept := leveeFeed_gasKept ..
    unfold s3
    split
    · exact hfeed
    · exact hfeed
  clear_value s3
  split
  · rw [emitSample_gasKept, hlive]
  · split
    · rw [emitSample_gasKept, hlive]
    · exact hlive

@[simp] theorem addBlock_gasKept (j : Fin 16) (f : Nat) (v : Int) (fl : W16) (k : Fin 4) (s : State) :
    (addBlock j f v fl k s).gasKept = s.gasKept := by
  have hlate : (if (s.gas.blocks[j]'j.isLt)[k].index ≠ f / blockLength k ∧ 0 < (s.gas.blocks[j]'j.isLt)[k].count then
      emitBlock j k (s.gas.blocks[j]'j.isLt)[k] s else s).gasKept = s.gasKept := by
    split
    · exact emitGas_gasKept ..
    · rfl
  unfold addBlock
  dsimp only
  split
  · rw [emitBlock, emitGas_gasKept]
    exact hlate
  · exact hlate

@[simp] theorem computeChannel_gasKept (f : Nat) (j : Fin 16) (s : State) : (computeChannel f j s).gasKept = s.gasKept := by
  unfold computeChannel
  split
  · rfl
  · dsimp only
    rw [foldl_gasKept (fun s k => addBlock_gasKept j f _ _ k s), emitGas_gasKept]

theorem modGas_given_gasKept (v : Vector (Option EnvGiven) 16) (s : State) :
    (s.modGas fun g => { g with given := v }).gasKept = s.gasKept := rfl

/-- What a computation begins with: the misses counted, nothing due and no run of misses (R206, R207). -/
def closeMisses (s : State) : State := (countMisses s).modGas fun g => { g with due := false, missRun := none }

/-- The computation of frame f: adaptation, environment, ports, channels (R206). -/
def computeFrame (f : Nat) (s : State) : State :=
  let s := (List.finRange 16).foldl (fun s p => applyAdapt p s) s
  let s := s.modGas fun g => { g with given := Vector.ofFn fun p => s.giveEnv p }
  let s := (List.finRange 16).foldl (fun s p => computePort p s) s
  (List.finRange 16).foldl (fun s j => computeChannel f j s) s

theorem computeFrame_gasKept (f : Nat) (s : State) : (computeFrame f s).gasKept = s.gasKept := by
  unfold computeFrame
  dsimp only
  rw [foldl_gasKept (fun s j => computeChannel_gasKept f j s), foldl_gasKept (fun s p => computePort_gasKept p s),
    modGas_given_gasKept, foldl_gasKept (fun s p => applyAdapt_gasKept p s)]

/-- A computation that is made (R206). -/
theorem execGasComputation_made {s : State} (hreeve : s.reeveActive = true) (hmeasuring : s.measuring = true)
    (htick : s.frame.tick = 1) (hdue : s.gas.due = true) : ∃ th lv, exec .gasComputation s = .next
      ((computeFrame (s.frame.number - 1).toNat
        (closeMisses ((s.modTherm fun _ => th).modLevees fun _ => lv))).modGas fun g => { g with oneShot := false }) := by
  obtain ⟨th, lv, htemps⟩ : ∃ th lv, (if s.tickOne && s.measuring && s.therm.leveeDue then
      leveeTemps (s.modTherm fun t => { t with leveeDue := false }) else s) =
        (s.modTherm fun _ => th).modLevees fun _ => lv := by
    split
    · obtain ⟨lv, hlv⟩ := leveeTemps_levees (s.modTherm fun t => { t with leveeDue := false })
      exact ⟨_, lv, hlv⟩
    · exact ⟨s.therm, s.levees, rfl⟩
  have hcond : (s.reeveActive && s.measuring && s.frame.tick == 1 && s.gas.due) = true := by
    simp [hreeve, hmeasuring, htick, hdue]
  refine ⟨th, lv, ?_⟩
  change execGasComputation s = _
  unfold execGasComputation
  rw [htemps]
  exact congrArg Host.Outcome.next (if_pos hcond)

theorem countUp_zero {w : Nat} (c : BitVec w) : countUp c 0 = c := by
  unfold countUp
  rw [Nat.add_zero, if_pos c.isLt, BitVec.ofNat_toNat, BitVec.setWidth_eq]

/-- The account of misses as a computation takes it over (R207). -/
theorem countMisses_missed {s : State} (hold : s.gas.missOld = []) {f : W32} {m : Nat} {told : Bool}
    (hrun : s.gas.missRun = some (f, m, told)) : (countMisses s).gas.missed = countUp s.gas.missed m := by
  unfold countMisses
  rw [hold]
  dsimp only [List.foldl_nil, State.modGas]
  rw [hrun]
  dsimp only
  split
  · next hm => rw [hm, countUp_zero]
  · split
    · rfl
    · rw [notice_gas]

theorem countRun_kept (s : State) (r : W32 × Nat × Bool) :
    (countRun s r).gas.models = s.gas.models ∧ (countRun s r).gas.matrix = s.gas.matrix ∧
      (countRun s r).gas.channels = s.gas.channels ∧ (countRun s r).ports = s.ports ∧ (countRun s r).mbox = s.mbox := by
  unfold countRun
  dsimp only
  split <;> simp

/-- Counting the misses moves the account of misses alone, and what a notice moves (R207). -/
theorem countMisses_kept (s : State) :
    (countMisses s).gas.models = s.gas.models ∧ (countMisses s).gas.matrix = s.gas.matrix ∧
      (countMisses s).gas.channels = s.gas.channels ∧ (countMisses s).ports = s.ports ∧
      (countMisses s).mbox = s.mbox := by
  have hfold : ∀ (l : List (W32 × Nat × Bool)) (s : State),
      (l.foldl countRun s).gas.models = s.gas.models ∧ (l.foldl countRun s).gas.matrix = s.gas.matrix ∧
        (l.foldl countRun s).gas.channels = s.gas.channels ∧ (l.foldl countRun s).ports = s.ports ∧
        (l.foldl countRun s).mbox = s.mbox := by
    intro l
    induction l with
    | nil => exact fun s => ⟨rfl, rfl, rfl, rfl, rfl⟩
    | cons r l ih =>
      intro s
      obtain ⟨hmodels, hmatrix, hchannels, hports, hmbox⟩ := countRun_kept s r
      rw [List.foldl_cons, ← hmodels, ← hmatrix, ← hchannels, ← hports, ← hmbox]
      exact ih (countRun s r)
  have hold := hfold s.gas.missOld s
  unfold countMisses
  dsimp only
  split
  · split
    · exact hold
    · split
      · exact hold
      · rw [notice_gas, notice_ports, notice_mbox]
        exact hold
  · exact hold

theorem gasComputation_completes {s : State} (hreeve : s.reeveActive = true) (hmeasuring : s.measuring = true)
    (htick : s.frame.tick = 1) (hdue : s.gas.due = true) :
    ∃ t, exec .gasComputation s = .next t ∧ t.gas.due = false ∧ t.gas.missRun = none ∧ t.gas.oneShot = false ∧
      t.gas.models = s.gas.models ∧ t.gas.matrix = s.gas.matrix ∧ t.gas.channels = s.gas.channels ∧
      t.ports = s.ports ∧ t.mbox = s.mbox ∧ (s.gas.missOld = [] → ∀ f m told, s.gas.missRun = some (f, m, told) →
        t.gas.missed = countUp s.gas.missed m) := by
  obtain ⟨th, lv, hexec⟩ := execGasComputation_made hreeve hmeasuring htick hdue
  have hgas : ((s.modTherm fun _ => th).modLevees fun _ => lv).gas = s.gas := rfl
  have hu : ((s.modTherm fun _ => th).modLevees fun _ => lv).ports = s.ports ∧
      ((s.modTherm fun _ => th).modLevees fun _ => lv).mbox = s.mbox := ⟨rfl, rfl⟩
  generalize (s.modTherm fun _ => th).modLevees (fun _ => lv) = u at hexec hgas hu
  have hcounted := countMisses_kept u
  have hmissed := @countMisses_missed u
  have hkept := computeFrame_gasKept (s.frame.number - 1).toNat (closeMisses u)
  generalize computeFrame (s.frame.number - 1).toNat (closeMisses u) = v at hexec hkept
  simp only [State.gasKept, closeMisses, Prod.mk.injEq] at hkept
  obtain ⟨hmodels, hmatrix, hchannels, hdone, hrun, hcount, hports, hmbox⟩ := hkept
  obtain ⟨kmodels, kmatrix, kchannels, kports, kmbox⟩ := hcounted
  rw [hgas] at kmodels kmatrix kchannels hmissed
  exact ⟨_, hexec, hdone, hrun, rfl, hmodels.trans kmodels, hmatrix.trans kmatrix, hchannels.trans kchannels,
    hports.trans (kports.trans hu.1), hmbox.trans (kmbox.trans hu.2), fun hold f m told hsome => hcount.trans (hmissed hold hsome)⟩

theorem gasComputationMiss_completes {s : State} {f : W32} {m : Nat} {told : Bool} (hreeve : s.reeveActive = true)
    (hold : s.gas.missOld = []) (hrun : s.gas.missRun = some (f, m + 1, told)) :
    ∃ t, exec .gasComputationMiss s = .next t ∧ t.gas.missed = countUp s.gas.missed (m + 1) ∧
      t.gas.missRun = some (f, 0, true) ∧ (told = true → t.rings = s.rings) ∧
      (told = false → t = notice 0x0701 .ordinary (argW 4 f.toNat)
        (s.modGas fun g => { g with missed := countUp g.missed (m + 1), missRun := some (f, 0, true) })) := by
  have hsame : (s.gas.missOld.foldl countRun s).modGas (fun g => { g with missOld := [] }) = s := by
    rw [hold]
    change s.modGas (fun g => { g with missOld := [] }) = s
    rw [← hold]
    rfl
  have hcount : countMisses s = if told then
      s.modGas fun g => { g with missed := countUp g.missed (m + 1), missRun := some (f, 0, true) }
    else notice 0x0701 .ordinary (argW 4 f.toNat)
      (s.modGas fun g => { g with missed := countUp g.missed (m + 1), missRun := some (f, 0, true) }) := by
    unfold countMisses
    dsimp only
    rw [hsame, hrun]
    rfl
  refine ⟨_, congrArg Host.Outcome.next ((if_pos hreeve).trans hcount), ?_⟩
  cases told
  · exact ⟨congrArg Gas.missed (notice_gas ..), congrArg Gas.missRun (notice_gas ..), nofun, fun _ => rfl⟩
  · exact ⟨rfl, rfl, fun _ => rfl, nofun⟩

/-! ## Overtop and settle (R233, R236) -/

/-- What a notice does to the rings rests on the rings, the frame and the device state alone. -/
theorem notice_rings_congr {s t : State} (hrings : s.rings = t.rings) (hframe : s.frame = t.frame)
    (hdev : s.core.dev = t.core.dev) (code : W16) (k : Kind) (args : W64) :
    (notice code k args s).rings = (notice code k args t).rings := by
  have hentry : ∀ {s t : State}, s.rings = t.rings → s.frame = t.frame → ∀ c k a,
      (pushNotice c k a s).rings = (pushNotice c k a t).rings := by
    intro s t hrings hframe c k a
    rw [pushNotice_rings, pushNotice_rings, noticeEntry, noticeEntry, hrings, hframe]
  have hgap : (noticeGap s).rings = (noticeGap t).rings := by
    unfold noticeGap
    rw [hrings]
    split
    · split
      · exact hentry (s := s.modRings fun r => { r with ngap := none })
          (t := t.modRings fun r => { r with ngap := none })
          (congrArg (fun r : Rings => { r with ngap := none }) hrings) hframe ..
      · exact hrings
    · exact hrings
  have hgapFrame : (noticeGap s).frame = (noticeGap t).frame := by
    rw [noticeGap_only s, noticeGap_only t]
    exact hframe
  have hemit : (emitNotice code k args s).rings = (emitNotice code k args t).rings := by
    cases k
    · unfold emitNotice
      dsimp only
      rw [hgap]
      split
      · exact hentry hgap hgapFrame ..
      · exact congrArg Rings.dropOrdinary hgap
    · unfold emitNotice
      dsimp only
      rw [hrings]
      split
      · exact hentry hrings hframe ..
      · exact congrArg Rings.dropAlarm hrings
    · unfold emitNotice
      dsimp only
      rw [hrings]
      split
      · exact hentry hrings hframe ..
      · exact congrArg Rings.dropAlarm hrings
  unfold notice
  rw [hdev]
  split
  · exact hrings
  · simp [hrings]
  · exact hemit

section
variable {k : Fin 48} {e : LeveeEvent} {s : State}

theorem takeLevee_levees (k : Fin 48) (e : LeveeEvent) (s : State) : (takeLevee k e s).levees =
    s.levees.set k
      { (s.levees[k]'k.isLt) with
        out := e.overtop, above := e.above, decided := (s.levees[k]'k.isLt).decided.tail
        latched := (s.levees[k]'k.isLt).latched || e.overtop } := by
  have hnotice : ∀ (x : Levee) ev ab v fl (s : State), (leveeNotice k x ev ab v fl s).levees = s.levees := by
    intro x ev ab v fl s
    unfold leveeNotice
    split
    · rfl
    · exact notice_levees ..
  unfold takeLevee
  dsimp only
  split
  · exact hnotice ..
  · exact hnotice ..

theorem takeLevee_rings (k : Fin 48) (e : LeveeEvent) (s : State) : (takeLevee k e s).rings =
    if (s.levees[k]'k.isLt).action = 0 then s.rings
    else (notice 0x0801 (s.levees[k]'k.isLt).noticeKind (argB 0 k.val ||| argB 1 (boolNat (!e.overtop) + 4 * boolNat e.above) |||
      argH 2 e.flags.toNat ||| argWi 4 e.value) s).rings := by
  have hattn : (takeLevee k e s).rings = (leveeNotice k (s.levees[k]'k.isLt) (boolNat !e.overtop) e.above e.value e.flags
      (s.modLevee k fun x => { x with out := e.overtop, above := e.above, decided := x.decided.tail
                                      latched := x.latched || e.overtop })).rings := by
    unfold takeLevee
    dsimp only
    split <;> rfl
  rw [hattn]
  unfold leveeNotice
  split
  · rfl
  · exact notice_rings_congr (s := s.modLevee k _) (t := s) rfl rfl rfl ..

theorem takeLevee_attn (h : 2 ≤ (s.levees[k]'k.isLt).action) : (takeLevee k e s).bus.attn.getLsbD 0 = true := by
  unfold takeLevee
  dsimp only
  rw [if_pos h, attn_attn, BitVec.getLsbD_or]
  exact Bool.or_true _

theorem leveeDue_decided {rest : List LeveeEvent} (hmeasuring : s.measuring = true)
    (hdecided : (s.levees[k]'k.isLt).decided = e :: rest) (hat : e.at_ ≠ s.core.lt)
    (hrecord : e.overtop = true → s.recordDue k = false) (overtop : Bool) :
    s.leveeDue k overtop = if e.overtop = overtop then some e else none := by
  unfold State.leveeDue
  rw [hdecided]
  dsimp only
  split_ifs with hopen hkind hsame hsame hsame
  · rfl
  · exact absurd hkind.1 hsame
  · exact absurd ⟨hsame, hat⟩ hkind
  · rfl
  · refine absurd ?_ hopen
    cases overtop
    · simp [hmeasuring]
    · simp [hmeasuring, hrecord hsame]
  · rfl

theorem leveeEvent_completes {rest : List LeveeEvent} (hmeasuring : s.measuring = true)
    (hdecided : (s.levees[k]'k.isLt).decided = e :: rest) (hat : e.at_ ≠ s.core.lt)
    (hrecord : e.overtop = true → s.recordDue k = false) :
    (e.overtop = true → exec (.leveeOvertop k) s = .next (takeLevee k e s) ∧ exec (.leveeSettle k) s = .next s) ∧
      (e.overtop = false → exec (.leveeSettle k) s = .next (takeLevee k e s) ∧ exec (.leveeOvertop k) s = .next s) := by
  have hdue := leveeDue_decided hmeasuring hdecided hat hrecord
  refine ⟨fun h => ⟨?_, ?_⟩, fun h => ⟨?_, ?_⟩⟩
  · change execLeveeOvertop k s = _
    rw [execLeveeOvertop, hdue, if_pos h]
  · change execLeveeSettle k s = _
    rw [execLeveeSettle, hdue, h]
    rfl
  · change execLeveeSettle k s = _
    rw [execLeveeSettle, hdue, if_pos h]
  · change execLeveeOvertop k s = _
    rw [execLeveeOvertop, hdue, h]
    rfl

end

/-- No overtop is taken where the reeve applies a new record of the comparator (R243). -/
theorem leveeOvertop_recordDue {k : Fin 48} {s : State} (hreeve : s.reeveActive = true) (hrecord : s.recordDue k = true) :
    exec (.leveeOvertop k) s = .next s := by
  have hnone : s.leveeDue k true = none := if_neg (by simp [hreeve, hrecord])
  change execLeveeOvertop k s = _
  rw [execLeveeOvertop, hnone]

/-- Settles O12: the computation keeps what it does not make, and an event of a comparator is taken as it was decided. -/
theorem gasAndLeveeEvents : Obligations.GasAndLeveeEvents := by
  intro s
  refine ⟨gasComputation_completes, fun f m told => gasComputationMiss_completes,
    fun k e rest hmeasuring hdecided hat hrecord => ?_, fun k => leveeOvertop_recordDue⟩
  obtain ⟨hovertop, hsettle⟩ := leveeEvent_completes hmeasuring hdecided hat hrecord
  refine ⟨takeLevee k e s, hovertop, hsettle, ?_, fun h => ?_, fun h => ?_, fun h => takeLevee_attn h⟩
  · rw [takeLevee_levees, hdecided]
    rfl
  · rw [takeLevee_rings, if_pos h]
  · rw [takeLevee_rings, if_neg h]
    rfl

end Sys2Proof.Machine
end

section
-- One declaration after another: the whole text is compiled as one file, within a limit on memory.
set_option Elab.async false
/-!
Warp and Weft (spec/07): the SEQ family (Table 16-8).
-/

namespace Sys2Proof.Machine

/-! ## SEQ.LOAD (R170) -/

section
variable {k : Nat} {o : List Byte}

theorem unpackLoad_packLoad (hk : k < 3) (hmul : o.length % 8 = 0) (hlen : o.length ≤ 256) (x : Tables) :
    unpackLoad 3 (packLoad [(k, o)]) x = x.take k o := by
  have hpack : packLoad [(k, o)] = BitVec.ofNat 8 k :: BitVec.ofNat 8 (o.length / 8) :: o := List.append_nil _
  have hsel : u8 (BitVec.ofNat 8 k :: BitVec.ofNat 8 (o.length / 8) :: o) 0 = k := toNat_byte (by omega)
  have hcount : u8 (BitVec.ofNat 8 k :: BitVec.ofNat 8 (o.length / 8) :: o) 1 = o.length / 8 := toNat_byte (by omega)
  have hsize : 8 * (o.length / 8) = o.length := by omega
  rw [hpack, unpackLoad, hsel, hcount, hsize]
  dsimp only
  have hslice : slice (BitVec.ofNat 8 k :: BitVec.ofNat 8 (o.length / 8) :: o) 2 o.length = o := List.take_length
  have hdrop : (BitVec.ofNat 8 k :: BitVec.ofNat 8 (o.length / 8) :: o).drop (2 + o.length) = [] :=
    List.drop_eq_nil_of_le (by simp; omega)
  rw [hslice, hdrop]
  rfl

theorem filter_dropStaging (s : State) : (dropStaging 0x0501 k s).modMbox (fun m =>
    { m with staging := m.staging.filter fun g => g.op != 0x0501 }) =
      s.modMbox fun m => { m with staging := m.staging.filter (·.op != 0x0501) } := by
  have hfilter : (s.mbox.staging.filter fun g => !g.holds 0x0501 k).filter (fun g => g.op != 0x0501) =
      s.mbox.staging.filter fun g => g.op != 0x0501 := by
    rw [List.filter_filter]
    refine List.filter_congr fun g _ => ?_
    unfold Staging.holds bne
    cases g.op == 0x0501
    · rfl
    · rfl
  exact congrArg (fun l => s.modMbox fun m => { m with staging := l }) hfilter

theorem seqLoadDone_taken {n : SlotId} {s : State} (hfault : recordsFault o = none) (hk : k < 3)
    (hmul : o.length % 8 = 0) (hlen : o.length ≤ 256) (hheld : ∀ g ∈ s.mbox.staging, g.op = 0x0501 → g.sel = k)
    (hbroken : (s.tablesNext.take k o).broken = false) (hbusy : s.chainBusy s.twillNext (s.tablesNext.take k o) = false) :
    seqLoadDone n k o (dropStaging 0x0501 k s) = if s.core.dev = .run then pendBoundary n 0x0501 (packLoad [(k, o)]) 1
        (s.modMbox fun m => { m with staging := m.staging.filter (·.op != 0x0501) })
      else postStatus n .ok (applySeqLoad (packLoad [(k, o)])
        (s.modMbox fun m => { m with staging := m.staging.filter (·.op != 0x0501) })) := by
  have hnone : (dropStaging 0x0501 k s).mbox.staging.filter
      (fun g => g.op == 0x0501 && g.complete && g.sel != k) = [] := by
    refine List.filter_eq_nil_iff.mpr fun g hg => ?_
    obtain ⟨hmem, -⟩ := List.mem_filter.mp hg
    cases hop : g.op == 0x0501
    · simp
    · simp [hheld g hmem (eq_of_beq hop)]
  have htake : unpackLoad 3 (packLoad [(k, o)])
      (s.modMbox fun m => { m with staging := m.staging.filter (·.op != 0x0501) }).tablesNext = s.tablesNext.take k o :=
    unpackLoad_packLoad hk hmul hlen _
  unfold seqLoadDone
  rw [hfault]
  simp only
  rw [hnone, filter_dropStaging]
  rw [List.map_nil, List.nil_append, htake, hbroken]
  exact if_neg (ne_true_of_eq_false hbusy)

theorem execSeqLoad_last {n : SlotId} {s : State} (h : s.lastChunk n 0x0501 k o) (hk : k < 3)
    (hmul : o.length % 8 = 0) (hlen : if k = 0 then 8 ≤ o.length ∧ o.length ≤ 256
      else if k = 1 then o.length ≤ 256 else o.length = 8) :
    exec (.seqLoad n) s = .next (seqLoadDone n k o (dropStaging 0x0501 k s)) :=
  congrArg Host.Outcome.next (onSlot_lastChunk (c := seqLoadCmd) h rfl rfl rfl (decide_eq_true hk)
    (decide_eq_true ⟨hmul, hlen⟩) rfl rfl)

theorem seqLoad_completes {n : SlotId} {s : State} (h : s.lastChunk n 0x0501 k o) (hfault : recordsFault o = none)
    (hk : k < 3) (hmul : o.length % 8 = 0) (hlen : if k = 0 then 8 ≤ o.length ∧ o.length ≤ 256
      else if k = 1 then o.length ≤ 256 else o.length = 8)
    (hheld : ∀ g ∈ s.mbox.staging, g.op = 0x0501 → g.sel = k) (hbroken : (s.tablesNext.take k o).broken = false)
    (hload : overLoad s.settingNext s.twillNext (s.tablesNext.take k o) = false)
    (hgauze : s.gauzeBroken s.twillNext (s.tablesNext.take k o) = false) :
    (s.core.dev = .run → exec (.seqLoad n) s = .next (pendBoundary n 0x0501 (packLoad [(k, o)]) 1
      (s.modMbox fun m => { m with staging := m.staging.filter (·.op != 0x0501) }))) ∧
    (s.core.dev ≠ .run → s.seq.running = false → exec (.seqLoad n) s = .next (postStatus n .ok
      ((s.modMbox fun m => { m with staging := m.staging.filter (·.op != 0x0501) }).modSeq fun q =>
        { q with tables := s.seq.tables.take k o }))) := by
  have hmax : o.length ≤ 256 := by
    split_ifs at hlen <;> omega
  have hbusy : s.chainBusy s.twillNext (s.tablesNext.take k o) = false := by
    rw [State.chainBusy, hload, hgauze]
    rfl
  have hdone := seqLoadDone_taken (n := n) hfault hk hmul hmax hheld hbroken hbusy
  rw [execSeqLoad_last h hk hmul hlen, hdone]
  refine ⟨fun hrun => congrArg Host.Outcome.next (if_pos hrun), fun hrun hstopped => ?_⟩
  rw [if_neg hrun, applySeqLoad, unpackLoad_packLoad hk hmul hmax]
  unfold applyTables
  exact congrArg (fun s => Host.Outcome.next (postStatus n .ok s)) (if_pos (congrArg Bool.not hstopped))

end

/-! ## SEQ.MODE, SEQ.URGENT (R173, R174) -/

section
variable {s : State} {n : SlotId} {p : List Byte}

theorem execSeqMode_eq (h : s.request n 0x0502 p) (hvalid : seqModeRefusal p s.tablesNext s = none) :
    exec (.seqMode n) s = .next (if s.core.dev = .run then pendBoundary n 0x0502 p 1 s
      else postStatus n .ok (applyMode (u8 p 0 == 1) s)) := by
  change execSeqMode n s = _
  unfold execSeqMode
  rw [onSlot_request h, hvalid]
  rfl

/-- Outside RUN a weave mode waits for the next entry to RUN (R174). -/
theorem applyMode_other (h : s.core.dev ≠ .run) (b : Bool) :
    applyMode b s = s.modSeq fun q => { q with twillNext := b } :=
  if_pos (.inl h)

theorem seqMode_completes (h : s.request n 0x0502 p) (hvalid : seqModeRefusal p s.tablesNext s = none) :
    (s.core.dev = .run → exec (.seqMode n) s = .next (pendBoundary n 0x0502 p 1 s)) ∧
      (s.core.dev ≠ .run → exec (.seqMode n) s =
        .next (postStatus n .ok (s.modSeq fun q => { q with twillNext := u8 p 0 == 1 }))) := by
  rw [execSeqMode_eq h hvalid]
  refine ⟨fun hrun => congrArg Host.Outcome.next (if_pos hrun), fun hrun => ?_⟩
  rw [if_neg hrun, applyMode_other hrun]

/-- A valid SEQ.URGENT: refused, dropped, or taken for an open slot of the next tick (R173). -/
theorem execSeqUrgent_eq (h : s.request n 0x0503 p) (hvalid : urgentFault p s = none) :
    exec (.seqUrgent n) s = .next (
      if s.seq.twill then dropOne n .busy s
      else if !s.refWarm || s.convHeld then postStatus n .refCold s
      else match (s.openSlots (s.core.lt + 1))[s.seq.urgent.countP fun u => u.taken == s.core.lt]? with
        | none => dropOne n .busy s
        | some c => if s.core.dev = .run ∧ !s.seq.running then dropOne n .busy s else
          (s.modSeq fun q => { q with urgent := q.urgent ++ [{ slot := n, taken := s.core.lt, sample := c }] }).modMbox
            fun m => { m with pend := m.pend ++
              [{ slot := n, op := 0x0503, payload := p, wait := .urgent, since := s.core.lt }] }) := by
  change execSeqUrgent n s = _
  unfold execSeqUrgent
  rw [onSlot_request h, hvalid] <;> rfl

theorem seqUrgent_completes (h : s.request n 0x0503 p) (hvalid : urgentFault p s = none) :
    (s.seq.twill = true → exec (.seqUrgent n) s = .next (dropOne n .busy s)) ∧
      (s.seq.twill = false → (s.refWarm && !s.convHeld) = false →
        exec (.seqUrgent n) s = .next (postStatus n .refCold s)) ∧
      (s.seq.twill = false → s.refWarm = true → s.convHeld = false →
        (s.openSlots (s.core.lt + 1))[s.seq.urgent.countP fun u => u.taken == s.core.lt]? = none →
        exec (.seqUrgent n) s = .next (dropOne n .busy s)) ∧
      (∀ c, s.seq.twill = false → s.refWarm = true → s.convHeld = false →
        (s.core.dev = .run → s.seq.running = true) →
        (s.openSlots (s.core.lt + 1))[s.seq.urgent.countP fun u => u.taken == s.core.lt]? = some c →
        exec (.seqUrgent n) s = .next ((s.modSeq fun q =>
            { q with urgent := q.urgent ++ [{ slot := n, taken := s.core.lt, sample := c }] }).modMbox fun m =>
          { m with pend := m.pend ++
              [{ slot := n, op := 0x0503, payload := p, wait := .urgent, since := s.core.lt }] })) := by
  rw [execSeqUrgent_eq h hvalid]
  refine ⟨fun htwill => congrArg Host.Outcome.next (if_pos htwill), fun htwill hcold => ?_,
    fun htwill hwarm hheld hslot => ?_, fun c htwill hwarm hheld hrunning hslot => ?_⟩
  · have hcold' : (!s.refWarm || s.convHeld) = true := by
      rw [← Bool.not_not s.convHeld, ← Bool.not_and, hcold]
      rfl
    rw [if_neg (ne_true_of_eq_false htwill), if_pos hcold']
  · rw [if_neg (ne_true_of_eq_false htwill), hwarm, hheld, hslot]
    rfl
  · have hgo : ¬ (s.core.dev = .run ∧ (!s.seq.running) = true) := by
      rintro ⟨hdev, hstopped⟩
      rw [hrunning hdev] at hstopped
      exact absurd hstopped (by decide)
    rw [if_neg (ne_true_of_eq_false htwill), hwarm, hheld, hslot]
    dsimp only
    exact congrArg Host.Outcome.next (if_neg hgo)

/-! ## SEQ.REF, SEQ.START, SEQ.STATUS (R183, R184, R354) -/

theorem execSeqRef_off (h : s.request n 0x0504 p) (h0 : u8 p 0 = 0) : exec (.seqRef n) s =
    .next (if s.core.dev = .run then postStatus n .wrongState s else postStatus n .ok (refDisable s)) := by
  have h1 : ¬ 1 < u8 p 0 := by omega
  have h2 : ¬ u8 p 0 = 1 := by omega
  change execSeqRef n s = _
  unfold execSeqRef
  rw [onSlot_request h, if_neg h1, if_neg h2, if_neg h2]

theorem execSeqRef_on (h : s.request n 0x0504 p) (h1 : u8 p 0 = 1) : exec (.seqRef n) s =
    .next (if s.core.dev = .run then postStatus n .ok s else postStatus n .ok (refEnable s)) := by
  have h2 : ¬ 1 < u8 p 0 := by omega
  change execSeqRef n s = _
  unfold execSeqRef
  rw [onSlot_request h, if_neg h2, if_pos h1, if_pos h1]

theorem refEnable_off (h : s.core.refOn = false) :
    refEnable s = s.modCore fun c => { c with refOn := true, refSince := c.lt, refEnabled := c.lt } :=
  congrArg (fun c => s.modCore fun _ => c) (if_neg (ne_true_of_eq_false h))

theorem execSeqStart_eq (h : s.request n 0x0505 p) : exec (.seqStart n) s =
    .next (if s.refWarm && !s.convHeld then pendBoundary n 0x0505 p 1 (s.modSeq fun q => { q with startAsked := true })
      else postStatus n .refCold s) := by
  change execSeqStart n s = _
  unfold execSeqStart
  rw [onSlot_request h]
  cases s.refWarm
  · rfl
  · cases s.convHeld
    · rfl
    · rfl

theorem execSeqStatus_eq (h : s.request n 0x0506 p) (h0 : u8 p 0 ≤ 1) : exec (.seqStatus n) s =
    .next (if u8 p 0 = 1 then (postOk n s.seqStatus s).modSeq fun q =>
        { q with dropped := 0, lost := 0, twillNoWin := 0, seam := { q.seam with fails := 0 } }
      else postOk n s.seqStatus s) := by
  change execSeqStatus n s = _
  unfold execSeqStatus
  rw [onSlot_request h, if_neg (by omega)]

end

/-- Settles O13: each command passes its checks and waits, takes effect or is refused. -/
theorem seqCommands : Obligations.SeqCommands := by
  intro s n p
  refine ⟨fun k o h hfault hk hmul hlen => seqLoad_completes h hfault hk hmul hlen, seqMode_completes,
    seqUrgent_completes, fun h => ⟨fun hrun h0 => ?_, fun hrun h1 => ?_, fun hrun h0 => ?_, fun hrun h1 hoff => ?_⟩,
    fun h => ⟨fun hwarm => ?_, fun hcold => ?_⟩, fun h => ⟨fun h0 => ?_, fun h1 => ?_⟩⟩
  · rw [execSeqRef_off h h0, if_pos hrun]
  · rw [execSeqRef_on h h1, if_pos hrun]
  · rw [execSeqRef_off h h0, if_neg hrun]
    rfl
  · rw [execSeqRef_on h h1, if_neg hrun, refEnable_off hoff]
  · rw [execSeqStart_eq h, if_pos hwarm]
  · rw [execSeqStart_eq h, if_neg (ne_true_of_eq_false hcold)]
  · rw [execSeqStatus_eq h (by omega), if_neg (by omega)]
  · rw [execSeqStatus_eq h (by omega), if_pos h1]

end Sys2Proof.Machine
end

section
-- One declaration after another: the whole text is compiled as one file, within a limit on memory.
set_option Elab.async false
/-!
The filter lanes (spec/08): the WEAVE family (Table 16-9) and the read objects of R350.
-/

namespace Sys2Proof.Machine

theorem laneOf_val (l : LaneId) : laneOf l.val = l := by
  apply Fin.ext
  simp [laneOf]

theorem laneOf_of_field {p : List Byte} {l : LaneId} (hl : u8 p 0 = l.val) : laneOf (u8 p 0) = l := by
  rw [hl, laneOf_val]

theorem laneFault_none {p : List Byte} {l : LaneId} (hl : u8 p 0 = l.val) : laneFault p = none :=
  if_neg (by omega)

theorem modLane_modLane (l : LaneId) (f g : Lane → Lane) (s : State) :
    (s.modLane l f).modLane l g = s.modLane l fun x => g (f x) := by
  have hset : (s.modLane l f).lanes.set l (g ((s.modLane l f).lanes[l]'l.isLt)) = s.lanes.set l (g (f (s.lanes[l]'l.isLt))) := by
    rw [State.modLane_same]
    exact Vector.set_set ..
  exact congrArg (fun v => s.modLanes fun _ => v) hset

theorem modLane_congr {f g : Lane → Lane} (l : LaneId) {s : State} (h : f (s.lanes[l]'l.isLt) = g (s.lanes[l]'l.isLt)) :
    s.modLane l f = s.modLane l g :=
  congrArg (fun x => s.modLanes fun v => v.set l x) h

/-! ## WEAVE.SET (R201) -/

section
variable {n : SlotId} {p : List Byte} {s : State} {l : LaneId} (hl : u8 p 0 = l.val)
include hl

theorem execWeaveSet_valid (h : s.request n 0x0601 p) (hvalid : weaveSetFault p s = none) :
    exec (.weaveSet n) s = .next (
      if overLoad (fun k => if k = l then weaveSetting p ((s.lanes[l]'l.isLt).staged.getD []) else s.settingNext k)
        s.twillNext s.tablesNext then postStatus n .busy s
      else if s.core.dev = .run then pendBoundary n 0x0601 p 1 (s.modLane l (takeStaged n p))
      else postStatus n .ok (applyWeaveSet n p (s.modLane l (takeStaged n p)))) := by
  obtain rfl := laneOf_of_field hl
  change execWeaveSet n s = _
  unfold execWeaveSet
  rw [onSlot_request h, hvalid]
  rfl

omit hl in
theorem takeStaged_find (x : Lane) : (takeStaged n p x).pendSets.find? (·.slot == n) =
    some { slot := n, setting := weaveSetting p (x.staged.getD []), ring := u8 p 2 == 1 } := by
  have hnone : (x.pendSets.filter (·.slot != n)).find? (·.slot == n) = none := by
    refine List.find?_eq_none.mpr fun y hy => ?_
    simpa using (List.mem_filter.mp hy).2
  rw [takeStaged, List.find?_append, hnone]
  simp

omit hl in
theorem takeStaged_filter (x : Lane) :
    (takeStaged n p x).pendSets.filter (·.slot != n) = x.pendSets.filter (·.slot != n) := by
  simp [takeStaged, List.filter_append]

theorem applyWeaveSet_takeStaged : applyWeaveSet n p (s.modLane l (takeStaged n p)) = s.modLane l fun x =>
    ({ x with setting := weaveSetting p (x.staged.getD []), ring := u8 p 2 == 1
              pendSets := x.pendSets.filter (·.slot != n)
              staged := if u8 p 1 = 0xFF then none else x.staged }).reset s.core.lt .plain := by
  obtain rfl := laneOf_of_field hl
  have hlane := State.modLane_same (laneOf (u8 p 0)) (takeStaged n p) s
  unfold applyWeaveSet
  dsimp only
  rw [hlane, takeStaged_find]
  dsimp only [resetLane]
  rw [modLane_modLane, modLane_modLane]
  refine modLane_congr _ ?_
  rw [takeStaged_filter]
  rfl

end

theorem weaveSet_completes {n : SlotId} {p : List Byte} {s : State} {l : LaneId} (hl : u8 p 0 = l.val)
    (h : s.request n 0x0601 p) (hvalid : weaveSetFault p s = none) :
    let st := weaveSetting p ((s.lanes[l]'l.isLt).staged.getD [])
    let left := if u8 p 1 = 0xFF then none else (s.lanes[l]'l.isLt).staged
    (overLoad (fun k => if k = l then st else s.settingNext k) s.twillNext s.tablesNext = true →
      exec (.weaveSet n) s = .next (postStatus n .busy s)) ∧
    (overLoad (fun k => if k = l then st else s.settingNext k) s.twillNext s.tablesNext = false →
      (s.core.dev = .run → exec (.weaveSet n) s = .next (pendBoundary n 0x0601 p 1 (s.modLane l fun x =>
        { x with pendSets := x.pendSets.filter (·.slot != n) ++ [{ slot := n, setting := st, ring := u8 p 2 == 1 }]
                 staged := left }))) ∧
      (s.core.dev ≠ .run → exec (.weaveSet n) s = .next (postStatus n .ok (s.modLane l fun x =>
        ({ x with setting := st, ring := u8 p 2 == 1, pendSets := x.pendSets.filter (·.slot != n),
                   staged := left }).reset s.core.lt .plain)))) := by
  dsimp only
  rw [execWeaveSet_valid hl h hvalid]
  refine ⟨fun hover => congrArg Host.Outcome.next (if_pos hover), fun hfits => ⟨fun hrun => ?_, fun hrun => ?_⟩⟩
  · rw [if_neg (ne_true_of_eq_false hfits), if_pos hrun]
    rfl
  · rw [if_neg (ne_true_of_eq_false hfits), if_neg hrun, applyWeaveSet_takeStaged hl]
    rfl

/-! ## WEAVE.COEF, WEAVE.PHASE, WEAVE.SYNC (R197, R202, R203) -/

section
variable {n : SlotId} {p : List Byte} {s : State} {l : LaneId}

theorem weaveCoef_completes {o : List Byte} (h : s.lastChunk n 0x0602 l.val o) (hmin : 4 ≤ o.length)
    (hmax : o.length ≤ 2560) (hmul : o.length % 4 = 0) (hfault : coefFault o = none)
    (hfits : s.coefHeld l + o.length / 4 ≤ 8192) :
    exec (.weaveCoef n) s = .next (postStatus n .ok ((dropStaging 0x0602 l.val s).modLane l fun x =>
      { x with staged := some (coefList o) })) := by
  have hroom : ¬ 8192 < (dropStaging 0x0602 l.val s).coefHeld l + o.length / 4 := not_lt.mpr hfits
  have hdone : weaveCoefCmd.done n l.val o (dropStaging 0x0602 l.val s) =
      postStatus n .ok (stageCoef l o (dropStaging 0x0602 l.val s)) := by
    change (match coefFault o with
      | some d => badArg n d (dropStaging 0x0602 l.val s)
      | none => if 8192 < (dropStaging 0x0602 l.val s).coefHeld (laneOf l.val) + o.length / 4 then
          postStatus n .busy (dropStaging 0x0602 l.val s)
        else postStatus n .ok (stageCoef (laneOf l.val) o (dropStaging 0x0602 l.val s))) = _
    rw [hfault, laneOf_val]
    exact if_neg hroom
  exact congrArg Host.Outcome.next ((onSlot_lastChunk (c := weaveCoefCmd) h rfl rfl rfl (decide_eq_true l.isLt)
    (decide_eq_true ⟨hmin, hmax, hmul⟩) rfl rfl).trans hdone)

theorem weavePhase_completes (hl : u8 p 0 = l.val) (h : s.request n 0x0605 p) (h1 : u8 p 1 = 0)
    (h2 : u16 p 2 ≤ 1023) :
    exec (.weavePhase n) s = .next (postStatus n .ok (s.modLane l fun x => { x with phase := u16 p 2 })) := by
  have hfault : weavePhaseFault p = none := by
    rw [weavePhaseFault, laneFault_none hl, firstNonZero_one h1, if_neg (by omega)]
    rfl
  obtain rfl := laneOf_of_field hl
  change execWeavePhase n s = _
  unfold execWeavePhase
  rw [onSlot_request h, orRefuse_none hfault]
  rfl

theorem execWeaveSync_low (h : s.request n 0x0604 p) (h0 : u8 p 0 = 0) : exec (.weaveSync n) s =
    .next (if (if (s.mbox.slots[n]'n.isLt).early then s else pullSync s).pins.syncFrom.isNone then
        postStatus n .ok (if (s.mbox.slots[n]'n.isLt).early then s else pullSync s)
      else (if (s.mbox.slots[n]'n.isLt).early then s else pullSync s).modMbox fun m => { m with pend := m.pend ++
        [{ slot := n, op := 0x0604, payload := p, wait := .syncRelease, since := s.core.lt }] }) := by
  change execWeaveSync n s = _
  unfold execWeaveSync
  rw [onSlot_request h, if_pos h0]

theorem weaveSync_completes (h : s.request n 0x0604 p) :
    (u8 p 0 = 0 → (s.mbox.slots[n]'n.isLt).early = false → exec (.weaveSync n) s =
      .next ((s.modPins fun x => { x with syncFrom := some s.core.lt }).modMbox fun m =>
        { m with pend := m.pend ++
            [{ slot := n, op := 0x0604, payload := p, wait := .syncRelease, since := s.core.lt }] })) ∧
    (u8 p 0 = 0 → (s.mbox.slots[n]'n.isLt).early = true →
      (∀ a, s.pins.syncFrom = some a → exec (.weaveSync n) s = .next (s.modMbox fun m => { m with pend := m.pend ++
        [{ slot := n, op := 0x0604, payload := p, wait := .syncRelease, since := s.core.lt }] })) ∧
      (s.pins.syncFrom = none → exec (.weaveSync n) s = .next (postStatus n .ok s))) ∧
    (u8 p 0 = 1 ∨ u8 p 0 = 2 → exec (.weaveSyncResponse n) s =
      .next (postStatus n .ok (s.modPins fun x => { x with syncResponse := u8 p 0 == 1 }))) := by
  refine ⟨fun h0 hearly => ?_, fun h0 hearly => ⟨fun a ha => ?_, fun hnone => ?_⟩, fun hop => ?_⟩
  · rw [execWeaveSync_low h h0, hearly]
    rfl
  · rw [execWeaveSync_low h h0, hearly, if_pos rfl, ha]
    rfl
  · rw [execWeaveSync_low h h0, hearly, if_pos rfl, hnone]
    rfl
  · change execWeaveSyncResponse n s = _
    unfold execWeaveSyncResponse
    rw [onSlot_request h, if_pos hop]
    rfl

end

/-- Settles O14: each command passes its checks and waits, or takes effect at its lane or pin. -/
theorem weaveCommands : Obligations.WeaveCommands := by
  intro s n p l hl
  exact ⟨weaveSet_completes hl, fun o h hmin hmax hmul hfault hfits => weaveCoef_completes h hmin hmax hmul hfault hfits,
    weavePhase_completes hl, weaveSync_completes⟩

/-! ## Readings (R198, R204, R350) -/

/-- The first request of a read object takes a snapshot and answers its first 48 bytes (R350). -/
theorem readObject_first {c : ReadCmd} {n : SlotId} {p : List Byte} {s : State} (hsel : c.selOk (u16 p 0) = true)
    (hoff : u16 p 2 = 0) (hflags : u8 p 4 ≤ 1) (hzero : ∀ i < 3, u8 p (5 + i) = 0)
    (hsome : c.object (u16 p 0) s ≠ []) :
    readObject c n p s = postOk n (toLE 2 (c.object (u16 p 0) s).length ++ toLE 2 0 ++ toLE 4 s.frame.number.toNat ++
        (c.object (u16 p 0) s).take 48)
      (if u8 p 4 = 1 then c.clear (u16 p 0) (takeSnap c.op (u16 p 0) (c.object (u16 p 0) s) s)
        else takeSnap c.op (u16 p 0) (c.object (u16 p 0) s) s) := by
  have hlen : ¬ (c.object (u16 p 0) s).length ≤ 0 := by
    rw [Nat.le_zero, List.length_eq_zero_iff]
    exact hsome
  have hflag : ¬ u8 p 4 / 2 ≠ 0 := by omega
  have hbit : (u8 p 4).testBit 0 = decide (u8 p 4 = 1) := by
    rw [Nat.testBit_zero]
    exact decide_eq_decide.mpr (by omega)
  unfold readObject
  dsimp only
  rw [hsel, hoff, if_neg (by decide), if_pos rfl]
  dsimp only
  rw [if_neg hlen, if_neg hflag, firstNonZero_none hzero]
  dsimp only
  rw [if_pos rfl, hbit]
  by_cases h1 : u8 p 4 = 1
  · rw [if_pos h1, if_pos (decide_eq_true h1)]
    rfl
  · rw [if_neg h1, if_neg (by simpa using h1)]
    rfl

/-- The WEAVE.STATUS response (Table 16-9). -/
def State.weaveStatus (s : State) (l : LaneId) : List Byte :=
  [BitVec.ofNat 8 (((s.lanes[l]'l.isLt).setting.weave.map (·.val)).getD 0xFF), boolByte (s.lanes[l]'l.isLt).ring] ++
    toLE 2 (s.lanes[l]'l.isLt).settleLeft ++ toLE 2 (s.lanes[l]'l.isLt).discard ++ toLE 4 (s.lanes[l]'l.isLt).satCount.toNat ++
    toLE 2 (s.seq.tables.load s.settingOf s.seq.twill) ++ [boolByte s.pins.syncResponse]

section
variable {n : SlotId} {p : List Byte} {s : State} {l : LaneId} (hl : u8 p 0 = l.val)
include hl

theorem weaveDelay_completes (h : s.request n 0x0603 p) : exec (.weaveDelay n) s =
    .next (postOk n (s.lanes[l]'l.isLt).setting.delayBytes s) := by
  have hfault := laneFault_none hl
  obtain rfl := laneOf_of_field hl
  change execWeaveDelay n s = _
  unfold execWeaveDelay
  rw [onSlot_request h, orRefuse_none hfault]

theorem execWeaveStatus_eq (h : s.request n 0x0606 p) (h1 : u8 p 1 ≤ 1) : exec (.weaveStatus n) s =
    .next (if u8 p 1 = 1 then (postOk n (s.weaveStatus l) s).modLane l fun x => { x with satCount := 0 }
      else postOk n (s.weaveStatus l) s) := by
  have hfilter : (match (s.lanes[l]'l.isLt).setting.weave with
      | some w => w.val
      | none => 0xFF) = ((s.lanes[l]'l.isLt).setting.weave.map (·.val)).getD 0xFF := by
    cases (s.lanes[l]'l.isLt).setting.weave <;> rfl
  obtain rfl := laneOf_of_field hl
  change execWeaveStatus n s = _
  unfold execWeaveStatus
  rw [onSlot_request h, if_neg (by omega), if_neg (by omega)]
  dsimp only
  rw [State.weaveStatus, ← hfilter] <;> rfl

end

theorem weaveRead_completes {n : SlotId} {q : List Byte} {s : State} (h : s.request n 0x0607 q)
    (hw : u16 q 0 < 24) (hoff : u16 q 2 = 0) (hflags : u8 q 4 ≤ 1) (hzero : ∀ i < 3, u8 q (5 + i) = 0)
    (hsome : weaveObject (u16 q 0) ≠ []) : exec (.weaveRead n) s = .next (postOk n
      (toLE 2 (weaveObject (u16 q 0)).length ++ toLE 2 0 ++ toLE 4 s.frame.number.toNat ++
        (weaveObject (u16 q 0)).take 48) (takeSnap 0x0607 (u16 q 0) (weaveObject (u16 q 0)) s)) := by
  have hread := readObject_first (c := weaveReadCmd) (n := n) (s := s) (decide_eq_true hw) hoff hflags hzero hsome
  change execWeaveRead n s = _
  unfold execWeaveRead
  rw [onSlot_request h, hread]
  exact congrArg (fun t => Host.Outcome.next (postOk n _ t)) (ite_self _)

/-- Settles O15: each reading is the response its command builds. -/
theorem weaveReadings : Obligations.WeaveReadings := by
  intro s n p l hl
  refine ⟨weaveDelay_completes hl, fun h => ⟨s.weaveStatus l, rfl, fun h1 => ?_, fun h1 => ?_⟩, ?_⟩
  · rw [execWeaveStatus_eq hl h (by omega), if_neg (by omega)]
  · rw [execWeaveStatus_eq hl h (by omega), if_pos h1]
  · rintro _ q h rfl hw hoff hflags hzero hsome
    exact ⟨_, weaveRead_completes h hw hoff hflags hzero hsome, rfl⟩

end Sys2Proof.Machine
end

section
-- One declaration after another: the whole text is compiled as one file, within a limit on memory.
set_option Elab.async false
/-!
Conversions, windows, clips, one-shots and the self-test (spec/04, spec/07).
-/

namespace Sys2Proof.Machine

/-! ## Inputs -/

theorem modInput_port (p : PortId) (i : Fin 2) (f : Input → Input) (s : State) :
    (s.modInput p i f).ports[p]'p.isLt = { (s.ports[p]'p.isLt) with inputs := (s.ports[p]'p.isLt).inputs.set i (f ((s.ports[p]'p.isLt).inputs[i]'i.isLt)) } :=
  Vector.getElem_set_self ..

theorem modInput_same (p : PortId) (i : Fin 2) (f : Input → Input) (s : State) :
    ((s.modInput p i f).ports[p]'p.isLt).inputs[i]'i.isLt = f ((s.ports[p]'p.isLt).inputs[i]'i.isLt) := by
  rw [modInput_port]
  exact Vector.getElem_set_self ..

theorem modInput_other {p q : PortId} {i j : Fin 2} (h : ¬ (q = p ∧ j = i)) (f : Input → Input) (s : State) :
    ((s.modInput p i f).ports[q]'q.isLt).inputs[j]'j.isLt = (s.ports[q]'q.isLt).inputs[j]'j.isLt := by
  by_cases hq : q = p
  · have hj : i.val ≠ j.val := fun e => h ⟨hq, Fin.ext e.symm⟩
    subst hq
    rw [modInput_port]
    exact Vector.getElem_set_ne i.isLt j.isLt hj
  · have hne : p.val ≠ q.val := fun e => hq (Fin.ext e.symm)
    have hport : (s.modInput p i f).ports[q]'q.isLt = s.ports[q]'q.isLt := Vector.getElem_set_ne p.isLt q.isLt hne
    rw [hport]

theorem modInput_mode (p : PortId) (i : Fin 2) (f : Input → Input) (s : State) (q : PortId) :
    ((s.modInput p i f).ports[q]'q.isLt).mode = (s.ports[q]'q.isLt).mode := by
  by_cases hq : q = p
  · subst hq
    rw [modInput_port]
  · have hne : p.val ≠ q.val := fun e => hq (Fin.ext e.symm)
    exact congrArg Port.mode (Vector.getElem_set_ne p.isLt q.isLt hne)

/-! ## What an input to a lane leaves alone -/

theorem leveeFeed_ports (kind index series : Nat) (v : Int) (fl : W16) (s : State) :
    (leveeFeed kind index series v fl s).ports = s.ports ∧ (leveeFeed kind index series v fl s).mbox = s.mbox := by
  obtain ⟨c, hc⟩ := leveeFeed_levees kind index series v fl s
  rw [hc]
  exact ⟨rfl, rfl⟩

theorem irtOutput_ports (l : LaneId) (o : Out) (s : State) :
    (irtOutput l o s).ports = s.ports ∧ (irtOutput l o s).mbox = s.mbox := by
  unfold irtOutput
  induction s.irtPorts l generalizing s with
  | nil => exact ⟨rfl, rfl⟩
  | cons p ps ih => exact ih _

theorem emitSample_ports (tag : Byte) (o : Out) (s : State) :
    (emitSample tag o s).ports = s.ports ∧ (emitSample tag o s).mbox = s.mbox := by
  rw [emitSample_only tag o s]
  exact ⟨rfl, rfl⟩

theorem laneInput_ports (l : LaneId) (v : Int) (fl : W16) (s : State) :
    (laneInput l v fl s).ports = s.ports ∧ (laneInput l v fl s).mbox = s.mbox := by
  have hemit : ∀ (o : Out) (s : State), (emitLane l o s).ports = s.ports ∧ (emitLane l o s).mbox = s.mbox := by
    intro o s
    unfold emitLane
    dsimp only
    generalize hs' : s.modLane l _ = s'
    have hports : s'.ports = s.ports ∧ s'.mbox = s.mbox := by
      rw [← hs']
      exact ⟨rfl, rfl⟩
    obtain ⟨hp, hm⟩ := hports
    obtain ⟨ip, im⟩ := irtOutput_ports l o s'
    obtain ⟨fp, fm⟩ := leveeFeed_ports 1 l.val 0 o.value.toInt o.flags (irtOutput l o s')
    split
    · obtain ⟨ep, em⟩ := emitSample_ports (BitVec.ofNat 8 l.val) o
        (leveeFeed 1 l.val 0 o.value.toInt o.flags (irtOutput l o s'))
      exact ⟨by rw [ep, fp, ip, hp], by rw [em, fm, im, hm]⟩
    · exact ⟨by rw [fp, ip, hp], by rw [fm, im, hm]⟩
  unfold laneInput
  dsimp only
  split
  · obtain ⟨hp, hm⟩ := hemit _ (s.modLane l fun _ => ((s.lanes[l]'l.isLt).input s.core.lt v fl).1)
    exact ⟨hp, hm⟩
  · exact ⟨rfl, rfl⟩

/-! ## Conversions (R168) -/

section
variable {s : State} {c : ConvIn} {e : Entry}

theorem execConversionComplete_measuring (hmeasuring : s.measuring = true) (hrunning : s.seq.running = true)
    (hentry : s.convEntry c = some e) :
    exec (.conversionComplete c) s = .next (if s.onSchedule e c then takeConversion e c s else s) := by
  change execConversionComplete c s = _
  unfold execConversionComplete
  rw [hentry, hmeasuring, hrunning]
  rfl

/-- In plain weave a conversion goes by the class of its entry. -/
theorem takeConversion_plain (hplain : s.seq.twill = false) : takeConversion e c s = (match e.cls with
    | .open_ => serveOpen (s.convBegan e c) (s.convBegin e c / 2 + e.acq).toNat c.err s
    | .reserved => if s.witnessDue then witnessSample e.lane (s.sampleOf e c) s else serveWarp c.err s
    | .internal => otherConversion e c s
    | .swatch => otherConversion e c s
    | .port =>
      if e.sig < 2 && s.elecCal e.port then solveConversion e (s.sampleOf e c) s
      else if !s.entryLive e then s
      else if e.sig < 2 then currentConversion e c s
      else otherConversion e c s) := by
  have htraining : ¬ (s.seq.twill && s.seq.seam.training.isSome) = true := by simp [hplain]
  have hafter : afterTraining e s = s := if_neg (by simp [hplain])
  have htwill : ¬ s.seq.twill = true := ne_true_of_eq_false hplain
  unfold takeConversion
  rw [if_neg htraining, hafter]
  dsimp only
  rw [if_neg htwill] <;> rfl

theorem otherConversion_internal (hinternal : e.cls = .internal) : otherConversion e c s = (match e.lane with
    | some l => laneInput l (s.codeOf c.conv e c.v c.err * 64)
        (codeOvr (s.codeOf c.conv e c.v c.err) ||| s.convFlags e (s.convBegan e c)) s
    | none => s) := by
  have hswatch : ¬ (e.cls = .swatch ∧ e.src = 3) := by simp [hinternal]
  have hport : ¬ e.cls = .port := by simp [hinternal]
  unfold otherConversion drawTone
  dsimp only
  rw [if_neg hswatch, if_neg hport] <;> rfl

theorem demodulate_keeps (p : PortId) (ref : Bool) (x : Demod) (s : State) :
    (s.demodulate p ref x).lanes = s.lanes ∧ (s.demodulate p ref x).rings = s.rings ∧
      (s.demodulate p ref x).ports = s.ports := by
  unfold State.demodulate
  dsimp only
  split
  · exact ⟨rfl, rfl, rfl⟩
  · exact ⟨rfl, rfl, rfl⟩

theorem gauzeConversion_keeps (e : Entry) (y : Sample) (fl : W16) (s : State) :
    (gauzeConversion e y fl s).lanes = s.lanes ∧ (gauzeConversion e y fl s).rings = s.rings ∧
      (gauzeConversion e y fl s).ports = s.ports := by
  unfold gauzeConversion
  dsimp only
  split
  · exact demodulate_keeps ..
  · exact ⟨rfl, rfl, rfl⟩

theorem takeConversion_current (hplain : s.seq.twill = false) (hcls : e.cls = .port) (hlive : s.entryLive e = true)
    (hsig : e.sig < 2) : takeConversion e c s = currentConversion e c s := by
  have hcal : s.elecCal e.port = false := by
    simp only [State.entryLive, hcls, Bool.or_eq_true, Bool.and_eq_true] at hlive
    obtain hne | ⟨-, hcal⟩ := hlive
    · exact absurd hne (by decide)
    · simpa using hcal
  rw [takeConversion_plain hplain, hcls, hcal, hlive]
  dsimp only
  rw [if_neg (by simp), if_neg (by decide), if_pos hsig]

theorem currentConversion_sample
    (hfirst : ((s.ports[e.port]'e.port.isLt).inputs[(Fin.ofNat 2 e.sig)]'(Fin.isLt _)).lastSample.any (·.1 == s.core.lt) = false) :
    (currentConversion e c s).lanes = s.lanes ∧ (currentConversion e c s).rings = s.rings ∧
      (((currentConversion e c s).ports[e.port]'e.port.isLt).inputs[(Fin.ofNat 2 e.sig)]'(Fin.isLt _)).lastSample =
        some (s.core.lt, s.sampleOf e c) := by
  unfold currentConversion
  dsimp only
  obtain ⟨hlanes, hrings, hports⟩ := gauzeConversion_keeps e (s.sampleOf e c)
    (s.portFlags e.port e.sig (s.convBegan e c) |||
      flagIf (((s.ports[e.port]'e.port.isLt).inputs[(Fin.ofNat 2 e.sig)]'(Fin.isLt _)).marked s.core.lt) Flag.neighbourOvr |||
      flagIf s.seamStale Flag.seamStale)
    (s.modInput e.port (Fin.ofNat 2 e.sig) (Input.sample s.core.lt (s.sampleOf e c)))
  refine ⟨hlanes, hrings, ?_⟩
  have hinput := modInput_same e.port (Fin.ofNat 2 e.sig) (Input.sample s.core.lt (s.sampleOf e c)) s
  have htaken : Input.sample s.core.lt (s.sampleOf e c) ((s.ports[e.port]'e.port.isLt).inputs[(Fin.ofNat 2 e.sig)]'(Fin.isLt _)) =
      { ((s.ports[e.port]'e.port.isLt).inputs[(Fin.ofNat 2 e.sig)]'(Fin.isLt _)) with
        lastSample := some (s.core.lt, s.sampleOf e c)
        openWin := ((s.ports[e.port]'e.port.isLt).inputs[(Fin.ofNat 2 e.sig)]'(Fin.isLt _)).openWin.map fun o =>
          if o.first = s.core.lt then { o with startSample := some (s.sampleOf e c) } else o } :=
    if_neg (ne_true_of_eq_false hfirst)
  have hat := congrArg (fun v : Vector Port 16 => ((v[e.port]'e.port.isLt).inputs[(Fin.ofNat 2 e.sig : Fin 2)]'(Fin.isLt _)).lastSample) hports
  exact hat.trans ((congrArg Input.lastSample hinput).trans (congrArg Input.lastSample htaken))

theorem conversion_completes (hmeasuring : s.measuring = true) (hrunning : s.seq.running = true)
    (hplain : s.seq.twill = false) (hentry : s.convEntry c = some e) :
    (s.onSchedule e c = false → exec (.conversionComplete c) s = .next s) ∧
    (∀ l, s.onSchedule e c = true → e.cls = .internal → e.lane = some l →
      exec (.conversionComplete c) s = .next (laneInput l (s.codeOf c.conv e c.v c.err * 64)
        (codeOvr (s.codeOf c.conv e c.v c.err) ||| s.convFlags e (s.convBegan e c)) s)) ∧
    (s.onSchedule e c = true → e.cls = .internal → e.lane = none →
      exec (.conversionComplete c) s = .next s) ∧
    (s.onSchedule e c = true → e.cls = .port → s.entryLive e = true → e.sig < 2 →
      ((s.ports[e.port]'e.port.isLt).inputs[(Fin.ofNat 2 e.sig)]'(Fin.isLt _)).lastSample.any (·.1 == s.core.lt) = false →
      ∃ t, exec (.conversionComplete c) s = .next t ∧ t.lanes = s.lanes ∧ t.rings = s.rings ∧
        ((t.ports[e.port]'e.port.isLt).inputs[(Fin.ofNat 2 e.sig)]'(Fin.isLt _)).lastSample = some (s.core.lt,
          { np := c.np, v := codeVolts e.gain (s.codeOf c.conv e c.v c.err)
            clk := s.convClock e c, stale := s.seamStale })) := by
  rw [execConversionComplete_measuring hmeasuring hrunning hentry]
  refine ⟨fun hoff => ?_, fun l hon hinternal hlane => ?_, fun hon hinternal hlane => ?_,
    fun hon hport hlive hsig hfirst => ?_⟩
  · rw [if_neg (ne_true_of_eq_false hoff)]
  · rw [if_pos hon, takeConversion_plain hplain, hinternal]
    dsimp only
    rw [otherConversion_internal hinternal, hlane]
  · rw [if_pos hon, takeConversion_plain hplain, hinternal]
    dsimp only
    rw [otherConversion_internal hinternal, hlane]
  · rw [if_pos hon, takeConversion_current hplain hport hlive hsig]
    exact ⟨_, rfl, currentConversion_sample hfirst⟩

end

/-! ## Windows (R94) -/

section
variable (p : PortId) (i : Fin 2)

/-- What the completion of a window leaves as its own first two writes made it. -/
def State.windowKept (s : State) : Option OpenWin × W32 × W32 × PortState × Mbox :=
  (((s.ports[p]'p.isLt).inputs[i]'i.isLt).doneWin, (s.ports[p]'p.isLt).breach, (s.ports[p]'p.isLt).unguardedCount, (s.ports[p]'p.isLt).state, s.mbox)

end

section
variable {p : PortId} {i : Fin 2} {s t : State}

theorem windowKept_of_ports (h : t.ports = s.ports ∧ t.mbox = s.mbox) : t.windowKept p i = s.windowKept p i := by
  unfold State.windowKept
  rw [h.1, h.2]

theorem modInput_windowKept {f : Input → Input} (h : ∀ x, (f x).doneWin = x.doneWin) (s : State) :
    (s.modInput p i f).windowKept p i = s.windowKept p i := by
  unfold State.windowKept
  rw [modInput_same, modInput_port, h]
  rfl

theorem gauzeDiscardFor_ports (k : Nat) (p : PortId) (s : State) :
    (gauzeDiscardFor k p s).ports = s.ports ∧ (gauzeDiscardFor k p s).mbox = s.mbox := by
  unfold gauzeDiscardFor
  dsimp only
  split
  · exact ⟨rfl, rfl⟩
  · split
    · exact ⟨rfl, rfl⟩
    · exact ⟨rfl, rfl⟩

theorem changeRange_windowKept (r : Fin 8) (s : State) :
    (changeRange p i r s).windowKept p i = s.windowKept p i := by
  unfold changeRange
  dsimp only
  refine (modInput_windowKept (by intro x; rfl) _).trans ?_
  split
  · exact windowKept_of_ports (gauzeDiscardFor_ports ..)
  · rfl

theorem notice_windowKept (code : W16) (k : Kind) (args : W64) (s : State) :
    (notice code k args s).windowKept p i = s.windowKept p i :=
  windowKept_of_ports ⟨notice_ports .., notice_mbox ..⟩

theorem ceilingNotice_windowKept (s : State) : (ceilingNotice p i s).windowKept p i = s.windowKept p i := by
  unfold ceilingNotice
  dsimp only
  split
  · exact (notice_windowKept ..).trans (modInput_windowKept (by intro x; rfl) _)
  · rfl

theorem overloadStep_windowKept (s : State) : (overloadStep p i s).windowKept p i = s.windowKept p i := by
  unfold overloadStep
  dsimp only
  split
  · exact (modInput_windowKept (by intro x; rfl) _).trans (changeRange_windowKept ..)
  · exact modInput_windowKept (by intro x; rfl) _

theorem nearFull_doneWin (running : Bool) (code : Int) (x : Input) : (x.nearFull running code).doneWin = x.doneWin := by
  unfold Input.nearFull
  split
  · split
    · rfl
    · rfl
  · rfl

theorem autoRange_windowKept (o : OpenWin) (code : Int) (s : State) :
    (autoRange p i o code s).windowKept p i = s.windowKept p i := by
  have hrecord : (s.modInput p i (Input.record code (code == 8388607 || code == -8388608) o.range)).windowKept p i =
      s.windowKept p i := modInput_windowKept (by intro x; rfl) s
  unfold autoRange
  dsimp only
  split
  · exact hrecord
  · split
    · rw [modInput_windowKept (nearFull_doneWin _ _), hrecord]
    · split
      · rw [overloadStep_windowKept, modInput_windowKept (nearFull_doneWin _ _), hrecord]
      · rw [ceilingNotice_windowKept, modInput_windowKept (nearFull_doneWin _ _), hrecord]

theorem moxResult_windowKept (o : OpenWin) (code : Int) (fl : W16) (s : State) :
    (moxResult p o code fl s).windowKept p i = s.windowKept p i := by
  unfold moxResult
  split
  · rfl
  · rfl

theorem enterResult_windowKept (o : OpenWin) (code : Int) (fl : W16) (s : State) :
    (enterResult p i o code fl s).windowKept p i = s.windowKept p i := by
  unfold enterResult
  split
  · exact windowKept_of_ports (laneInput_ports ..)
  · rfl

theorem rangedResult_windowKept (o : OpenWin) (s : State) :
    (rangedResult p i o s).windowKept p i = s.windowKept p i := by
  have hchanged : (s.modInput p i fun x => { x with changed := none }).windowKept p i = s.windowKept p i :=
    modInput_windowKept (by intro x; rfl) s
  unfold rangedResult
  dsimp only
  split
  · split
    · split
      · exact hchanged
      · rw [notice_windowKept]
        split
        · exact hchanged
        · exact hchanged
    · rfl
  · rfl

theorem completeWindow_windowKept (o : OpenWin) (code : Int) (s : State) :
    (completeWindow p i o code s).windowKept p i =
      (none, countUp (s.ports[p]'p.isLt).breach (boolNat (hasFlag (s.windowFlags p i o code) Flag.breach)),
        countUp (s.ports[p]'p.isLt).unguardedCount (boolNat (hasFlag (s.windowFlags p i o code) Flag.unguarded)),
        (s.ports[p]'p.isLt).state, s.mbox) := by
  have hdone : ((s.modInput p i fun x => { x with doneWin := none }).modPort p
      (countFlags (s.windowFlags p i o code))).windowKept p i =
      (none, countUp (s.ports[p]'p.isLt).breach (boolNat (hasFlag (s.windowFlags p i o code) Flag.breach)),
        countUp (s.ports[p]'p.isLt).unguardedCount (boolNat (hasFlag (s.windowFlags p i o code) Flag.unguarded)),
        (s.ports[p]'p.isLt).state, s.mbox) := by
    have hinput := modInput_same p i (fun x => { x with doneWin := none }) s
    unfold State.windowKept
    rw [State.modPort_same]
    unfold countFlags
    dsimp only
    rw [hinput, modInput_port]
    rfl
  unfold completeWindow
  dsimp only
  rw [autoRange_windowKept, moxResult_windowKept, enterResult_windowKept, rangedResult_windowKept, hdone]

theorem execWindowComplete_done {o : OpenWin} {code : Int} (hdone : ((s.ports[p]'p.isLt).inputs[i]'i.isLt).doneWin = some o)
    (hmeasuring : s.measuring = true) (hmeasures : (s.ports[p]'p.isLt).measures = true) (hused : i.val < (s.ports[p]'p.isLt).mode.inputs)
    (hcode : s.windowCode p i o = some code) :
    exec (.windowComplete p i) s = .next (completeWindow p i o code s) := by
  change execWindowComplete p i s = _
  unfold execWindowComplete
  rw [hdone, hmeasuring, hmeasures, decide_eq_true hused]
  dsimp only
  rw [hcode]
  rfl

/-! ## Clips (R98) -/

/-- What each step keeps and some step brings about holds after the fold. -/
theorem foldl_establishes {α β : Type} {f : β → α → β} {P : β → Prop} (hkeep : ∀ b a, P b → P (f b a)) {l : List α}
    (hmake : ∃ a ∈ l, ∀ b, P (f b a)) (b : β) : P (l.foldl f b) := by
  have hkept : ∀ (l : List α) b, P b → P (l.foldl f b) := by
    intro l
    induction l with
    | nil => exact fun _ h => h
    | cons a l ih => exact fun b h => ih _ (hkeep b a h)
  obtain ⟨a, ha, hmake⟩ := hmake
  induction l generalizing b with
  | nil => cases ha
  | cons c l ih =>
    obtain rfl | ha := List.mem_cons.mp ha
    · exact hkept l _ (hmake b)
    · exact ih _ ha

theorem foldl_apply_eq {α β γ : Type} {f : β → α → β} {g : β → γ} (hkeep : ∀ b a, g (f b a) = g b) (l : List α)
    (b : β) : g (l.foldl f b) = g b := by
  induction l generalizing b with
  | nil => rfl
  | cons a l ih => rw [List.foldl_cons, ih, hkeep]

/-- The mark of a clip of input i of port p on another input (R98 step 3). -/
def markOther (p : PortId) (i : Fin 2) (till : W64) (s : State) (e : PortId × Fin 2) : State :=
  if e.1 = p ∧ e.2 = i then s else s.modInput e.1 e.2 (Input.mark till)

theorem markOther_self (till : W64) (s : State) (e : PortId × Fin 2) :
    ((markOther p i till s e).ports[p]'p.isLt).inputs[i]'i.isLt = (s.ports[p]'p.isLt).inputs[i]'i.isLt := by
  unfold markOther
  split
  · rfl
  · next h => exact modInput_other (fun hpi => h ⟨hpi.1.symm, hpi.2.symm⟩) _ _

theorem markOther_marks {q : PortId} {j : Fin 2} (h : ¬ (q = p ∧ j = i)) (till : W64) (s : State) :
    (((markOther p i till s (q, j)).ports[q]'q.isLt).inputs[j]'j.isLt).neighbourTo = some till := by
  unfold markOther
  rw [if_neg h]
  exact congrArg Input.neighbourTo (modInput_same ..)

theorem markOther_marked {q : PortId} {j : Fin 2} {till : W64} {s : State} (e : PortId × Fin 2)
    (h : ((s.ports[q]'q.isLt).inputs[j]'j.isLt).neighbourTo = some till) :
    (((markOther p i till s e).ports[q]'q.isLt).inputs[j]'j.isLt).neighbourTo = some till := by
  by_cases he : q = e.1 ∧ j = e.2
  · obtain ⟨rfl, rfl⟩ := he
    unfold markOther
    split
    · exact h
    · exact congrArg Input.neighbourTo (modInput_same ..)
  · unfold markOther
    split
    · exact h
    · exact (congrArg Input.neighbourTo (modInput_other he _ _)).trans h

theorem mem_allInputs {q : PortId} {j : Fin 2} (h : j.val < (s.ports[q]'q.isLt).mode.inputs) : (q, j) ∈ s.allInputs :=
  List.mem_flatMap.mpr ⟨q, List.mem_finRange q, List.mem_map.mpr ⟨j, List.mem_filter.mpr
    ⟨List.mem_finRange j, decide_eq_true h⟩, rfl⟩⟩

/-- The clipped input's own part (R98 steps 1, 2 and 4). -/
def clipOwn (p : PortId) (i : Fin 2) (positive : Bool) (s : State) : State :=
  let s := s.modInput p i fun x =>
    { x with resetNext := true
             openWin := x.openWin.map fun o => { o with clip := o.clip.or (some positive) } }
  if i = 0 then gauzeDiscardFor 1 p s else s

theorem clipOwn_ports (p : PortId) (i : Fin 2) (b : Bool) (s : State) : (clipOwn p i b s).ports =
    (s.modInput p i fun x => { x with
      resetNext := true, openWin := x.openWin.map fun o => { o with clip := o.clip.or (some b) } }).ports := by
  unfold clipOwn
  dsimp only
  split
  · exact (gauzeDiscardFor_ports ..).1
  · rfl

theorem clip_eq (p : PortId) (i : Fin 2) (b : Bool) (s : State) : clip p i b s =
    ((clipOwn p i b s).allInputs.foldl (markOther p i (s.core.lt + 4)) (clipOwn p i b s)).modSeq fun q =>
      { q with neighbourTo := some (s.core.lt + 4) } := rfl

theorem clip_self (p : PortId) (i : Fin 2) (b : Bool) (s : State) : ((clip p i b s).ports[p]'p.isLt).inputs[i]'i.isLt =
    { ((s.ports[p]'p.isLt).inputs[i]'i.isLt) with
      resetNext := true
      openWin := ((s.ports[p]'p.isLt).inputs[i]'i.isLt).openWin.map fun o => { o with clip := o.clip.or (some b) } } := by
  have hfold := foldl_apply_eq (g := fun s : State => (s.ports[p]'p.isLt).inputs[i]'i.isLt) (markOther_self (p := p) (i := i) (s.core.lt + 4))
    (clipOwn p i b s).allInputs (clipOwn p i b s)
  have hown := congrArg (fun v : Vector Port 16 => (v[p]'p.isLt).inputs[i]'i.isLt) (clipOwn_ports p i b s)
  rw [clip_eq]
  exact hfold.trans (hown.trans (modInput_same ..))

theorem clip_marks {q : PortId} {j : Fin 2} (b : Bool) (h : ¬ (q = p ∧ j = i)) (hused : j.val < (s.ports[q]'q.isLt).mode.inputs) :
    (((clip p i b s).ports[q]'q.isLt).inputs[j]'j.isLt).neighbourTo = some (s.core.lt + 4) := by
  have hmode : ((clipOwn p i b s).ports[q]'q.isLt).mode = (s.ports[q]'q.isLt).mode := by
    have hown := congrArg (fun v : Vector Port 16 => (v[q]'q.isLt).mode) (clipOwn_ports p i b s)
    exact hown.trans (modInput_mode p i _ s q)
  have hmem : (q, j) ∈ (clipOwn p i b s).allInputs := mem_allInputs (by rw [hmode]; exact hused)
  rw [clip_eq]
  exact foldl_establishes (P := fun s : State => ((s.ports[q]'q.isLt).inputs[j]'j.isLt).neighbourTo = some _)
    (fun s e hs => markOther_marked e hs) ⟨(q, j), hmem, fun s => markOther_marks h _ s⟩ _

theorem clipDetected_completes {b : Bool} (hmeasuring : s.measuring = true) (hdriven : (s.ports[p]'p.isLt).driven = true)
    (hused : i.val < (s.ports[p]'p.isLt).mode.inputs) (hconverts : s.converts p i = true) :
    ∃ t, exec (.clipDetected p i b) s = .next t ∧
      ((t.ports[p]'p.isLt).inputs[i]'i.isLt).resetNext = true ∧ t.seq.neighbourTo = some (s.core.lt + 4) ∧
      (∀ o, ((s.ports[p]'p.isLt).inputs[i]'i.isLt).openWin = some o →
        ((t.ports[p]'p.isLt).inputs[i]'i.isLt).openWin = some { o with clip := o.clip.or (some b) }) ∧
      (∀ (q : PortId) (j : Fin 2), ¬ (q = p ∧ j = i) → j.val < (s.ports[q]'q.isLt).mode.inputs →
        ((t.ports[q]'q.isLt).inputs[j]'j.isLt).neighbourTo = some (s.core.lt + 4)) := by
  have hcond : (s.measuring && (s.ports[p]'p.isLt).driven && decide (i.val < (s.ports[p]'p.isLt).mode.inputs) && s.converts p i) = true := by
    rw [hmeasuring, hdriven, decide_eq_true hused, hconverts]
    rfl
  have hself := clip_self p i b s
  refine ⟨clip p i b s, congrArg Host.Outcome.next (if_pos hcond), congrArg Input.resetNext hself, rfl,
    fun o ho => ?_, fun q j hne hj => clip_marks b hne hj⟩
  refine (congrArg Input.openWin hself).trans ?_
  rw [ho]
  rfl

end

/-! ## One-shots and the self-test (R167, R173) -/

theorem urgentConversionDone_due {n : SlotId} {v err : Rat} {u : Urgent} {x : Pend} {s : State}
    (hurgent : s.seq.urgent.find? (·.slot == n) = some u)
    (hpend : s.mbox.pend.find? (fun x => x.slot == n && x.wait == .urgent) = some x)
    (hdue : (u.sample + 21) / 960 ≤ s.core.lt.toNat) : exec (.urgentConversionDone n v err) s = .next (postOk n
      (toLEInt 4 (s.codeOf .weft (urgentEntry x.payload) v err) ++
        toLE 2 (codeOvr (s.codeOf .weft (urgentEntry x.payload) v err) |||
          s.convFlags (urgentEntry x.payload) (u.taken + 1)).toNat ++
        toLE 4 (s.countBack (s.core.lt.toNat - u.sample / 960)).1.toNat ++
        toLE 2 (s.countBack (s.core.lt.toNat - u.sample / 960)).2 ++ toLE 2 (u.sample % 960))
      (drawTone (urgentEntry x.payload) (s.modSeq fun q => { q with
        urgent := q.urgent.filter (·.slot != n)
        served := u.sample :: q.served.filter fun c => decide (s.core.lt.toNat ≤ c / 960 + 1) }))) := by
  change execUrgentConversionDone n v err s = _
  unfold execUrgentConversionDone
  rw [hurgent, hpend]
  exact congrArg Host.Outcome.next (if_pos hdue)

theorem raise_det {n : Source} {s : State} (hn : n.val < 55) (hruns : s.core.reeveRuns = true) :
    ((raise n s).faults.src[n]'n.isLt).det = true := by
  have hopen : ¬ ((decide (55 ≤ n.val) || (firmwareSource n && !s.core.reeveRuns)) = true) := by
    rw [hruns, decide_eq_false (by omega)]
    simp
  unfold raise
  rw [if_neg hopen]
  exact congrArg FSource.det (State.modSource_same ..)

section
variable {c : Conv} {g : Fin 5} {l : List (Fin 3 × Int)} {s : State}

/-- A cycle that is judged (R167). -/
def judgeCycle (c : Conv) (g : Fin 5) (l : List (Fin 3 × Int)) (s : State) : State :=
  s.modSeq fun q => { q with tests := q.tests.set (convIdx c) (q.tests[convIdx c].judge c g l).1 }

theorem execConverterSelfTest_cycle (hplain : s.seq.twill = false) (hrunning : s.seq.running = true)
    (hcycle : s.seq.tests[convIdx c].cycle g = some l) : exec (.converterSelfTest c g) s =
      .next (if (s.seq.tests[convIdx c].judge c g l).2 then raise (if c = .warp then 40 else 41) (judgeCycle c g l s)
        else judgeCycle c g l s) := by
  change execConverterSelfTest c g s = _
  unfold execConverterSelfTest
  rw [hplain, hrunning, hcycle]
  rfl

theorem judgeCycle_tests : (judgeCycle c g l s).seq.tests[convIdx c] = (s.seq.tests[convIdx c].judge c g l).1 :=
  Vector.getElem_set_self ..

theorem judge_failed {t : SwatchTest} {w : Fin 3} {code : Int} (hmem : (w, code) ∈ l) (hbad : swatchBad c g w code = true) :
    (g, w) ∈ (t.judge c g l).1.failed ∧ ((g, w) ∈ t.failed → (t.judge c g l).2 = true) := by
  have hlist : (g, w) ∈ (l.filter fun x => swatchBad c g x.1 x.2).map fun x => (g, x.1) :=
    List.mem_map.mpr ⟨(w, code), List.mem_filter.mpr ⟨hmem, hbad⟩, rfl⟩
  exact ⟨List.mem_append_left _ hlist, fun hbefore =>
    List.any_eq_true.mpr ⟨(g, w), hlist, List.contains_iff_mem.mpr hbefore⟩⟩

theorem judge_good {t : SwatchTest} (hgood : ∀ w code, (w, code) ∈ l → swatchBad c g w code = false) :
    (t.judge c g l).2 = false := by
  have hnone : (l.filter fun x => swatchBad c g x.1 x.2) = [] :=
    List.filter_eq_nil_iff.mpr fun x hx => ne_true_of_eq_false (hgood x.1 x.2 hx)
  unfold SwatchTest.judge
  dsimp only
  rw [hnone]
  rfl

theorem converterSelfTest_completes (hplain : s.seq.twill = false) (hrunning : s.seq.running = true)
    (hruns : s.core.reeveRuns = true) (hcycle : s.seq.tests[convIdx c].cycle g = some l) :
    ∃ t, exec (.converterSelfTest c g) s = .next t ∧
      (∀ w code, (w, code) ∈ l → swatchBad c g w code = true →
        (g, w) ∈ t.seq.tests[convIdx c].failed ∧
        ((g, w) ∈ s.seq.tests[convIdx c].failed →
          (t.faults.src[(if c = .warp then 40 else 41 : Source)]'(Fin.isLt _)).det = true)) ∧
      ((∀ w code, (w, code) ∈ l → swatchBad c g w code = false) → t.faults = s.faults) := by
  have hseq : ∀ b : Bool, (if b then raise (if c = .warp then 40 else 41) (judgeCycle c g l s)
      else judgeCycle c g l s).seq = (judgeCycle c g l s).seq := by
    intro b
    cases b
    · rfl
    · exact raise_seq ..
  have htest := congrArg SwatchTest.failed (judgeCycle_tests (c := c) (g := g) (l := l) (s := s))
  refine ⟨_, execConverterSelfTest_cycle hplain hrunning hcycle, fun w code hmem hbad => ?_, fun hgood => ?_⟩
  · obtain ⟨hfailed, hagain⟩ := judge_failed (t := s.seq.tests[convIdx c]) hmem hbad
    refine ⟨?_, fun hbefore => ?_⟩
    · rw [hseq, htest]
      exact hfailed
    · rw [if_pos (hagain hbefore)]
      refine raise_det ?_ hruns
      cases c
      · decide
      · decide
  · rw [judge_good hgood]
    rfl

end

/-- Settles O16: each event takes what it finds due, and leaves the rest of its window, input or cycle. -/
theorem conversionsAndWindows : Obligations.ConversionsAndWindows := by
  intro s
  refine ⟨fun c e hmeasuring hrunning hplain hentry => conversion_completes hmeasuring hrunning hplain hentry,
    fun p i o code hdone hmeasuring hmeasures hused hcode => ?_,
    fun p i hdue => congrArg Host.Outcome.next (if_pos hdue),
    fun p i b hmeasuring hdriven hused hconverts => clipDetected_completes hmeasuring hdriven hused hconverts,
    fun n v err u x hurgent hpend hdue => ⟨_, urgentConversionDone_due hurgent hpend hdue, rfl, rfl, rfl, rfl, rfl, rfl⟩,
    fun c g l hplain hrunning hruns hcycle => converterSelfTest_completes hplain hrunning hruns hcycle⟩
  have hkept := completeWindow_windowKept (p := p) (i := i) o code s
  simp only [State.windowKept, Prod.mk.injEq] at hkept
  obtain ⟨hnone, hbreach, hunguarded, hstate, hmbox⟩ := hkept
  exact ⟨_, execWindowComplete_done hdone hmeasuring hmeasures hused hcode, hnone, hbreach, hunguarded, hstate, hmbox⟩

end Sys2Proof.Machine
end

section
-- One declaration after another: the whole text is compiled as one file, within a limit on memory.
set_option Elab.async false
/-!
What telling the host changes, and what the ends of RUN, of a port and of a calibration change: one relation each, with
a lemma for every shared operation, so that a later proof reads off what stays.
-/

namespace Sys2Proof.Machine

/-! ## Telling the host: notices and postings -/

/-- Notices and postings touch the rings, the attention causes, the mailbox and the words of the checkers, and no fault
source. -/
structure TellOnly (s t : State) : Prop where
  rest : t = { s with rings := t.rings, bus := t.bus, mbox := t.mbox, faults := t.faults }
  src : t.faults.src = s.faults.src

theorem TellOnly.refl (s : State) : TellOnly s s := ⟨rfl, rfl⟩

theorem TellOnly.trans {a b c : State} (h : TellOnly a b) (k : TellOnly b c) : TellOnly a c :=
  ⟨Eq.trans k.rest (by rw [h.rest]), k.src.trans h.src⟩

theorem TellOnly.foldl {α : Type} {f : State → α → State} (h : ∀ s a, TellOnly s (f s a)) (l : List α) (s : State) :
    TellOnly s (l.foldl f s) := by
  induction l generalizing s with
  | nil => exact .refl s
  | cons a l ih => exact (h s a).trans (ih _)

section
variable {s t : State} (h : TellOnly s t)
include h

theorem TellOnly.core : t.core = s.core := by rw [h.rest]
theorem TellOnly.frame : t.frame = s.frame := by rw [h.rest]
theorem TellOnly.ports : t.ports = s.ports := by rw [h.rest]
theorem TellOnly.heat : t.heat = s.heat := by rw [h.rest]
theorem TellOnly.seq : t.seq = s.seq := by rw [h.rest]
theorem TellOnly.cal : t.cal = s.cal := by rw [h.rest]
theorem TellOnly.therm : t.therm = s.therm := by rw [h.rest]
theorem TellOnly.time : t.time = s.time := by rw [h.rest]
theorem TellOnly.bolt : t.bolt = s.bolt := by rw [h.rest]
theorem TellOnly.box : t.box = s.box := by rw [h.rest]
theorem TellOnly.lock : t.lock = s.lock := by rw [h.rest]
theorem TellOnly.gas : t.gas = s.gas := by rw [h.rest]

end

theorem attn_tells (c : Cause) (s : State) : TellOnly s (attn c s) := ⟨rfl, rfl⟩

theorem modMbox_tells (f : Mbox → Mbox) (s : State) : TellOnly s (s.modMbox f) := ⟨rfl, rfl⟩

theorem modRings_tells (f : Rings → Rings) (s : State) : TellOnly s (s.modRings f) := ⟨rfl, rfl⟩

theorem wordsWritten_src {α : Type} (c : Fin 5) (a : α → Nat) (l : List α) (f : Faults) :
    (l.foldl (fun f x => f.wordWritten c (a x)) f).src = f.src := by
  induction l generalizing f with
  | nil => rfl
  | cons x l ih => rw [List.foldl_cons, ih, Faults.wordWritten_src]

theorem Faults.slotWritten_src (n : SlotId) (k : Nat) (f : Faults) : (f.slotWritten n k).src = f.src :=
  wordsWritten_src ..

theorem pushNotice_tells (code : W16) (k : Nat) (args : W64) (s : State) : TellOnly s (pushNotice code k args s) := by
  have hwords : ((s.faults.wordWritten 3 (2 * s.rings.nwr)).wordWritten 3 (2 * s.rings.nwr + 1)).src = s.faults.src := by
    rw [Faults.wordWritten_src, Faults.wordWritten_src]
  unfold pushNotice
  dsimp only
  split
  · exact ⟨rfl, hwords⟩
  · exact ⟨rfl, hwords⟩

theorem noticeGap_tells (s : State) : TellOnly s (noticeGap s) := by
  unfold noticeGap pushNoticeGap
  split
  · split
    · exact (modRings_tells _ s).trans (pushNotice_tells ..)
    · exact .refl s
  · exact .refl s

theorem emitNotice_tells (code : W16) (k : Kind) (args : W64) (s : State) : TellOnly s (emitNotice code k args s) := by
  cases k
  · unfold emitNotice
    dsimp only
    split
    · exact (noticeGap_tells s).trans (pushNotice_tells ..)
    · exact (noticeGap_tells s).trans (modRings_tells ..)
  · unfold emitNotice
    dsimp only
    split
    · exact (pushNotice_tells ..).trans (attn_tells ..)
    · exact modRings_tells ..
  · unfold emitNotice
    dsimp only
    split
    · exact (pushNotice_tells ..).trans (attn_tells ..)
    · exact modRings_tells ..

theorem notice_tells (code : W16) (k : Kind) (args : W64) (s : State) : TellOnly s (notice code k args s) := by
  unfold notice
  split
  · exact .refl s
  · exact modRings_tells ..
  · exact emitNotice_tells ..

theorem postNow_tells (n : SlotId) (st : Status) (d : Nat) (resp : List Byte) (s : State) :
    TellOnly s (postNow n st d resp s) :=
  ⟨rfl, Faults.slotWritten_src ..⟩

theorem post_tells (n : SlotId) (st : Status) (d : Nat) (resp : List Byte) (s : State) :
    TellOnly s (post n st d resp s) := by
  unfold post
  split
  · exact postNow_tells ..
  · exact modMbox_tells ..

theorem postStatus_tells (n : SlotId) (st : Status) (s : State) : TellOnly s (postStatus n st s) := post_tells ..

theorem completeWhere_tells (p : Pend → Bool) (st : Status) (s : State) : TellOnly s (completeWhere p st s) :=
  .foldl (fun _ _ => postStatus_tells ..) _ s

/-! ## Ends: of RUN, of a port's drive, of a calibration -/

/-- What the ends of RUN, of ports and of calibrations touch: the device state and what goes with it, and no rail, boot
or reset; no fault source; converters and heaters only to stop them. -/
structure StopOnly (s t : State) : Prop where
  rest : t = { s with core := t.core, plan := t.plan, ports := t.ports, heat := t.heat, gauze := t.gauze, seq := t.seq
                      gas := t.gas, levees := t.levees, cal := t.cal, rings := t.rings, bus := t.bus, mbox := t.mbox
                      time := t.time, faults := t.faults }
  core : t.core = { s.core with dev := t.core.dev, doze := t.core.doze, waking := t.core.waking, wake := t.core.wake
                                wdogTicks := t.core.wdogTicks, stopping := t.core.stopping
                                stopToHeld := t.core.stopToHeld, startAuto := t.core.startAuto
                                wakeResume := t.core.wakeResume, hcause := t.core.hcause }
  src : t.faults.src = s.faults.src
  running : t.seq.running = true → s.seq.running = true
  drove : ∀ p : PortId, (t.heat[p]'p.isLt).drove = true → (s.heat[p]'p.isLt).drove = true

theorem StopOnly.refl (s : State) : StopOnly s s := ⟨rfl, rfl, rfl, id, fun _ => id⟩

theorem StopOnly.trans {a b c : State} (h : StopOnly a b) (k : StopOnly b c) : StopOnly a c :=
  ⟨Eq.trans k.rest (by rw [h.rest]), Eq.trans k.core (by rw [h.core]), k.src.trans h.src, h.running ∘ k.running,
    fun p => h.drove p ∘ k.drove p⟩

theorem StopOnly.foldl {α : Type} {f : State → α → State} (h : ∀ s a, StopOnly s (f s a)) (l : List α) (s : State) :
    StopOnly s (l.foldl f s) := by
  induction l generalizing s with
  | nil => exact .refl s
  | cons a l ih => exact (h s a).trans (ih _)

theorem TellOnly.stops {s t : State} (h : TellOnly s t) : StopOnly s t :=
  ⟨by rw [h.rest], by rw [h.core], h.src, by rw [h.seq]; exact id, by rw [h.heat]; exact fun _ => id⟩

theorem modSeq_stops {f : Seq → Seq} {s : State} (h : (f s.seq).running = true → s.seq.running = true) :
    StopOnly s (s.modSeq f) := ⟨rfl, rfl, rfl, h, fun _ => id⟩

theorem modPorts_stops (f : Vector Port 16 → Vector Port 16) (s : State) : StopOnly s (s.modPorts f) :=
  ⟨rfl, rfl, rfl, id, fun _ => id⟩

theorem modPort_stops (p : PortId) (f : Port → Port) (s : State) : StopOnly s (s.modPort p f) :=
  ⟨rfl, rfl, rfl, id, fun _ => id⟩

theorem modGauzeAt_stops (p : PortId) (f : Gauze → Gauze) (s : State) : StopOnly s (s.modGauzeAt p f) :=
  ⟨rfl, rfl, rfl, id, fun _ => id⟩

theorem modCal_stops (f : Cal → Cal) (s : State) : StopOnly s (s.modCal f) := ⟨rfl, rfl, rfl, id, fun _ => id⟩

theorem modGas_stops (f : Gas → Gas) (s : State) : StopOnly s (s.modGas f) := ⟨rfl, rfl, rfl, id, fun _ => id⟩

theorem modTime_stops (f : Time → Time) (s : State) : StopOnly s (s.modTime f) := ⟨rfl, rfl, rfl, id, fun _ => id⟩

theorem modPlan_stops (f : PlanSt → PlanSt) (s : State) : StopOnly s (s.modPlan f) := ⟨rfl, rfl, rfl, id, fun _ => id⟩

theorem modLevees_stops (f : Vector Levee 48 → Vector Levee 48) (s : State) : StopOnly s (s.modLevees f) :=
  ⟨rfl, rfl, rfl, id, fun _ => id⟩

theorem modHeater_stops {p : PortId} {f : Heater → Heater} {s : State}
    (h : (f (s.heat[p]'p.isLt)).drove = true → (s.heat[p]'p.isLt).drove = true) : StopOnly s (s.modHeater p f) := by
  refine ⟨rfl, rfl, rfl, id, fun q => ?_⟩
  by_cases hq : q = p
  · subst hq
    rw [modHeater_same]
    exact h
  · have hne : p.val ≠ q.val := fun e => hq (Fin.ext e.symm)
    have hother : (s.modHeater p f).heat[q]'q.isLt = s.heat[q]'q.isLt := Vector.getElem_set_ne p.isLt q.isLt hne
    rw [hother]
    exact id

theorem stopConverters_stops (s : State) : StopOnly s (stopConverters s) := modSeq_stops nofun

theorem endMeasuring_stops (s : State) : StopOnly s (endMeasuring s) := by
  unfold endMeasuring
  exact ((stopConverters_stops s).trans (modSeq_stops id)).trans (modPlan_stops ..)

theorem holdOver_stops (p : PortId) (s : State) : StopOnly s (holdOver p s) := by
  unfold holdOver
  exact (modPort_stops ..).trans (modGas_stops ..)

theorem dropSession_stops (p : PortId) (s : State) : StopOnly s (dropSession p s) :=
  ((modCal_stops ..).trans (holdOver_stops ..)).trans (completeWhere_tells ..).stops

theorem endSession_stops (p : PortId) (cause : Nat) (s : State) : StopOnly s (endSession p cause s) := by
  unfold endSession
  split
  · split
    · exact dropSession_stops ..
    · exact (dropSession_stops ..).trans (notice_tells ..).stops
  · exact .refl s

theorem endElec_stops (t : CalTarget) (s : State) : StopOnly s (endElec t s) := by
  unfold endElec
  dsimp only
  split
  · cases t
    · exact ((modCal_stops ..).trans (holdOver_stops ..)).trans (completeWhere_tells ..).stops
    · exact (modCal_stops ..).trans (completeWhere_tells ..).stops
    · exact (modCal_stops ..).trans (completeWhere_tells ..).stops
    · exact (modCal_stops ..).trans (completeWhere_tells ..).stops
  · exact modCal_stops ..

theorem elecLeaves_stops (s : State) : StopOnly s (elecLeaves s) := .foldl (fun s t => endElec_stops t s) _ s

theorem calLeaves_stops (s : State) : StopOnly s (calLeaves s) := by
  refine .foldl (fun s p => ?_) _ s
  dsimp only
  split
  · exact (endSession_stops ..).trans (endElec_stops ..)
  · exact endSession_stops ..

theorem portLeaves_stops (p : PortId) (s : State) : StopOnly s (portLeaves p s) := by
  have hsession : StopOnly s (if (s.ports[p]'p.isLt).state = .running then endSession p 2 s else s) := by
    split
    · exact endSession_stops ..
    · exact .refl s
  unfold portLeaves
  extract_lets s1
  have hs1 : StopOnly s s1 := hsession
  clear_value s1
  split
  · exact hs1.trans (endElec_stops ..)
  · exact hs1

theorem dropUrgent_stops (s : State) : StopOnly s (dropUrgent s) :=
  (modSeq_stops id).trans (completeWhere_tells ..).stops

theorem skipOwed_stops (s : State) : StopOnly s (skipOwed s) :=
  (modTime_stops ..).trans (TellOnly.foldl (fun _ _ => notice_tells ..) _ _).stops

theorem leveesLeave_stops (s : State) : StopOnly s (leveesLeave s) :=
  (modLevees_stops ..).trans (notice_tells ..).stops

theorem leaveTwill_stops (s : State) : StopOnly s (leaveTwill s) := modSeq_stops id

theorem modCore_stops {f : Core → Core} {s : State}
    (h : f s.core = { s.core with dev := (f s.core).dev, doze := (f s.core).doze, waking := (f s.core).waking
                                  wake := (f s.core).wake, wdogTicks := (f s.core).wdogTicks
                                  stopping := (f s.core).stopping, stopToHeld := (f s.core).stopToHeld
                                  startAuto := (f s.core).startAuto, wakeResume := (f s.core).wakeResume
                                  hcause := (f s.core).hcause }) : StopOnly s (s.modCore f) :=
  ⟨rfl, h, rfl, id, fun _ => id⟩

theorem setDev_stops (d : Dev) (s : State) : StopOnly s (setDev d s) := by
  unfold setDev
  split
  · exact .refl s
  · exact (modCore_stops rfl).trans (attn_tells ..).stops

theorem setDev_dev (d : Dev) (s : State) : (setDev d s).core.dev = d := by
  unfold setDev
  split
  · next h => exact h
  · rfl

theorem enterDev_stops (d : Dev) (s : State) : StopOnly s (enterDev d s) := by
  unfold enterDev
  dsimp only
  split
  · exact ((setDev_stops ..).trans (leveesLeave_stops _)).trans (leaveTwill_stops _)
  · exact setDev_stops ..

theorem leveesLeave_core (s : State) : (leveesLeave s).core = s.core := notice_core ..

/-- The device state entered is the one named; nothing else of the core changes. -/
theorem enterDev_core (d : Dev) (s : State) : (enterDev d s).core = { s.core with dev := d } := by
  have hset : (setDev d s).core = { s.core with dev := d } := by
    unfold setDev
    split
    · next h => rw [← h]
    · rfl
  unfold enterDev
  dsimp only
  split
  · exact (leveesLeave_core _).trans hset
  · exact hset

theorem finishStop_stops (s : State) : StopOnly s (finishStop s) := by
  have hend : StopOnly s (skipOwed (endMeasuring (calLeaves s))) :=
    ((calLeaves_stops s).trans (endMeasuring_stops _)).trans (skipOwed_stops _)
  have hheld : StopOnly s (if s.core.stopToHeld then dropUrgent (elecLeaves (skipOwed (endMeasuring (calLeaves s))))
      else skipOwed (endMeasuring (calLeaves s))) := by
    split
    · exact (hend.trans (elecLeaves_stops _)).trans (dropUrgent_stops _)
    · exact hend
  unfold finishStop
  dsimp only
  split
  · exact ((hheld.trans (modCore_stops rfl)).trans (enterDev_stops ..)).trans (completeWhere_tells ..).stops
  · exact .refl s

/-- No stop in progress: nothing ends. -/
theorem finishStop_idle {s : State} (h : s.core.stopping = false) : finishStop s = s := by
  unfold finishStop
  rw [h]
  rfl

/-! ## A port's drive -/

theorem closeRun_stops (p : PortId) (s : State) : StopOnly s (closeRun p s) := by
  unfold closeRun gauzeDiscard gauzeDiscardFor
  dsimp only
  split
  · exact modGauzeAt_stops ..
  · split
    · exact .refl s
    · split
      · exact modGauzeAt_stops ..
      · exact modGauzeAt_stops ..

theorem endGauze_stops (p : PortId) (s : State) : StopOnly s (endGauze p s) :=
  ((closeRun_stops p s).trans (modGauzeAt_stops ..)).trans (completeWhere_tells ..).stops

theorem stopProfile_stops (p : PortId) (s : State) : StopOnly s (stopProfile p s) := modHeater_stops nofun

theorem dropPort_stops (p : PortId) (st : PortState) (s : State) : StopOnly s (dropPort p st s) :=
  (((portLeaves_stops p s).trans (stopProfile_stops ..)).trans (endGauze_stops ..)).trans (modPort_stops ..)

theorem forcePort_stops (p : PortId) (st : PortState) (s : State) : StopOnly s (forcePort p st s) :=
  (dropPort_stops p st s).trans (completeWhere_tells ..).stops

theorem forceStopped_stops (p : PortId) (s : State) : StopOnly s (forceStopped p s) := by
  unfold forceStopped
  split
  · exact forcePort_stops ..
  · exact .refl s

theorem eachPort_stops {f : PortId → State → State} (h : ∀ p s, StopOnly s (f p s)) (s : State) :
    StopOnly s (eachPort f s) := .foldl (fun s p => h p s) _ s

theorem haltConverters_stops (s : State) : StopOnly s (haltConverters s) :=
  ((stopConverters_stops s).trans (modSeq_stops id)).trans (completeWhere_tells ..).stops

/-- Stopped converters do not run. -/
theorem haltConverters_running (s : State) : (haltConverters s).seq.running = false := by
  unfold haltConverters
  rw [(completeWhere_tells ..).seq]
  rfl

theorem stopOutputs_stops (s : State) : StopOnly s (stopOutputs s) := by
  have hwake : StopOnly s (if s.core.doze then attn .wake (leaveDoze s) else s) := by
    split
    · exact (modCore_stops rfl).trans (attn_tells ..).stops
    · exact .refl s
  unfold stopOutputs
  extract_lets s1 s2 s3 s4
  have hcal : StopOnly s s2 := by
    unfold s2
    split
    · exact hwake.trans (calLeaves_stops _)
    · exact hwake
  have hports : StopOnly s s3 := ((hcal.trans (elecLeaves_stops _)).trans
    (eachPort_stops (fun p s => forceStopped_stops p s) _)).trans (modPorts_stops ..)
  have hend : StopOnly s s4 := ((hports.trans (endMeasuring_stops _)).trans (dropUrgent_stops _)).trans (skipOwed_stops _)
  clear_value s4
  exact (hend.trans (modCore_stops rfl)).trans (completeWhere_tells ..).stops

end Sys2Proof.Machine
end

section
-- One declaration after another: the whole text is compiled as one file, within a limit on memory.
set_option Elab.async false
/-!
The seam, the rails, the resumption of conversion and SYNC (spec/07, spec/08, R18).
-/

namespace Sys2Proof.Machine

/-! ## The seam (R179 to R181) -/

section
variable {s : State}

theorem execSeamConverged_due (htwill : s.seq.twill = true) (hdue : s.seq.seam.convergedDue = true) :
    exec .seamConverged s = .next (notice 0x0502 .ordinary 0 (s.modSeq fun q =>
      { q with seam := { q.seam with converged := true, convergedDue := false } })) :=
  congrArg Host.Outcome.next (if_pos (by rw [htwill, hdue]; rfl))

theorem execSeamStaleTimeout_due (htwill : s.seq.twill = true) (hdue : s.seq.seam.agedDue = true) :
    exec .seamStaleTimeout s = .next (
      if s.seamStale then s.modSeq fun q => { q with seam := { q.seam with aged := true, agedDue := false } }
      else notice 0x0501 .ordinary 0
        (s.modSeq fun q => { q with seam := { q.seam with aged := true, agedDue := false } })) :=
  congrArg Host.Outcome.next (if_pos (by rw [htwill, hdue]; rfl))

/-- The seam as a training run leaves it that met the spurs (R181). -/
def trainedSeam (s : State) : State :=
  s.modSeq fun q => { q with seam := { q.seam with
    training := none, trained := true, aged := false, sinceUsable := 0, failRun := 0, resetLane := true } }

/-- The seam as one leaves it that did not. -/
def untrainedSeam (s : State) : State :=
  s.modSeq fun q => { q with seam := { q.seam with
    training := none, fails := min 255 (q.seam.fails + 1), failRun := q.seam.failRun + 1 } }

theorem execSeamTrainingEnd_met {a : W64} (htraining : s.seq.seam.training = some a) (hover : 64 ≤ s.since a) :
    exec (.seamTrainingEnd true) s = .next (if s.seamStale && !(trainedSeam s).seamStale then
      notice 0x0502 .ordinary 0 (trainedSeam s) else trainedSeam s) := by
  change execSeamTrainingEnd true s = _
  unfold execSeamTrainingEnd
  rw [htraining]
  dsimp only
  rw [if_pos hover]
  rfl

theorem execSeamTrainingEnd_missed {a : W64} (htraining : s.seq.seam.training = some a) (hover : 64 ≤ s.since a) :
    exec (.seamTrainingEnd false) s = .next (if s.seq.seam.failRun + 1 = 16 then
      raise 42 ((untrainedSeam s).modSeq fun q => { q with seam := { q.seam with failRun := 0 } })
      else untrainedSeam s) := by
  change execSeamTrainingEnd false s = _
  unfold execSeamTrainingEnd
  rw [htraining]
  dsimp only
  rw [if_pos hover]
  rfl

theorem seamTrainingEnd_completes {a : W64} (htraining : s.seq.seam.training = some a) (hover : 64 ≤ s.since a) :
    (∃ t, exec (.seamTrainingEnd true) s = .next t ∧ t.seq.seam.training = none ∧
      t.seq.seam.trained = true ∧ t.seq.seam.converged = s.seq.seam.converged ∧ t.seq.seam.aged = false ∧
      t.seq.seam.resetLane = true ∧ t.seq.seam.fails = s.seq.seam.fails) ∧
    (∃ t, exec (.seamTrainingEnd false) s = .next t ∧ t.seq.seam.training = none ∧
      t.seq.seam.converged = s.seq.seam.converged ∧ t.seq.seam.fails = min 255 (s.seq.seam.fails + 1) ∧
      t.rings = s.rings) := by
  refine ⟨⟨_, execSeamTrainingEnd_met htraining hover, ?_⟩, ⟨_, execSeamTrainingEnd_missed htraining hover, ?_⟩⟩
  · split
    · rw [notice_seq]
      exact ⟨rfl, rfl, rfl, rfl, rfl, rfl⟩
    · exact ⟨rfl, rfl, rfl, rfl, rfl, rfl⟩
  · split
    · rw [raise_seq, raise_rings]
      exact ⟨rfl, rfl, rfl, rfl⟩
    · exact ⟨rfl, rfl, rfl, rfl⟩

end

/-! ## Rails (R18) -/

theorem raise_det_of_hardware {n : Source} {s : State} (hn : n.val < 55) (hfirm : firmwareSource n = false) :
    ((raise n s).faults.src[n]'n.isLt).det = true := by
  have hopen : ¬ ((decide (55 ≤ n.val) || (firmwareSource n && !s.core.reeveRuns)) = true) := by
    rw [hfirm, decide_eq_false (by omega)]
    exact Bool.false_ne_true
  unfold raise
  rw [if_neg hopen]
  exact congrArg FSource.det (State.modSource_same ..)

theorem railStop_vht_drove (p : PortId) (s : State) : ((railStop .vht s).heat[p]'p.isLt).drove = false :=
  congrArg Heater.drove (Vector.getElem_map (xs := s.heat) Heater.cut p.isLt)

theorem railStop_stops (r : Rail) (s : State) : StopOnly s (railStop r s) := by
  cases r
  · exact ((eachPort_stops (fun p s => forceStopped_stops p s) s).trans (elecLeaves_stops _)).trans
      (haltConverters_stops _)
  · exact eachPort_stops (fun p s => forceStopped_stops p s) s
  · refine ⟨rfl, rfl, rfl, id, fun p hdrove => ?_⟩
    rw [railStop_vht_drove] at hdrove
    cases hdrove
  · exact (elecLeaves_stops s).trans (haltConverters_stops _)

theorem railStop_running {r : Rail} (h : r = .vap ∨ r = .ref) (s : State) : (railStop r s).seq.running = false := by
  obtain rfl | rfl := h
  · rw [railStop]
    exact haltConverters_running _
  · rw [railStop]
    exact haltConverters_running _

section
variable {r : Rail} {s : State}

/-- The rail is held before anything stops. -/
def holdRail (r : Rail) (s : State) : State :=
  s.modCore fun c => { c with railHeld := c.railHeld ||| (1 <<< (railIdx r).val) }

theorem departure_eq (r : Rail) (s : State) : departure r s =
    raise (Fin.ofNat 64 (7 + (railIdx r).val)) (finishStop (railStop r (holdRail r s))) := rfl

theorem holdRail_held (r : Rail) (s : State) : (holdRail r s).core.railHeld.getLsbD (railIdx r).val = true := by
  have hbit : ∀ (v : BitVec 4) (i : Fin 4), (v ||| (1 <<< i.val)).getLsbD i.val = true := by decide
  exact hbit s.core.railHeld (railIdx r)

theorem departure_stops (r : Rail) (s : State) :
    StopOnly (holdRail r s) (finishStop (railStop r (holdRail r s))) :=
  (railStop_stops ..).trans (finishStop_stops _)

theorem departure_completes (hbad : 2 ≤ s.core.railBad[railIdx r])
    (hheld : s.core.railHeld.getLsbD (railIdx r).val = false) :
    ∃ t, exec (.railDeparture r) s = .next t ∧ t.core.railHeld.getLsbD (railIdx r).val = true ∧
      (t.faults.src[(Fin.ofNat 64 (7 + (railIdx r).val) : Source)]'(Fin.isLt _)).det = true ∧
      (r = .vap ∨ r = .ref → t.seq.running = false) ∧
      (r = .vht → ∀ p : PortId, (t.heat[p]'p.isLt).drove = false) := by
  have hexec : exec (.railDeparture r) s = .next (departure r s) :=
    congrArg Host.Outcome.next (if_pos ⟨hbad, by rw [hheld]; rfl⟩)
  have hstops := departure_stops r s
  refine ⟨_, hexec, ?_, ?_, fun hr => ?_, fun hr p => ?_⟩
  · rw [departure_eq, raise_core, hstops.core]
    exact holdRail_held r s
  · rw [departure_eq]
    refine raise_det_of_hardware ?_ ?_
    · cases r <;> decide
    · cases r <;> decide
  · rw [departure_eq, raise_seq, ← Bool.not_eq_true]
    intro hrunning
    have hbefore := (finishStop_stops _).running hrunning
    rw [railStop_running hr] at hbefore
    cases hbefore
  · subst hr
    rw [departure_eq, raise_heat, ← Bool.not_eq_true]
    intro hdrove
    have hbefore := (finishStop_stops _).drove p hdrove
    rw [railStop_vht_drove] at hbefore
    cases hbefore

end

/-! ## Conversion resumes (R184) -/

/-- What the starts of the converters set, and what they leave. -/
def State.started (s : State) : Bool × Bool × Bool × W64 × W64 × Vector Lane 64 × Vector Port 16 × W64 :=
  (s.seq.running, s.seq.stopped, s.seq.startAsked, s.seq.warpLt, s.seq.weftLt, s.lanes, s.ports, s.core.lt)

theorem dropOne_started (n : SlotId) (st : Status) (s : State) : (dropOne n st s).started = s.started := by
  unfold State.started dropOne
  rw [postStatus_seq, postStatus_lanes, postStatus_ports, postStatus_core]
  rfl

theorem reassignUrgent_started (s : State) : (reassignUrgent s).started = s.started := by
  unfold reassignUrgent
  exact foldl_apply_eq (g := State.started) (fun s n => dropOne_started n .busy s) _ _

theorem startTests_started (s : State) : (startTests s).started = s.started := by
  unfold startTests
  split
  · rfl
  · rfl

theorem startConverters_started (s : State) : (startConverters s).started =
    (true, false, false, s.core.lt, s.core.lt, s.lanes, s.ports, s.core.lt) := by
  unfold startConverters startWeft
  rw [startTests_started, reassignUrgent_started]
  rfl

theorem referenceResume_completes {s : State} (hdue : s.resumeDue = true) :
    ∃ t, exec .referenceResume s = .next t ∧ t.seq.running = true ∧
      t.seq.stopped = false ∧ t.seq.startAsked = false ∧ t.seq.warpLt = s.core.lt ∧ t.seq.weftLt = s.core.lt ∧
      t.lanes = s.lanes.map (Lane.reset s.core.lt .applied) ∧ t.ports = s.ports := by
  have hstarted := startConverters_started s
  simp only [State.started, Prod.mk.injEq] at hstarted
  obtain ⟨hrunning, hstopped, hasked, hwarp, hweft, hlanes, hports, hlt⟩ := hstarted
  refine ⟨_, congrArg Host.Outcome.next (if_pos hdue), hrunning, hstopped, hasked, hwarp, hweft, ?_, hports⟩
  change (startConverters s).lanes.map (Lane.reset (startConverters s).core.lt .applied) = _
  rw [hlanes, hlt]

/-! ## SYNC (R202, R334) -/

section
variable {s : State}

theorem laneSync_on (hresponse : s.pins.syncResponse = true) (hmeasuring : s.measuring = true) :
    laneSync s = s.modLanes fun v => v.map (Lane.reset s.core.lt .sync) :=
  if_pos (by rw [hresponse, hmeasuring]; rfl)

theorem laneSync_off (h : s.pins.syncResponse = false ∨ s.measuring = false) : laneSync s = s := by
  refine if_neg ?_
  obtain h | h := h
  · simp [h]
  · simp [h]

theorem execWeaveSyncRelease_due {a : W64} (hfrom : s.pins.syncFrom = some a) (hdue : s.since a = 5) :
    exec .weaveSyncRelease s = .next (completeWhere (·.wait == .syncRelease) .ok
      (s.modPins fun x => { x with syncFrom := none })) := by
  change execWeaveSyncRelease s = _
  unfold execWeaveSyncRelease
  rw [hfrom]
  exact congrArg Host.Outcome.next (if_pos hdue)

end

/-- Settles O17: each event does what is due, and the stops a rail brings release nothing they hold. -/
theorem seamRailAndSyncEvents : Obligations.SeamRailAndSyncEvents := by
  intro s
  refine ⟨execSeamConverged_due, fun htwill hdue => ⟨fun hfresh => ?_, fun hstale => ?_⟩,
    fun a htraining hover => seamTrainingEnd_completes htraining hover, fun r hbad hheld => departure_completes hbad hheld,
    referenceResume_completes, fun hresponse hmeasuring => ⟨fun hfree => ?_, fun hheld => ?_, fun htakes => ?_⟩,
    fun hoff => ⟨?_, ?_⟩, fun a hfrom hdue => execWeaveSyncRelease_due hfrom hdue⟩
  · rw [execSeamStaleTimeout_due htwill hdue, if_neg (ne_true_of_eq_false hfresh)]
  · rw [execSeamStaleTimeout_due htwill hdue, if_pos hstale]
  · exact congrArg Host.Outcome.next ((if_neg (ne_true_of_eq_false hfree)).trans (laneSync_on hresponse hmeasuring))
  · exact congrArg Host.Outcome.next (if_pos hheld)
  · exact congrArg Host.Outcome.next ((if_pos htakes).trans (laneSync_on hresponse hmeasuring))
  · change execSyncNFall s = _
    rw [execSyncNFall, laneSync_off hoff, ite_self]
  · change execGeneralCallSync s = _
    rw [execGeneralCallSync, laneSync_off hoff, ite_self]

end Sys2Proof.Machine
end

section
-- One declaration after another: the whole text is compiled as one file, within a limit on memory.
set_option Elab.async false
/-!
Power, reset and BOOT (spec/22): the events of chapter 22 and the entry to LATCHED.
-/

namespace Sys2Proof.Machine

/-! ## Doorbells touch neither the core nor the rings -/

/-- What doorbells touch. -/
def BellOnly (s t : State) : Prop :=
  t = { s with pins := t.pins, ports := t.ports, cal := t.cal, bus := t.bus, mbox := t.mbox, faults := t.faults
               free := t.free }

theorem BellOnly.refl (s : State) : BellOnly s s := rfl

theorem BellOnly.trans {a b c : State} (h : BellOnly a b) (k : BellOnly b c) : BellOnly a c :=
  Eq.trans k (by rw [h])

theorem BellOnly.core {s t : State} (h : BellOnly s t) : t.core = s.core := by rw [h]

theorem BellOnly.rings {s t : State} (h : BellOnly s t) : t.rings = s.rings := by rw [h]

theorem postNow_bell (n : SlotId) (st : Status) (d : Nat) (resp : List Byte) (s : State) :
    BellOnly s (postNow n st d resp s) := rfl

theorem post_bell (n : SlotId) (st : Status) (d : Nat) (resp : List Byte) (s : State) :
    BellOnly s (post n st d resp s) := by
  unfold post
  split
  · exact postNow_bell ..
  · rfl

theorem readWords_bell (c : Fin 5) (a : Nat → Bool) (ue ce : Source) (s : State) :
    BellOnly s (readWords c a ue ce s).2 := by
  unfold readWords
  dsimp only
  split
  · split
    · rfl
    · rfl
  · split
    · rfl
    · rfl

theorem mboxDetect_bell (n : SlotId) (s : State) : BellOnly s (mboxDetect n s) := by
  have hread := readWords_bell 4 (· / 16 == n.val) 48 53 s
  unfold mboxDetect
  dsimp only
  split
  · exact hread.trans rfl
  · exact hread.trans rfl

theorem dispatchSlot_bell (n : SlotId) (s : State) : BellOnly s (dispatchSlot n s) := by
  have hrunning : BellOnly s (s.modSlot n fun x => { x with st := .running }) := rfl
  unfold dispatchSlot
  dsimp only
  split
  · exact hrunning.trans (post_bell ..)
  · split
    · exact hrunning.trans (post_bell ..)
    · exact hrunning

theorem atDoorbell_bell (n : SlotId) (s : State) : BellOnly s (atDoorbell n s) := by
  unfold atDoorbell
  dsimp only
  split
  · rfl
  · split
    · rfl
    · split
      · rfl
      · rfl

theorem doorbell_bell (n : SlotId) (s : State) : BellOnly s (doorbell n s) := by
  unfold doorbell
  dsimp only
  split
  · have hqueued : BellOnly s (mboxDetect n (s.modSlot n fun x =>
        { x with st := .queued, ign := false, rung := s.core.lt, early := false })) :=
      BellOnly.trans (b := s.modSlot n _) rfl (mboxDetect_bell ..)
    split
    · exact hqueued.trans (dispatchSlot_bell ..)
    · exact hqueued.trans (BellOnly.trans (b := State.modMbox _ _) rfl (atDoorbell_bell ..))
  · rfl

theorem dbell_bell (v : Byte) (s : State) : BellOnly s (dbell v s) := by
  have hfold : ∀ (l : List SlotId) (s : State),
      BellOnly s (l.foldl (fun s n => if v.getLsbD n.val then doorbell n s else s) s) := by
    intro l
    induction l with
    | nil => exact fun s => .refl s
    | cons n l ih =>
      intro s
      rw [List.foldl_cons]
      split
      · exact (doorbell_bell n s).trans (ih _)
      · exact ih s
  exact hfold _ s

theorem ring_bell (v : Byte) (s : State) : BellOnly s (ring v s) := by
  unfold ring
  dsimp only
  split
  · rfl
  · exact BellOnly.trans (b := s.modMbox _) rfl (dbell_bell ..)

/-! ## Notices held during BOOT (R303) -/

theorem pushNotice_held (code : W16) (k : Nat) (args : W64) (s : State) :
    (pushNotice code k args s).rings.held = s.rings.held := by rw [pushNotice_rings]

theorem noticeGap_held (s : State) : (noticeGap s).rings.held = s.rings.held := by
  unfold noticeGap pushNoticeGap
  split
  · split
    · exact pushNotice_held ..
    · rfl
  · rfl

theorem emitNotice_held (code : W16) (k : Kind) (args : W64) (s : State) :
    (emitNotice code k args s).rings.held = s.rings.held := by
  cases k
  · unfold emitNotice
    dsimp only
    split
    · exact (pushNotice_held ..).trans (noticeGap_held s)
    · exact noticeGap_held s
  · unfold emitNotice
    dsimp only
    split
    · exact pushNotice_held ..
    · rfl
  · unfold emitNotice
    dsimp only
    split
    · exact pushNotice_held ..
    · rfl

/-- Past BOOT no notice is held. -/
theorem notice_held {code : W16} {k : Kind} {args : W64} {s : State} (h : s.core.dev ≠ .boot) :
    (notice code k args s).rings.held = s.rings.held := by
  unfold notice
  split
  · rfl
  · next hboot => exact absurd hboot h
  · exact emitNotice_held ..

theorem flushHeld_tells (s : State) : TellOnly s (flushHeld s) :=
  (modRings_tells _ s).trans (.foldl (fun _ _ => emitNotice_tells ..) _ _)

theorem flushHeld_held (s : State) : (flushHeld s).rings.held = [] :=
  foldl_apply_eq (g := fun s : State => s.rings.held) (fun _ _ => emitNotice_held ..) _ _

/-! ## Power and resets (R449 to R453) -/

section
variable {s : State}

theorem powerOn_completes (hoff : s.core.dev = .off) (hpin : s.core.rstPin = false) :
    exec .powerOn s = .next (beginBoot s.core.powerCause 0 s) := by
  change execPowerOn s = _
  unfold execPowerOn
  rw [if_neg (not_not.mpr hoff), if_neg (ne_true_of_eq_false hpin)]

theorem powerOn_completes_inReset (hoff : s.core.dev = .off) (hpin : s.core.rstPin = true) :
    exec .powerOn s = .next ((afterReset 0 s).modCore fun c =>
      { c with rstLow := true, powerUp := true, bootCause := c.powerCause }) := by
  change execPowerOn s = _
  unfold execPowerOn
  rw [if_neg (not_not.mpr hoff), if_pos hpin]

/-- What a brownout leaves of the box before the reset it brings (R433). -/
def brownoutBox (vddMv : Nat) (s : State) : State := if s.brownoutRecord then holdUp vddMv s else s

theorem execBrownout_on {v : Nat} (hon : s.core.dev ≠ .off) : exec (.brownout v) s =
    .next ((afterReset 0 (brownoutBox v s)).modCore fun c =>
      { c with dev := .off, powered := false, causeLatch := true, everBooted := false }) :=
  congrArg Host.Outcome.next (if_neg hon)

theorem brownoutBox_core (v : Nat) (s : State) : (brownoutBox v s).core = s.core := by
  unfold brownoutBox holdUp
  split
  · dsimp only
    split
    · rfl
    · rfl
  · rfl

theorem Box.write_number (r : Rec) (b : Box) : (b.write r).number = countUp b.number 1 := rfl

theorem holdUp_number {v : Nat} (h : s.inProgram = false) : (holdUp v s).box.number = countUp s.box.number 1 := by
  unfold holdUp
  rw [if_neg (ne_true_of_eq_false h)]
  rfl

/-- The NUMBER of the record in progress goes to the hold-up's (log 76). -/
theorem holdUp_number_abandoned {v : Nat} {lt : W64} {m : W32} (h : s.inProgram = true)
    (hbegun : s.box.begun = some (lt, m)) : (holdUp v s).box.number = countUp m 1 := by
  have habandon : s.box.abandon = { s.box with recs := s.box.recs.tail, number := m, begun := none } := by
    unfold Box.abandon
    rw [hbegun]
  have hnumber : (s.modBox Box.abandon).box.number = m := congrArg Box.number habandon
  unfold holdUp
  rw [if_pos h, ← hnumber]
  rfl

theorem brownout_completes {v : Nat} (hon : s.core.dev ≠ .off) :
    ∃ t, exec (.brownout v) s = .next t ∧ t.core.dev = .off ∧
      t.core.powered = false ∧ t.core.causeLatch = true ∧ t.rings = {} ∧ t.mbox = {} ∧
      t.core.bootCount = s.core.bootCount ∧ (s.brownoutRecord = false → t.box.recs = s.box.recs) ∧
      (s.brownoutRecord = true → s.inProgram = false → t.box.number = countUp s.box.number 1) ∧
      (∀ lt m, s.brownoutRecord = true → s.inProgram = true → s.box.begun = some (lt, m) →
        t.box.number = countUp m 1) := by
  refine ⟨_, execBrownout_on hon, rfl, rfl, rfl, rfl, rfl, ?_,
    fun h => ?_, fun h hfree => ?_, fun lt m h hbusy hbegun => ?_⟩
  · exact (congrArg Core.bootCount (brownoutBox_core v s) :)
  · change (brownoutBox v s).box.recs = _
    rw [brownoutBox, if_neg (ne_true_of_eq_false h)]
  · change (brownoutBox v s).box.number = _
    rw [brownoutBox, if_pos h, holdUp_number hfree]
  · change (brownoutBox v s).box.number = _
    rw [brownoutBox, if_pos h, holdUp_number_abandoned hbusy hbegun]

theorem execResetNLow_eq (hon : s.core.dev ≠ .off) (hlatched : s.core.dev ≠ .latched) (hlow : s.core.rstLow = false) :
    exec .resetNLow s = .next ((afterReset s.core.lt (s.modCore fun c => { c with rstPin := true })).modCore fun c =>
      { c with rstLow := true }) := by
  refine congrArg Host.Outcome.next (if_neg ?_)
  rintro (h | h | h)
  · exact hon h
  · exact hlatched h
  · exact absurd (hlow.symm.trans h) (by decide)

theorem execResetNRelease_eq (hlow : s.core.rstLow = true) (hpower : s.core.powerUp = false) :
    exec .resetNRelease s = .next (beginBoot 1 s.core.lt (s.modCore fun c => { c with rstPin := false })) := by
  have hcause : (if s.core.powerUp then s.core.bootCause else 1) = 1 := if_neg (ne_true_of_eq_false hpower)
  change execResetNRelease s = _
  unfold execResetNRelease
  rw [hcause]
  exact congrArg Host.Outcome.next (if_pos hlow)

theorem execSysResetBootDelay_due {a : W64} (hposted : s.core.resetPosted = some a) (hdue : s.since a = 64) :
    exec .sysResetBootDelay s = .next (beginBoot 2 s.core.lt s) := by
  change execSysResetBootDelay s = _
  unfold execSysResetBootDelay
  rw [hposted]
  exact congrArg Host.Outcome.next (if_pos hdue)

/-! ## BOOT (R454) -/

theorem bootPast_of (hboot : s.core.dev = .boot) (hlow : s.core.rstLow = false) {k : Nat} (hk : k ≤ s.core.bootTicks) :
    s.bootPast k = true := by
  unfold State.bootPast
  rw [hboot, hlow, decide_eq_true hk]
  rfl

/-- The device state, its cause and the rails, and the notices held. -/
def State.bootView (s : State) : Dev × HeldCause × Bool × List HeldNotice :=
  (s.core.dev, s.core.hcause, s.core.railsUp, s.rings.held)

theorem autostart_bootView (hready : s.core.dev = .ready) : (autostart s).bootView = s.bootView := by
  have hdev : (refEnable s).bootView = s.bootView := by
    unfold refEnable State.modCore State.bootView
    dsimp only
    split
    · rfl
    · rfl
  have hboot : (refEnable s).core.dev ≠ .boot := by
    have h := congrArg Prod.fst hdev
    rw [show (refEnable s).core.dev = s.core.dev from h, hready]
    decide
  unfold autostart
  dsimp only
  split
  · split
    · refine Eq.trans ?_ hdev
      unfold State.bootView
      rw [notice_core, notice_held hboot]
    · exact hdev
  · rfl

theorem setDev_hcause (d : Dev) (s : State) : (setDev d s).core.hcause = s.core.hcause := by
  unfold setDev
  split
  · rfl
  · rfl

theorem setDev_railsUp (d : Dev) (s : State) : (setDev d s).core.railsUp = s.core.railsUp := by
  unfold setDev
  split
  · rfl
  · rfl

theorem ringHeld_bootView (s : State) : (ring 0 (flushHeld s)).bootView =
    (s.core.dev, s.core.hcause, s.core.railsUp, []) := by
  unfold State.bootView
  rw [(ring_bell ..).core, (ring_bell ..).rings, (flushHeld_tells s).core, flushHeld_held]

/-- BOOT ends in READY with a bolt in force, else in HELD. -/
theorem endBoot_bootView (s : State) : ∃ b : Bool, (endBoot s).bootView =
    (if b then .ready else .held, if b then .none else .noBolt, true, []) := by
  unfold endBoot
  extract_lets last r s1 s2 s3 s4
  have hview3 : s3.bootView = (if r.2 then .ready else .held, if r.2 then .none else .noBolt, true, []) := by
    unfold s3
    rw [ringHeld_bootView, setDev_dev, setDev_hcause, setDev_railsUp]
    rfl
  clear_value s3 r
  have hview4 : s4.bootView = (if r.2 then .ready else .held, if r.2 then .none else .noBolt, true, []) := by
    unfold s4
    split
    · exact hview3
    · exact hview3
  clear_value s4
  refine ⟨r.2, ?_⟩
  split
  · next hbolt =>
    have hready : s4.core.dev = .ready := (congrArg Prod.fst hview4).trans (if_pos hbolt)
    rw [autostart_bootView hready, hview4, if_pos hbolt, if_pos hbolt]
  · next hbolt => rw [hview4, if_neg hbolt, if_neg hbolt]

theorem bootEnd_completes (hpast : s.bootPast 64 = true) (hporch : s.core.porchUp = true)
    (hruns : s.core.reeveRuns = true) (hticks : s.core.bootTicks < 960) :
    ∃ t, exec .bootEnd s = .next t ∧ (t.core.dev = .ready ∨ t.core.dev = .held) ∧
      (t.core.dev = .held → t.core.hcause = .noBolt) ∧ t.core.railsUp = true ∧ t.rings.held = [] := by
  have hexec : exec .bootEnd s = .next (endBoot s) :=
    congrArg Host.Outcome.next (if_pos (by rw [hpast, hporch, hruns, decide_eq_true hticks]; rfl))
  obtain ⟨b, hview⟩ := endBoot_bootView s
  simp only [State.bootView, Prod.mk.injEq] at hview
  obtain ⟨hdev, hcause, hrails, hheld⟩ := hview
  refine ⟨_, hexec, ?_, ?_, hrails, hheld⟩
  · rw [hdev]
    cases b
    · exact .inr rfl
    · exact .inl rfl
  · rw [hdev, hcause]
    cases b
    · exact fun _ => rfl
    · exact nofun

end

/-! ## Entry to LATCHED (R405) -/

theorem enterLatched_dev (s : State) : (enterLatched s).core.dev = .latched := by
  unfold enterLatched
  extract_lets boot s1 s2 s3 s4
  clear_value s3
  have hlatched : s4.core.dev = .latched := by
    unfold s4
    rw [enterDev_core]
  clear_value s4
  split
  · rw [(ring_bell ..).core, (flushHeld_tells _).core, hlatched]
  · exact hlatched

/-- A record touches the box and the words of its checker. -/
theorem boxRecord_core_dev (type : Byte) (args : W64) (s : State) : (boxRecord type args s).core = s.core := by
  unfold boxRecord
  dsimp only
  split
  · rfl
  · rfl

theorem graveEvent_dev (f : Source) (s : State) : (graveEvent f s).core.dev = .latched := by
  unfold graveEvent
  extract_lets entry s1 s2 s3
  split
  · exact enterLatched_dev _
  · next hentry =>
    have hs : s.core.dev = .latched := not_not.mp hentry
    have h2 : s2.core.dev = .latched := by
      unfold s2
      split
      · exact absurd ‹entry› hentry
      · exact hs
    exact (congrArg Core.dev (boxRecord_core_dev ..)).trans h2

/-! ## Reactions due to end leave the other sources (R407) -/

theorem endReaction_src_other {n f : Source} (h : f ≠ n) (s : State) :
    (endReaction n s).faults.src[f]'f.isLt = s.faults.src[f]'f.isLt := by
  unfold endReaction
  dsimp only
  rw [(notice_tells ..).src]
  exact State.modSource_other h _ s

theorem endReactionIfDue_src {f n : Source} {s : State} (h : (s.faults.src[f]'f.isLt).reaction = none) :
    (if s.reactionEndDue n then endReaction n s else s).faults.src[f]'f.isLt = s.faults.src[f]'f.isLt := by
  split
  · next hdue =>
    have hne : f ≠ n := by
      rintro rfl
      unfold State.reactionEndDue at hdue
      rw [h] at hdue
      cases hdue
    exact endReaction_src_other hne s
  · rfl

theorem endReactions_src {f : Source} {s : State} (h : (s.faults.src[f]'f.isLt).reaction = none) :
    (endReactions s).faults.src[f] = s.faults.src[f]'f.isLt := by
  unfold endReactions
  generalize List.finRange 64 = l
  induction l generalizing s with
  | nil => rfl
  | cons n l ih =>
    rw [List.foldl_cons, ih (by rw [endReactionIfDue_src h]; exact h), endReactionIfDue_src h]

/-- A GRAVE event that is due latches the device (R405). -/
theorem faultEvent_grave {f : Source} {s : State} (hon : s.core.dev ≠ .off) (hdue : (s.faults.src[f]'f.isLt).eventDue = true)
    (hgrave : ((endReactions s).faults.src[f]).inForce = .grave) : (faultEvent f s).core.dev = .latched := by
  unfold faultEvent
  rw [if_pos ⟨hon, hdue⟩]
  unfold takeEvent
  dsimp only
  rw [if_pos hgrave]
  exact graveEvent_dev ..

theorem raise_src_same {n : Source} {s : State} (hn : n.val < 55) (hfirm : firmwareSource n = false) :
    (raise n s).faults.src[n]'n.isLt = { (s.faults.src[n]'n.isLt) with det := true } := by
  have hopen : ¬ ((decide (55 ≤ n.val) || (firmwareSource n && !s.core.reeveRuns)) = true) := by
    rw [hfirm, decide_eq_false (by omega)]
    exact Bool.false_ne_true
  unfold raise
  rw [if_neg hopen]
  exact State.modSource_same ..

theorem bootTimeout_completes {s : State} (hboot : s.core.dev = .boot) (hlow : s.core.rstLow = false)
    (hticks : s.core.bootTicks = 960) :
    exec .bootTimeout s = .next (faultEvent 54 (raise 54 s)) ∧ ((raise 54 s).faults.src[(54 : Source)]'(Fin.isLt _)).det = true ∧
      ((s.faults.src[(54 : Source)]'(Fin.isLt _)).inForce = .grave → (s.faults.src[(54 : Source)]'(Fin.isLt _)).prevDet = false →
        (s.faults.src[(54 : Source)]'(Fin.isLt _)).taken = false → (s.faults.src[(54 : Source)]'(Fin.isLt _)).reaction = none →
        ∃ t, exec .bootTimeout s = .next t ∧ t.core.dev = .latched) := by
  have hpast := bootPast_of hboot hlow (k := 960) (by omega)
  have hexec : exec .bootTimeout s = .next (faultEvent 54 (raise 54 s)) :=
    congrArg Host.Outcome.next (if_pos (by rw [hpast, hticks]; rfl))
  have hsrc : (raise 54 s).faults.src[(54 : Source)]'(Fin.isLt _) = { (s.faults.src[(54 : Source)]'(Fin.isLt _)) with det := true } :=
    raise_src_same (by decide) (by decide)
  refine ⟨hexec, congrArg FSource.det hsrc, fun hgrave hprev htaken hreaction => ⟨_, hexec, ?_⟩⟩
  refine faultEvent_grave ?_ ?_ ?_
  · rw [raise_core, hboot]
    decide
  · rw [hsrc, FSource.eventDue]
    dsimp only
    rw [hprev, htaken]
    simp
  · rw [endReactions_src (by rw [hsrc]; exact hreaction), hsrc]
    exact hgrave

/-- Settles O18: each event of chapter 22 does its own reset, begins its BOOT or ends it. -/
theorem powerAndReset : Obligations.PowerAndReset := by
  intro s
  refine ⟨fun hoff hpin => ⟨_, powerOn_completes hoff hpin, rfl, rfl, rfl, rfl, rfl, rfl, rfl, rfl, rfl, rfl, rfl, rfl⟩,
    fun hoff hpin => ⟨_, powerOn_completes_inReset hoff hpin, rfl, rfl, rfl⟩, fun v hon => brownout_completes hon,
    fun hoff => congrArg Host.Outcome.next (if_pos hoff),
    fun hon hlatched hlow => ⟨_, execResetNLow_eq hon hlatched hlow, rfl, rfl, rfl, rfl, rfl, rfl, rfl, rfl⟩,
    fun hlow hpower => ⟨_, execResetNRelease_eq hlow hpower, rfl, rfl, rfl, rfl, rfl⟩,
    fun a hposted hdue => ⟨_, execSysResetBootDelay_due hposted hdue, rfl, rfl, rfl, rfl, rfl⟩,
    fun hboot hlow hpast => ⟨fun hporch => ?_, fun hporch hruns hticks =>
      bootEnd_completes (bootPast_of hboot hlow hpast) hporch hruns hticks⟩,
    bootTimeout_completes⟩
  exact congrArg Host.Outcome.next (if_pos (by rw [bootPast_of hboot hlow hpast, hporch]; rfl))

end Sys2Proof.Machine
end

section
-- One declaration after another: the whole text is compiled as one file, within a limit on memory.
set_option Elab.async false
/-!
The frame scheduler's events and the FRAME, LEVEE and LEDGER families (spec/02, spec/10, spec/12).
-/

namespace Sys2Proof.Machine

/-! ## Events of the frame scheduler (R30 to R32, R47, R49, R60) -/

section
variable {s : State}

theorem execFsyncEdge_slip (hedge : s.frame.edge = true) {d : Int} (hslip : s.frame.slip = some d) :
    exec .fsyncEdge s = .next (notice 0x1202 .ordinary (argB 0 (d % 256).toNat) (s.modFrame fun f =>
      { f with edge := false, slip := none, edgeIgnored := false, slips := countUp f.slips 1
               ignored := if f.edgeIgnored then countUp f.ignored 1 else f.ignored })) := by
  change execFsyncEdge s = _
  unfold execFsyncEdge State.modFrame
  rw [if_pos hedge]
  dsimp only
  rw [hslip]
  rfl

theorem execFsyncEdge_expected (hedge : s.frame.edge = true) (hslip : s.frame.slip = none) :
    exec .fsyncEdge s = .next (s.modFrame fun f =>
      { f with edge := false, edgeIgnored := false
               ignored := if f.edgeIgnored then countUp f.ignored 1 else f.ignored }) := by
  change execFsyncEdge s = _
  unfold execFsyncEdge State.modFrame
  rw [if_pos hedge]
  dsimp only
  rw [hslip]
  rfl

theorem pairedHours_due {m : Option Nat} (h : ∀ a, m = some a → 6000 ≤ a) :
    (m.map fun a => decide (6000 ≤ a)).getD true = true := by
  cases m with
  | none => rfl
  | some a => exact decide_eq_true (h a rfl)

theorem sampleQuiet_iff (p : Pins) :
    p.sampleQuiet.1 = true ↔ p.quietAtSample = true ∧ p.quiet = true ∧ p.quietCaught = false := by
  simp [Pins.sampleQuiet, and_assoc]

end

/-- Settles O44: each event of FSYNC is due or not. -/
theorem fsyncEvents : Obligations.FsyncEvents := by
  intro s
  refine ⟨fun hedge => ⟨fun d hslip => execFsyncEdge_slip hedge hslip, execFsyncEdge_expected hedge⟩,
    fun hedge => congrArg Host.Outcome.next (if_neg (ne_true_of_eq_false hedge)), rfl,
    fun hsrc hmissed => congrArg Host.Outcome.next (if_pos ⟨hsrc, hmissed⟩),
    fun hnot => congrArg Host.Outcome.next (if_neg ?_), rfl, rfl⟩
  rintro ⟨hsrc, hmissed⟩
  exact hnot.elim (fun h => h hsrc) (fun h => by omega)

/-- Settles O45: what the pin's sampling and the two counts of frames decide. -/
theorem quietAndUnguardedNotices : Obligations.QuietAndUnguardedNotices := by
  intro s
  refine ⟨fun high pulse => rfl, sampleQuiet_iff _, fun hrun hsince =>
      congrArg Host.Outcome.next (if_pos ⟨hrun, pairedHours_due hsince⟩),
    fun hnot => congrArg Host.Outcome.next (if_neg ?_), fun hmask hframes =>
      congrArg Host.Outcome.next (if_pos ⟨hmask, hframes⟩), fun hnot => congrArg Host.Outcome.next (if_neg ?_)⟩
  · rintro ⟨hrun, hsince⟩
    obtain hlow | ⟨a, ha, hrecent⟩ := hnot
    · omega
    · rw [ha] at hsince
      exact absurd (of_decide_eq_true hsince) (by omega)
  · rintro ⟨hmask, hframes⟩
    exact hnot.elim hmask (fun h => by omega)

/-! ## Bytes of requests and answers -/

theorem u8_eq_zero_of_firstNonZero {l : List Byte} {i n : Nat} (h : firstNonZero l i n = none) :
    ∀ k < n, u8 l (i + k) = 0 := by
  intro k hk
  unfold firstNonZero at h
  rw [Option.map_eq_none_iff, List.findIdx?_eq_none_iff] at h
  unfold u8
  rw [List.getD_eq_getElem?_getD]
  by_cases hlen : i + k < l.length
  · have hmem : l[i + k] ∈ slice l i n := by
      have hin : k < (slice l i n).length := by
        simp only [slice, List.length_take, List.length_drop]
        omega
      refine List.mem_of_getElem (h := hin) ?_
      simp [slice]
    have hzero : l[i + k] = 0 := by simpa using h _ hmem
    rw [List.getElem?_eq_getElem hlen, Option.getD_some, hzero]
    rfl
  · rw [List.getElem?_eq_none (by omega)]
    rfl

/-- The k-th of equally long pieces. -/
theorem slice_flatMap {α : Type} {f : α → List Byte} {w : Nat} (hf : ∀ a, (f a).length = w) (l : List α) {k : Nat}
    (hk : k < l.length) : slice (l.flatMap f) (w * k) w = f l[k] := by
  induction l generalizing k with
  | nil => exact absurd hk (by simp)
  | cons a l ih =>
    rw [List.flatMap_cons]
    cases k with
    | zero =>
      unfold slice
      rw [Nat.mul_zero, List.drop_zero, List.take_left' (hf a)]
      rfl
    | succ k =>
      have hdrop : w * (k + 1) = (f a).length + w * k := by rw [hf a, Nat.mul_succ, Nat.add_comm]
      rw [show slice (f a ++ l.flatMap f) (w * (k + 1)) w = slice (l.flatMap f) (w * k) w by
        unfold slice
        rw [hdrop, ← List.drop_drop, List.drop_left]]
      exact ih (Nat.lt_of_succ_lt_succ hk)

theorem length_flatMap_uniform {α : Type} {f : α → List Byte} {w : Nat} (hf : ∀ a, (f a).length = w) (l : List α) :
    (l.flatMap f).length = w * l.length := by
  rw [List.length_flatMap, List.map_congr_left (fun a _ => hf a), List.map_const', List.sum_replicate]
  exact Nat.mul_comm ..

/-- The snapshot form of the answer to the first request of a read object (R350). -/
theorem readObject_snapshot {c : ReadCmd} {n : SlotId} {p : List Byte} {s : State} (hsel : c.selOk (u16 p 0) = true)
    (hoff : u16 p 2 = 0) (hflags : u8 p 4 ≤ 1) (hzero : firstNonZero p 5 3 = none)
    (hsome : c.object (u16 p 0) s ≠ []) :
    readObject c n p s = postOk n (Snapshot.response 0
        { op := c.op, sel := u16 p 0, frame := s.frame.number, data := c.object (u16 p 0) s })
      (if u8 p 4 = 1 then c.clear (u16 p 0) (takeSnap c.op (u16 p 0) (c.object (u16 p 0) s) s)
        else takeSnap c.op (u16 p 0) (c.object (u16 p 0) s) s) :=
  readObject_first hsel hoff hflags (u8_eq_zero_of_firstNonZero hzero) hsome

/-! ## The FRAME family (R359) -/

section
variable {s : State} {n : SlotId} {p : List Byte}

theorem execFramePattern_last {o : List Byte} {k : Nat} (hk : k < 4) (h : s.lastChunk n 0x1201 k o)
    (hlen : o.length = 160) :
    exec (.framePattern n) s = .next (framePatternDone n k o (dropStaging 0x1201 k s)) :=
  congrArg Host.Outcome.next (onSlot_lastChunk (c := framePatternCmd) h rfl rfl rfl (decide_eq_true hk)
    (by rw [hlen]; rfl) rfl rfl)

theorem applyPattern_inactive {o : List Byte} {k : Nat} (hk : k < 4) (hidle : k ≠ s.frame.active.val) :
    applyPattern (BitVec.ofNat 8 k :: o) s = s.modFrame fun f =>
      { f with patterns := f.patterns.set (k % 4) (parsePattern o) (Nat.mod_lt _ (by decide)) } := by
  have hbyte : u8 (BitVec.ofNat 8 k :: o) 0 = k := (BitVec.toNat_ofNat ..).trans (Nat.mod_eq_of_lt (by omega))
  have hother : ¬ (Fin.ofNat 4 k : Fin 4) = s.frame.active := fun h =>
    hidle ((Nat.mod_eq_of_lt hk).symm.trans (congrArg Fin.val h))
  generalize BitVec.ofNat 8 k = b at hbyte
  subst hbyte
  unfold applyPattern State.modFrame
  exact congrArg (fun f : Frame => { s with frame := f }) (if_neg hother)

theorem framePattern_completes {o : List Byte} {k : Nat} (hk : k < 4) (h : s.lastChunk n 0x1201 k o)
    (hlen : o.length = 160) :
    (k ≠ s.frame.active.val → exec (.framePattern n) s = .next (postStatus n .ok
      ((dropStaging 0x1201 k s).modFrame fun f =>
        { f with patterns := f.patterns.set (k % 4) (parsePattern o) (Nat.mod_lt _ (by decide)) }))) ∧
    (k = s.frame.active.val → exec (.framePattern n) s =
      .next (pendBoundary n 0x1201 (BitVec.ofNat 8 k :: o) (s.planBoundaries n) (dropStaging 0x1201 k s))) := by
  rw [execFramePattern_last hk h hlen]
  refine ⟨fun hidle => ?_, fun hactive => congrArg Host.Outcome.next (if_pos hactive)⟩
  rw [← applyPattern_inactive (s := dropStaging 0x1201 k s) hk hidle]
  exact congrArg Host.Outcome.next (if_neg hidle)

theorem frameSelect_completes (h : s.request n 0x1202 p) (hvalid : frameSelectFault p s = none) :
    (u8 p 1 = 0 → exec (.frameSelect n) s = .next (pendBoundary n 0x1202 p (s.planBoundaries n) s)) ∧
    (u8 p 1 = 1 → exec (.frameSelect n) s = .next (pendOn n 0x1202 p (.frame (BitVec.ofNat 32 (u32 p 4)))
      (BitVec.ofNat 32 (u32 p 4)) s)) := by
  have hexec : exec (.frameSelect n) s = .next (
      if u8 p 1 = 1 then pendOn n 0x1202 p (.frame (BitVec.ofNat 32 (u32 p 4))) (BitVec.ofNat 32 (u32 p 4)) s
      else pendBoundary n 0x1202 p (s.planBoundaries n) s) := by
    change execFrameSelect n s = _
    unfold execFrameSelect
    rw [onSlot_request h, hvalid]
  rw [hexec]
  exact ⟨fun hnext => congrArg Host.Outcome.next (if_neg (by omega)), fun hframe => congrArg Host.Outcome.next (if_pos hframe)⟩

theorem framePolder_completes (h : s.request n 0x1203 p) (hvalid : framePolderFault p = none) :
    (s.core.dev ≠ .run → exec (.framePolder n) s = .next (postStatus n .ok (s.modFrame fun f =>
      { f with lead := u8 p 0, trail := u8 p 1, guarded := u8 p 2 }))) ∧
    (s.core.dev = .run → exec (.framePolder n) s = .next (pendBoundary n 0x1203 p (s.planBoundaries n) s)) := by
  have hexec : exec (.framePolder n) s = .next (
      if s.core.dev = .run then pendBoundary n 0x1203 p (s.planBoundaries n) s
      else postStatus n .ok (applyPolder p s)) := by
    change execFramePolder n s = _
    unfold execFramePolder
    rw [onSlot_request h, orRefuse_none hvalid]
  rw [hexec]
  exact ⟨fun hrun => congrArg Host.Outcome.next (if_neg hrun), fun hrun => congrArg Host.Outcome.next (if_pos hrun)⟩

theorem windowsObject_ne_nil (s : State) (k : PortId) : s.windowsObject k ≠ [] := by
  unfold State.windowsObject
  split
  · exact List.cons_ne_nil _ _
  · exact List.cons_ne_nil _ _

/-- FRAME.WINDOWS clears nothing, whatever CLEAR says. -/
theorem frameWindows_completes (h : s.request n 0x1204 p) (hsel : u16 p 0 < 16) (hoff : u16 p 2 = 0)
    (hflags : u8 p 4 ≤ 1) (hzero : firstNonZero p 5 3 = none) :
    ∃ t, exec (.frameWindows n) s = .next (postOk n (Snapshot.response 0
        { op := 0x1204, sel := u16 p 0, frame := s.frame.number, data := s.windowsObject (portNo (u16 p 0)) }) t) ∧
      t = takeSnap 0x1204 (u16 p 0) (s.windowsObject (portNo (u16 p 0))) s := by
  refine ⟨_, ?_, rfl⟩
  change execFrameWindows n s = _
  unfold execFrameWindows
  rw [onSlot_request h, readObject_snapshot (c := frameWindowsCmd) (decide_eq_true hsel) hoff hflags hzero
    (windowsObject_ne_nil s _)]
  exact congrArg (fun t => Host.Outcome.next (postOk n _ t)) (ite_self _)

theorem clearFrameStatus_port (s : State) (k : PortId) :
    (clearFrameStatus s).ports[k]'k.isLt = { (s.ports[k]'k.isLt) with breach := 0, unguardedCount := 0 } :=
  Vector.getElem_map ..

theorem execFrameStatus_first (h : s.request n 0x1205 p) (hsel : u16 p 0 = 0) (hoff : u16 p 2 = 0)
    (hflags : u8 p 4 ≤ 1) (hzero : firstNonZero p 5 3 = none) :
    exec (.frameStatus n) s = .next (postOk n (Snapshot.response 0
        { op := 0x1205, sel := 0, frame := s.frame.number, data := s.frameStatus })
      (if u8 p 4 = 1 then clearFrameStatus (takeSnap 0x1205 0 s.frameStatus s) else takeSnap 0x1205 0 s.frameStatus s)) := by
  change execFrameStatus n s = _
  unfold execFrameStatus
  rw [onSlot_request h, readObject_snapshot (c := frameStatusCmd) (beq_iff_eq.mpr hsel) hoff hflags hzero
    (List.cons_ne_nil _ _), hsel]
  rfl

end

/-- Settles O46: each FRAME command by the branch its fields and the device state take. -/
theorem frameCommands : Obligations.FrameCommands := by
  intro s n p
  refine ⟨fun o k hk h hlen => framePattern_completes hk h hlen, frameSelect_completes, framePolder_completes,
    frameWindows_completes, fun h hsel hoff hzero => ⟨fun hkeep => ?_, fun hclear => ?_⟩⟩
  · rw [execFrameStatus_first h hsel hoff (by omega) hzero, if_neg (by omega)]
  · rw [execFrameStatus_first h hsel hoff (by omega) hzero, if_pos hclear]
    refine ⟨_, rfl, rfl, rfl, rfl, rfl, rfl, fun k => ?_, rfl, rfl⟩
    rw [clearFrameStatus_port]
    exact ⟨rfl, rfl⟩

/-! ## The LEVEE family (R230, R237, R357) -/

section
variable {s : State} {n : SlotId} {p : List Byte}

theorem leveeNotice_levees (k : Fin 48) (x : Levee) (ev : Nat) (above : Bool) (v : Int) (fl : W16) (s : State) :
    (leveeNotice k x ev above v fl s).levees = s.levees := by
  unfold leveeNotice
  split
  · rfl
  · exact notice_levees ..

theorem applyLevee_levees (k : Fin 48) (r : List Byte) (s : State) :
    (applyLevee k r s).levees = s.levees.set k { (s.levees[k]'k.isLt).cleared with rec_ := r } := by
  unfold applyLevee
  dsimp only
  split
  · exact leveeNotice_levees ..
  · rfl

theorem applyLevee_rings {k : Fin 48} {r : List Byte} (hin : (s.levees[k]'k.isLt).out = false) :
    (applyLevee k r s).rings = s.rings := by
  unfold applyLevee
  dsimp only
  rw [if_neg (ne_true_of_eq_false hin)]
  rfl

theorem execLeveeSet_valid (h : s.request n 0x0801 p) (hvalid : leveeSetFault p = none) :
    exec (.leveeSet n) s = .next (if s.core.dev = .run then pendBoundary n 0x0801 p 1 s
      else postStatus n .ok (applyLeveeSet p s)) := by
  change execLeveeSet n s = _
  unfold execLeveeSet
  rw [onSlot_request h, orRefuse_none hvalid]

theorem leveeSet_completes (h : s.request n 0x0801 p) (hvalid : leveeSetFault p = none) :
    (s.core.dev ≠ .run → ∃ t, exec (.leveeSet n) s = .next (postStatus n .ok t) ∧
      (∃ x, t.levees = s.levees.set (u8 p 0 % 48) x ∧ x.rec_ = slice p 4 20 ∧ x.out = false ∧ x.outCount = 0 ∧
        x.inCount = 0 ∧ x.latched = false ∧ x.evOut = false ∧ x.decided = []) ∧
      (s.levees[u8 p 0 % 48].out = false → t.rings = s.rings)) ∧
    (s.core.dev = .run → exec (.leveeSet n) s = .next (pendBoundary n 0x0801 p 1 s)) := by
  rw [execLeveeSet_valid h hvalid]
  refine ⟨fun hrun => ⟨_, congrArg Host.Outcome.next (if_neg hrun), ⟨_, applyLevee_levees .., rfl, rfl, rfl, rfl, rfl,
    rfl, rfl⟩, fun hin => applyLevee_rings (k := leveeNo (u8 p 0)) hin⟩, fun hrun => congrArg Host.Outcome.next (if_pos hrun)⟩

theorem ofFn_fin {α : Type} {m : Nat} (f : Fin m → α) (k : Fin m) : (Vector.ofFn f)[k]'k.isLt = f k := Vector.getElem_ofFn ..

/-- LEVEE.ACK on the comparators of its mask. -/
def leveesAcked (mask : Nat) (v : Vector Levee 48) : Vector Levee 48 := Vector.ofFn fun k =>
  if mask.testBit k.val then { (v[k]'k.isLt) with latched := false } else v[k]'k.isLt

theorem leveesAcked_get (mask : Nat) (v : Vector Levee 48) (k : Fin 48) : (leveesAcked mask v)[k]'k.isLt =
    if mask.testBit k.val then { (v[k]'k.isLt) with latched := false } else v[k]'k.isLt := ofFn_fin _ k

theorem execLeveeAck_valid (h : s.request n 0x0802 p) (hzero : firstNonZero p 6 2 = none) :
    exec (.leveeAck n) s = .next (postStatus n .ok (s.modLevees (leveesAcked (u48 p 0)))) := by
  change execLeveeAck n s = _
  unfold execLeveeAck leveesAcked
  rw [onSlot_request h, hzero]

theorem leveeAck_completes (h : s.request n 0x0802 p) (hzero : firstNonZero p 6 2 = none) :
    ∃ t, exec (.leveeAck n) s = .next (postStatus n .ok t) ∧
      (∀ k : Fin 48, t.levees[k]'k.isLt = if (u48 p 0).testBit k.val then { (s.levees[k]'k.isLt) with latched := false } else s.levees[k]'k.isLt) ∧
      t.rings = s.rings ∧ t.bus = s.bus := by
  exact ⟨_, execLeveeAck_valid h hzero, leveesAcked_get _ _, State.modLevees_rings .., State.modLevees_bus ..⟩

theorem Levee.status_length (x : Levee) : x.status.length = 8 := by
  unfold Levee.status toLEInt
  rw [List.length_append, toLE_length]
  rfl

theorem leveeStatus_completes (h : s.request n 0x0803 p) (hvalid : leveeStatusFault p = none) :
    ∃ resp : List Byte, exec (.leveeStatus n) s = .next (postOk n resp s) ∧ resp.length = 8 * u8 p 1 ∧
      ∀ k < u8 p 1, slice resp (8 * k) 8 = (s.levees[leveeNo (u8 p 0 + k)]).status := by
  have hexec : exec (.leveeStatus n) s = .next (postOk n
      ((List.range (u8 p 1)).flatMap fun k => (s.levees[leveeNo (u8 p 0 + k)]).status) s) := by
    change execLeveeStatus n s = _
    unfold execLeveeStatus
    rw [onSlot_request h, orRefuse_none hvalid]
  have hwide : ∀ k : Nat, ((s.levees[leveeNo (u8 p 0 + k)]).status).length = 8 := fun k => Levee.status_length _
  refine ⟨_, hexec, (length_flatMap_uniform hwide _).trans (by rw [List.length_range]), fun k hk => ?_⟩
  rw [slice_flatMap hwide _ (by rwa [List.length_range]), List.getElem_range]

end

/-- Settles O49: each LEVEE command by the branch its fields and the device state take. -/
theorem leveeCommands : Obligations.LeveeCommands := fun _ _ _ =>
  ⟨leveeSet_completes, leveeAck_completes, leveeStatus_completes⟩

/-! ## The LEDGER family (R266, R271, R368) -/

section
variable {s : State} {n : SlotId} {p : List Byte}

theorem grantCommand_fresh (op : W16) (hearly : (s.mbox.slots[n]'n.isLt).early = false) : grantCommand op n p s =
    orRefuse n (s.grantRefusal op p) (fun s =>
      if s.core.dev = .run then pendGrant n op p s else postStatus n .ok (applyGrantOp op p s)) s :=
  if_neg (ne_true_of_eq_false hearly)

theorem grantCommand_early (op : W16) (hearly : (s.mbox.slots[n]'n.isLt).early = true) : grantCommand op n p s =
    if s.plan.frozenAt.isSome then pendOn n op p (.effectAt (s.frameIn 1)) (s.frameIn 1) s else postStatus n .ok s :=
  if_pos hearly

theorem execLedgerGrant_fresh (h : s.request n 0x0A01 p) (hearly : (s.mbox.slots[n]'n.isLt).early = false)
    (hvalid : grantFault p = none) :
    exec (.ledgerGrant n) s = .next (if s.shortOf (u16 p 0) (u16 p 2) (u16 p 4) then postStatus n .ledgerShort s
      else if s.core.dev = .run then pendGrant n 0x0A01 p s else postStatus n .ok (applyGrant p s)) := by
  change execLedgerGrant n s = _
  unfold execLedgerGrant
  rw [onSlot_request h, grantCommand_fresh _ hearly]
  unfold State.grantRefusal
  rw [if_pos rfl, hvalid]
  dsimp only
  split
  · rfl
  · rfl

theorem execLedgerRank_fresh (h : s.request n 0x0A02 p) (hearly : (s.mbox.slots[n]'n.isLt).early = false)
    (hport : u8 p 0 < 16) (hrank : u8 p 1 < 4) :
    exec (.ledgerRank n) s = .next (if s.core.dev = .run then pendGrant n 0x0A02 p s
      else postStatus n .ok (applyRank p s)) := by
  have hvalid : s.grantRefusal 0x0A02 p = none := by
    unfold State.grantRefusal portFault
    rw [if_neg (by decide), if_neg (by omega), if_neg (by omega)]
    rfl
  change execLedgerRank n s = _
  unfold execLedgerRank
  rw [onSlot_request h, grantCommand_fresh _ hearly, hvalid]
  rfl

theorem applyRank_port (hport : u8 p 0 < 16) (k : PortId) : (applyRank p s).ports[k]'k.isLt =
    if k.val = u8 p 0 then { (s.ports[k]'k.isLt) with rank := Fin.ofNat 4 (u8 p 1) } else s.ports[k]'k.isLt := by
  by_cases hk : k.val = u8 p 0
  · obtain rfl : portNo (u8 p 0) = k := portNo_of_field hk.symm
    rw [if_pos hk]
    exact State.modPort_same ..
  · rw [if_neg hk]
    refine State.modPort_other (fun h => hk ?_) _ s
    rw [h]
    exact Nat.mod_eq_of_lt hport

/-- The object of LEDGER.STATUS begins with the energy last booked. -/
theorem Ledger.status_ne_nil (l : Ledger) : l.status ≠ [] := by
  unfold Ledger.status energyWord
  exact List.cons_ne_nil _ _

theorem execLedgerStatus_first (h : s.request n 0x0A03 p) (hsel : u16 p 0 = 0) (hoff : u16 p 2 = 0)
    (hflags : u8 p 4 ≤ 1) (hzero : firstNonZero p 5 3 = none) :
    exec (.ledgerStatus n) s = .next (postOk n (Snapshot.response 0
        { op := 0x0A03, sel := 0, frame := s.frame.number, data := s.ledger.status })
      (if u8 p 4 = 1 then (takeSnap 0x0A03 0 s.ledger.status s).modLedger Ledger.clear
        else takeSnap 0x0A03 0 s.ledger.status s)) := by
  change execLedgerStatus n s = _
  unfold execLedgerStatus
  rw [onSlot_request h, readObject_snapshot (c := ledgerStatusCmd) (beq_iff_eq.mpr hsel) hoff hflags hzero
    (Ledger.status_ne_nil _), hsel]
  rfl

theorem Ledger.clear_port (l : Ledger) (k : PortId) :
    l.clear.ports[k]'k.isLt = { deferAge := (l.ports[k]'k.isLt).deferAge, noticeAge := (l.ports[k]'k.isLt).noticeAge } :=
  Vector.getElem_map ..

theorem ledgerStatus_completes (h : s.request n 0x0A03 p) (hsel : u16 p 0 = 0) (hoff : u16 p 2 = 0)
    (hflags : u8 p 4 < 2) (hzero : firstNonZero p 5 3 = none) :
    ∃ t, exec (.ledgerStatus n) s = .next (postOk n (Snapshot.response 0
        { op := 0x0A03, sel := 0, frame := s.frame.number, data := s.ledger.status }) t) ∧
      (u8 p 4 = 0 → t.ledger = s.ledger) ∧
      (u8 p 4 = 1 → t.ledger.peak = 0 ∧ t.ledger.reserve = 0 ∧ t.ledger.overrun = 0 ∧ t.ledger.overload = 0 ∧
        (∀ k : PortId, (t.ledger.ports[k]'k.isLt).winThermal = 0 ∧ (t.ledger.ports[k]'k.isLt).winLedger = 0 ∧
          (t.ledger.ports[k]'k.isLt).heatThermal = 0 ∧ (t.ledger.ports[k]'k.isLt).heatHeadroom = 0 ∧
          (t.ledger.ports[k]'k.isLt).heatLedger = 0 ∧ (t.ledger.ports[k]'k.isLt).gauze = 0) ∧
        t.ledger.total = s.ledger.total ∧ t.ledger.debt = s.ledger.debt) ∧
      t.core = s.core ∧ t.rings = s.rings ∧ t.ports = s.ports := by
  have hexec := execLedgerStatus_first h hsel hoff (by omega) hzero
  by_cases hclear : u8 p 4 = 1
  · rw [if_pos hclear] at hexec
    refine ⟨_, hexec, fun h0 => by omega, fun _ => ⟨rfl, rfl, rfl, rfl, fun k => ?_, rfl, rfl⟩, rfl, rfl, rfl⟩
    rw [show ((takeSnap 0x0A03 0 s.ledger.status s).modLedger Ledger.clear).ledger.ports[k]'k.isLt = _ from
      Ledger.clear_port s.ledger k]
    exact ⟨rfl, rfl, rfl, rfl, rfl, rfl⟩
  · rw [if_neg hclear] at hexec
    exact ⟨_, hexec, fun _ => rfl, fun h1 => absurd h1 hclear, rfl, rfl, rfl⟩

end

/-- Settles O50: a grant or a rank by its refusal, the device state and the freeze; the status by CLEAR. -/
theorem ledgerCommands : Obligations.LedgerCommands := by
  intro s n p
  refine ⟨fun h hearly hvalid => ⟨fun hrun => ?_, fun hrun => ?_⟩,
    fun h hearly hport hrank => ⟨fun hrun => ?_, fun hrun => ?_⟩, fun op c hc h hearly => ?_, ledgerStatus_completes⟩
  · rw [execLedgerGrant_fresh h hearly hvalid, if_neg hrun]
    rfl
  · rw [execLedgerGrant_fresh h hearly hvalid, if_pos hrun]
    rfl
  · rw [execLedgerRank_fresh h hearly hport hrank, if_neg hrun]
    exact ⟨_, rfl, applyRank_port hport, rfl, rfl⟩
  · rw [execLedgerRank_fresh h hearly hport hrank, if_pos hrun]
    rfl
  · have hexec : exec c s = .next (if s.plan.frozenAt.isSome then pendOn n op p (.effectAt (s.frameIn 1)) (s.frameIn 1) s
        else postStatus n .ok s) := by
      rw [← grantCommand_early op hearly]
      simp only [List.mem_cons, List.not_mem_nil, or_false, Prod.mk.injEq] at hc
      obtain ⟨rfl, rfl⟩ | ⟨rfl, rfl⟩ := hc
      · exact congrArg Host.Outcome.next (onSlot_request h)
      · exact congrArg Host.Outcome.next (onSlot_request h)
    rw [hexec]
    refine ⟨fun hfrozen => congrArg Host.Outcome.next (if_pos (Option.isSome_iff_ne_none.mpr hfrozen)), fun hopen => ?_⟩
    rw [hopen]
    rfl

end Sys2Proof.Machine
end

section
-- One declaration after another: the whole text is compiled as one file, within a limit on memory.
set_option Elab.async false
/-!
The THERM and FAULT families (spec/13, spec/19, Tables 17-5 and 17-6).
-/

namespace Sys2Proof.Machine

/-! ## Pieces of an answer -/

theorem slice_slice {l : List Byte} {a n i m : Nat} (h : i + m ≤ n) : slice (slice l a n) i m = slice l (a + i) m := by
  unfold slice
  rw [List.drop_take, List.drop_drop, List.take_take, Nat.min_eq_left (by omega)]

theorem slice_append_left {a b : List Byte} {i n : Nat} (h : i + n ≤ a.length) : slice (a ++ b) i n = slice a i n := by
  unfold slice
  rw [List.drop_append_of_le_length (by omega), List.take_append_of_le_length (by rw [List.length_drop]; omega)]

theorem slice_append_right {a b : List Byte} {i n : Nat} (h : a.length = i) : slice (a ++ b) i n = b.take n := by
  unfold slice
  rw [List.drop_left' h]

theorem u8_append_right {a b : List Byte} {i k : Nat} (h : a.length = i) : u8 (a ++ b) (i + k) = u8 b k := by
  unfold u8
  rw [List.getD_append_right _ _ _ _ (by omega), h, Nat.add_sub_cancel_left]

theorem u8_append_left {a b : List Byte} {k : Nat} (h : k < a.length) : u8 (a ++ b) k = u8 a k := by
  unfold u8
  rw [List.getD_append _ _ _ _ h]

/-! ## The THERM family (R280, R284, R287, R292) -/

section
variable {s : State} {n : SlotId} {p : List Byte}

/-- One sensor in the THERM.READ response. -/
def Sensor.readBytes (x : Sensor) : List Byte := toLEInt 2 (x.reading.getD (-32768)) ++ toLEInt 2 x.meanWord

theorem Sensor.readBytes_length (x : Sensor) : x.readBytes.length = 4 := by
  unfold Sensor.readBytes toLEInt
  rw [List.length_append, toLE_length, toLE_length]

theorem sensorsRead_length (v : Vector Sensor 9) : (v.toList.flatMap Sensor.readBytes).length = 36 := by
  rw [length_flatMap_uniform Sensor.readBytes_length, Vector.length_toList]

theorem sensorsRead_slice (v : Vector Sensor 9) (b : List Byte) (t : Fin 9) :
    slice (v.toList.flatMap Sensor.readBytes ++ b) (4 * t.val) 4 = (v[t]'t.isLt).readBytes := by
  rw [slice_append_left (by rw [sensorsRead_length]; omega),
    slice_flatMap Sensor.readBytes_length _ (by rw [Vector.length_toList]; exact t.isLt), Vector.getElem_toList]
  rfl

theorem thermRead_completes (h : s.request n 0x0B01 p) :
    ∃ resp : List Byte, exec (.thermRead n) s = .next (postOk n resp s) ∧ resp.length = 38 ∧
      (∀ t : Fin 9, slice resp (4 * t.val) 2 = toLEInt 2 ((s.therm.sensors[t]'t.isLt).reading.getD (-32768)) ∧
        slice resp (4 * t.val + 2) 2 = toLEInt 2 ((s.therm.sensors[t]'t.isLt).mean.getD (-32768))) ∧
      slice resp 36 2 = toLE 2 (bits (s.therm.sensors.toList.map (·.failed))) := by
  have hexec : exec (.thermRead n) s = .next (postOk n
      (s.therm.sensors.toList.flatMap Sensor.readBytes ++ toLE 2 s.therm.failedMask) s) :=
    congrArg Host.Outcome.next (onSlot_request h)
  refine ⟨_, hexec, ?_, fun t => ⟨?_, ?_⟩, ?_⟩
  · rw [List.length_append, sensorsRead_length, toLE_length]
  · rw [← Nat.add_zero (4 * t.val), ← slice_slice (n := 4) (by decide), sensorsRead_slice]
    rfl
  · rw [← slice_slice (n := 4) (by decide), sensorsRead_slice]
    rfl
  · rw [slice_append_right (sensorsRead_length _)]
    rfl

theorem sensorLevel_byte (v : Vector Sensor 9) (b : List Byte) (t : Fin 9) :
    u8 (v.toList.map (fun x => BitVec.ofNat 8 x.level.val) ++ b) t.val = (v[t]'t.isLt).level.val := by
  have ht : t.val < (v.toList.map fun x => BitVec.ofNat 8 x.level.val).length := by
    rw [List.length_map, Vector.length_toList]
    exact t.isLt
  rw [u8_append_left ht]
  unfold u8
  rw [List.getD_eq_getElem _ _ ht, List.getElem_map, Vector.getElem_toList]
  exact toNat_byte (by omega)

theorem boolByte_toNat (b : Bool) : (boolByte b).toNat = boolNat b := by cases b <;> rfl

theorem thermStatus_completes (h : s.request n 0x0B02 p) :
    ∃ resp : List Byte, exec (.thermStatus n) s = .next (postOk n resp s) ∧ resp.length = 16 ∧
      u8 resp 0 = s.therm.state.val ∧ u8 resp 1 = s.therm.hold.val ∧ u8 resp 2 = boolNat s.therm.forced ∧
      u8 resp 3 = s.thetaInForce % 256 ∧ (∀ t : Fin 9, u8 resp (4 + t.val) = ((s.therm.sensors[t]'t.isLt).level).val) := by
  have hexec : exec (.thermStatus n) s = .next (postOk n ([BitVec.ofNat 8 s.therm.state.val,
      BitVec.ofNat 8 s.therm.hold.val, boolByte s.therm.forced, BitVec.ofNat 8 s.thetaInForce] ++
      (s.therm.sensors.toList.map (fun x => BitVec.ofNat 8 x.level.val) ++ ([0] ++ toLE 2 s.therm.failedMask))) s) := by
    change execThermStatus n s = _
    unfold execThermStatus
    rw [onSlot_request h, List.append_assoc, List.append_assoc]
  refine ⟨_, hexec, ?_, toNat_byte (by omega), toNat_byte (by omega), boolByte_toNat _, BitVec.toNat_ofNat ..,
    fun t => ?_⟩
  · simp only [List.length_append, List.length_map, Vector.length_toList, toLE_length, List.length_cons, List.length_nil]
  · rw [u8_append_right (i := 4) rfl]
    exact sensorLevel_byte ..

theorem thermPolicy_completes (h : s.request n 0x0B03 p) : ∃ t, exec (.thermPolicy n) s = .next (postStatus n .ok t) ∧
    (∀ k : PortId, t.ports[k]'k.isLt = { (s.ports[k]'k.isLt) with rest := (u16 p 0).testBit k.val }) ∧
    t.core = s.core ∧ t.therm = s.therm ∧ t.heat = s.heat ∧ t.rings = s.rings := by
  have hexec : exec (.thermPolicy n) s = .next (postStatus n .ok (applyThermPolicy p s)) :=
    congrArg Host.Outcome.next (onSlot_request h)
  exact ⟨_, hexec, ofFn_fin _, State.modPorts_core .., State.modPorts_therm .., State.modPorts_heat ..,
    State.modPorts_rings ..⟩

theorem execThermAck_eq (h : s.request n 0x0B04 p) : exec (.thermAck n) s = .next (if s.therm.forced then
      (pendOn n 0x0B04 p .thermAck (s.frameIn (if s.plan.frozenAt.isSome then 2 else 1)) s).modTherm
        fun t => { t with ack := true }
    else postStatus n .wrongState s) :=
  congrArg Host.Outcome.next (onSlot_request h)

end

/-- Settles O51: each THERM command by its answer or by the forced state. -/
theorem thermCommands : Obligations.ThermCommands := by
  intro s n p
  refine ⟨thermRead_completes, thermStatus_completes, thermPolicy_completes, fun h => ⟨fun hfree => ?_, fun hforced => ?_⟩⟩
  · rw [execThermAck_eq h, if_neg (ne_true_of_eq_false hfree)]
  · rw [execThermAck_eq h, if_pos hforced]
    refine ⟨_, rfl, ?_, ?_, ⟨_, pendOn_pend .., rfl, rfl⟩, ?_, ?_⟩
    · exact congrArg (fun t : Therm => { t with ack := true }) (pendOn_therm ..)
    · exact congrArg Slot.st (pendOn_slot ..)
    · rw [State.modTherm_rings, pendOn_rings]
    · rw [State.modTherm_heat, pendOn_heat]

/-! ## The FAULT family (R370, R404, R406, R412, R413, R415) -/

section
variable {s : State} {n : SlotId} {p : List Byte}

theorem FSource.readBytes_length (k : Nat) (x : FSource) : (FSource.readBytes k x).length = 6 := by
  unfold FSource.readBytes
  rw [List.length_append, toLE_length]
  rfl

theorem faultRead_completes (h : s.request n 0x0E01 p) (hvalid : faultReadFault p = none) :
    ∃ resp : List Byte, exec (.faultRead n) s = .next (postOk n resp s) ∧ resp.length = 6 * u8 p 1 ∧
      ∀ k < u8 p 1, ∀ f : Source, f.val = u8 p 0 + k →
        slice resp (6 * k) 6 = FSource.readBytes f.val (s.faults.src[f]'f.isLt) := by
  have hexec : exec (.faultRead n) s = .next (postOk n ((List.range (u8 p 1)).flatMap fun k =>
      FSource.readBytes (u8 p 0 + k) (s.faults.src.toList.getD (u8 p 0 + k) {})) s) := by
    change execFaultRead n s = _
    unfold execFaultRead
    rw [onSlot_request h, orRefuse_none hvalid]
  have hwide : ∀ k : Nat, (FSource.readBytes (u8 p 0 + k) (s.faults.src.toList.getD (u8 p 0 + k) {})).length = 6 :=
    fun k => FSource.readBytes_length ..
  refine ⟨_, hexec, (length_flatMap_uniform hwide _).trans (by rw [List.length_range]), fun k hk f hf => ?_⟩
  have hsource : s.faults.src.toList.getD f.val {} = s.faults.src[f]'f.isLt := by
    rw [List.getD_eq_getElem _ _ (by rw [Vector.length_toList]; exact f.isLt), Vector.getElem_toList]
    rfl
  rw [slice_flatMap hwide _ (by rwa [List.length_range]), List.getElem_range, ← hf, hsource]

theorem FSource.clear_idle {x : FSource} (hreaction : x.reaction = none) (htaken : x.taken = false) : x.clear =
    { x with observed := false, forced := false, events := [], consequent := 0, promoted := false, inForce := x.cls
             fresh := true } := by
  unfold FSource.clear
  rw [hreaction, htaken]
  rfl

theorem FSource.clear_reacting {x : FSource} (hreaction : x.reaction ≠ none) : x.clear = x :=
  if_pos (Option.isSome_iff_ne_none.mpr hreaction)

theorem Faults.clear_src (mask : Nat) (f : Faults) (k : Source) :
    (f.clear mask).src[k]'k.isLt = if mask.testBit k.val then (f.src[k]'k.isLt).clear else f.src[k]'k.isLt := ofFn_fin _ k

theorem Faults.clear_grace (mask : Nat) (f : Faults) : (f.clear mask).grace = f.grace := by
  unfold Faults.clear
  dsimp only

/-- What FAULT.CLEAR touches: the sources, the heaters' trips, and the tick from which the reference warms up. -/
theorem applyFaultClear_keeps (mask : Nat) (s : State) : (applyFaultClear mask s).faults = s.faults.clear mask ∧
    (applyFaultClear mask s).rings = s.rings ∧ (applyFaultClear mask s).ports = s.ports ∧
    (applyFaultClear mask s).core.dev = s.core.dev := by
  unfold applyFaultClear
  extract_lets gone freed s1
  have hs1 : s1 = { s with core := s1.core } ∧ s1.core.dev = s.core.dev := by
    unfold s1
    split
    · exact ⟨rfl, rfl⟩
    · exact ⟨rfl, rfl⟩
  obtain ⟨hrest, hdev⟩ := hs1
  clear_value s1
  refine ⟨?_, ?_, ?_, ?_⟩
  · rw [State.modHeat_faults, State.modFaults_faults, hrest]
  · rw [State.modHeat_rings, State.modFaults_rings, hrest]
  · rw [State.modHeat_ports, State.modFaults_ports, hrest]
  · rw [State.modHeat_core, State.modFaults_core, hdev]

theorem execFaultClear_valid (h : s.request n 0x0E02 p) (h6 : u8 p 6 < 128) (h7 : u8 p 7 = 0) :
    exec (.faultClear n) s = .next (postStatus n .ok (applyFaultClear (u64 p 0) s)) := by
  change execFaultClear n s = _
  unfold execFaultClear
  rw [onSlot_request h, if_neg (by omega), if_neg (by omega)]

theorem faultClear_completes (h : s.request n 0x0E02 p) (h6 : u8 p 6 < 128) (h7 : u8 p 7 = 0) :
    ∃ t, exec (.faultClear n) s = .next (postStatus n .ok t) ∧
      (∀ f : Source, (u64 p 0).testBit f.val = true → (s.faults.src[f]'f.isLt).reaction = none →
        (s.faults.src[f]'f.isLt).taken = false →
        (t.faults.src[f]'f.isLt).observed = false ∧ (t.faults.src[f]'f.isLt).forced = false ∧ (t.faults.src[f]'f.isLt).events = [] ∧
        (t.faults.src[f]'f.isLt).consequent = 0 ∧ (t.faults.src[f]'f.isLt).inForce = (s.faults.src[f]'f.isLt).cls ∧
        (t.faults.src[f]'f.isLt).cls = (s.faults.src[f]'f.isLt).cls ∧ (t.faults.src[f]'f.isLt).det = (s.faults.src[f]'f.isLt).det) ∧
      (∀ f : Source, (u64 p 0).testBit f.val = false ∨ (s.faults.src[f]'f.isLt).reaction ≠ none →
        t.faults.src[f]'f.isLt = s.faults.src[f]'f.isLt) ∧
      t.faults.grace = s.faults.grace ∧ t.rings = s.rings ∧ t.ports = s.ports ∧ t.core.dev = s.core.dev := by
  obtain ⟨hfaults, hrings, hports, hdev⟩ := applyFaultClear_keeps (u64 p 0) s
  refine ⟨_, execFaultClear_valid h h6 h7, fun f hbit hreaction htaken => ?_, fun f hkept => ?_, ?_, hrings, hports, hdev⟩
  · rw [hfaults, Faults.clear_src, if_pos hbit, FSource.clear_idle hreaction htaken]
    exact ⟨rfl, rfl, rfl, rfl, rfl, rfl, rfl⟩
  · rw [hfaults, Faults.clear_src]
    split
    · next hbit => exact FSource.clear_reacting (hkept.resolve_left (by rw [hbit]; decide))
    · rfl
  · rw [hfaults, Faults.clear_grace]

theorem sourceNo_of_field {f : Source} (hf : f.val = u8 p 0) : Fin.ofNat 64 (u8 p 0) = f :=
  Fin.ext ((Nat.mod_eq_of_lt (hf ▸ f.isLt)).trans hf.symm)

/-- FAULT.CONFIG on its source. -/
def FSource.reconfigured (p : List Byte) (x : FSource) : FSource :=
  let x := { x with nextMask := some ((u8 p 3).testBit 0) }
  if x.reaction.isSome then { x with pendCfg := some (fclassOf (u8 p 1), u8 p 2, u16 p 4) }
  else x.configure (fclassOf (u8 p 1), u8 p 2, u16 p 4)

theorem FSource.reconfigured_idle {x : FSource} (hreaction : x.reaction = none) : x.reconfigured p =
    ({ x with nextMask := some ((u8 p 3).testBit 0) } : FSource).configure (fclassOf (u8 p 1), u8 p 2, u16 p 4) := by
  unfold FSource.reconfigured
  dsimp only
  rw [hreaction]
  rfl

theorem FSource.reconfigured_reacting {x : FSource} (hreaction : x.reaction ≠ none) : x.reconfigured p =
    { x with nextMask := some ((u8 p 3).testBit 0), pendCfg := some (fclassOf (u8 p 1), u8 p 2, u16 p 4) } :=
  if_pos (Option.isSome_iff_ne_none.mpr hreaction)

theorem FSource.reconfigured_mask (x : FSource) :
    (x.reconfigured p).nextMask = some ((u8 p 3).testBit 0) ∧ (x.reconfigured p).masked = x.masked := by
  by_cases hreaction : x.reaction = none
  · rw [FSource.reconfigured_idle hreaction]
    exact ⟨rfl, rfl⟩
  · rw [FSource.reconfigured_reacting hreaction]
    exact ⟨rfl, rfl⟩

theorem faultConfigFault_mask (hvalid : faultConfigFault p = none) : u8 p 3 ≤ 1 := by
  by_contra hmask
  unfold faultConfigFault at hvalid
  split at hvalid
  · cases hvalid
  · split at hvalid
    · cases hvalid
    · split at hvalid
      · cases hvalid
      · rw [if_pos (by omega)] at hvalid
        cases hvalid

theorem faultConfig_completes (h : s.request n 0x0E03 p) (hvalid : faultConfigFault p = none) :
    ∃ t, exec (.faultConfig n) s = .next (postStatus n .ok t) ∧
      (∀ f : Source, f.val = u8 p 0 →
        (t.faults.src[f]'f.isLt).nextMask = some (decide (u8 p 3 = 1)) ∧ (t.faults.src[f]'f.isLt).masked = (s.faults.src[f]'f.isLt).masked ∧
        ((s.faults.src[f]'f.isLt).reaction = none → (t.faults.src[f]'f.isLt).cls = fclassOf (u8 p 1) ∧
          (t.faults.src[f]'f.isLt).n = u8 p 2 ∧ (t.faults.src[f]'f.isLt).w = u16 p 4 ∧
          (t.faults.src[f]'f.isLt).inForce = if (s.faults.src[f]'f.isLt).promoted then (s.faults.src[f]'f.isLt).inForce else fclassOf (u8 p 1)) ∧
        ((s.faults.src[f]'f.isLt).reaction ≠ none → (t.faults.src[f]'f.isLt).pendCfg = some (fclassOf (u8 p 1), u8 p 2, u16 p 4) ∧
          (t.faults.src[f]'f.isLt).cls = (s.faults.src[f]'f.isLt).cls ∧ (t.faults.src[f]'f.isLt).inForce = (s.faults.src[f]'f.isLt).inForce)) ∧
      (∀ f : Source, f.val ≠ u8 p 0 → t.faults.src[f]'f.isLt = s.faults.src[f]'f.isLt) ∧ t.rings = s.rings ∧ t.core = s.core := by
  have hexec : exec (.faultConfig n) s = .next (postStatus n .ok (s.modSource (Fin.ofNat 64 (u8 p 0))
      (FSource.reconfigured p))) := by
    change execFaultConfig n s = _
    unfold execFaultConfig
    rw [onSlot_request h, orRefuse_none hvalid]
    rfl
  have hmask := faultConfigFault_mask hvalid
  have hbit : (u8 p 3).testBit 0 = decide (u8 p 3 = 1) := by
    rw [Nat.testBit_zero, Nat.mod_eq_of_lt (by omega)]
  refine ⟨_, hexec, fun f hf => ?_, fun f hf => State.modSource_other (fun heq => hf ?_) _ s, State.modSource_rings ..,
    State.modSource_core ..⟩
  · rw [sourceNo_of_field hf, State.modSource_same]
    obtain ⟨hnext, hmasked⟩ := FSource.reconfigured_mask (p := p) (s.faults.src[f]'f.isLt)
    refine ⟨by rw [hnext, hbit], hmasked, fun hreaction => ?_, fun hreaction => ?_⟩
    · rw [FSource.reconfigured_idle hreaction]
      exact ⟨rfl, rfl, rfl, rfl⟩
    · rw [FSource.reconfigured_reacting hreaction]
      exact ⟨rfl, rfl, rfl⟩
  · have hport : ¬ 54 < u8 p 0 := by
      intro hover
      unfold faultConfigFault at hvalid
      rw [if_pos hover] at hvalid
      cases hvalid
    rw [heq]
    exact Nat.mod_eq_of_lt (by omega)

theorem faultForceFault_source (hvalid : faultForceFault p s = none) : u8 p 0 < 64 := by
  by_contra hover
  unfold faultForceFault at hvalid
  split at hvalid
  · cases hvalid
  · rw [if_pos (by omega)] at hvalid
    cases hvalid

theorem faultForce_completes (h : s.request n 0x0E04 p) :
    (s.lock.level = 0 → exec (.faultForce n) s = .next (postStatus n .locked s)) ∧
    (faultForceFault p s = none → ∃ t, exec (.faultForce n) s = .next (postStatus n .ok t) ∧
      (∀ f : Source, t.faults.src[f]'f.isLt = if f.val = u8 p 0 then
        { (s.faults.src[f]'f.isLt) with nextForce := some (u8 p 1 == 1) } else s.faults.src[f]'f.isLt) ∧ t.core = s.core) := by
  refine ⟨fun hsealed => ?_, fun hvalid => ?_⟩
  · change execFaultForce n s = _
    unfold execFaultForce faultForceFault
    rw [onSlot_request h, if_pos hsealed]
    rfl
  · have hport := faultForceFault_source hvalid
    let s1 := s.modSource (Fin.ofNat 64 (u8 p 0)) fun x => { x with nextForce := some (u8 p 1 == 1) }
    have hexec : ∃ t, exec (.faultForce n) s = .next (postStatus n .ok t) ∧ TellOnly s1 t := by
      change ∃ t, execFaultForce n s = _ ∧ _
      unfold execFaultForce
      rw [onSlot_request h, hvalid]
      dsimp only [orRefuse]
      split
      · exact ⟨_, rfl, .refl s1⟩
      · exact ⟨_, rfl, notice_tells ..⟩
    obtain ⟨t, ht, htells⟩ := hexec
    refine ⟨t, ht, fun f => ?_, htells.core⟩
    rw [htells.src]
    by_cases hf : f.val = u8 p 0
    · rw [if_pos hf]
      unfold s1
      rw [sourceNo_of_field hf]
      exact State.modSource_same ..
    · rw [if_neg hf]
      refine State.modSource_other (fun heq => hf ?_) _ s
      rw [heq]
      exact Nat.mod_eq_of_lt hport

/-! ### The armed word (R415): a notice is written to the words of checker 3 -/

/-- No word of checker c is armed. -/
def Faults.NotArmed (c : Fin 5) (f : Faults) : Prop := ∀ x, f.armed = some x → x.1 ≠ c

theorem Faults.wordWritten_armed {c : Fin 5} {a : Nat} {f : Faults} (h : f.NotArmed c) : (f.wordWritten c a).armed = f.armed := by
  unfold Faults.wordWritten
  dsimp only
  split
  · next c' a' m harmed => rw [if_neg fun heq => h _ harmed heq.1]
  · rfl

theorem Faults.NotArmed.congr {c : Fin 5} {f g : Faults} (h : f.NotArmed c) (heq : g.armed = f.armed) : g.NotArmed c := by
  unfold Faults.NotArmed
  rw [heq]
  exact h

theorem pushNotice_armed {code : W16} {k : Nat} {args : W64} {s : State} (h : s.faults.NotArmed 3) :
    (pushNotice code k args s).faults.armed = s.faults.armed := by
  have hwords : ((s.faults.wordWritten 3 (2 * s.rings.nwr)).wordWritten 3 (2 * s.rings.nwr + 1)).armed = s.faults.armed := by
    rw [Faults.wordWritten_armed (h.congr (Faults.wordWritten_armed h)), Faults.wordWritten_armed h]
  unfold pushNotice
  dsimp only
  split
  · exact hwords
  · exact hwords

theorem noticeGap_armed {s : State} (h : s.faults.NotArmed 3) : (noticeGap s).faults.armed = s.faults.armed := by
  unfold noticeGap pushNoticeGap
  split
  · split
    · exact pushNotice_armed (s := s.modRings _) h
    · rfl
  · rfl

theorem notice_armed {code : W16} {k : Kind} {args : W64} {s : State} (h : s.faults.NotArmed 3) :
    (notice code k args s).faults.armed = s.faults.armed := by
  have hemit : (emitNotice code k args s).faults.armed = s.faults.armed := by
    unfold emitNotice
    cases k
    · dsimp only
      split
      · rw [pushNotice_armed (h.congr (noticeGap_armed h)), noticeGap_armed h]
      · exact noticeGap_armed h
    · dsimp only
      split
      · exact pushNotice_armed h
      · rfl
    · dsimp only
      split
      · exact pushNotice_armed h
      · rfl
  unfold notice
  split
  · rfl
  · rfl
  · exact hemit

theorem faultEccFault_checker (hvalid : faultEccFault p s = none) : u8 p 0 ≤ 4 := by
  by_contra hover
  unfold faultEccFault at hvalid
  split at hvalid
  · cases hvalid
  · rw [if_pos (by omega)] at hvalid
    cases hvalid

theorem execFaultEcc_valid (h : s.request n 0x0E05 p) (hvalid : faultEccFault p s = none) :
    exec (.faultEcc n) s = .next (if u8 p 1 = 0 then postStatus n .ok (s.modFaults fun f => { f with armed := none })
      else postStatus n .ok (notice 0x0E08 .fault (argB 0 (0x80 + u8 p 0) ||| argB 1 2)
        (s.modFaults fun f => { f with armed := some (Fin.ofNat 5 (u8 p 0), u32 p 4, u8 p 1) }))) := by
  change execFaultEcc n s = _
  unfold execFaultEcc
  rw [onSlot_request h, hvalid]
  rfl

theorem faultEcc_completes (h : s.request n 0x0E05 p) :
    (s.lock.level = 0 → exec (.faultEcc n) s = .next (postStatus n .locked s)) ∧
    (faultEccFault p s = none →
      (u8 p 1 = 0 → exec (.faultEcc n) s = .next (postStatus n .ok (s.modFaults fun f => { f with armed := none }))) ∧
      (u8 p 1 ≠ 0 → ∃ t, exec (.faultEcc n) s = .next (postStatus n .ok t) ∧ t.faults.src = s.faults.src ∧
        (u8 p 0 ≠ 3 → t.faults.armed = some (Fin.ofNat 5 (u8 p 0), u32 p 4, u8 p 1)))) := by
  refine ⟨fun hsealed => ?_, fun hvalid => ?_⟩
  · change execFaultEcc n s = _
    unfold execFaultEcc faultEccFault
    rw [onSlot_request h, if_pos hsealed]
    rfl
  · rw [execFaultEcc_valid h hvalid]
    refine ⟨fun hoff => congrArg Host.Outcome.next (if_pos hoff), fun hon =>
      ⟨_, congrArg Host.Outcome.next (if_neg hon), (notice_tells ..).src, fun hnot => ?_⟩⟩
    have hchecker := faultEccFault_checker hvalid
    refine notice_armed fun x hx heq => hnot ?_
    obtain rfl := Option.some.inj hx
    have hval := congrArg Fin.val heq
    exact (Nat.mod_eq_of_lt (show u8 p 0 < 5 by omega)).symm.trans hval

theorem faultGrace_completes (h : s.request n 0x0E06 p) (hlo : 1 ≤ u16 p 0) (hhi : u16 p 0 ≤ 1000) :
    exec (.faultGrace n) s = .next (postStatus n .ok (s.modFaults fun f => { f with grace := u16 p 0 })) := by
  have hvalid : faultGraceFault p = none := if_neg (by omega)
  change execFaultGrace n s = _
  unfold execFaultGrace
  rw [onSlot_request h, orRefuse_none hvalid]
  rfl

end

/-- Settles O53: each FAULT command by the checks its fields pass and the source it names. -/
theorem faultCommands : Obligations.FaultCommands := fun _ _ _ =>
  ⟨faultRead_completes, faultClear_completes, faultConfig_completes, faultForce_completes, faultEcc_completes,
    faultGrace_completes⟩

end Sys2Proof.Machine
end

section
-- One declaration after another: the whole text is compiled as one file, within a limit on memory.
set_option Elab.async false
/-!
The time bases (spec/18): the TIME family, the PPS edges with the servo, the setting of a domain and the triggers.
-/

namespace Sys2Proof.Machine

/-! ## One domain and the other -/

theorem modDom_same (d : Dom) (f : Domain → Domain) (s : State) : (s.modDom d f).dom d = f (s.dom d) := by
  cases d with
  | ta => rfl
  | tb => rfl

theorem modDom_other {d e : Dom} (h : e ≠ d) (f : Domain → Domain) (s : State) : (s.modDom d f).dom e = s.dom e := by
  cases d with
  | ta => cases e with
    | ta => exact absurd rfl h
    | tb => rfl
  | tb => cases e with
    | ta => rfl
    | tb => exact absurd rfl h

theorem modDom_time (d : Dom) (f : Domain → Domain) (s : State) :
    (s.modDom d f).time.o = s.time.o ∧ (s.modDom d f).time.triggers = s.time.triggers := by
  cases d with
  | ta => exact ⟨rfl, rfl⟩
  | tb => exact ⟨rfl, rfl⟩

/-- Only the time bases change with a domain. -/
theorem modDom_rest (d : Dom) (f : Domain → Domain) (s : State) :
    s.modDom d f = { s with time := (s.modDom d f).time } := by
  cases d with
  | ta => rfl
  | tb => rfl

theorem modDom_core (d : Dom) (f : Domain → Domain) (s : State) : (s.modDom d f).core = s.core := by rw [modDom_rest]
theorem modDom_rings (d : Dom) (f : Domain → Domain) (s : State) : (s.modDom d f).rings = s.rings := by rw [modDom_rest]

theorem dom_congr {s t : State} (h : t.time = s.time) (d : Dom) : t.dom d = s.dom d := by
  unfold State.dom
  rw [h]

theorem notice_dom (code : W16) (k : Kind) (args : W64) (s : State) (d : Dom) : (notice code k args s).dom d = s.dom d :=
  dom_congr (notice_time ..) d

/-! ## The TIME family (R367) -/

section
variable {s : State} {n : SlotId} {p : List Byte}

theorem execTimeSet_valid (h : s.request n 0x0D01 p) (hvalid : timeSetFault p = none) :
    exec (.timeSet n) s = .next (if (s.timeSetPend (domOf (u8 p 0))).isSome then postStatus n .busy s
      else if u8 p 1 = 1 then pendOn n 0x0D01 p (.timeEdge (domOf (u8 p 0))) s.nextFrame
        (s.modDom (domOf (u8 p 0)) fun x => { x with setEdge := none })
      else pendBoundary n 0x0D01 p 1 s) := by
  change execTimeSet n s = _
  unfold execTimeSet
  rw [onSlot_request h, orRefuse_none hvalid]

theorem execTimeIncr_valid (h : s.request n 0x0D02 p) (hvalid : timeIncrFault p = none) :
    exec (.timeIncr n) s = .next (if (s.dom (domOf (u8 p 0))).reeve then postStatus n .wrongState s
      else postStatus n .ok (s.modDom (domOf (u8 p 0)) fun x => { x with nextInc := some (u48 p 2) })) := by
  change execTimeIncr n s = _
  unfold execTimeIncr
  rw [onSlot_request h, orRefuse_none hvalid]

/-- TIME.SERVO on its domain. -/
def Domain.served (byReeve : Bool) (x : Domain) : Domain := if byReeve then { x with reeve := true } else x.toHost

theorem Domain.served_keeps (b : Bool) (x : Domain) : (x.served b).reeve = b ∧ (x.served b).time = x.time ∧
    (x.served b).inc = x.inc ∧ (x.served b).valid = x.valid := by
  cases b with
  | true => exact ⟨rfl, rfl, rfl, rfl⟩
  | false => exact ⟨rfl, rfl, rfl, rfl⟩

theorem execTimeServo_valid (h : s.request n 0x0D03 p) (hvalid : timeServoFault p = none) :
    exec (.timeServo n) s = .next (postStatus n .ok
      (s.modDom (domOf (u8 p 0)) (Domain.served (decide (u8 p 1 = 1))))) := by
  have hserved : (fun x : Domain => if u8 p 1 = 1 then { x with reeve := true } else x.toHost) =
      Domain.served (decide (u8 p 1 = 1)) := by
    funext x
    by_cases h1 : u8 p 1 = 1
    · rw [if_pos h1, decide_eq_true h1]
      rfl
    · rw [if_neg h1, decide_eq_false h1]
      rfl
  change execTimeServo n s = _
  unfold execTimeServo applyTimeServo
  rw [onSlot_request h, orRefuse_none hvalid, hserved]

theorem execTimeSelect_valid (h : s.request n 0x0D04 p) (hdom : u8 p 0 < 2) :
    exec (.timeSelect n) s = .next (if (s.dom (domOf (u8 p 0))).valid then pendBoundary n 0x0D04 p 1 s
      else postStatus n .wrongState s) := by
  have hvalid : domFault p = none := if_neg (by omega)
  change execTimeSelect n s = _
  unfold execTimeSelect
  rw [onSlot_request h, orRefuse_none hvalid]

theorem execTimePps_valid (h : s.request n 0x0D05 p) (hdom : u8 p 0 < 2) :
    exec (.timePps n) s = .next (postOk n (((s.dom (domOf (u8 p 0))).stamp.map
      (Stamp.response (s.dom (domOf (u8 p 0))).edges)).getD []) s) := by
  have hvalid : domFault p = none := if_neg (by omega)
  change execTimePps n s = _
  unfold execTimePps
  rw [onSlot_request h, orRefuse_none hvalid]

theorem timeTriggerFault_place (hvalid : timeTriggerFault p s = none) : u8 p 0 < 16 := by
  by_contra hover
  unfold timeTriggerFault at hvalid
  dsimp only at hvalid
  rw [if_pos (by omega)] at hvalid
  cases hvalid

theorem timeTriggerCommand_completes (h : s.request n 0x0D06 p) (hvalid : timeTriggerFault p s = none) :
    ∃ t, exec (.timeTriggerCommand n) s = .next (postStatus n .ok t) ∧
      (∀ k : Fin 16, t.time.triggers[k]'k.isLt =
        if k.val = u8 p 0 then (if u8 p 2 = 0 then none else some (parseTrigger p)) else s.time.triggers[k]'k.isLt) ∧
      t.time.ta = s.time.ta ∧ t.time.tb = s.time.tb ∧ t.rings = s.rings := by
  have hplace := timeTriggerFault_place hvalid
  have hexec : exec (.timeTriggerCommand n) s = .next (postStatus n .ok (applyTrigger p s)) := by
    change execTimeTriggerCommand n s = _
    unfold execTimeTriggerCommand
    rw [onSlot_request h, hvalid]
  have hval : (Fin.ofNat 16 (u8 p 0)).val = u8 p 0 := Nat.mod_eq_of_lt hplace
  refine ⟨_, hexec, fun k => ?_, rfl, rfl, rfl⟩
  unfold applyTrigger State.modTime
  dsimp only
  by_cases hk : k.val = u8 p 0
  · rw [if_pos hk]
    obtain rfl : Fin.ofNat 16 (u8 p 0) = k := Fin.ext (hval.trans hk.symm)
    exact Vector.getElem_set_self ..
  · rw [if_neg hk]
    exact Vector.getElem_set_ne _ k.isLt fun heq => hk (heq.symm.trans hval)

end

/-- Settles O57: each TIME command by its domain and the state that domain is in. -/
theorem timeCommands : Obligations.TimeCommands := by
  intro s n p d hd
  subst hd
  refine ⟨fun h hvalid => ?_, fun h hvalid => ?_, fun h hvalid => ?_, fun h hdom => ?_, fun h hdom => ?_,
    timeTriggerCommand_completes, fun h => ?_⟩
  · rw [execTimeSet_valid h hvalid]
    refine ⟨fun hwaits => congrArg Host.Outcome.next (if_pos (Option.isSome_iff_ne_none.mpr hwaits)), fun hfree => ?_⟩
    rw [hfree]
    exact ⟨fun hedge => congrArg Host.Outcome.next (if_pos hedge),
      fun hboundary => congrArg Host.Outcome.next (if_neg (show ¬ u8 p 1 = 1 by omega))⟩
  · rw [execTimeIncr_valid h hvalid]
    refine ⟨fun hreeve => congrArg Host.Outcome.next (if_pos hreeve), fun hhost =>
      ⟨_, congrArg Host.Outcome.next (if_neg (ne_true_of_eq_false hhost)), modDom_same .., fun e he => modDom_other he _ s,
        (modDom_time ..).1, (modDom_time ..).2, modDom_rings ..⟩⟩
  · obtain ⟨hreeve, htime, hinc, hvalid'⟩ := Domain.served_keeps (decide (u8 p 1 = 1)) (s.dom (domOf (u8 p 0)))
    refine ⟨_, execTimeServo_valid h hvalid, ?_, ?_, ?_, ?_, fun e he => modDom_other he _ s, (modDom_time ..).1,
      modDom_rings ..⟩
    · rw [modDom_same, hreeve]
    · rw [modDom_same, htime]
    · rw [modDom_same, hinc]
    · rw [modDom_same, hvalid']
  · rw [execTimeSelect_valid h hdom]
    exact ⟨fun hset => congrArg Host.Outcome.next (if_pos hset),
      fun hunset => congrArg Host.Outcome.next (if_neg (ne_true_of_eq_false hunset))⟩
  · rw [execTimePps_valid h hdom]
    refine ⟨fun hnone => ?_, fun x hx => ?_⟩
    · rw [hnone]
      rfl
    · rw [hx]
      exact ⟨_, rfl, rfl, rfl, rfl, rfl, rfl⟩
  · exact ⟨_, congrArg Host.Outcome.next (onSlot_request h), rfl, boolByte_toNat _, rfl, rfl, rfl⟩

/-! ## PPS edges (R384 to R389) -/

/-- What the servo's lock and a pending TIME.SET note of an edge: nothing that moves the domain. -/
structure LockOnly (d : Dom) (s t : State) : Prop where
  dom : t.dom d = { s.dom d with setEdge := (t.dom d).setEdge, locked := (t.dom d).locked, lockRun := (t.dom d).lockRun
                                 unlockRun := (t.dom d).unlockRun, lastErr := (t.dom d).lastErr }
  other : ∀ e, e ≠ d → t.dom e = s.dom e
  offset : t.time.o = s.time.o
  core : t.core = s.core

theorem LockOnly.refl (d : Dom) (s : State) : LockOnly d s s := ⟨rfl, fun _ _ => rfl, rfl, rfl⟩

theorem LockOnly.trans {d : Dom} {a b c : State} (h : LockOnly d a b) (k : LockOnly d b c) : LockOnly d a c :=
  ⟨Eq.trans k.dom (by rw [h.dom]), fun e he => (k.other e he).trans (h.other e he), k.offset.trans h.offset,
    k.core.trans h.core⟩

theorem notice_lockOnly (code : W16) (k : Kind) (args : W64) (d : Dom) (s : State) :
    LockOnly d s (notice code k args s) :=
  ⟨by rw [notice_dom], fun e _ => notice_dom .., congrArg Time.o (notice_time ..), notice_core ..⟩

theorem modDom_lockOnly {d : Dom} {f : Domain → Domain} {s : State}
    (hf : ∀ x, f x = { x with setEdge := (f x).setEdge, locked := (f x).locked, lockRun := (f x).lockRun
                              unlockRun := (f x).unlockRun, lastErr := (f x).lastErr }) : LockOnly d s (s.modDom d f) :=
  ⟨by rw [modDom_same]; exact hf _, fun e he => modDom_other he _ s, (modDom_time ..).1, modDom_core ..⟩

/-- The verdict of R389 on a domain whose runs are counted. -/
theorem Domain.lockVerdict (y : Domain) : ∃ b, (if (!y.locked) = true ∧ 8 ≤ y.lockRun then
      ({ y with locked := true }, some true)
    else if y.locked = true ∧ 2 ≤ y.unlockRun then ({ y with locked := false }, some false)
    else (y, (none : Option Bool))).1 = { y with locked := b } := by
  split
  · exact ⟨true, rfl⟩
  · split
    · exact ⟨false, rfl⟩
    · exact ⟨y.locked, rfl⟩

theorem Domain.lockStep_eq (e : Int) (x : Domain) : ∃ run unrun err b, (x.lockStep e).1 =
    { x with lockRun := run, unlockRun := unrun, lastErr := err, locked := b } := by
  unfold Domain.lockStep
  obtain ⟨b, hb⟩ := Domain.lockVerdict _
  exact ⟨_, _, _, b, hb⟩

theorem lockNotice_lockOnly (d : Dom) (e : Int) (r : Option Bool) (s : State) : LockOnly d s (lockNotice d e r s) := by
  unfold lockNotice
  split
  · exact notice_lockOnly ..
  · exact notice_lockOnly ..
  · exact .refl ..

section
variable {s : State} {d : Dom}

theorem servo_off (e : Int) (h : ((s.dom d).reeve && (s.dom d).valid) = false) : servo d e s = s := by
  unfold servo
  rw [h]
  rfl

/-- The lock bookkeeping of an edge the servo takes. -/
theorem lockBooked (d : Dom) (e : Int) (s : State) :
    LockOnly d s (lockNotice d e ((s.dom d).lockStep e).2 (s.modDom d fun _ => ((s.dom d).lockStep e).1)) := by
  refine LockOnly.trans ⟨?_, fun e he => modDom_other he _ s, (modDom_time ..).1, modDom_core ..⟩ (lockNotice_lockOnly ..)
  obtain ⟨run, unrun, err, b, hstep⟩ := Domain.lockStep_eq e (s.dom d)
  rw [modDom_same, hstep]

theorem servo_far {e : Int} (h : ((s.dom d).reeve && (s.dom d).valid) = true) (hfar : (2 ^ 48 : Nat) < (e.natAbs : Int) * 1000) :
    LockOnly d s (servo d e s) := by
  unfold servo
  rw [h]
  rw [if_neg (show ¬ (!true) = true by decide), if_pos hfar]
  exact (lockBooked d e s).trans (notice_lockOnly ..)

theorem servo_near {e : Int} (h : ((s.dom d).reeve && (s.dom d).valid) = true)
    (hnear : ¬ (2 ^ 48 : Nat) < (e.natAbs : Int) * 1000) : ∃ t, LockOnly d s t ∧
      servo d e s = t.modDom d fun x => { x with nextInc := some (servoInc (freqError x.inc x.history) e) } := by
  refine ⟨_, lockBooked d e s, ?_⟩
  unfold servo
  rw [h]
  rw [if_neg (show ¬ (!true) = true by decide), if_neg hnear]

/-- What an accepted edge leaves in the domain, up to the servo's increment and the lock's books. -/
structure EdgeTaken (d : Dom) (k : Nat) (c : Fin 960) (s t : State) : Prop where
  dom : t.dom d = { (s.dom d).accept (s.countBack k).1 (s.countBack k).2 c.val (s.core.lt - BitVec.ofNat 64 k)
                      ((s.dom d).at k c.val) with
    setEdge := (t.dom d).setEdge, locked := (t.dom d).locked, lockRun := (t.dom d).lockRun
    unlockRun := (t.dom d).unlockRun, lastErr := (t.dom d).lastErr, nextInc := (t.dom d).nextInc }
  other : ∀ e, e ≠ d → t.dom e = s.dom e
  offset : t.time.o = s.time.o
  core : t.core = s.core

/-- An accepted edge is stamped, and given to the servo. -/
theorem ppsEdge_accepted {k : Nat} {c : Fin 960} (hstamps : s.stamps = true)
    (haccepts : (s.dom d).accepts (s.core.lt - BitVec.ofNat 64 k) c.val = true) :
    ∃ t, exec (.ppsEdge d k c) s = .next (servo d (phaseOf ((s.dom d).at k c.val)) t) ∧
      LockOnly d (s.modDom d (Domain.accept (s.countBack k).1 (s.countBack k).2 c.val (s.core.lt - BitVec.ofNat 64 k)
        ((s.dom d).at k c.val))) t := by
  have hedge : ppsEdge d k c s = ppsEdge d k c s := rfl
  conv at hedge => lhs; unfold ppsEdge
  rw [hstamps, if_neg (show ¬ (!true) = true by decide)] at hedge
  extract_lets lt x ft at_ back s1 s2 s3 at hedge
  rw [if_neg (show ¬ (!x.accepts lt c.val) = true by rw [show x.accepts lt c.val = true from haccepts]; decide)] at hedge
  have h2 : LockOnly d s1 s2 := by
    unfold s2
    split
    · exact notice_lockOnly ..
    · exact .refl ..
  clear_value s2
  refine ⟨s3, congrArg Host.Outcome.next hedge.symm, h2.trans ?_⟩
  unfold s3
  split
  · exact modDom_lockOnly fun x => rfl
  · exact .refl ..

theorem edgeTaken_of_lockOnly {k : Nat} {c : Fin 960} {t : State}
    (h : LockOnly d (s.modDom d (Domain.accept (s.countBack k).1 (s.countBack k).2 c.val (s.core.lt - BitVec.ofNat 64 k)
      ((s.dom d).at k c.val))) t) : EdgeTaken d k c s t ∧ (t.dom d).nextInc = (s.dom d).nextInc := by
  obtain ⟨hdom, hother, hoffset, hcore⟩ := h
  rw [modDom_same] at hdom
  have hnext : (t.dom d).nextInc = (s.dom d).nextInc := by rw [hdom]; rfl
  refine ⟨⟨?_, fun e he => (hother e he).trans (modDom_other he _ s), hoffset.trans (modDom_time ..).1,
    hcore.trans (modDom_core ..)⟩, hnext⟩
  rw [hnext]
  exact hdom

theorem ppsEdge_completes {k : Nat} {c : Fin 960} (hstamps : s.stamps = true)
    (haccepts : (s.dom d).accepts (s.core.lt - BitVec.ofNat 64 k) c.val = true) :
    ∃ t, exec (.ppsEdge d k c) s = .next t ∧ EdgeTaken d k c s t ∧
      ((s.dom d).reeve = true → (s.dom d).valid = true → ∀ e, e = phaseOf ((s.dom d).at k c.val) →
        ((e.natAbs : Int) * 1000 ≤ 2 ^ 48 →
          (t.dom d).nextInc = some (servoInc (freqError (s.dom d).inc (t.dom d).history) e)) ∧
        (2 ^ 48 < (e.natAbs : Int) * 1000 → (t.dom d).nextInc = (s.dom d).nextInc)) ∧
      ((s.dom d).reeve = false → (t.dom d).nextInc = (s.dom d).nextInc) := by
  obtain ⟨t1, hexec, hlock⟩ := ppsEdge_accepted hstamps haccepts
  obtain ⟨hedge, hnext⟩ := edgeTaken_of_lockOnly hlock
  have hheld : (t1.dom d).reeve = (s.dom d).reeve ∧ (t1.dom d).valid = (s.dom d).valid := by
    rw [hedge.dom]
    exact ⟨rfl, rfl⟩
  obtain ⟨hreeve, hvalid⟩ := hheld
  refine ⟨_, hexec, ?_⟩
  by_cases hserved : ((t1.dom d).reeve && (t1.dom d).valid) = true
  · by_cases hfar : (2 ^ 48 : Nat) < ((phaseOf ((s.dom d).at k c.val)).natAbs : Int) * 1000
    · obtain ⟨hedge', hnext'⟩ := edgeTaken_of_lockOnly (hlock.trans (servo_far hserved hfar))
      refine ⟨hedge', ?_, fun _ => hnext'⟩
      rintro - - e rfl
      exact ⟨fun hle => absurd hfar (not_lt.mpr hle), fun _ => hnext'⟩
    · obtain ⟨t2, hlock2, hservo⟩ := servo_near hserved hfar
      obtain ⟨hedge', -⟩ := edgeTaken_of_lockOnly (hlock.trans hlock2)
      have hinc : (t2.dom d).inc = (s.dom d).inc := by rw [hedge'.dom]; rfl
      rw [hservo]
      refine ⟨⟨?_, fun e he => (modDom_other he _ t2).trans (hedge'.other e he), (modDom_time ..).1.trans hedge'.offset,
        (modDom_core ..).trans hedge'.core⟩, ?_, fun hhost => ?_⟩
      · rw [modDom_same, hedge'.dom]
      · rintro - - e rfl
        refine ⟨fun _ => ?_, fun hlt => absurd hlt hfar⟩
        rw [modDom_same, hinc]
      · rw [hreeve, hhost] at hserved
        exact absurd hserved Bool.false_ne_true
  · rw [servo_off _ (Bool.eq_false_iff.mpr hserved)]
    refine ⟨hedge, fun hr hv => ?_, fun _ => hnext⟩
    rw [hreeve, hvalid, hr, hv] at hserved
    exact absurd rfl hserved

theorem outlier_completes (d : Dom) (s : State) : ∃ m, (outlier d s).dom d =
      { s.dom d with outlierAge := some 0, outliers := m } ∧ (∀ e, e ≠ d → (outlier d s).dom e = s.dom e) ∧
      (outlier d s).core = s.core := by
  unfold outlier
  extract_lets x due s1
  have h1 : (∀ e, s1.dom e = s.dom e) ∧ s1.core = s.core := by
    unfold s1
    split
    · exact ⟨notice_dom _ _ _ _, notice_core ..⟩
    · exact ⟨fun _ => rfl, rfl⟩
  obtain ⟨hdom, hcore⟩ := h1
  clear_value s1
  refine ⟨if due then 0 else x.outliers + 1, ?_, fun e he => (modDom_other he _ s1).trans (hdom e),
    (modDom_core ..).trans hcore⟩
  rw [modDom_same, hdom]

theorem execPpsEdge_outlier {k : Nat} {c : Fin 960} (hstamps : s.stamps = true)
    (hrejects : (s.dom d).accepts (s.core.lt - BitVec.ofNat 64 k) c.val = false) :
    exec (.ppsEdge d k c) s = .next (outlier d s) := by
  have hstamped : ¬ (!s.stamps) = true := by rw [hstamps]; decide
  have houtside : (!(s.dom d).accepts (s.core.lt - BitVec.ofNat 64 k) c.val) = true := by rw [hrejects]; rfl
  exact congrArg Host.Outcome.next ((if_neg hstamped).trans (if_pos houtside))

theorem execPpsEdge_unstamped {k : Nat} {c : Fin 960} (hstamps : s.stamps = false) :
    exec (.ppsEdge d k c) s = .next s := by
  change Host.Outcome.next (ppsEdge d k c s) = _
  unfold ppsEdge
  rw [hstamps]
  rfl

theorem ppsAbsent_completes (hdue : s.ppsAbsentDue d = true) : ∃ t, exec (.ppsAbsent d) s = .next t ∧
    (t.dom d).present = false ∧ (t.dom d).hasLast = false ∧ (t.dom d).locked = false ∧
    (t.dom d).history = (s.dom d).history ∧ (t.dom d).time = (s.dom d).time ∧ (t.dom d).inc = (s.dom d).inc ∧
    (t.dom d).nextInc = (s.dom d).nextInc ∧ (∀ e, e ≠ d → t.dom e = s.dom e) := by
  have hexec : exec (.ppsAbsent d) s = .next (
      let s1 := notice 0x0D01 .ordinary (argB 0 (domCode d)) (s.modDom d fun x =>
        { x with present := false, hasLast := false, reported := true, locked := false, lockRun := 0, unlockRun := 0 })
      if (s.dom d).locked then lockNotice d (s.dom d).lastErr (some false) s1 else s1) :=
    congrArg Host.Outcome.next (if_pos hdue)
  have htold : ∀ s1 : State, ∀ e, (if (s.dom d).locked then lockNotice d (s.dom d).lastErr (some false) s1 else s1).dom e =
      s1.dom e := by
    intro s1 e
    split
    · exact notice_dom ..
    · rfl
  refine ⟨_, hexec, ?_, ?_, ?_, ?_, ?_, ?_, ?_, fun e he => ?_⟩
  case refine_8 => rw [htold, notice_dom, modDom_other he]
  all_goals rw [htold, notice_dom, modDom_same]

/-! ## Setting a domain (R382) -/

theorem loadDomain_keeps (d : Dom) (v : Nat) (atEdge : Bool) (s : State) :
    (loadDomain d v atEdge s).dom d = { s.dom d with time := v % 2 ^ 112, valid := true, history := [], setEdge := none } ∧
      (∀ e, e ≠ d → (loadDomain d v atEdge s).dom e = s.dom e) ∧ (loadDomain d v atEdge s).time.o = s.time.o := by
  unfold loadDomain
  dsimp only
  refine ⟨?_, fun e he => ?_, ?_⟩
  · rw [notice_dom, modDom_same]
  · rw [notice_dom, modDom_other he]
  · rw [notice_time, (modDom_time ..).1]

theorem timeSetPend_dom {x : Pend} (h : s.timeSetPend d = some x) : domOf (u8 x.payload 0) = d := by
  have hfound := List.find?_some h
  simp only [Bool.and_eq_true, beq_iff_eq] at hfound
  exact hfound.2

theorem execTimeSetApply_found {x : Pend} (h : s.timeSetPend d = some x) :
    exec (.timeSetApply d) s = .next (if s.reeveActive && s.timeSetDue x then applyTimeSet x s else s) := by
  change execTimeSetApply d s = _
  unfold execTimeSetApply
  rw [h]

theorem applyTimeSet_boundary {x : Pend} {k : Nat} (hdom : domOf (u8 x.payload 0) = d) (hwait : x.wait = .boundary k) :
    applyTimeSet x s = postStatus x.slot .ok (loadDomain d (timeSetValue x.payload) false s) := by
  subst hdom
  unfold applyTimeSet
  rw [hwait]

theorem applyTimeSet_edge {x : Pend} {lt : W64} {c : Nat} (hdom : domOf (u8 x.payload 0) = d)
    (hwait : x.wait = .timeEdge d) (hedge : (s.dom d).setEdge = some (lt, c)) : applyTimeSet x s =
      postStatus x.slot .ok (loadDomain d (timeSetValue x.payload + (960 * s.since lt - c) * (s.dom d).inc / 960) true s) := by
  subst hdom
  unfold applyTimeSet
  dsimp only
  rw [hwait, hedge]

theorem timeSetDue_edge {x : Pend} {lt : W64} {c : Nat} (hwait : x.wait = .timeEdge d)
    (hedge : (s.dom d).setEdge = some (lt, c)) (hsince : s.since lt = 2) : s.timeSetDue x = true := by
  unfold State.timeSetDue
  rw [hwait]
  dsimp only
  rw [hedge]
  exact decide_eq_true (le_of_eq hsince.symm)

theorem execTimeSetApply_boundary {x : Pend} (h : s.timeSetPend d = some x) {k : Nat} (hwait : x.wait = .boundary k)
    (hdue : s.timeSetDue x = true) (hruns : s.reeveActive = true) : ∃ t, exec (.timeSetApply d) s = .next (postStatus x.slot .ok t) ∧
      (t.dom d).time = timeSetValue x.payload % 2 ^ 112 ∧ (t.dom d).valid = true ∧ (t.dom d).history = [] ∧
      (t.dom d).inc = (s.dom d).inc ∧ (∀ e, e ≠ d → t.dom e = s.dom e) ∧ t.time.o = s.time.o := by
  obtain ⟨hdom, hother, hoffset⟩ := loadDomain_keeps d (timeSetValue x.payload) false s
  refine ⟨loadDomain d (timeSetValue x.payload) false s, ?_, ?_, ?_, ?_, ?_, hother, hoffset⟩
  · rw [execTimeSetApply_found h, hruns, hdue, ← applyTimeSet_boundary (timeSetPend_dom h) hwait]
    rfl
  all_goals rw [hdom]

theorem execTimeSetApply_edge {x : Pend} (h : s.timeSetPend d = some x) {lt : W64} {c : Nat} (hwait : x.wait = .timeEdge d)
    (hedge : (s.dom d).setEdge = some (lt, c)) (hsince : s.since lt = 2) (hruns : s.reeveActive = true) :
    ∃ t, exec (.timeSetApply d) s = .next (postStatus x.slot .ok t) ∧
      (t.dom d).time = (timeSetValue x.payload + (1920 - c) * (s.dom d).inc / 960) % 2 ^ 112 ∧
      (t.dom d).valid = true ∧ (t.dom d).inc = (s.dom d).inc ∧ (∀ e, e ≠ d → t.dom e = s.dom e) ∧
      t.time.o = s.time.o := by
  have hload := applyTimeSet_edge (timeSetPend_dom h) hwait hedge
  rw [hsince] at hload
  obtain ⟨hdom, hother, hoffset⟩ :=
    loadDomain_keeps d (timeSetValue x.payload + (960 * 2 - c) * (s.dom d).inc / 960) true s
  refine ⟨_, ?_, ?_, ?_, ?_, hother, hoffset⟩
  · rw [execTimeSetApply_found h, hruns, timeSetDue_edge hwait hedge hsince, ← hload]
    rfl
  all_goals rw [hdom]

theorem execTimeSetEdgeTimeout_found {x : Pend} (h : s.timeSetPend d = some x) :
    exec (.timeSetEdgeTimeout d) s = .next (if x.wait = .timeEdge d ∧ (s.dom d).setEdge.isNone ∧ 128000 ≤ s.since x.since then
      postStatus x.slot .busy s else s) := by
  change execTimeSetEdgeTimeout d s = _
  unfold execTimeSetEdgeTimeout
  rw [h]

theorem timeSetEdgeTimeout_completes {x : Pend} (h : s.timeSetPend d = some x) (hwait : x.wait = .timeEdge d)
    (hedge : (s.dom d).setEdge = none) :
    (128000 ≤ s.since x.since → exec (.timeSetEdgeTimeout d) s = .next (postStatus x.slot .busy s)) ∧
    (s.since x.since < 128000 → exec (.timeSetEdgeTimeout d) s = .next s) := by
  rw [execTimeSetEdgeTimeout_found h]
  refine ⟨fun hlate => congrArg Host.Outcome.next (if_pos ⟨hwait, by rw [hedge]; rfl, hlate⟩), fun hsoon =>
    congrArg Host.Outcome.next (if_neg ?_)⟩
  rintro ⟨-, -, hlate⟩
  omega

theorem timeSet_idle (h : s.timeSetPend d = none) :
    exec (.timeSetApply d) s = .next s ∧ exec (.timeSetEdgeTimeout d) s = .next s := by
  refine ⟨?_, ?_⟩
  · change execTimeSetApply d s = _
    unfold execTimeSetApply
    rw [h]
  · change execTimeSetEdgeTimeout d s = _
    unfold execTimeSetEdgeTimeout
    rw [h]

theorem slewComplete_completes (h : s.time.slewDone = true) : ∃ t, exec .slewComplete s = .next t ∧
    t.time = { s.time with slewDone := false } ∧ t.core = s.core :=
  ⟨_, congrArg Host.Outcome.next (if_pos h), notice_time .., notice_core ..⟩

end

/-! ## Triggers (R393 to R395) -/

/-- Frame and time bases are as they were, but for the actions owed. -/
structure TimeKept (s t : State) : Prop where
  frame : t.frame = s.frame
  time : t.time = { s.time with owed := t.time.owed }

theorem TimeKept.trans {a b c : State} (h : TimeKept a b) (k : TimeKept b c) : TimeKept a c :=
  ⟨k.frame.trans h.frame, Eq.trans k.time (by rw [h.time])⟩

theorem TimeKept.of_eq {s t : State} (hframe : t.frame = s.frame) (htime : t.time = s.time) : TimeKept s t :=
  ⟨hframe, by rw [htime]⟩

theorem notice_timeKept (code : W16) (k : Kind) (args : W64) (s : State) : TimeKept s (notice code k args s) :=
  .of_eq (notice_frame ..) (notice_time ..)

theorem modHeater_timeKept (p : PortId) (f : Heater → Heater) (s : State) : TimeKept s (s.modHeater p f) :=
  .of_eq (State.modHeater_frame ..) (State.modHeater_time ..)

theorem deferralNotice_timeKept (p : PortId) (kind cause : Nat) (s : State) :
    TimeKept s (deferralNotice p kind cause s) := by
  unfold deferralNotice
  dsimp only
  split
  · exact TimeKept.trans (b := s.modLedger _) (.of_eq rfl rfl) (notice_timeKept ..)
  · exact .of_eq rfl rfl

theorem countCut_timeKept (p : PortId) (s : State) : TimeKept s (countCut p s) := by
  unfold countCut
  dsimp only
  split
  · exact TimeKept.trans (b := s.modLedger _) (.of_eq rfl rfl) (deferralNotice_timeKept ..)
  · exact .of_eq rfl rfl

theorem beginDue_timeKept (p : PortId) (s : State) : TimeKept s (beginDue p s) := by
  unfold beginDue drive
  dsimp only
  split
  · split
    · exact .of_eq rfl rfl
    · exact ((modHeater_timeKept ..).trans (modHeater_timeKept ..)).trans (countCut_timeKept ..)
  · exact .of_eq rfl rfl

theorem startProfile_timeKept (p : PortId) (s : State) : TimeKept s (startProfile p s) := by
  unfold startProfile
  split
  · split
    · exact modHeater_timeKept ..
    · exact .of_eq rfl rfl
  · exact .of_eq rfl rfl

theorem startNow_timeKept (p : PortId) (s : State) : TimeKept s (startNow p s) :=
  (startProfile_timeKept p s).trans (beginDue_timeKept ..)

theorem skipAction_timeKept (k : Fin 16) (reason : Nat) (s : State) : TimeKept s (skipAction k reason s) :=
  notice_timeKept ..

theorem triggerSeq_timeKept (k : Fin 16) (s : State) : TimeKept s (triggerSeq k s) := by
  unfold triggerSeq
  split
  · exact .of_eq rfl rfl
  · split
    · exact .of_eq rfl rfl
    · exact skipAction_timeKept ..

theorem triggerHeat_timeKept (k : Fin 16) (p : PortId) (s : State) : TimeKept s (triggerHeat k p s) := by
  unfold triggerHeat
  dsimp only
  split
  · split
    · exact modHeater_timeKept ..
    · exact startNow_timeKept ..
  · exact skipAction_timeKept ..

theorem skipGauze_timeKept (p : PortId) (c : Nat) (s : State) : TimeKept s (skipGauze p c s) :=
  TimeKept.trans (.of_eq (State.modGauzeAt_frame ..) (State.modGauzeAt_time ..)) (notice_timeKept ..)

theorem triggerGauze_timeKept (k : Fin 16) (p : PortId) (s : State) : TimeKept s (triggerGauze k p s) := by
  unfold triggerGauze
  split
  · split
    · exact (skipGauze_timeKept ..).trans (skipAction_timeKept ..)
    · exact .of_eq (State.modGauzeAt_frame ..) (State.modGauzeAt_time ..)
  · exact skipAction_timeKept ..

theorem triggerAction_timeKept (k : Fin 16) (tr : Trigger) (s : State) : TimeKept s (triggerAction k tr s) := by
  unfold triggerAction
  split
  · exact skipAction_timeKept ..
  · split
    · exact triggerSeq_timeKept ..
    · split
      · exact triggerHeat_timeKept ..
      · split
        · exact triggerGauze_timeKept ..
        · exact .of_eq rfl rfl

theorem wakeEvent_rest (b : Bool) (s : State) : wakeEvent b s = { s with core := (wakeEvent b s).core } := by
  cases b with
  | true =>
    unfold wakeEvent
    rw [if_pos rfl]
    dsimp only
    split
    · rfl
    · rfl
  | false =>
    unfold wakeEvent
    rw [if_neg Bool.false_ne_true]
    dsimp only
    split
    · rfl
    · rfl

theorem triggerTaken_timeKept (k : Fin 16) (tr : Trigger) (s : State) : TimeKept s (triggerTaken k tr s) := by
  unfold triggerTaken
  split
  · split
    · refine ⟨?_, ?_⟩
      · rw [wakeEvent_rest]
        rfl
      · rw [wakeEvent_rest]
        rfl
    · exact skipAction_timeKept ..
  · exact triggerAction_timeKept ..

theorem trigBehind_congr {s t : State} (h : TimeKept s t) (tr : Trigger) : t.trigBehind tr = s.trigBehind tr := by
  unfold State.trigBehind State.trigDomain
  rw [h.frame, h.time]

section
variable {s : State} {k : Fin 16} {tr : Trigger}

/-- The trigger's move touches the triggers and tells of a time missed. -/
theorem advanceTrigger_rest (k : Fin 16) (tr : Trigger) (s : State) :
    (advanceTrigger k tr s).time = { s.time with triggers := (advanceTrigger k tr s).time.triggers } ∧
      (advanceTrigger k tr s).core = s.core ∧ (advanceTrigger k tr s).gas = s.gas ∧ (advanceTrigger k tr s).seq = s.seq ∧
      (advanceTrigger k tr s).heat = s.heat ∧ (advanceTrigger k tr s).gauze = s.gauze := by
  unfold advanceTrigger
  dsimp only
  split
  · split
    · exact ⟨rfl, rfl, rfl, rfl, rfl, rfl⟩
    · rw [notice_time, notice_core, notice_gas, notice_seq, notice_heat, notice_gauze]
      exact ⟨rfl, rfl, rfl, rfl, rfl, rfl⟩
  · exact ⟨rfl, rfl, rfl, rfl, rfl, rfl⟩

theorem advanceTrigger_once (h : tr.repeats = false) :
    (advanceTrigger k tr s).time.triggers = s.time.triggers.set k none := by
  unfold advanceTrigger
  rw [if_neg (ne_true_of_eq_false h)]
  rfl

theorem advanceTrigger_repeats (h : tr.repeats = true) :
    (advanceTrigger k tr s).time.triggers = s.time.triggers.set k (some (tr.move (s.trigBehind tr + 1))) := by
  unfold advanceTrigger
  rw [if_pos h]
  dsimp only
  split
  · rfl
  · rw [notice_time]
    rfl

theorem triggerTaken_waking (hdoze : s.core.doze = true) (hwake : tr.wake = true) :
    (triggerTaken k tr s).time.owed = s.time.owed ++ [(k, tr)] := by
  unfold triggerTaken
  rw [if_pos hdoze, if_pos hwake, wakeEvent_rest]
  rfl

theorem triggerTaken_dozing (hdoze : s.core.doze = true) (hwake : tr.wake = false) :
    triggerTaken k tr s = skipAction k 0 s := by
  unfold triggerTaken
  rw [if_pos hdoze, if_neg (ne_true_of_eq_false hwake)]

theorem triggerTaken_measuring (h : s.measuring = true) : triggerTaken k tr s = triggerAction k tr s := by
  simp only [State.measuring, Bool.and_eq_true, Bool.not_eq_true'] at h
  unfold triggerTaken
  rw [if_neg (ne_true_of_eq_false h.2)]

/-- Outside measurement a trigger wakes or is skipped. -/
theorem triggerTaken_idle (h : s.measuring = false) : (triggerTaken k tr s).gas = s.gas ∧
    (triggerTaken k tr s).seq = s.seq ∧ (triggerTaken k tr s).heat = s.heat ∧ (triggerTaken k tr s).gauze = s.gauze := by
  have hskip : (skipAction k 0 s).gas = s.gas ∧ (skipAction k 0 s).seq = s.seq ∧ (skipAction k 0 s).heat = s.heat ∧
      (skipAction k 0 s).gauze = s.gauze := ⟨notice_gas .., notice_seq .., notice_heat .., notice_gauze ..⟩
  unfold triggerTaken
  split
  · split
    · rw [wakeEvent_rest]
      exact ⟨rfl, rfl, rfl, rfl⟩
    · exact hskip
  · unfold triggerAction
    rw [h]
    exact hskip

theorem triggerAction_gas (h : s.measuring = true) (haction : tr.action = 4) :
    triggerAction k tr s = s.modGas fun g => { g with oneShot := true } := by
  unfold triggerAction
  rw [h, haction]
  rfl

theorem triggerAction_seq (h : s.measuring = true) (haction : tr.action = 1) (hstopped : s.seq.running = false)
    (hwarm : s.refWarm = true) (hheld : s.convHeld = false) :
    triggerAction k tr s = s.modSeq fun q => { q with startAsked := true } := by
  unfold triggerAction triggerSeq
  rw [h, haction, hstopped, hwarm, hheld]
  rfl

theorem execTimeTrigger_armed (harmed : s.time.triggers[k]'k.isLt = some tr) : exec (.timeTrigger k) s =
    .next (if s.triggersRun && s.trigReached tr then advanceTrigger k tr (triggerTaken k tr s) else s) := by
  change execTimeTrigger k s = _
  unfold execTimeTrigger
  rw [harmed]

theorem timeTrigger_completes (harmed : s.time.triggers[k]'k.isLt = some tr) (hruns : s.triggersRun = true)
    (hreached : s.trigReached tr = true) : ∃ t, exec (.timeTrigger k) s = .next t ∧
      (tr.repeats = false → t.time.triggers = s.time.triggers.set k none) ∧
      (tr.repeats = true → t.time.triggers = s.time.triggers.set k (some (tr.move (s.trigBehind tr + 1)))) ∧
      (s.core.doze = true → tr.wake = true → t.time.owed = s.time.owed ++ [(k, tr)]) ∧
      (s.core.doze = true → tr.wake = false → t.time.owed = s.time.owed ∧ t.core = s.core) ∧
      (s.measuring = true → tr.action = 4 → t.gas = { s.gas with oneShot := true }) ∧
      (s.measuring = true → tr.action = 1 → s.seq.running = false → s.refWarm = true → s.convHeld = false →
        t.seq = { s.seq with startAsked := true }) ∧
      (s.measuring = false → t.gas = s.gas ∧ t.seq = s.seq ∧ t.heat = s.heat ∧ t.gauze = s.gauze) := by
  have hexec := execTimeTrigger_armed harmed
  rw [hruns, hreached] at hexec
  have hkept := triggerTaken_timeKept k tr s
  have htriggers : (triggerTaken k tr s).time.triggers = s.time.triggers := by rw [hkept.time]
  obtain ⟨htime, hcore, hgas, hseq, hheat, hgauze⟩ := advanceTrigger_rest k tr (triggerTaken k tr s)
  have howed : (advanceTrigger k tr (triggerTaken k tr s)).time.owed = (triggerTaken k tr s).time.owed := by rw [htime]
  refine ⟨_, hexec, fun honce => ?_, fun hrepeats => ?_, fun hdoze hwake => ?_, fun hdoze hwake => ⟨?_, ?_⟩,
    fun hrun haction => ?_, fun hrun haction hstopped hwarm hheld => ?_, fun hidle => ?_⟩
  · exact (advanceTrigger_once honce).trans (by rw [htriggers])
  · exact (advanceTrigger_repeats hrepeats).trans (by rw [htriggers, trigBehind_congr hkept])
  · exact howed.trans (triggerTaken_waking hdoze hwake)
  · refine howed.trans ?_
    rw [triggerTaken_dozing hdoze hwake]
    exact congrArg Time.owed (notice_time ..)
  · refine hcore.trans ?_
    rw [triggerTaken_dozing hdoze hwake]
    exact notice_core ..
  · refine hgas.trans ?_
    rw [triggerTaken_measuring hrun, triggerAction_gas hrun haction]
    rfl
  · refine hseq.trans ?_
    rw [triggerTaken_measuring hrun, triggerAction_seq hrun haction hstopped hwarm hheld]
    rfl
  · obtain ⟨igas, iseq, iheat, igauze⟩ := triggerTaken_idle (k := k) (tr := tr) hidle
    exact ⟨hgas.trans igas, hseq.trans iseq, hheat.trans iheat, hgauze.trans igauze⟩

theorem execTimeTrigger_early (harmed : s.time.triggers[k]'k.isLt = some tr) (hreached : s.trigReached tr = false) :
    exec (.timeTrigger k) s = .next s := by
  rw [execTimeTrigger_armed harmed, hreached, Bool.and_false]
  rfl

theorem execTimeTrigger_disarmed (h : s.time.triggers[k]'k.isLt = none) : exec (.timeTrigger k) s = .next s := by
  change execTimeTrigger k s = _
  unfold execTimeTrigger
  rw [h]

end

/-- Settles O58: an edge by the window and the servo, a setting by what it waits for, a trigger by its time. -/
theorem timeEvents : Obligations.TimeEvents := by
  intro s d
  refine ⟨fun k c hstamps => ⟨fun haccepts => ?_, fun hrejects => ?_⟩, fun k c hstamps => execPpsEdge_unstamped hstamps,
    ppsAbsent_completes, fun hdue => congrArg Host.Outcome.next (if_neg (ne_true_of_eq_false hdue)),
    fun x hx => ⟨fun hdue => ?_, fun k hwait hdue hruns => execTimeSetApply_boundary hx hwait hdue hruns,
      fun lt c hwait hedge hsince hruns => execTimeSetApply_edge hx hwait hedge hsince hruns,
      timeSetEdgeTimeout_completes hx⟩,
    timeSet_idle, slewComplete_completes, fun hdone => congrArg Host.Outcome.next (if_neg (ne_true_of_eq_false hdone)),
    fun k tr harmed => ⟨timeTrigger_completes harmed, execTimeTrigger_early harmed⟩, fun k => execTimeTrigger_disarmed⟩
  · obtain ⟨t, hexec, hedge, hservo, hhost⟩ := ppsEdge_completes hstamps haccepts
    refine ⟨t, hexec, ?_, ?_, ?_, ?_, ?_, ?_, ?_, hedge.other, hservo, hhost, hedge.offset, hedge.core⟩
    all_goals
      rw [hedge.dom]
      rfl
  · obtain ⟨m, hdom, hother, hcore⟩ := outlier_completes d s
    exact ⟨_, m, execPpsEdge_outlier hstamps hrejects, hdom, hother, hcore⟩
  · rw [execTimeSetApply_found hx, hdue, Bool.and_false]
    rfl

end Sys2Proof.Machine
end

section
-- One declaration after another: the whole text is compiled as one file, within a limit on memory.
set_option Elab.async false
/-!
The device's own commands and events (spec/01, spec/17): the SYS family, the end of DOZE, the clock's discipline; and
the events of a port (spec/03, spec/04).
-/

namespace Sys2Proof.Machine

/-! ## What the end of a calibration or a port leaves: the core, and of a port all but its inputs -/

/-- The core is as it was, and of the ports only inputs changed. -/
structure CalOnly (s t : State) : Prop where
  core : t.core = s.core
  port : ∀ q : PortId, t.ports[q]'q.isLt = { (s.ports[q]'q.isLt) with inputs := (t.ports[q]'q.isLt).inputs }

theorem CalOnly.of_eq {s t : State} (hcore : t.core = s.core) (hports : t.ports = s.ports) : CalOnly s t :=
  ⟨hcore, fun q => by rw [hports]⟩

theorem CalOnly.refl (s : State) : CalOnly s s := .of_eq rfl rfl

theorem CalOnly.trans {a b c : State} (h : CalOnly a b) (k : CalOnly b c) : CalOnly a c :=
  ⟨k.core.trans h.core, fun q => Eq.trans (k.port q) (by rw [h.port q])⟩

theorem CalOnly.foldl {α : Type} {f : State → α → State} (h : ∀ s a, CalOnly s (f s a)) (l : List α) (s : State) :
    CalOnly s (l.foldl f s) := by
  induction l generalizing s with
  | nil => exact .refl s
  | cons a l ih => exact (h s a).trans (ih _)

theorem TellOnly.cals {s t : State} (h : TellOnly s t) : CalOnly s t := .of_eq h.core h.ports

theorem holdOver_cals (p : PortId) (s : State) : CalOnly s (holdOver p s) := by
  refine ⟨rfl, fun q => ?_⟩
  unfold holdOver
  dsimp only
  rw [State.modGas_ports]
  by_cases hq : q = p
  · subst hq
    rw [State.modPort_same]
  · rw [State.modPort_other hq]

theorem dropSession_cals (p : PortId) (s : State) : CalOnly s (dropSession p s) :=
  (CalOnly.trans (a := s) (b := s.modCal _) (.of_eq rfl rfl) (holdOver_cals ..)).trans (completeWhere_tells ..).cals

theorem endSession_cals (p : PortId) (cause : Nat) (s : State) : CalOnly s (endSession p cause s) := by
  unfold endSession
  split
  · split
    · exact dropSession_cals ..
    · exact (dropSession_cals ..).trans (notice_tells ..).cals
  · exact .refl s

theorem endElec_cals (t : CalTarget) (s : State) : CalOnly s (endElec t s) := by
  have hcal : ∀ f, CalOnly s (s.modCal f) := fun _ => .of_eq rfl rfl
  unfold endElec
  dsimp only
  split
  · cases t
    · exact ((hcal _).trans (holdOver_cals ..)).trans (completeWhere_tells ..).cals
    · exact (hcal _).trans (completeWhere_tells ..).cals
    · exact (hcal _).trans (completeWhere_tells ..).cals
    · exact (hcal _).trans (completeWhere_tells ..).cals
  · exact hcal _

theorem elecLeaves_cals (s : State) : CalOnly s (elecLeaves s) := .foldl (fun s t => endElec_cals t s) _ s

theorem calLeaves_cals (s : State) : CalOnly s (calLeaves s) := by
  refine .foldl (fun s p => ?_) _ s
  dsimp only
  split
  · exact (endSession_cals ..).trans (endElec_cals ..)
  · exact endSession_cals ..

theorem portLeaves_cals (p : PortId) (s : State) : CalOnly s (portLeaves p s) := by
  have hsession : CalOnly s (if (s.ports[p]'p.isLt).state = .running then endSession p 2 s else s) := by
    split
    · exact endSession_cals ..
    · exact .refl s
  unfold portLeaves
  extract_lets s1
  have hs1 : CalOnly s s1 := hsession
  clear_value s1
  split
  · exact hs1.trans (endElec_cals ..)
  · exact hs1

theorem dropUrgent_cals (s : State) : CalOnly s (dropUrgent s) :=
  CalOnly.trans (b := s.modSeq _) (.of_eq rfl rfl) (completeWhere_tells ..).cals

theorem skipOwed_cals (s : State) : CalOnly s (skipOwed s) :=
  CalOnly.trans (b := s.modTime _) (.of_eq rfl rfl) (TellOnly.foldl (fun _ _ => notice_tells ..) _ _).cals

theorem endMeasuring_cals (s : State) : CalOnly s (endMeasuring s) := .of_eq rfl rfl

theorem closeRun_cals (p : PortId) (s : State) : CalOnly s (closeRun p s) := by
  unfold closeRun gauzeDiscard gauzeDiscardFor
  dsimp only
  split
  · exact .of_eq rfl rfl
  · split
    · exact .refl s
    · split
      · exact .of_eq rfl rfl
      · exact .of_eq rfl rfl

theorem endGauze_cals (p : PortId) (s : State) : CalOnly s (endGauze p s) :=
  ((closeRun_cals p s).trans (.of_eq (State.modGauzeAt_core ..) (State.modGauzeAt_ports ..))).trans
    (completeWhere_tells ..).cals

/-- What stands of a port before its drivers are released. -/
theorem dropPort_released (p : PortId) (st : PortState) (s : State) : ∃ t, CalOnly s t ∧
    dropPort p st s = t.modPort p (Port.down st) :=
  ⟨_, ((portLeaves_cals p s).trans (.of_eq (State.modHeater_core ..) (State.modHeater_ports ..))).trans
    (endGauze_cals ..), rfl⟩

/-- The ports are as they were but for their inputs. -/
def InputsOnly (s t : State) : Prop := ∀ q : PortId, t.ports[q]'q.isLt = { (s.ports[q]'q.isLt) with inputs := (t.ports[q]'q.isLt).inputs }

theorem enterDev_ports (d : Dev) (s : State) : (enterDev d s).ports = s.ports := by
  have hset : (setDev d s).ports = s.ports := by
    unfold setDev
    split
    · rfl
    · rfl
  unfold enterDev
  dsimp only
  split
  · exact (notice_ports ..).trans hset
  · exact hset

theorem finishStop_inputs (s : State) : InputsOnly s (finishStop s) := by
  have hend : CalOnly s (skipOwed (endMeasuring (calLeaves s))) :=
    ((calLeaves_cals s).trans (endMeasuring_cals _)).trans (skipOwed_cals _)
  have hheld : CalOnly s (if s.core.stopToHeld then dropUrgent (elecLeaves (skipOwed (endMeasuring (calLeaves s))))
      else skipOwed (endMeasuring (calLeaves s))) := by
    split
    · exact (hend.trans (elecLeaves_cals _)).trans (dropUrgent_cals _)
    · exact hend
  unfold finishStop
  dsimp only
  split
  · intro q
    rw [(completeWhere_tells ..).ports, enterDev_ports, State.modCore_ports]
    exact hheld.port q
  · exact fun q => rfl

/-! ## The SYS family (R364, R365) -/

section
variable {s : State} {n : SlotId} {p : List Byte}

theorem execSysStart_eq (h : s.request n 0x0101 p) : exec (.sysStart n) s = .next (
    if s.startShort then postStatus n .ledgerShort s
    else pendOn n 0x0101 p .sysStart (if (refEnable s).frame.started then (refEnable s).frameIn (refEnable s).startBoundaries
      else 0xFFFFFFFF) (refEnable s)) :=
  congrArg Host.Outcome.next (onSlot_request h)

theorem refEnable_core (s : State) : (refEnable s).core.refOn = true ∧ (refEnable s).core.dev = s.core.dev := by
  unfold refEnable State.modCore
  dsimp only
  split
  · next hon => exact ⟨hon, rfl⟩
  · exact ⟨rfl, rfl⟩

theorem sysStart_completes (h : s.request n 0x0101 p) :
    (s.startShort = true → exec (.sysStart n) s = .next (postStatus n .ledgerShort s)) ∧
    (s.startShort = false → ∃ t f, exec (.sysStart n) s = .next (pendOn n 0x0101 p .sysStart f t) ∧
      t = refEnable s ∧ t.core.refOn = true ∧ t.core.dev = s.core.dev ∧ (s.frame.started = false → f = 0xFFFFFFFF)) := by
  rw [execSysStart_eq h]
  refine ⟨fun hshort => congrArg Host.Outcome.next (if_pos hshort), fun hcovered => ?_⟩
  obtain ⟨hon, hdev⟩ := refEnable_core s
  exact ⟨_, _, congrArg Host.Outcome.next (if_neg (ne_true_of_eq_false hcovered)), rfl, hon, hdev,
    fun hframe => if_neg (ne_true_of_eq_false hframe)⟩

theorem holdFromReady_core (s : State) :
    (holdFromReady s).core = { s.core with hcause := .hostHold, startAuto := false, dev := .held } := by
  unfold holdFromReady
  rw [enterDev_core, (dropUrgent_cals _).core, (elecLeaves_cals _).core]
  rfl

theorem execSysHold_eq (h : s.request n 0x0103 p) : exec (.sysHold n) s = .next (
    if s.core.dev = .ready then postStatus n .ok (holdFromReady s) else pendBoundary n 0x0103 p 1 s) :=
  congrArg Host.Outcome.next (onSlot_request h)

theorem sysHold_completes (h : s.request n 0x0103 p) :
    (s.core.dev = .ready → ∃ t, exec (.sysHold n) s = .next t ∧ t.core.dev = .held ∧
      t.core.hcause = .hostHold ∧ t.core.startAuto = false) ∧
    (s.core.dev = .run → exec (.sysHold n) s = .next (pendBoundary n 0x0103 p 1 s)) := by
  rw [execSysHold_eq h]
  refine ⟨fun hready => ⟨_, congrArg Host.Outcome.next (if_pos hready), ?_⟩, fun hrun =>
    congrArg Host.Outcome.next (if_neg (by rw [hrun]; decide))⟩
  rw [postStatus_core, holdFromReady_core]
  exact ⟨rfl, rfl, rfl⟩

theorem execSysReset_eq (h : s.request n 0x0106 p) (hkey : u8 p 0 = 0x5A) : exec (.sysReset n) s = .next (
    if s.nvmBusy then postStatus n .busy s
    else (postStatus n .ok s).modCore fun c => { c with resetPosted := some c.lt }) := by
  change execSysReset n s = _
  unfold execSysReset
  rw [onSlot_request h, if_neg (not_not.mpr hkey)]

theorem sysReset_completes (h : s.request n 0x0106 p) (hkey : u8 p 0 = 0x5A) :
    (s.nvmBusy = true → exec (.sysReset n) s = .next (postStatus n .busy s)) ∧
    (s.nvmBusy = false → ∃ t, exec (.sysReset n) s = .next t ∧ t.core.resetPosted = some s.core.lt ∧
      (t.mbox.slots[n]'n.isLt).st = .done ∧ u8 (t.mbox.slots[n]'n.isLt).bytes.toList 4 = 0 ∧ t.core.dev = s.core.dev ∧
      t.core.lt = s.core.lt ∧ t.rings = s.rings) := by
  rw [execSysReset_eq h hkey]
  refine ⟨fun hbusy => congrArg Host.Outcome.next (if_pos hbusy), fun hidle =>
    ⟨_, congrArg Host.Outcome.next (if_neg (ne_true_of_eq_false hidle)), ?_⟩⟩
  obtain ⟨hdone, hcode⟩ := postStatus_done (n := n) (st := .ok) (posts_of_request h (by decide) (by decide))
  refine ⟨?_, hdone, hcode, ?_, ?_, ?_⟩
  · exact congrArg (fun c : Core => some c.lt) (postStatus_core ..)
  · exact (congrArg Core.dev (postStatus_core n .ok s) : (postStatus n .ok s).core.dev = s.core.dev)
  · exact (congrArg Core.lt (postStatus_core n .ok s) : (postStatus n .ok s).core.lt = s.core.lt)
  · rw [State.modCore_rings, postStatus_rings]

theorem chunk_barred {c : ChunkCmd} {st : Status} (hbar : c.bar s = some st) : chunk c n p s = postStatus n st s := by
  unfold chunk
  dsimp only
  rw [hbar]

theorem leNat_lt (l : List Byte) : leNat l < 256 ^ l.length := by
  induction l with
  | nil => decide
  | cons b l ih =>
    have hb := b.isLt
    rw [leNat, List.length_cons, Nat.pow_succ]
    omega

theorem u16_lt (l : List Byte) (i : Nat) : u16 l i < 65536 :=
  (leNat_lt _).trans_le (Nat.pow_le_pow_right (by decide) (List.length_take_le ..) : 256 ^ (slice l i 2).length ≤ 256 ^ 2)

theorem lastChunk_length {op sel : Nat} {o : List Byte} (h : s.lastChunk n op sel o) : o.length < 65536 := by
  obtain ⟨p, -, -, htotal, -⟩ := h
  exact htotal ▸ u16_lt p 4

theorem sysPatch_completes {o : List Byte} (h : s.lastChunk n 0x0109 0 o) (hsome : 0 < o.length)
    (hwrites : s.nvmAllowed = true) :
    (s.lock.level ≠ 0 → exec (.sysPatch n) s =
      .next (pendOn n 0x0109 o .patch s.frame.number (dropStaging 0x0109 0 s))) ∧
    (s.lock.level = 0 → exec (.sysPatch n) s = .next (postStatus n .locked s)) := by
  have hlen := lastChunk_length h
  have htotal : sysPatchCmd.totalOk 0 o.length = true := 
    decide_eq_true ⟨hsome, hlen.le.trans (show 65536 ≤ 1024 * 256 by decide)⟩
  refine ⟨fun hopen => ?_, fun hsealed => ?_⟩
  · exact congrArg Host.Outcome.next ((onSlot_lastChunk (c := sysPatchCmd) h rfl rfl rfl rfl htotal (if_neg hopen) rfl).trans
      (if_pos hwrites))
  · obtain ⟨p, hreq, -⟩ := h
    exact congrArg Host.Outcome.next ((onSlot_request hreq).trans (chunk_barred (c := sysPatchCmd) (if_pos hsealed)))

end

/-- Settles O39: each SYS command by the condition its rule names. -/
theorem sysCommands : Obligations.SysCommands := by
  intro s n p
  refine ⟨sysStart_completes, fun h => congrArg Host.Outcome.next (onSlot_request h), sysHold_completes, fun h => ?_,
    fun h => congrArg Host.Outcome.next (onSlot_request h), sysReset_completes, fun h => ?_, fun h =>
      ⟨_, congrArg Host.Outcome.next (onSlot_request h), rfl, rfl, rfl, toNat_byte (by omega), rfl⟩,
    fun o => sysPatch_completes⟩
  · have hexec : exec (.sysRelease n) s = .next (if s.bolt.hasCommitted then pendBoundary n 0x0104 p 1 s
        else postStatus n .boltInvalid s) := congrArg Host.Outcome.next (onSlot_request h)
    rw [hexec]
    exact ⟨fun hbolt => congrArg Host.Outcome.next (if_pos hbolt),
      fun hbolt => congrArg Host.Outcome.next (if_neg (ne_true_of_eq_false hbolt))⟩
  · have hexec : exec (.sysRecover n) s = .next (if s.severeUncleared then postStatus n .wrongState s
        else pendBoundary n 0x0107 p 1 s) := congrArg Host.Outcome.next (onSlot_request h)
    rw [hexec]
    exact ⟨fun hsevere => congrArg Host.Outcome.next (if_pos hsevere),
      fun hsevere => congrArg Host.Outcome.next (if_neg (ne_true_of_eq_false hsevere))⟩

/-! ## The end of DOZE, a patch, the clock's discipline -/

section
variable {s : State}

theorem execWakeComplete_waking {w : Waking} (hwaking : s.core.waking = some w) (hdoze : s.core.doze = true) :
    exec .wakeComplete s = .next (completeWake w s) := by
  change execWakeComplete s = _
  unfold execWakeComplete
  rw [hwaking]
  exact congrArg Host.Outcome.next (if_pos hdoze)

theorem execWakeComplete_idle (h : s.core.waking = none ∨ s.core.doze = false) : exec .wakeComplete s = .next s := by
  change execWakeComplete s = _
  unfold execWakeComplete
  obtain h | h := h
  · rw [h]
  · rw [h]
    split
    · rfl
    · rfl

/-- The wake as the cause of ATTN tells of it. -/
def wakeTold (w : Waking) (s : State) : State := if w.byBus then leaveDoze s else attn .wake (leaveDoze s)

theorem wakeTold_keeps (w : Waking) (s : State) : (wakeTold w s).core = (leaveDoze s).core ∧
    (wakeTold w s).time = s.time ∧ (w.byBus = false → (wakeTold w s).bus.attn.getLsbD 9 = true) ∧
    (w.byBus = true → (wakeTold w s).bus.attn = s.bus.attn) := by
  unfold wakeTold
  split
  · next hbus => exact ⟨rfl, rfl, fun h => absurd (hbus.symm.trans h) (by decide), fun _ => rfl⟩
  · next hbus =>
    refine ⟨rfl, rfl, fun _ => ?_, fun h => absurd h hbus⟩
    rw [attn_attn, BitVec.getLsbD_or]
    exact Bool.or_true _

theorem completeWake_run {w : Waking} (hrun : s.core.dev = .run) :
    completeWake w s = (wakeTold w s).modCore fun c => { c with wakeResume := true } :=
  if_pos ((congrArg Core.dev (wakeTold_keeps w s).1).trans hrun)

theorem owedActions_none (h : s.time.owed = []) : owedActions s = s.modTime fun x => { x with owed := [] } := by
  unfold owedActions
  rw [h]
  rfl

theorem completeWake_ready {w : Waking} (hready : s.core.dev = .ready) (href : s.core.refWasOn = true)
    (howed : s.time.owed = []) :
    completeWake w s = (refEnable (wakeTold w s)).modTime fun x => { x with owed := [] } := by
  obtain ⟨hcore, htime, -⟩ := wakeTold_keeps w s
  have hrun : ¬ (wakeTold w s).core.dev = .run := by
    rw [hcore]
    exact fun h => absurd (hready.symm.trans h) (by decide)
  have hwas : (wakeTold w s).core.refWasOn = true := by rw [hcore]; exact href
  have hnone : (refEnable (wakeTold w s)).time.owed = [] := by
    refine Eq.trans ?_ howed
    rw [← htime]
    rfl
  refine (if_neg hrun).trans ?_
  rw [← owedActions_none hnone]
  exact congrArg owedActions (if_pos hwas)

theorem wakeComplete_completes {w : Waking} (hwaking : s.core.waking = some w) (hdoze : s.core.doze = true) :
    (s.core.dev = .run → ∃ t, exec .wakeComplete s = .next t ∧ t.core.doze = false ∧ t.core.wakeResume = true ∧
      t.core.waking = none ∧ t.core.dev = .run ∧ (w.byBus = false → t.bus.attn.getLsbD 9 = true) ∧
      (w.byBus = true → t.bus.attn = s.bus.attn)) ∧
    (s.core.dev = .ready → s.core.refWasOn = true → s.time.owed = [] →
      ∃ t, exec .wakeComplete s = .next t ∧ t.core.doze = false ∧ t.core.refOn = true ∧ t.core.dev = .ready) := by
  rw [execWakeComplete_waking hwaking hdoze]
  obtain ⟨hcore, -, hset, hkept⟩ := wakeTold_keeps w s
  refine ⟨fun hrun => ⟨_, rfl, ?_⟩, fun hready href howed => ⟨_, rfl, ?_⟩⟩
  · rw [completeWake_run hrun]
    refine ⟨congrArg Core.doze hcore, rfl, congrArg Core.waking hcore, (congrArg Core.dev hcore).trans hrun, hset, hkept⟩
  · rw [completeWake_ready hready href howed]
    obtain ⟨hon, hdev⟩ := refEnable_core (wakeTold w s)
    refine ⟨?_, hon, hdev.trans ((congrArg Core.dev hcore).trans hready)⟩
    have hfree : (refEnable (wakeTold w s)).core.doze = (wakeTold w s).core.doze := by
      unfold refEnable State.modCore
      dsimp only
      split
      · rfl
      · rfl
    exact hfree.trans (congrArg Core.doze hcore)

/-- A record touches the box and the words of its checker. -/
theorem boxRecord_rest (type : Byte) (args : W64) (s : State) : boxRecord type args s =
    { s with box := (boxRecord type args s).box, faults := (boxRecord type args s).faults } := by
  unfold boxRecord
  dsimp only
  split
  · rfl
  · rfl

theorem posts_congr {s t : State} (h : t.core.reeveRuns = s.core.reeveRuns ∧ t.core.doze = s.core.doze ∧
    t.core.resetPosted = s.core.resetPosted) : t.posts = s.posts := by
  obtain ⟨hruns, hdoze, hposted⟩ := h
  unfold State.posts
  rw [hruns, hdoze, hposted]

theorem patchProgrammed_completes {x : Pend} (hfind : s.mbox.pend.find? (·.wait == .patch) = some x)
    (hwrites : s.nvmAllowed = true) : ∃ t, exec .patchProgrammed s = .next t ∧
      t.core.patchStored = Config.patchLevel x.payload ∧ t.core.patchLevel = s.core.patchLevel ∧
      (s.posts = true → (t.mbox.slots[x.slot]'x.slot.isLt).st = .done ∧
        u8 (t.mbox.slots[x.slot]'x.slot.isLt).bytes.toList 4 = 0) ∧ t.rings = s.rings := by
  let s1 := (s.modFaults (Faults.nvmWritten NvmRegion.patches.offset x.payload.length)).modCore fun c =>
    { c with patchStored := Config.patchLevel x.payload }
  let s2 := boxRecord 0x10 (argW 0 (Config.patchLevel x.payload).toNat) s1
  have hexec : exec .patchProgrammed s = .next (postStatus x.slot .ok s2) := by
    change execPatchProgrammed s = _
    unfold execPatchProgrammed
    rw [hfind]
    exact congrArg Host.Outcome.next (if_pos hwrites)
  have hcore : s2.core = { s.core with patchStored := Config.patchLevel x.payload } := boxRecord_core_dev ..
  have hrings : s2.rings = s.rings := by
    unfold s2
    rw [boxRecord_rest]
    rfl
  have hposts : s2.posts = s.posts := posts_congr (by rw [hcore]; exact ⟨rfl, rfl, rfl⟩)
  clear_value s2
  refine ⟨_, hexec, ?_, ?_, fun hs => postStatus_done (hposts.trans hs), ?_⟩
  · rw [postStatus_core, hcore]
  · rw [postStatus_core, hcore]
  · rw [postStatus_rings, hrings]

theorem patchProgrammed_idle (h : s.mbox.pend.find? (·.wait == .patch) = none ∨ s.nvmAllowed = false) :
    exec .patchProgrammed s = .next s := by
  change execPatchProgrammed s = _
  unfold execPatchProgrammed
  obtain h | h := h
  · rw [h]
  · rw [h]
    split
    · rfl
    · rfl

theorem disciplineSourcePresent_completes (hnamed : s.disciplines = true) (habsent : s.core.discPresent = false)
    (hnow : s.discNow = true) : ∃ t, exec .disciplineSourcePresent s = .next t ∧ t.core.discPresent = true ∧
      t.core.discEver = true ∧ t.core.clk = (if s.core.sys.discipline = 2 then .refclk else .fsync) ∧
      (s.core.discEver = false → t.rings = s.rings) ∧ t.frame = s.frame ∧ t.mbox = s.mbox := by
  let s1 := s.modCore fun c => { c with discPresent := true, discEver := true
                                        clk := if s.core.sys.discipline = 2 then .refclk else .fsync }
  have hexec : exec .disciplineSourcePresent s = .next (
      if s.core.discEver then notice 0x0102 .ordinary (argB 0 (discCode s1)) s1 else s1) :=
    congrArg Host.Outcome.next (if_pos (by rw [hnamed, habsent, hnow]; rfl))
  refine ⟨_, hexec, ?_⟩
  split
  · next hreturn =>
    rw [notice_core, notice_frame, notice_mbox]
    exact ⟨rfl, rfl, rfl, fun hfirst => absurd (hreturn.symm.trans hfirst) (by decide), rfl, rfl⟩
  · exact ⟨rfl, rfl, rfl, fun _ => rfl, rfl, rfl⟩

end

/-- Settles O40: a wake by the device state, a patch by its writes, the discipline by its source. -/
theorem deviceEvents : Obligations.DeviceEvents := by
  intro s
  refine ⟨fun w hwaking hdoze => wakeComplete_completes hwaking hdoze, execWakeComplete_idle,
    fun x hfind hwrites => patchProgrammed_completes hfind hwrites, patchProgrammed_idle,
    fun hnamed hthere hgone => congrArg Host.Outcome.next (if_pos (by rw [hnamed, hthere, hgone]; rfl)),
    fun h => congrArg Host.Outcome.next (if_neg ?_), disciplineSourcePresent_completes,
    fun h => congrArg Host.Outcome.next (if_neg ?_)⟩
  · obtain h | h := h <;> simp [h]
  · obtain h | h := h <;> simp [h]

/-! ## Events of a port -/

section
variable {s : State} {p : PortId}

theorem execBiasTargetReached_reached (hramp : (s.ports[p]'p.isLt).ramping = true) (hdriven : (s.ports[p]'p.isLt).driven = true)
    (hthere : (s.ports[p]'p.isLt).applied = (s.ports[p]'p.isLt).target) :
    exec (.biasTargetReached p) s = .next (s.modPort p (Port.reach s.core.lt)) :=
  congrArg Host.Outcome.next (if_pos (by rw [hramp, hdriven, decide_eq_true hthere]; rfl))

theorem biasTargetReached_completes (hramp : (s.ports[p]'p.isLt).ramping = true) (hdriven : (s.ports[p]'p.isLt).driven = true)
    (hthere : (s.ports[p]'p.isLt).applied = (s.ports[p]'p.isLt).target) :
    ∃ t, exec (.biasTargetReached p) s = .next t ∧ (t.ports[p]'p.isLt).ramping = false ∧
      (t.ports[p]'p.isLt).reachedAt = s.core.lt ∧ (t.ports[p]'p.isLt).applied = (s.ports[p]'p.isLt).applied ∧
      (t.ports[p]'p.isLt).state = (if (s.ports[p]'p.isLt).state = .starting then .running else (s.ports[p]'p.isLt).state) ∧
      ((s.ports[p]'p.isLt).settling = true → (s.ports[p]'p.isLt).state ≠ .stopping → (t.ports[p]'p.isLt).settleFrom = some s.core.lt) ∧
      (∀ q : PortId, q ≠ p → t.ports[q]'q.isLt = s.ports[q]'q.isLt) ∧ t.rings = s.rings := by
  refine ⟨_, execBiasTargetReached_reached hramp hdriven hthere, ?_⟩
  rw [State.modPort_same]
  exact ⟨rfl, rfl, rfl, rfl, fun hsettling hstate => if_pos ⟨hsettling, hstate⟩,
    fun q hq => State.modPort_other hq _ s, State.modPort_rings ..⟩

theorem portStopped_completes (hdue : s.stopDue p = true) (hstopping : s.core.stopping = false) :
    ∃ t, exec (.portStopped p) s = .next t ∧ (t.ports[p]'p.isLt).state = .stopped ∧ (t.ports[p]'p.isLt).applied = 0 ∧
      (t.ports[p]'p.isLt).settling = false ∧ t.core.dev = s.core.dev ∧
      (∀ q : PortId, q ≠ p → (t.ports[q]'q.isLt).state = (s.ports[q]'q.isLt).state) := by
  obtain ⟨t, hcal, hdrop⟩ := dropPort_released p .stopped s
  have htells := completeWhere_tells (·.wait == .portStop p) .ok (t.modPort p (Port.down .stopped))
  have hcore : (completeWhere (·.wait == .portStop p) .ok (t.modPort p (Port.down .stopped))).core = s.core :=
    htells.core.trans ((State.modPort_core ..).trans hcal.core)
  have hexec : exec (.portStopped p) s = .next (completeWhere (·.wait == .portStop p) .ok (t.modPort p (Port.down .stopped))) := by
    have hstop : exec (.portStopped p) s = .next (finishStop (completeWhere (·.wait == .portStop p) .ok (dropPort p .stopped s))) :=
      congrArg Host.Outcome.next (if_pos hdue)
    rw [hstop, hdrop, finishStop_idle (by rw [hcore]; exact hstopping)]
  refine ⟨_, hexec, ?_⟩
  rw [htells.ports, State.modPort_same]
  refine ⟨rfl, rfl, rfl, congrArg Core.dev hcore, fun q hq => ?_⟩
  rw [State.modPort_other hq, hcal.port q]

theorem hardwareSource {n : Source} (hlo : 16 ≤ n.val) (hhi : n.val < 40) : firmwareSource n = false := by
  simp only [firmwareSource, Fin.ext_iff, Fin.le_def]
  simp
  omega

theorem protectionTrip_completes (hdriven : (s.ports[p]'p.isLt).driven = true) (hbad : 2 ≤ (s.ports[p]'p.isLt).pinBad) :
    ∃ t, exec (.protectionTrip p) s = .next t ∧ (t.ports[p]'p.isLt).state = .shut ∧ (t.ports[p]'p.isLt).applied = 0 ∧
      (t.ports[p]'p.isLt).pinBad = 0 ∧ (t.faults.src[(Fin.ofNat 64 (16 + p.val) : Source)]'(Fin.isLt _)).det = true ∧
      (∀ q : PortId, q ≠ p → (t.ports[q]'q.isLt).state = (s.ports[q]'q.isLt).state) := by
  obtain ⟨t, hcal, hdrop⟩ := dropPort_released p .shut s
  let s1 := (forcePort p .shut s).modPort p fun q => { q with pinBad := 0 }
  have hexec : exec (.protectionTrip p) s = .next (raise (Fin.ofNat 64 (16 + p.val)) (finishStop s1)) :=
    congrArg Host.Outcome.next (if_pos ⟨hdriven, hbad⟩)
  have hforced : (forcePort p .shut s).ports = (t.modPort p (Port.down .shut)).ports := by
    rw [← hdrop]
    exact (completeWhere_tells ..).ports
  have hport : (s1.ports[p]'p.isLt).state = .shut ∧ (s1.ports[p]'p.isLt).applied = 0 ∧ (s1.ports[p]'p.isLt).pinBad = 0 := by
    unfold s1
    rw [State.modPort_same, hforced, State.modPort_same]
    exact ⟨rfl, rfl, rfl⟩
  have hothers : ∀ q : PortId, q ≠ p → (s1.ports[q]'q.isLt).state = (s.ports[q]'q.isLt).state := by
    intro q hq
    unfold s1
    rw [State.modPort_other hq, hforced, State.modPort_other hq, hcal.port q]
  obtain ⟨hstate, happlied, hpin⟩ := hport
  have hkept := finishStop_inputs s1
  clear_value s1
  have hsource : (Fin.ofNat 64 (16 + p.val) : Source).val = 16 + p.val := Nat.mod_eq_of_lt (by omega)
  refine ⟨_, hexec, ?_, ?_, ?_, ?_, fun q hq => ?_⟩
  · rw [raise_ports, hkept p]
    exact hstate
  · rw [raise_ports, hkept p]
    exact happlied
  · rw [raise_ports, hkept p]
    exact hpin
  · exact raise_det_of_hardware (by omega) (hardwareSource (by omega) (by omega))
  · rw [raise_ports, hkept q]
    exact hothers q hq

/-- A detector of a port reports, and its notice is raised once. -/
theorem portDetector_reports {n : Source} (hn : n.val < 55) (hfirm : firmwareSource n = false) {f : Port → Port} {told : Bool}
    (hsame : told = true → f (s.ports[p]'p.isLt) = s.ports[p]'p.isLt) (code : W16) (args : W64) : ∃ t,
      t = (if told then raise n s else notice code .ordinary args ((raise n s).modPort p f)) ∧
      t.ports[p]'p.isLt = f (s.ports[p]'p.isLt) ∧ (t.faults.src[n]'n.isLt).det = true ∧ (told = true → t.rings = s.rings) := by
  have hdet : ((raise n s).faults.src[n]'n.isLt).det = true := raise_det_of_hardware hn hfirm
  cases told with
  | true =>
    refine ⟨_, rfl, ?_, hdet, fun _ => raise_rings ..⟩
    rw [hsame rfl]
    exact congrArg (fun v : Vector Port 16 => v[p]'p.isLt) (raise_ports ..)
  | false =>
    refine ⟨_, rfl, ?_, ?_, nofun⟩
    · refine (congrArg (fun v : Vector Port 16 => v[p]'p.isLt) (notice_ports ..)).trans ?_
      rw [State.modPort_same, raise_ports]
    · exact (congrArg (fun v : Vector FSource 64 => (v[n]'n.isLt).det) (notice_tells ..).src).trans hdet

theorem ringDriverLimit_completes (hdriven : (s.ports[p]'p.isLt).driven = true) (hbad : 8 ≤ (s.ports[p]'p.isLt).ringBad) :
    ∃ t, exec (.ringDriverLimit p) s = .next t ∧ t.ports[p]'p.isLt = { (s.ports[p]'p.isLt) with ringNoticed := true } ∧
      (t.faults.src[(Fin.ofNat 64 (16 + p.val) : Source)]'(Fin.isLt _)).det = true ∧
      ((s.ports[p]'p.isLt).ringNoticed = true → t.rings = s.rings) := by
  have hsource : (Fin.ofNat 64 (16 + p.val) : Source).val = 16 + p.val := Nat.mod_eq_of_lt (by omega)
  obtain ⟨t, ht, hport, hdet, hrings⟩ := portDetector_reports (s := s) (p := p) (by omega)
    (hardwareSource (n := Fin.ofNat 64 (16 + p.val)) (by omega) (by omega)) (f := fun q => { q with ringNoticed := true })
    (told := (s.ports[p]'p.isLt).ringNoticed) (fun h => by rw [← h]) 0x0202 (argB 0 p.val)
  refine ⟨t, ?_, hport, hdet, hrings⟩
  rw [ht]
  exact congrArg Host.Outcome.next (if_pos ⟨hdriven, hbad⟩)

theorem ceCompliance_completes (hmeasures : (s.ports[p]'p.isLt).measures = true) (hec : (s.ports[p]'p.isLt).mode.isEc = true)
    (hbad : 8 ≤ (s.ports[p]'p.isLt).ceBad) :
    ∃ t, exec (.ceCompliance p) s = .next t ∧ t.ports[p]'p.isLt = { (s.ports[p]'p.isLt) with ceNoticed := true } ∧
      t.faults.src[groupSource 32 p].det = true ∧ ((s.ports[p]'p.isLt).ceNoticed = true → t.rings = s.rings) := by
  have hsource : (groupSource 32 p).val = 32 + p.val / 4 := Nat.mod_eq_of_lt (by omega)
  obtain ⟨t, ht, hport, hdet, hrings⟩ := portDetector_reports (s := s) (p := p) (by omega)
    (hardwareSource (n := groupSource 32 p) (by omega) (by omega)) (f := fun q => { q with ceNoticed := true })
    (told := (s.ports[p]'p.isLt).ceNoticed) (fun h => by rw [← h]) 0x0205 (argB 0 p.val)
  refine ⟨t, ?_, hport, hdet, hrings⟩
  rw [ht]
  exact congrArg Host.Outcome.next (if_pos (by rw [hmeasures, hec, decide_eq_true hbad]; rfl))

/-! ### The comparison of a reference electrode (R91) -/

theorem execVreError_due (uv : Int) (hdue : s.vreDue p = true) : exec (.vreError p uv) s = .next (
    if ((s.ports[p]'p.isLt).compareVre s.frame.number uv).2 then notice 0x0204 .ordinary (argB 0 p.val ||| argWi 4 uv)
      (s.modPort p fun _ => ((s.ports[p]'p.isLt).compareVre s.frame.number uv).1)
    else s.modPort p fun _ => ((s.ports[p]'p.isLt).compareVre s.frame.number uv).1) :=
  congrArg Host.Outcome.next (if_pos hdue)

theorem vreDue_of (hruns : s.reeveActive = true) (hrun : s.measuring = true) (hmeasures : (s.ports[p]'p.isLt).measures = true)
    (hec : (s.ports[p]'p.isLt).mode.isEc = true) (hnew : (s.ports[p]'p.isLt).vreFrame ≠ some s.frame.number) : s.vreDue p = true := by
  have hframe : ((s.ports[p]'p.isLt).vreFrame != some s.frame.number) = true := bne_iff_ne.mpr hnew
  unfold State.vreDue
  dsimp only
  rw [hruns, hrun, hmeasures, hec, hframe]
  rfl

/-- The comparison tells nothing, and leaves the port q. -/
theorem execVreError_quiet {uv : Int} {f : Port → Port} (hdue : s.vreDue p = true)
    (h : (s.ports[p]'p.isLt).compareVre s.frame.number uv = (f (s.ports[p]'p.isLt), false)) :
    exec (.vreError p uv) s = .next (s.modPort p f) := by
  rw [execVreError_due uv hdue, h]
  exact congrArg Host.Outcome.next (modPort_congr rfl)

theorem execVreError_told {uv : Int} {f : Port → Port} (hdue : s.vreDue p = true)
    (h : (s.ports[p]'p.isLt).compareVre s.frame.number uv = (f (s.ports[p]'p.isLt), true)) :
    exec (.vreError p uv) s = .next (notice 0x0204 .ordinary (argB 0 p.val ||| argWi 4 uv) (s.modPort p f)) := by
  rw [execVreError_due uv hdue, h]
  exact congrArg (fun t => Host.Outcome.next (notice 0x0204 .ordinary (argB 0 p.val ||| argWi 4 uv) t)) (modPort_congr rfl)

theorem compareVre_within {frame : W32} {uv : Int} {q : Port} (h : uv.natAbs ≤ 5000) :
    q.compareVre frame uv = ({ q with vreBad := 0, vreAge := none, vreFrame := some frame }, false) := if_pos h

theorem compareVre_apart {frame : W32} {uv : Int} {q : Port} (h : 5000 < uv.natAbs)
    (hgap : q.vreFrame ≠ some (frame - 1)) :
    q.compareVre frame uv = ({ q with vreBad := 1, vreAge := none, vreFrame := some frame }, false) := by
  have hfollows : (q.vreFrame == some (frame - 1)) = false := beq_eq_false_iff_ne.mpr hgap
  unfold Port.compareVre
  rw [if_neg (by omega), hfollows]
  rfl

theorem compareVre_follows {frame : W32} {uv : Int} {q : Port} (h : 5000 < uv.natAbs)
    (hrow : q.vreFrame = some (frame - 1)) : q.compareVre frame uv =
      (let due := decide (2 ≤ q.vreBad + 1) && (q.vreAge.map fun a => decide (6000 ≤ a)).getD true
       ({ q with vreBad := q.vreBad + 1, vreAge := if due then some 0 else q.vreAge, vreFrame := some frame }, due)) := by
  unfold Port.compareVre
  rw [if_neg (by omega), beq_iff_eq.mpr hrow]
  rfl

theorem compareVre_first {frame : W32} {uv : Int} {q : Port} (h : 5000 < uv.natAbs)
    (hrow : q.vreFrame = some (frame - 1)) (hfirst : q.vreBad = 0) :
    q.compareVre frame uv = ({ q with vreBad := 1, vreFrame := some frame }, false) := by
  rw [compareVre_follows h hrow, hfirst]
  rfl

theorem compareVre_due {frame : W32} {uv : Int} {q : Port} (h : 5000 < uv.natAbs)
    (hrow : q.vreFrame = some (frame - 1)) (hbad : 1 ≤ q.vreBad) (hage : ∀ a, q.vreAge = some a → 6000 ≤ a) :
    q.compareVre frame uv = ({ q with vreBad := q.vreBad + 1, vreAge := some 0, vreFrame := some frame }, true) := by
  rw [compareVre_follows h hrow, decide_eq_true (show 2 ≤ q.vreBad + 1 by omega), pairedHours_due hage]
  rfl

theorem compareVre_recent {frame : W32} {uv : Int} {q : Port} (h : 5000 < uv.natAbs)
    (hrow : q.vreFrame = some (frame - 1)) {a : Nat} (hage : q.vreAge = some a) (hrecent : a < 6000) :
    q.compareVre frame uv = ({ q with vreBad := q.vreBad + 1, vreFrame := some frame }, false) := by
  have hdue : (decide (2 ≤ q.vreBad + 1) && (q.vreAge.map fun a => decide (6000 ≤ a)).getD true) = false := by
    have hsoon : ¬ 6000 ≤ a := by omega
    rw [hage, Option.map_some, Option.getD_some, decide_eq_false hsoon, Bool.and_false]
  rw [compareVre_follows h hrow, hdue]
  rfl

end

/-- Settles O41: each event of a port by its condition, and what it leaves of the other ports. -/
theorem portEvents : Obligations.PortEvents := by
  intro s p
  refine ⟨biasTargetReached_completes, portStopped_completes, fun h =>
      congrArg Host.Outcome.next (if_neg (ne_true_of_eq_false h)),
    fun h => congrArg Host.Outcome.next (if_pos h),
    fun h => congrArg Host.Outcome.next (if_neg (ne_true_of_eq_false h)), protectionTrip_completes,
    fun h => congrArg Host.Outcome.next (if_neg fun hc => absurd hc.2 (by omega)), ringDriverLimit_completes,
    ceCompliance_completes, fun uv hruns hrun hmeasures hec hnew => ?_, fun uv h => ?_⟩
  · have hdue := vreDue_of hruns hrun hmeasures hec hnew
    exact ⟨fun h => execVreError_quiet hdue (compareVre_within h),
      fun h hgap => execVreError_quiet hdue (compareVre_apart h hgap),
      fun h hrow => ⟨fun hfirst => execVreError_quiet (f := fun q => { q with vreBad := 1, vreFrame := some s.frame.number })
          hdue (compareVre_first h hrow hfirst),
        fun hbad hage => execVreError_told (f := fun q =>
            { q with vreBad := q.vreBad + 1, vreAge := some 0, vreFrame := some s.frame.number })
          hdue (compareVre_due h hrow hbad hage),
        fun a _ hage hrecent => execVreError_quiet (f := fun q =>
            { q with vreBad := q.vreBad + 1, vreFrame := some s.frame.number })
          hdue (compareVre_recent h hrow hage hrecent)⟩⟩
  · refine congrArg Host.Outcome.next (if_neg ?_)
    unfold State.vreDue
    dsimp only
    obtain h | h | h := h
    · simp [h]
    · simp [h]
    · rw [h, bne_self_eq_false, Bool.and_false]
      decide

end Sys2Proof.Machine
end

section
-- One declaration after another: the whole text is compiled as one file, within a limit on memory.
set_option Elab.async false
/-!
The thermal events of Obligations.ThermalEvents: crossings, SHUTDOWN, the cross-check and the compensation.
-/

namespace Sys2Proof.Machine

/-! ## Records and the device thermal state (R284, R285, R430) -/

/-- Notices, postings and black-box records: nothing else, and no fault source. -/
structure RecordOnly (s t : State) : Prop where
  rest : t = { s with rings := t.rings, bus := t.bus, mbox := t.mbox, faults := t.faults, box := t.box }
  src : t.faults.src = s.faults.src

theorem RecordOnly.refl (s : State) : RecordOnly s s := ⟨rfl, rfl⟩

theorem RecordOnly.trans {a b c : State} (h : RecordOnly a b) (k : RecordOnly b c) : RecordOnly a c :=
  ⟨Eq.trans k.rest (by rw [h.rest]), k.src.trans h.src⟩

theorem TellOnly.records {s t : State} (h : TellOnly s t) : RecordOnly s t := ⟨by rw [h.rest], h.src⟩

section
variable {s t : State} (h : RecordOnly s t)
include h

theorem RecordOnly.core : t.core = s.core := by rw [h.rest]
theorem RecordOnly.heat : t.heat = s.heat := by rw [h.rest]
theorem RecordOnly.therm : t.therm = s.therm := by rw [h.rest]

end

theorem programRecord_records (r : Rec) (s : State) : RecordOnly s (programRecord r s) :=
  ⟨rfl, wordsWritten_src ..⟩

theorem boxRecord_records (type : Byte) (args : W64) (s : State) : RecordOnly s (boxRecord type args s) := by
  unfold boxRecord
  dsimp only
  split
  · exact ⟨rfl, rfl⟩
  · exact programRecord_records ..

/-- Setting the device thermal state: the state, its deepest of the frame and the time of WARM; the rest is telling. -/
theorem setTherm_sets (new : Fin 5) (cause : Nat) (s : State) : ∃ d w,
    RecordOnly (s.modTherm fun t => { t with state := new, deepest := d, warmAt := w }) (setTherm new cause s) := by
  unfold setTherm
  dsimp only
  split
  · next h => exact ⟨s.therm.deepest, s.therm.warmAt, by subst h; exact .refl s⟩
  · exact ⟨_, _, (notice_tells ..).records.trans (boxRecord_records ..)⟩

theorem thermState_congr {s t : State} (hsensors : t.therm.sensors = s.therm.sensors)
    (hhold : t.therm.hold = s.therm.hold) (hforced : t.therm.forced = s.therm.forced) :
    t.thermState = s.thermState := by
  unfold State.thermState
  rw [hsensors, hhold, hforced]

theorem crossingsDue_congr {s t : State} (hsensors : t.therm.sensors = s.therm.sensors) :
    t.crossingsDue = s.crossingsDue := by
  unfold State.crossingsDue
  rw [hsensors]

/-- What a change of the device thermal state keeps of the sensors and of the rest. -/
structure LevelKept (s t : State) : Prop where
  sensors : t.therm.sensors = s.therm.sensors
  failures : t.therm.failures = s.therm.failures
  hold : t.therm.hold = s.therm.hold
  forced : t.therm.forced = s.therm.forced
  heat : t.heat = s.heat
  core : t.core = s.core
  src : t.faults.src = s.faults.src

theorem setTherm_kept (new : Fin 5) (cause : Nat) (s : State) : LevelKept s (setTherm new cause s) := by
  obtain ⟨d, w, h⟩ := setTherm_sets new cause s
  constructor
  case src => exact h.src
  case core => exact h.core
  case heat => exact h.heat
  all_goals rw [h.therm]; rfl

theorem setTherm_state (new : Fin 5) (cause : Nat) (s : State) : (setTherm new cause s).therm.state = new := by
  obtain ⟨d, w, h⟩ := setTherm_sets new cause s
  rw [h.therm]
  rfl

theorem thermUpdate_kept (cause : Nat) (s : State) : LevelKept s (thermUpdate cause s) := by
  obtain ⟨h1, h2, h3, h4, h5, h6, h7⟩ :=
    setTherm_kept s.thermState cause (s.modTherm fun t => { t with stale := false })
  exact ⟨h1, h2, h3, h4, h5, h6, h7⟩

/-- The device thermal state follows once no crossing is due (R285). -/
theorem thermUpdate_state (cause : Nat) (s : State) :
    (thermUpdate cause s).therm.state = (thermUpdate cause s).thermState := by
  have h := thermUpdate_kept cause s
  rw [thermState_congr h.sensors h.hold h.forced]
  exact setTherm_state ..

/-! ## The heater drivers off (Table 13-3) -/

theorem heatersOff_drove (s : State) (p : PortId) : ((heatersOff s).heat[p]'p.isLt).drove = false := by
  have hcut : (heatersOff s).heat[p]'p.isLt = (s.heat[p]'p.isLt).cut := Vector.getElem_map ..
  rw [hcut]
  rfl

theorem heatersOff_sensors (s : State) : (heatersOff s).therm.sensors = s.therm.sensors := rfl

theorem heatersOff_core (s : State) : (heatersOff s).core = s.core := rfl

theorem heatersOff_src (s : State) : (heatersOff s).faults.src = s.faults.src := rfl

/-! ## Crossings (R283) -/

/-- The wake that a crossing is moves no device state and nothing outside the core. -/
theorem wakeEvent_dev (s : State) : (wakeEvent false s).core.dev = s.core.dev := by
  unfold wakeEvent
  dsimp only
  split
  · exact absurd ‹_› (by decide)
  · split
    · rfl
    · rfl

theorem cross_completes (t : Fin 9) (l : Fin 3) (rising : Bool) (s : State) :
    (cross t l rising s).therm.sensors = s.therm.sensors.set t ((s.therm.sensors[t]'t.isLt).crossed rising l) ∧
    ((cross t l rising s).crossingsDue = false → (cross t l rising s).therm.state = (cross t l rising s).thermState) ∧
    ((cross t l rising s).crossingsDue = true → (cross t l rising s).therm.state = s.therm.state) ∧
    (rising = true → l = 2 → ∀ p : PortId, ((cross t l rising s).heat[p]'p.isLt).drove = false) ∧
    (¬ (rising = true ∧ l = 2) → (cross t l rising s).heat = s.heat) ∧
    (cross t l rising s).core.dev = s.core.dev := by
  unfold cross
  extract_lets s1 s2
  have hs1 : s1.therm.sensors = s.therm.sensors.set t ((s.therm.sensors[t]'t.isLt).crossed rising l) ∧
      s1.therm.state = s.therm.state ∧ s1.heat = s.heat ∧ s1.core = s.core := ⟨rfl, rfl, rfl, rfl⟩
  have hs2 : s2.therm.sensors = s1.therm.sensors ∧ s2.therm.state = s1.therm.state ∧ s2.core = s1.core ∧
      (rising = true → l = 2 → ∀ p : PortId, (s2.heat[p]'p.isLt).drove = false) ∧
      (¬ (rising = true ∧ l = 2) → s2.heat = s1.heat) := by
    unfold s2
    split
    · next h => exact ⟨rfl, rfl, rfl, fun _ _ => heatersOff_drove s1, fun hn => absurd h hn⟩
    · next h => exact ⟨rfl, rfl, rfl, fun hr hl => absurd ⟨hr, hl⟩ h, fun _ => rfl⟩
  clear_value s1 s2
  obtain ⟨hsensors1, hstate1, hheat1, hcore1⟩ := hs1
  obtain ⟨hsensors2, hstate2, hcore2, hdrove2, hheat2⟩ := hs2
  rw [wakeEvent_dev]
  cases hdue : s2.crossingsDue with
  | true =>
    rw [if_pos rfl]
    have hrest := wakeEvent_rest false s2
    have hdue' : (wakeEvent false s2).crossingsDue = true := (crossingsDue_congr (by rw [hrest])).trans hdue
    rw [hdue']
    rw [hrest]
    exact ⟨hsensors2.trans hsensors1, nofun, fun _ => hstate2.trans hstate1, hdrove2,
      fun h => (hheat2 h).trans hheat1, congrArg Core.dev (hcore2.trans hcore1)⟩
  | false =>
    rw [if_neg (by decide)]
    have hkept := thermUpdate_kept t.val s2
    have hstate := thermUpdate_state t.val s2
    generalize thermUpdate t.val s2 = s3 at hkept hstate ⊢
    have hrest := wakeEvent_rest false s3
    have hdue' : (wakeEvent false s3).crossingsDue = false :=
      (crossingsDue_congr (by rw [hrest]; exact hkept.sensors)).trans hdue
    rw [hdue']
    rw [hrest]
    exact ⟨hkept.sensors.trans (hsensors2.trans hsensors1), fun _ => hstate, nofun,
      fun hr hl => by rw [show ({ s3 with core := (wakeEvent false s3).core } : State).heat = s2.heat from hkept.heat]
                      exact hdrove2 hr hl,
      fun h => hkept.heat.trans ((hheat2 h).trans hheat1),
      congrArg Core.dev (hkept.core.trans (hcore2.trans hcore1))⟩

theorem execThermalCrossing_due {t : Fin 9} {l : Fin 3} {rising : Bool} {s : State} (hon : s.core.dev ≠ .off)
    (hdue : (s.therm.sensors[t]'t.isLt).crossDue l rising = true) :
    exec (.thermalCrossing t l rising) s = .next (cross t l rising s) :=
  congrArg Host.Outcome.next (if_pos ⟨hon, hdue⟩)

theorem execThermalCrossing_idle {t : Fin 9} {l : Fin 3} {rising : Bool} {s : State}
    (hdue : (s.therm.sensors[t]'t.isLt).crossDue l rising = false) : exec (.thermalCrossing t l rising) s = .next s :=
  congrArg Host.Outcome.next (if_neg fun h => ne_true_of_eq_false hdue h.2)

/-! ## What an entry to LATCHED keeps -/

/-- An entry to LATCHED keeps the thermal block, drives no heater and loses no detection. -/
structure LatchKeeps (s t : State) : Prop where
  therm : t.therm = s.therm
  drove : ∀ p : PortId, (t.heat[p]'p.isLt).drove = true → (s.heat[p]'p.isLt).drove = true
  det : ∀ f : Source, (s.faults.src[f]'f.isLt).det = true → (t.faults.src[f]'f.isLt).det = true

theorem LatchKeeps.refl (s : State) : LatchKeeps s s := ⟨rfl, fun _ => id, fun _ => id⟩

theorem LatchKeeps.trans {a b c : State} (h : LatchKeeps a b) (k : LatchKeeps b c) : LatchKeeps a c :=
  ⟨k.therm.trans h.therm, fun p => h.drove p ∘ k.drove p, fun f => k.det f ∘ h.det f⟩

theorem LatchKeeps.foldl {α : Type} {f : State → α → State} (h : ∀ s a, LatchKeeps s (f s a)) (l : List α) (s : State) :
    LatchKeeps s (l.foldl f s) := by
  induction l generalizing s with
  | nil => exact .refl s
  | cons a l ih => exact (h s a).trans (ih _)

theorem StopOnly.latches {s t : State} (h : StopOnly s t) : LatchKeeps s t :=
  ⟨by rw [h.rest], h.drove, by rw [h.src]; exact fun _ => id⟩

theorem RecordOnly.latches {s t : State} (h : RecordOnly s t) : LatchKeeps s t :=
  ⟨h.therm, by rw [h.heat]; exact fun _ => id, by rw [h.src]; exact fun _ => id⟩

theorem TellOnly.latches {s t : State} (h : TellOnly s t) : LatchKeeps s t := h.stops.latches

theorem modSource_det {n f : Source} {g : FSource → FSource} {s : State} (hg : ∀ x, x.det = true → (g x).det = true)
    (h : (s.faults.src[f]'f.isLt).det = true) : ((s.modSource n g).faults.src[f]'f.isLt).det = true := by
  by_cases hf : f = n
  · subst hf
    rw [State.modSource_same]
    exact hg _ h
  · rw [State.modSource_other hf]
    exact h

theorem endReaction_latches (n : Source) (s : State) : LatchKeeps s (endReaction n s) := by
  unfold endReaction
  dsimp only
  refine LatchKeeps.trans (b := s.modSource n _) ⟨rfl, fun _ => id, fun f => modSource_det ?_⟩ (notice_tells ..).latches
  intro x hx
  split
  · exact hx
  · exact hx

/-- LATCHED is entered behind the ends of outputs and reactions, and the bells of a BOOT that it cuts short. -/
theorem enterLatched_latches (s : State) : ∃ t, LatchKeeps s t ∧
    enterLatched s = if s.core.dev = .boot then ring 0 (flushHeld t) else t := by
  unfold enterLatched
  extract_lets boot s1 s2 s3 s4
  have h1 : StopOnly s s1 := stopOutputs_stops s
  have h2 : LatchKeeps s1 s2 := by
    refine .foldl (fun s n => ?_) _ s1
    split
    · exact endReaction_latches n s
    · exact .refl s
  clear_value s1 s2
  have h3 : TellOnly s2 s3 :=
    .foldl (fun s (x : Pend) => postNow_tells x.slot .wrongState 0 [] s) s2.mbox.pend s2
  clear_value s3
  have h4 : LatchKeeps s3 s4 :=
    LatchKeeps.trans (b := s3.modCore _) ⟨rfl, fun _ => id, fun _ => id⟩ (enterDev_stops ..).latches
  exact ⟨s4, ((h1.latches.trans h2).trans h3.latches).trans h4, rfl⟩

theorem BellOnly.therm {s t : State} (h : BellOnly s t) : t.therm = s.therm := by rw [h]

theorem BellOnly.heat {s t : State} (h : BellOnly s t) : t.heat = s.heat := by rw [h]

theorem enterLatched_therm (s : State) : (enterLatched s).therm = s.therm := by
  obtain ⟨t, hkeeps, ht⟩ := enterLatched_latches s
  rw [ht]
  split
  · rw [(ring_bell ..).therm, (flushHeld_tells t).therm]
    exact hkeeps.therm
  · exact hkeeps.therm

theorem enterLatched_drove (s : State) (p : PortId) (h : (s.heat[p]'p.isLt).drove = false) :
    ((enterLatched s).heat[p]'p.isLt).drove = false := by
  obtain ⟨t, hkeeps, ht⟩ := enterLatched_latches s
  have hoff : (t.heat[p]'p.isLt).drove = false :=
    Bool.eq_false_iff.mpr fun hon => ne_true_of_eq_false h (hkeeps.drove p hon)
  rw [ht]
  split
  · have hheat : (ring 0 (flushHeld t)).heat = t.heat := (ring_bell ..).heat.trans (flushHeld_tells t).heat
    exact (congrArg (fun v : Vector Heater 16 => (v[p]'p.isLt).drove) hheat).trans hoff
  · exact hoff

theorem enterLatched_det {s : State} (hboot : s.core.dev ≠ .boot) (f : Source) (h : (s.faults.src[f]'f.isLt).det = true) :
    ((enterLatched s).faults.src[f]'f.isLt).det = true := by
  obtain ⟨t, hkeeps, ht⟩ := enterLatched_latches s
  rw [ht, if_neg hboot]
  exact hkeeps.det f h

/-! ## SHUTDOWN (R293) -/

section
variable {k : Nat} {s : State}

theorem shutdown_latches (hon : s.core.dev ≠ .off) : (shutdown k s).core.dev = .latched := by
  unfold shutdown
  split
  · next h => exact h.resolve_right hon
  · exact enterLatched_dev _

theorem shutdown_sensors : (shutdown k s).therm.sensors = s.therm.sensors := by
  unfold shutdown
  split
  · rfl
  · rw [enterLatched_therm, (boxRecord_records ..).therm]
    rfl

theorem shutdown_drove (hon : s.core.dev ≠ .off) (hlatched : s.core.dev ≠ .latched) (p : PortId) :
    ((shutdown k s).heat[p]'p.isLt).drove = false := by
  unfold shutdown
  rw [if_neg (by simp [hon, hlatched])]
  have hheat := (boxRecord_records 0x08 (argB 0 3 ||| argB 1 0xFF ||| argB 3 k) (heatersOff s)).heat
  exact enterLatched_drove _ p ((congrArg (fun v : Vector Heater 16 => (v[p]'p.isLt).drove) hheat).trans (heatersOff_drove s p))

theorem shutdown_det {f : Source} (hboot : s.core.dev ≠ .boot) (h : (s.faults.src[f]'f.isLt).det = true) :
    ((shutdown k s).faults.src[f]'f.isLt).det = true := by
  unfold shutdown
  split
  · exact h
  · have hrecord := boxRecord_records 0x08 (argB 0 3 ||| argB 1 0xFF ||| argB 3 k) (heatersOff s)
    refine enterLatched_det (by rw [hrecord.core]; exact hboot) f ?_
    rw [hrecord.src]
    exact h

end

theorem Sensor.shutdownDue_of {x : Sensor} (hsound : x.failed = false) (hrise : x.rise[3] = 8)
    (hup : x.up.getLsbD 3 = false) : x.shutdownDue = true := by
  unfold Sensor.shutdownDue
  rw [hsound, hrise, hup]
  rfl

theorem thermalShutdown_completes {t : Fin 9} {s : State} (hon : s.core.dev ≠ .off)
    (hlatched : s.core.dev ≠ .latched) (hdue : (s.therm.sensors[t]'t.isLt).shutdownDue = true) :
    ∃ u, exec (.thermalShutdown t) s = .next u ∧ u.core.dev = .latched ∧ (∀ p : PortId, (u.heat[p]'p.isLt).drove = false) ∧
      (u.therm.sensors[t]'t.isLt).up.getLsbD 3 = true := by
  let s1 := s.modSensor t fun x => { x with up := x.up ||| 8 }
  let s2 := if s1.crossingsDue then s1 else thermUpdate t.val s1
  have hexec : exec (.thermalShutdown t) s = .next (shutdown t.val s2) :=
    congrArg Host.Outcome.next (if_pos ⟨hon, hdue⟩)
  have hs2 : LevelKept s1 s2 := by
    unfold s2
    split
    · exact ⟨rfl, rfl, rfl, rfl, rfl, rfl, rfl⟩
    · exact thermUpdate_kept ..
  clear_value s2
  have hdev : s2.core.dev = s.core.dev := congrArg Core.dev hs2.core
  refine ⟨_, hexec, shutdown_latches (hdev ▸ hon), shutdown_drove (hdev ▸ hon) (hdev ▸ hlatched), ?_⟩
  have hsensors : (shutdown t.val s2).therm.sensors = s1.therm.sensors := shutdown_sensors.trans hs2.sensors
  have hsensor : s1.therm.sensors[t]'t.isLt = { (s.therm.sensors[t]'t.isLt) with up := (s.therm.sensors[t]'t.isLt).up ||| 8 } :=
    Vector.getElem_set_self ..
  refine (congrArg (fun v : Vector Sensor 9 => (v[t]'t.isLt).up.getLsbD 3) hsensors).trans ?_
  rw [hsensor]
  simp

theorem thermalShutdown_idle {t : Fin 9} {s : State}
    (h : (s.therm.sensors[t]'t.isLt).rise[3] < 8 ∨ (s.therm.sensors[t]'t.isLt).failed = true) :
    exec (.thermalShutdown t) s = .next s := by
  refine congrArg Host.Outcome.next (if_neg fun hdue => ?_)
  have hdue := hdue.2
  unfold Sensor.shutdownDue at hdue
  rw [Bool.and_eq_true, Bool.and_eq_true, decide_eq_true_eq] at hdue
  obtain ⟨⟨hsound, hrise⟩, -⟩ := hdue
  obtain h | h := h
  · omega
  · rw [h] at hsound
    exact absurd hsound (by decide)

/-! ## The cross-check (R289 to R292) -/

/-- What the cross-check keeps: the core, the sensors declared failed, and the detections. -/
structure CheckKeeps (s t : State) : Prop where
  core : t.core = s.core
  failed : ∀ x : Fin 9, (s.therm.sensors[x]'x.isLt).failed = true → (t.therm.sensors[x]'x.isLt).failed = true
  det : ∀ f : Source, (s.faults.src[f]'f.isLt).det = true → (t.faults.src[f]'f.isLt).det = true

theorem CheckKeeps.refl (s : State) : CheckKeeps s s := ⟨rfl, fun _ => id, fun _ => id⟩

theorem CheckKeeps.trans {a b c : State} (h : CheckKeeps a b) (k : CheckKeeps b c) : CheckKeeps a c :=
  ⟨k.core.trans h.core, fun x => k.failed x ∘ h.failed x, fun f => k.det f ∘ h.det f⟩

theorem CheckKeeps.foldl {α : Type} {f : State → α → State} (h : ∀ s a, CheckKeeps s (f s a)) (l : List α) (s : State) :
    CheckKeeps s (l.foldl f s) := by
  induction l generalizing s with
  | nil => exact .refl s
  | cons a l ih => exact (h s a).trans (ih _)

/-- Where the sensors stay, they stay failed. -/
theorem CheckKeeps.of_sensors {s t : State} (hcore : t.core = s.core) (hsensors : t.therm.sensors = s.therm.sensors)
    (hsrc : t.faults.src = s.faults.src) : CheckKeeps s t :=
  ⟨hcore, by rw [hsensors]; exact fun _ => id, by rw [hsrc]; exact fun _ => id⟩

theorem LevelKept.checks {s t : State} (h : LevelKept s t) : CheckKeeps s t := .of_sensors h.core h.sensors h.src

theorem TellOnly.checks {s t : State} (h : TellOnly s t) : CheckKeeps s t :=
  .of_sensors h.core (congrArg Therm.sensors h.therm) h.src

theorem raise_checks (n : Source) (s : State) : CheckKeeps s (raise n s) := by
  unfold raise
  split
  · exact .refl s
  · exact ⟨rfl, fun _ => id, fun f => modSource_det fun _ _ => rfl⟩

theorem modSensor_failed (t : Fin 9) (s : State) :
    ((s.modSensor t fun x => { x with failed := true }).therm.sensors[t]'t.isLt).failed = true :=
  congrArg Sensor.failed (Vector.getElem_set_self ..)

theorem modSensor_failed_checks (t : Fin 9) (s : State) :
    CheckKeeps s (s.modSensor t fun x => { x with failed := true }) := by
  refine ⟨rfl, fun x hx => ?_, fun _ => id⟩
  by_cases h : x = t
  · subst h
    exact modSensor_failed x s
  · exact (congrArg Sensor.failed (Vector.getElem_set_ne t.isLt x.isLt fun e => h (Fin.ext e.symm))).trans hx

theorem declareFailed_checks (t : Fin 9) (b : Bool) (s : State) : CheckKeeps s (declareFailed t b s) := by
  have h1 : CheckKeeps s (s.modSensor t fun x => { x with failed := true }) := modSensor_failed_checks t s
  unfold declareFailed
  extract_lets x holds s1 s2
  have h2 : CheckKeeps s1 s2 := .of_sensors rfl rfl rfl
  exact ((h1.trans h2).trans (notice_tells ..).checks).trans (raise_checks ..)

/-- A sensor declared failed is out, and source 12 detects. -/
theorem declareFailed_reports (t : Fin 9) (b : Bool) {s : State} (hruns : s.core.reeveRuns = true) :
    ((declareFailed t b s).therm.sensors[t]'t.isLt).failed = true ∧ ((declareFailed t b s).faults.src[(12 : Source)]'(Fin.isLt _)).det = true := by
  unfold declareFailed
  extract_lets x holds s1 s2
  have hfailed : (s2.therm.sensors[t]'t.isLt).failed = true := modSensor_failed t s
  have hcore : s2.core = s.core := rfl
  clear_value s2
  have hnotice := notice_tells 0x0B02 .ordinary (argB 0 t.val ||| argB 1 (boolNat b) ||| argHi 4 x.meanWord) s2
  exact ⟨(raise_checks ..).failed t (hnotice.checks.failed t hfailed),
    raise_det (by decide) (by rw [hnotice.core, hcore]; exact hruns)⟩

theorem Therm.holdDrop_sensors (th : Therm) : th.holdDrop.sensors = th.sensors := by
  unfold Therm.holdDrop
  dsimp only
  split
  · rfl
  · rfl

theorem Therm.holdDrop_failures (th : Therm) : th.holdDrop.failures = th.failures := by
  unfold Therm.holdDrop
  dsimp only
  split
  · rfl
  · rfl

theorem holdDrop_checks (s : State) : CheckKeeps s (s.modTherm Therm.holdDrop) :=
  .of_sensors rfl (Therm.holdDrop_sensors _) rfl

/-- What follows the declarations keeps them. -/
theorem crossCheck_follows (s : State) :
    CheckKeeps (s.therm.silent.foldl (fun s t => declareFailed t true s) s) (crossCheck s) := by
  unfold crossCheck
  extract_lets dev failing levels kept s1 s2 s3 floor
  have h2 : CheckKeeps s1 s2 := .foldl (fun s t => declareFailed_checks t false s) dev.toList s1
  have h3 : CheckKeeps s2 s3 := by
    unfold s3
    split
    · exact .refl s2
    · exact holdDrop_checks s2
  refine (h2.trans h3).trans ?_
  split
  · exact (thermUpdate_kept ..).checks
  · exact CheckKeeps.trans (b := s3.modTherm Therm.choose) (.of_sensors rfl rfl rfl) (setTherm_kept ..).checks

theorem crossCheck_checks (s : State) : CheckKeeps s (crossCheck s) :=
  (CheckKeeps.foldl (fun s t => declareFailed_checks t true s) _ s).trans (crossCheck_follows s)

/-- A silent sensor is declared failed, and source 12 detects (R289). -/
theorem crossCheck_silent {s : State} {t : Fin 9} (hruns : s.core.reeveRuns = true) (h : t ∈ s.therm.silent) :
    ((crossCheck s).therm.sensors[t]'t.isLt).failed = true ∧ ((crossCheck s).faults.src[(12 : Source)]'(Fin.isLt _)).det = true := by
  let silenced := s.therm.silent.foldl (fun s t => declareFailed t true s) s
  have hcore : silenced.core = s.core := (CheckKeeps.foldl (fun s t => declareFailed_checks t true s) _ s).core
  have hmade : silenced.core.reeveRuns = true →
      (silenced.therm.sensors[t]'t.isLt).failed = true ∧ (silenced.faults.src[(12 : Source)]'(Fin.isLt _)).det = true := by
    refine foldl_establishes (P := fun s : State => s.core.reeveRuns = true →
      (s.therm.sensors[t]'t.isLt).failed = true ∧ (s.faults.src[(12 : Source)]'(Fin.isLt _)).det = true)
      (fun b a hb hruns => ?_) ⟨t, h, fun b hruns => ?_⟩ s
    · have hkeeps := declareFailed_checks a true b
      obtain ⟨hfailed, hdet⟩ := hb (hkeeps.core ▸ hruns)
      exact ⟨hkeeps.failed t hfailed, hkeeps.det _ hdet⟩
    · exact declareFailed_reports t true ((declareFailed_checks t true b).core ▸ hruns)
  obtain ⟨hfailed, hdet⟩ := hmade (by rw [hcore]; exact hruns)
  exact ⟨(crossCheck_follows s).failed t hfailed, (crossCheck_follows s).det _ hdet⟩

/-- With no failure to declare the sensors stay as they are. -/
theorem crossCheck_none {s : State} (hsilent : s.therm.silent = []) (hdeviant : s.therm.deviant = none) :
    (crossCheck s).therm.sensors = s.therm.sensors ∧ (crossCheck s).therm.failures = s.therm.failures ∧
      (crossCheck s).core = s.core := by
  unfold crossCheck
  rw [hsilent, hdeviant]
  have hkept := thermUpdate_kept 0xFF (s.modTherm Therm.holdDrop)
  exact ⟨hkept.sensors.trans (Therm.holdDrop_sensors _), hkept.failures.trans (Therm.holdDrop_failures _), hkept.core⟩

theorem mem_silent {th : Therm} {t : Fin 9} (hsound : (th.sensors[t]'t.isLt).failed = false) (hmissed : 8 ≤ (th.sensors[t]'t.isLt).missedLast) :
    t ∈ th.silent := by
  unfold Therm.silent
  rw [List.mem_filter, hsound, decide_eq_true hmissed]
  exact ⟨List.mem_finRange t, rfl⟩

theorem silent_none {th : Therm} (h : ∀ t : Fin 9, (th.sensors[t]'t.isLt).failed = false ∧ (th.sensors[t]'t.isLt).missedLast < 8) :
    th.silent = [] := by
  unfold Therm.silent
  rw [List.filter_eq_nil_iff]
  intro t _ ht
  rw [Bool.and_eq_true, decide_eq_true_eq] at ht
  exact absurd (h t).2 (by omega)

/-- Heaters off at a second failure: the sensors, the core and the detections stay. -/
theorem heatersOff_checks (s : State) : CheckKeeps s (heatersOff s) := .of_sensors rfl rfl rfl

theorem allFailed_iff {s : State} :
    (s.therm.sensors.toList.all (·.failed)) = true ↔ ∀ t : Fin 9, (s.therm.sensors[t]'t.isLt).failed = true := by
  rw [List.all_eq_true]
  constructor
  · exact fun h t => h _ (Vector.mem_toList_iff.mpr (Vector.getElem_mem t.isLt))
  · intro h x hx
    obtain ⟨i, hi, rfl⟩ := Vector.getElem_of_mem (Vector.mem_toList_iff.mp hx)
    exact h ⟨i, hi⟩

/-- What stands in tick 1 before the check for SHUTDOWN. -/
def crossChecked (s : State) : State :=
  if s.therm.failures < (crossCheck s).therm.failures ∧ (crossCheck s).therm.forced then heatersOff (crossCheck s)
  else crossCheck s

theorem execSensorCrossCheck_due {s : State} (h : s.tickOne = true) : exec .sensorCrossCheck s =
    .next (if (crossChecked s).therm.sensors.toList.all (·.failed) then shutdown 0xFF (crossChecked s)
      else crossChecked s) :=
  congrArg Host.Outcome.next (if_pos h)

theorem crossChecked_checks (s : State) : CheckKeeps (crossCheck s) (crossChecked s) := by
  unfold crossChecked
  split
  · exact heatersOff_checks _
  · exact .refl _

theorem reeve_of_tickOne {s : State} (h : s.tickOne = true) :
    s.core.reeveRuns = true ∧ s.core.dev ≠ .off ∧ s.core.dev ≠ .boot := by
  unfold State.tickOne State.reeveActive at h
  simp only [Bool.and_eq_true, bne_iff_ne, ne_eq] at h
  obtain ⟨⟨⟨⟨⟨⟨⟨hruns, -⟩, -⟩, -⟩, hoff⟩, hboot⟩, -⟩, -⟩ := h
  exact ⟨hruns, hoff, hboot⟩

section
variable {s : State} (hone : s.tickOne = true)
include hone

theorem sensorCrossCheck_silent {t : Fin 9} (hsound : (s.therm.sensors[t]'t.isLt).failed = false)
    (hmissed : 8 ≤ (s.therm.sensors[t]'t.isLt).missedLast) :
    ∃ u, exec .sensorCrossCheck s = .next u ∧ (u.therm.sensors[t]'t.isLt).failed = true ∧
      (u.faults.src[(12 : Source)]'(Fin.isLt _)).det = true := by
  obtain ⟨hruns, -, hboot⟩ := reeve_of_tickOne hone
  obtain ⟨hfailed, hdet⟩ := crossCheck_silent hruns (mem_silent hsound hmissed)
  have hkeeps := crossChecked_checks s
  refine ⟨_, execSensorCrossCheck_due hone, ?_⟩
  split
  · exact ⟨(congrArg (fun v : Vector Sensor 9 => (v[t]'t.isLt).failed) shutdown_sensors).trans (hkeeps.failed t hfailed),
      shutdown_det (by rw [hkeeps.core, (crossCheck_checks s).core]; exact hboot) (hkeeps.det _ hdet)⟩
  · exact ⟨hkeeps.failed t hfailed, hkeeps.det _ hdet⟩

theorem sensorCrossCheck_none
    (hsound : ∀ t : Fin 9, (s.therm.sensors[t]'t.isLt).failed = false ∧ (s.therm.sensors[t]'t.isLt).missedLast < 8)
    (hdeviant : s.therm.deviant = none) :
    ∃ u, exec .sensorCrossCheck s = .next u ∧ u.therm.sensors = s.therm.sensors ∧
      u.therm.failures = s.therm.failures ∧ u.core = s.core := by
  obtain ⟨hsensors, hfailures, hcore⟩ := crossCheck_none (silent_none hsound) hdeviant
  have hchecked : crossChecked s = crossCheck s := if_neg fun h => absurd h.1 (by omega)
  have hsome : ¬ ((crossCheck s).therm.sensors.toList.all (·.failed)) = true := by
    rw [allFailed_iff, hsensors]
    exact fun hall => ne_true_of_eq_false (hsound 0).1 (hall 0)
  refine ⟨_, execSensorCrossCheck_due hone, ?_⟩
  rw [hchecked, if_neg hsome]
  exact ⟨hsensors, hfailures, hcore⟩

theorem sensorCrossCheck_all
    (hall : ∀ t : Fin 9, (s.therm.sensors[t]'t.isLt).failed = true ∨ 8 ≤ (s.therm.sensors[t]'t.isLt).missedLast) :
    ∃ u, exec .sensorCrossCheck s = .next u ∧ u.core.dev = .latched := by
  obtain ⟨hruns, hon, -⟩ := reeve_of_tickOne hone
  have hkeeps := crossChecked_checks s
  have hfailed : ∀ t : Fin 9, ((crossChecked s).therm.sensors[t]'t.isLt).failed = true := by
    intro t
    refine hkeeps.failed t ?_
    cases hsound : (s.therm.sensors[t]'t.isLt).failed with
    | true => exact (crossCheck_checks s).failed t hsound
    | false => exact (crossCheck_silent hruns (mem_silent hsound ((hall t).resolve_left (ne_true_of_eq_false hsound)))).1
  refine ⟨_, execSensorCrossCheck_due hone, ?_⟩
  rw [if_pos (allFailed_iff.mpr hfailed)]
  exact shutdown_latches (by rw [hkeeps.core, (crossCheck_checks s).core]; exact hon)

end

/-! ## Compensation (R282) -/

section
variable (block : Nat) (row used : Fin 9) (comp : Option Int) (s : State)

theorem compensate_tells : TellOnly s (compensate block row used comp s).2 := by
  unfold compensate
  dsimp only
  split
  · exact .refl s
  · exact notice_tells ..

theorem compensate_sensor : (compensate block row used comp s).1.1 = s.nearest row := by
  unfold compensate
  dsimp only
  split
  · next h => exact h.symm
  · rfl

variable {block row used comp s}

theorem compensate_same (h : used = s.nearest row) {m : Int} (hmean : s.therm.sensors[s.nearest row].mean = some m) :
    (compensate block row used comp s).1.2 = some (compStep comp m) := by
  subst h
  unfold compensate
  dsimp only
  rw [if_pos rfl, hmean]

theorem compensate_other (h : used ≠ s.nearest row) : (compensate block row used comp s).1.2 = comp := by
  unfold compensate
  dsimp only
  rw [if_neg h.symm]

end

theorem nearest_congr {s t : State} (h : t.therm = s.therm) (row : Fin 9) : t.nearest row = s.nearest row := by
  unfold State.nearest
  rw [h]

theorem nearest_mean_congr {s t : State} (h : t.therm = s.therm) (row : Fin 9) :
    t.therm.sensors[t.nearest row].mean = s.therm.sensors[s.nearest row].mean := by
  simp only [nearest_congr h, h]

/-- The second block's correction, behind a notice that the first may have given. -/
theorem compensate_second {s t : State} (h : TellOnly s t) {block : Nat} {row : Fin 9}
    (hsame : s.core.refSensor = s.nearest row) {m : Int} (hmean : s.therm.sensors[s.nearest row].mean = some m) :
    (compensate block row t.core.refSensor t.core.refComp t).1.2 = some (compStep s.core.refComp m) := by
  rw [compensate_same (by rw [h.core, nearest_congr h.therm]; exact hsame)
    ((nearest_mean_congr h.therm row).trans hmean), h.core]

theorem oscRefCompensation_completes {s : State} (hone : s.tickOne = true) :
    ∃ u, exec .oscRefCompensation s = .next u ∧ u.core.oscSensor = s.nearest 0 ∧ u.core.refSensor = s.nearest 0 ∧
      (∀ m, s.core.oscSensor = s.nearest 0 → s.therm.sensors[s.nearest 0].mean = some m →
        u.core.oscComp = some (compStep s.core.oscComp m)) ∧
      (∀ m, s.core.refSensor = s.nearest 0 → s.therm.sensors[s.nearest 0].mean = some m →
        u.core.refComp = some (compStep s.core.refComp m)) ∧
      (s.core.oscSensor ≠ s.nearest 0 → u.core.oscComp = s.core.oscComp) ∧
      u.therm = s.therm ∧ u.core.dev = s.core.dev := by
  let o := compensate 0 0 s.core.oscSensor s.core.oscComp s
  let r := compensate 1 0 o.2.core.refSensor o.2.core.refComp o.2
  have hexec : exec .oscRefCompensation s = .next (r.2.modCore fun c =>
      { c with oscSensor := o.1.1, oscComp := o.1.2, refSensor := r.1.1, refComp := r.1.2 }) :=
    congrArg Host.Outcome.next (if_pos hone)
  have hoscSame : ∀ m, s.core.oscSensor = s.nearest 0 → s.therm.sensors[s.nearest 0].mean = some m →
      o.1.2 = some (compStep s.core.oscComp m) := fun _ h hm => compensate_same h hm
  have hoscOther : s.core.oscSensor ≠ s.nearest 0 → o.1.2 = s.core.oscComp := compensate_other
  have ho : TellOnly s o.2 := compensate_tells ..
  have hr : TellOnly o.2 r.2 := compensate_tells ..
  have hrefSame : ∀ m, s.core.refSensor = s.nearest 0 → s.therm.sensors[s.nearest 0].mean = some m →
      r.1.2 = some (compStep s.core.refComp m) := fun _ h hm => compensate_second ho h hm
  have hosc : o.1.1 = s.nearest 0 := compensate_sensor ..
  have href : r.1.1 = s.nearest 0 := (compensate_sensor ..).trans (nearest_congr ho.therm 0)
  clear_value r
  clear_value o
  have hdev : r.2.core.dev = s.core.dev := congrArg Core.dev (hr.core.trans ho.core)
  exact ⟨_, hexec, hosc, href, hoscSame, hrefSame, hoscOther, hr.therm.trans ho.therm, hdev⟩

/-- Settles O52: crossings and SHUTDOWN by what a change of the thermal state keeps, the cross-check by what each
declaration keeps, the compensation of the two blocks one after the other. -/
theorem thermalEvents : Obligations.ThermalEvents := by
  unfold Obligations.ThermalEvents
  intro s
  refine ⟨fun t l rising hon hdue => ⟨_, execThermalCrossing_due hon hdue, cross_completes t l rising s⟩,
    fun t l rising => execThermalCrossing_idle,
    fun t hon hlatched hsound hrise hup =>
      thermalShutdown_completes hon hlatched (Sensor.shutdownDue_of hsound hrise hup),
    fun t => thermalShutdown_idle,
    fun hone => ⟨fun t => sensorCrossCheck_silent hone, sensorCrossCheck_none hone, sensorCrossCheck_all hone,
      oscRefCompensation_completes hone⟩,
    fun hone => ⟨congrArg Host.Outcome.next (if_neg (ne_true_of_eq_false hone)),
      congrArg Host.Outcome.next (if_neg (ne_true_of_eq_false hone))⟩⟩

end Sys2Proof.Machine
end

section
-- One declaration after another: the whole text is compiled as one file, within a limit on memory.
set_option Elab.async false
/-!
The fault events of Obligations.FaultEvents: events and merging, reactions and their actions, SAFE and LATCHED.
-/

namespace Sys2Proof.Machine

/-! ## Causes once set stay set until ATTN is read (R335) -/

/-- No cause set in ATTN is lost from s to t. -/
structure AttnGrows (s t : State) : Prop where
  kept : ∀ i, s.bus.attn.getLsbD i = true → t.bus.attn.getLsbD i = true

theorem AttnGrows.refl (s : State) : AttnGrows s s := ⟨fun _ => id⟩

theorem AttnGrows.of_bus {s t : State} (h : t.bus = s.bus) : AttnGrows s t :=
  ⟨by rw [h]; exact fun _ => id⟩

theorem AttnGrows.trans {a b c : State} (h : AttnGrows a b) (k : AttnGrows b c) : AttnGrows a c :=
  ⟨fun i => k.kept i ∘ h.kept i⟩

/-- What changes no bus port first changes nothing. -/
theorem AttnGrows.behind {a b c : State} (h : AttnGrows b c) (hb : b.bus = a.bus) : AttnGrows a c :=
  (AttnGrows.of_bus hb).trans h

theorem AttnGrows.foldl {α : Type} {f : State → α → State} (h : ∀ s a, AttnGrows s (f s a)) (l : List α) (s : State) :
    AttnGrows s (l.foldl f s) := by
  induction l generalizing s with
  | nil => exact .refl s
  | cons a l ih => exact (h s a).trans (ih _)

theorem AttnGrows.ite {c : Prop} [Decidable c] {s t u : State} (ht : AttnGrows s t) (hu : AttnGrows s u) :
    AttnGrows s (if c then t else u) := by
  split
  · exact ht
  · exact hu

theorem attn_grows (c : Cause) (s : State) : AttnGrows s (attn c s) := by
  refine ⟨fun i hi => ?_⟩
  rw [attn_attn, BitVec.getLsbD_or, hi]
  rfl

theorem attn_fault_set (s : State) : (attn .fault s).bus.attn.getLsbD 5 = true := by
  rw [attn_attn, BitVec.getLsbD_or]
  exact Bool.or_true _

theorem pushNotice_grows (code : W16) (k : Nat) (args : W64) (s : State) : AttnGrows s (pushNotice code k args s) :=
  .ite (.behind (attn_grows ..) rfl) (.of_bus rfl)

theorem noticeGap_grows (s : State) : AttnGrows s (noticeGap s) := by
  unfold noticeGap
  split
  · exact .ite (.behind (pushNotice_grows ..) rfl) (.refl s)
  · exact .refl s

theorem emitNotice_grows (code : W16) (k : Kind) (args : W64) (s : State) : AttnGrows s (emitNotice code k args s) := by
  cases k
  · exact (noticeGap_grows s).trans (.ite (pushNotice_grows ..) (.of_bus rfl))
  · exact .ite ((pushNotice_grows ..).trans (attn_grows ..)) (.of_bus rfl)
  · exact .ite ((pushNotice_grows ..).trans (attn_grows ..)) (.of_bus rfl)

theorem notice_grows (code : W16) (k : Kind) (args : W64) (s : State) : AttnGrows s (notice code k args s) := by
  unfold notice
  split
  · exact .refl s
  · exact .of_bus rfl
  · exact emitNotice_grows ..

theorem postNow_grows (n : SlotId) (st : Status) (d : Nat) (resp : List Byte) (s : State) :
    AttnGrows s (postNow n st d resp s) := .behind (attn_grows ..) rfl

theorem post_grows (n : SlotId) (st : Status) (d : Nat) (resp : List Byte) (s : State) :
    AttnGrows s (post n st d resp s) := .ite (postNow_grows ..) (.of_bus rfl)

theorem completeWhere_grows (p : Pend → Bool) (st : Status) (s : State) : AttnGrows s (completeWhere p st s) :=
  .foldl (fun s (x : Pend) => post_grows x.slot st 0 [] s) (s.mbox.pend.filter p) s

theorem setDev_grows (d : Dev) (s : State) : AttnGrows s (setDev d s) :=
  .ite (.refl s) (.behind (attn_grows ..) rfl)

theorem leveesLeave_grows (s : State) : AttnGrows s (leaveTwill (leveesLeave s)) :=
  .trans (b := leveesLeave s) (.behind (notice_grows ..) rfl) (.of_bus rfl)

theorem enterDev_grows (d : Dev) (s : State) : AttnGrows s (enterDev d s) :=
  (setDev_grows d s).trans (.ite (leveesLeave_grows _) (.refl _))

theorem dropSession_grows (p : PortId) (s : State) : AttnGrows s (dropSession p s) :=
  .behind (completeWhere_grows ..) rfl

theorem endSession_grows (p : PortId) (cause : Nat) (s : State) : AttnGrows s (endSession p cause s) := by
  unfold endSession
  split
  · exact .ite (dropSession_grows ..) ((dropSession_grows p s).trans (notice_grows ..))
  · exact .refl s

theorem endElec_grows (t : CalTarget) (s : State) : AttnGrows s (endElec t s) := by
  unfold endElec
  extract_lets was s1 s2
  have h1 : AttnGrows s s1 := .of_bus rfl
  have h2 : AttnGrows s1 s2 := by
    unfold s2
    cases t
    · exact .of_bus rfl
    · exact .refl s1
    · exact .refl s1
    · exact .refl s1
  clear_value s1 s2
  exact .ite ((h1.trans h2).trans (completeWhere_grows ..)) h1

theorem elecLeaves_grows (s : State) : AttnGrows s (elecLeaves s) := .foldl (fun s t => endElec_grows t s) _ s

theorem calLeaves_grows (s : State) : AttnGrows s (calLeaves s) :=
  .foldl (fun s p => (endSession_grows p 3 s).trans (.ite (endElec_grows ..) (.refl _))) _ s

theorem portLeaves_grows (p : PortId) (s : State) : AttnGrows s (portLeaves p s) :=
  AttnGrows.trans (b := if (s.ports[p]'p.isLt).state = .running then endSession p 2 s else s)
    (.ite (endSession_grows ..) (.refl s)) (.ite (endElec_grows ..) (.refl _))

theorem skipOwed_grows (s : State) : AttnGrows s (skipOwed s) :=
  .behind (.foldl (fun _ _ => notice_grows ..) s.time.owed _) rfl

theorem closeRun_bus (p : PortId) (s : State) : (closeRun p s).bus = s.bus := by
  unfold closeRun gauzeDiscard gauzeDiscardFor
  dsimp only
  split
  · rfl
  · split
    · rfl
    · split
      · rfl
      · rfl

theorem endGauze_grows (p : PortId) (s : State) : AttnGrows s (endGauze p s) :=
  AttnGrows.trans (b := (closeRun p s).modGauzeAt p _) (.of_bus (closeRun_bus p s)) (completeWhere_grows ..)

theorem dropPort_grows (p : PortId) (st : PortState) (s : State) : AttnGrows s (dropPort p st s) :=
  by
  unfold dropPort
  exact ((portLeaves_grows p s).trans (.behind (endGauze_grows ..) (State.modHeater_bus ..))).trans
    (.of_bus (State.modPort_bus ..))

theorem forcePort_grows (p : PortId) (st : PortState) (s : State) : AttnGrows s (forcePort p st s) :=
  (dropPort_grows p st s).trans (completeWhere_grows ..)

theorem forceStopped_grows (p : PortId) (s : State) : AttnGrows s (forceStopped p s) :=
  .ite (forcePort_grows ..) (.refl s)

theorem eachPort_grows {f : PortId → State → State} (h : ∀ p s, AttnGrows s (f p s)) (s : State) :
    AttnGrows s (eachPort f s) := .foldl (fun s p => h p s) _ s

theorem dropUrgent_grows (s : State) : AttnGrows s (dropUrgent s) := .behind (completeWhere_grows ..) rfl

theorem endMeasuring_bus (s : State) : (endMeasuring s).bus = s.bus := rfl

theorem stopOutputs_grows (s : State) : AttnGrows s (stopOutputs s) := by
  unfold stopOutputs
  extract_lets s1 s2 s3 s4 s5
  have h1 : AttnGrows s s1 := .ite (.behind (attn_grows ..) rfl) (.refl s)
  clear_value s1
  have h2 : AttnGrows s1 s2 := .ite (calLeaves_grows s1) (.refl s1)
  clear_value s2
  have h3 : AttnGrows s2 s3 :=
    ((elecLeaves_grows s2).trans (eachPort_grows forceStopped_grows _)).trans (.of_bus (State.modPorts_bus ..))
  clear_value s3
  have h4 : AttnGrows s3 s4 :=
    AttnGrows.trans (.behind (dropUrgent_grows (endMeasuring s3)) (endMeasuring_bus s3)) (skipOwed_grows _)
  clear_value s4
  have h5 : AttnGrows s4 s5 := .of_bus (State.modCore_bus ..)
  clear_value s5
  exact ((((h1.trans h2).trans h3).trans h4).trans h5).trans (completeWhere_grows _ _ s5)

theorem finishStop_grows (s : State) : AttnGrows s (finishStop s) := by
  unfold finishStop
  extract_lets held s1 s2 s3 s4
  have h1 : AttnGrows s s1 := (calLeaves_grows s).trans (.behind (skipOwed_grows _) (endMeasuring_bus _))
  have h2 : AttnGrows s1 s2 := .ite ((elecLeaves_grows s1).trans (dropUrgent_grows _)) (.refl s1)
  clear_value s1 s2
  have h3 : AttnGrows s2 s3 := .of_bus rfl
  clear_value s3
  have h4 : AttnGrows s3 s4 := enterDev_grows _ s3
  clear_value s4
  exact .ite ((((h1.trans h2).trans h3).trans h4).trans (completeWhere_grows _ _ s4)) (.refl s)

theorem haltConverters_grows (s : State) : AttnGrows s (haltConverters s) :=
  .behind (completeWhere_grows ..) rfl

/-! ### The doorbells that BOOT kept -/

theorem readWords_bus (c : Fin 5) (a : Nat → Bool) (ue ce : Source) (s : State) : (readWords c a ue ce s).2.bus = s.bus := by
  unfold readWords
  dsimp only
  split
  · split
    · rfl
    · rfl
  · split
    · rfl
    · rfl

theorem mboxDetect_bus (n : SlotId) (s : State) : (mboxDetect n s).bus = s.bus := by
  unfold mboxDetect
  dsimp only
  split
  · exact readWords_bus 4 (· / 16 == n.val) 48 53 s
  · exact readWords_bus 4 (· / 16 == n.val) 48 53 s

theorem dispatchSlot_grows (n : SlotId) (s : State) : AttnGrows s (dispatchSlot n s) := by
  have hrunning : AttnGrows s (s.modSlot n fun x => { x with st := .running }) := .of_bus rfl
  unfold dispatchSlot
  dsimp only
  split
  · exact hrunning.trans (post_grows ..)
  · split
    · exact hrunning.trans (post_grows ..)
    · exact hrunning

theorem atDoorbell_bus (n : SlotId) (s : State) : (atDoorbell n s).bus = s.bus := by
  unfold atDoorbell
  dsimp only
  split
  · rfl
  · split
    · rfl
    · split
      · rfl
      · rfl

theorem doorbell_grows (n : SlotId) (s : State) : AttnGrows s (doorbell n s) := by
  unfold doorbell
  extract_lets x s1
  have h1 : AttnGrows s s1 := .of_bus (mboxDetect_bus n (s.modSlot n _))
  exact .ite (.ite (h1.trans (dispatchSlot_grows n s1)) (h1.trans (.of_bus (atDoorbell_bus n (s1.modMbox _)))))
    (.of_bus rfl)

theorem ring_grows (v : Byte) (s : State) : AttnGrows s (ring v s) :=
  .ite (.of_bus rfl)
    (.behind (.foldl (fun s n => .ite (doorbell_grows n s) (.refl s)) _ _) rfl)

theorem flushHeld_grows (s : State) : AttnGrows s (flushHeld s) :=
  .behind (.foldl (fun _ _ => emitNotice_grows ..) s.rings.held _) rfl

/-! ### Records, reactions, LATCHED -/

theorem endReaction_grows (n : Source) (s : State) : AttnGrows s (endReaction n s) :=
  .behind (notice_grows ..) rfl

theorem enterLatched_grows (s : State) : AttnGrows s (enterLatched s) := by
  unfold enterLatched
  extract_lets boot s1 s2 s3 s4
  have h1 : AttnGrows s s1 := stopOutputs_grows s
  have h2 : AttnGrows s1 s2 := .foldl (fun s n => .ite (endReaction_grows n s) (.refl s)) _ s1
  clear_value s1 s2
  have h3 : AttnGrows s2 s3 := .foldl (fun s (x : Pend) => postNow_grows x.slot .wrongState 0 [] s) s2.mbox.pend s2
  clear_value s3
  have h4 : AttnGrows s3 s4 := .behind (enterDev_grows ..) rfl
  have h := ((h1.trans h2).trans h3).trans h4
  clear_value s4
  exact .ite ((h.trans (flushHeld_grows s4)).trans (ring_grows 0 (flushHeld s4))) h

theorem graveEvent_attn (f : Source) (s : State) : (graveEvent f s).bus.attn.getLsbD 5 = true := by
  unfold graveEvent
  extract_lets entry s1 s2 s3
  have h1 : s1.bus.attn.getLsbD 5 = true := attn_fault_set s
  have h2 : AttnGrows s1 s2 := .ite (notice_grows 0x0E07 .fault _ s1) (.refl s1)
  have h3 : AttnGrows s2 s3 := .of_bus (boxRecord_bus ..)
  have h4 : AttnGrows s3 (if entry then enterLatched s3 else s3) := .ite (enterLatched_grows s3) (.refl s3)
  exact ((h2.trans h3).trans h4).kept 5 h1

end Sys2Proof.Machine
end

section
-- One declaration after another: the whole text is compiled as one file, within a limit on memory.
set_option Elab.async false
/-!
The fault events of Obligations.FaultEvents: events and merging, reactions, the actions on them, SAFE.
-/

namespace Sys2Proof.Machine

/-! ## One source at a time -/

/-- What a change of source n keeps of a source, it keeps of every source. -/
theorem modSource_keeps {α : Type} {v : FSource → α} {n m : Source} {g : FSource → FSource} {s : State}
    (hg : ∀ x, v (g x) = v x) : v ((s.modSource n g).faults.src[m]'m.isLt) = v (s.faults.src[m]'m.isLt) := by
  by_cases hm : m = n
  · subst hm
    rw [State.modSource_same]
    exact hg _
  · rw [State.modSource_other hm]

theorem modSource_congr {n : Source} {g h : FSource → FSource} {s : State}
    (heq : g (s.faults.src[n]'n.isLt) = h (s.faults.src[n]'n.isLt)) : s.modSource n g = s.modSource n h :=
  congrArg (fun x => s.modFaults fun f => { f with src := f.src.set n x }) heq

theorem FSource.count_grave {x : FSource} (h : x.inForce = .grave) : x.count.inForce = .grave := by
  unfold FSource.count
  dsimp only
  rw [h]
  rfl

theorem FSource.count_sticky (x : FSource) : x.count.observed = true ∨ x.count.forced = true := by
  unfold FSource.count
  dsimp only
  cases x.attribForced
  · exact .inl (Bool.or_true _)
  · exact .inr (Bool.or_true _)

/-! ## The grace time set, through notices (R407) -/

theorem Faults.wordWritten_grace (c : Fin 5) (a : Nat) (f : Faults) : (f.wordWritten c a).grace = f.grace := by
  unfold Faults.wordWritten
  dsimp only
  split
  · split
    · rfl
    · rfl
  · rfl

theorem pushNotice_grace (code : W16) (k : Nat) (args : W64) (s : State) :
    (pushNotice code k args s).faults.grace = s.faults.grace := by
  have hwords : ((s.faults.wordWritten 3 (2 * s.rings.nwr)).wordWritten 3 (2 * s.rings.nwr + 1)).grace =
      s.faults.grace := by
    rw [Faults.wordWritten_grace, Faults.wordWritten_grace]
  unfold pushNotice
  dsimp only
  split
  · exact hwords
  · exact hwords

theorem noticeGap_grace (s : State) : (noticeGap s).faults.grace = s.faults.grace := by
  unfold noticeGap pushNoticeGap
  split
  · split
    · exact pushNotice_grace ..
    · rfl
  · rfl

theorem notice_grace (code : W16) (k : Kind) (args : W64) (s : State) :
    (notice code k args s).faults.grace = s.faults.grace := by
  unfold notice
  split
  · rfl
  · rfl
  · unfold emitNotice
    split
    · dsimp only
      split
      · exact (pushNotice_grace ..).trans (noticeGap_grace s)
      · exact noticeGap_grace s
    · split
      · exact pushNotice_grace ..
      · rfl
    · split
      · exact pushNotice_grace ..
      · rfl

/-! ## Events (R402 to R409) -/

theorem endReactions_idle {s : State} (h : ∀ g, s.reactionEndDue g = false) : endReactions s = s := by
  unfold endReactions
  generalize List.finRange 64 = l
  induction l with
  | nil => rfl
  | cons n l ih => rw [List.foldl_cons, if_neg (ne_true_of_eq_false (h n)), ih]

theorem faultEvent_due {f : Source} {s : State} (hon : s.core.dev ≠ .off)
    (hdue : (s.faults.src[f]'f.isLt).eventDue = true) (hends : ∀ g, s.reactionEndDue g = false) :
    faultEvent f s = takeEvent f s := by
  unfold faultEvent
  rw [if_pos ⟨hon, hdue⟩, endReactions_idle hends]

/-- The event counted, with its notices. -/
def countedEvent (f : Source) (s : State) : State :=
  eventNotices f (s.faults.src[f]'f.isLt) (s.faults.src[f]'f.isLt).count (s.modSource f FSource.count)

theorem eventNotices_tells (n : Source) (x y : FSource) (s : State) : TellOnly s (eventNotices n x y s) := by
  unfold eventNotices
  extract_lets s1
  have h1 : TellOnly s s1 := by
    unfold s1
    split
    · exact .refl s
    · exact notice_tells ..
  clear_value s1
  split
  · exact h1.trans (notice_tells ..)
  · exact h1

theorem eventNotices_grace (n : Source) (x y : FSource) (s : State) :
    (eventNotices n x y s).faults.grace = s.faults.grace := by
  unfold eventNotices
  extract_lets s1
  have h1 : s1.faults.grace = s.faults.grace := by
    unfold s1
    split
    · rfl
    · exact notice_grace ..
  clear_value s1
  split
  · exact (notice_grace ..).trans h1
  · exact h1

section
variable (f : Source) (s : State)

theorem countedEvent_core : (countedEvent f s).core = s.core := (eventNotices_tells ..).core

theorem countedEvent_same : (countedEvent f s).faults.src[f]'f.isLt = (s.faults.src[f]'f.isLt).count := by
  have hsrc : (countedEvent f s).faults.src = (s.modSource f FSource.count).faults.src := (eventNotices_tells ..).src
  exact (congrArg (fun v : Vector FSource 64 => v[f]'f.isLt) hsrc).trans (State.modSource_same ..)

theorem countedEvent_other {g : Source} (h : g ≠ f) :
    (countedEvent f s).faults.src[g]'g.isLt = s.faults.src[g]'g.isLt := by
  have hsrc : (countedEvent f s).faults.src = (s.modSource f FSource.count).faults.src := (eventNotices_tells ..).src
  exact (congrArg (fun v : Vector FSource 64 => v[g]'g.isLt) hsrc).trans (State.modSource_other h ..)

theorem countedEvent_grace : (countedEvent f s).faults.grace = s.faults.grace := eventNotices_grace ..

end

section
variable {f : Source} {s : State}

theorem takeEvent_grave (h : (s.faults.src[f]'f.isLt).inForce = .grave) :
    takeEvent f s = graveEvent f (countedEvent f s) := if_pos h

theorem takeEvent_merged (h : (s.faults.src[f]'f.isLt).inForce ≠ .grave) {r : Source}
    (hmerged : s.faults.mergedInto f = some r) : takeEvent f s = mergeEvent f r s := by
  unfold takeEvent
  dsimp only
  rw [if_neg h, hmerged]

theorem takeEvent_begins (h : (s.faults.src[f]'f.isLt).inForce ≠ .grave) (hmerged : s.faults.mergedInto f = none) :
    takeEvent f s = if (s.faults.src[f]'f.isLt).count.inForce = .severe then
      interrupt f (beginReaction f (countedEvent f s)) else countedEvent f s := by
  unfold takeEvent
  dsimp only
  rw [if_neg h, hmerged]
  rfl

/-- A merged event counts at the reacting source and begins nothing (R409). -/
theorem mergeEvent_counts (r : Source) :
    ((mergeEvent f r s).faults.src[r]'r.isLt).consequent = min 65535 ((s.faults.src[r]'r.isLt).consequent + 1) ∧
      (∀ g : Source, ((mergeEvent f r s).faults.src[g]'g.isLt).reaction = (s.faults.src[g]'g.isLt).reaction) ∧
      (mergeEvent f r s).core = s.core ∧ (mergeEvent f r s).rings = s.rings := by
  refine ⟨?_, fun g => ?_, rfl, rfl⟩
  · have hkept := modSource_keeps (v := FSource.consequent) (n := f) (m := r) (s := s)
      (g := fun x => { x with taken := true, fresh := false }) fun _ => rfl
    exact (congrArg FSource.consequent (State.modSource_same ..)).trans
      (congrArg (fun k => min 65535 (k + 1)) hkept)
  · have hkept := modSource_keeps (v := FSource.reaction) (n := f) (m := g) (s := s)
      (g := fun x => { x with taken := true, fresh := false }) fun _ => rfl
    have hcounted := modSource_keeps (v := FSource.reaction) (n := r) (m := g)
      (s := s.modSource f fun x => { x with taken := true, fresh := false })
      (g := fun x => { x with consequent := min 65535 (x.consequent + 1) }) fun _ => rfl
    exact hcounted.trans hkept

end

/-! ## Actions on a source (Table 19-1) -/

/-- An action on a source keeps the sources and LT, takes no cause from ATTN, and moves the device only where a stop
waits for its ports. -/
structure ActionKeeps (s t : State) : Prop where
  src : t.faults.src = s.faults.src
  lt : t.core.lt = s.core.lt
  dev : s.core.stopping = false → t.core.dev = s.core.dev ∧ t.core.stopping = false
  attn : AttnGrows s t

theorem ActionKeeps.refl (s : State) : ActionKeeps s s := ⟨rfl, rfl, fun h => ⟨rfl, h⟩, .refl s⟩

theorem ActionKeeps.of_core {s t : State} (hsrc : t.faults.src = s.faults.src) (hcore : t.core = s.core)
    (hattn : AttnGrows s t) : ActionKeeps s t :=
  ⟨hsrc, by rw [hcore], fun h => by rw [hcore]; exact ⟨rfl, h⟩, hattn⟩

theorem ActionKeeps.trans {a b c : State} (h : ActionKeeps a b) (k : ActionKeeps b c) : ActionKeeps a c :=
  ⟨k.src.trans h.src, k.lt.trans h.lt, fun hs => ⟨(k.dev (h.dev hs).2).1.trans (h.dev hs).1, (k.dev (h.dev hs).2).2⟩,
    h.attn.trans k.attn⟩

theorem ActionKeeps.ite {c : Prop} [Decidable c] {s t u : State} (ht : ActionKeeps s t) (hu : ActionKeeps s u) :
    ActionKeeps s (if c then t else u) := by
  split
  · exact ht
  · exact hu

theorem eachPort_action {f : PortId → State → State} (h : ∀ p s, ActionKeeps s (f p s)) (s : State) :
    ActionKeeps s (eachPort f s) := by
  unfold eachPort
  generalize List.finRange 16 = l
  induction l generalizing s with
  | nil => exact .refl s
  | cons p l ih => exact (h p s).trans (ih _)

theorem forcePort_core (p : PortId) (st : PortState) (s : State) : (forcePort p st s).core = s.core := by
  have hdrop : (dropPort p st s).core = s.core :=
    (State.modPort_core ..).trans (((endGauze_cals p (stopProfile p (portLeaves p s))).core).trans
      ((State.modHeater_core ..).trans (portLeaves_cals p s).core))
  exact (completeWhere_tells ..).core.trans hdrop

theorem forcePort_action (p : PortId) (st : PortState) (s : State) : ActionKeeps s (forcePort p st s) :=
  .of_core (forcePort_stops ..).src (forcePort_core ..) (forcePort_grows ..)

theorem finishStop_action (s : State) : ActionKeeps s (finishStop s) :=
  ⟨(finishStop_stops s).src, by rw [(finishStop_stops s).core], fun h => by rw [finishStop_idle h]; exact ⟨rfl, h⟩,
    finishStop_grows s⟩

theorem shutPort_action (p : PortId) (s : State) : ActionKeeps s (shutPort p s) :=
  .ite ((forcePort_action ..).trans (finishStop_action _)) (.refl s)

theorem shutGroup_action (g : Nat) (c : Port → Bool) (s : State) : ActionKeeps s (shutGroup g c s) :=
  eachPort_action (fun p s => .ite (shutPort_action p s) (.refl s)) s

theorem stopProfile_action (p : PortId) (s : State) : ActionKeeps s (stopProfile p s) :=
  .of_core (congrArg Faults.src (State.modHeater_faults ..)) (State.modHeater_core ..) (.of_bus (State.modHeater_bus ..))

theorem stopProfiles_action (c : PortId → Bool) (s : State) : ActionKeeps s (stopProfiles c s) :=
  eachPort_action (fun p s => .ite (stopProfile_action p s) (.refl s)) s

theorem emptyRing_action (b : Bool) (s : State) : ActionKeeps s (emptyRing b s) := .of_core rfl rfl (.of_bus rfl)

theorem freeSlots_action (s : State) : ActionKeeps s (freeSlots s) :=
  .of_core (wordsWritten_src 4 id (List.range 64) s.faults) rfl (.of_bus rfl)

theorem haltConverters_action (s : State) : ActionKeeps s (haltConverters s) :=
  .of_core (haltConverters_stops s).src (completeWhere_tells ..).core (haltConverters_grows s)

theorem holdHeaters_action (f : Source) (s : State) : ActionKeeps s (holdHeaters f s) := .of_core rfl rfl (.of_bus rfl)

theorem reeveAction_keeps (f : Source) (s : State) : ActionKeeps s (reeveAction f s) :=
  .ite ⟨rfl, rfl, fun h => ⟨rfl, h⟩, .of_bus rfl⟩ <| .ite (stopProfiles_action _ s) <|
    .ite (.of_core rfl rfl (.of_bus rfl)) <| .ite (emptyRing_action _ s) <| .ite (shutPort_action _ s) <|
    .ite (shutGroup_action _ _ s) <| .ite (stopProfiles_action _ s) <| .ite (freeSlots_action s) (.refl s)

theorem blockAction_keeps (f : Source) (s : State) : ActionKeeps s (blockAction f s) :=
  .ite (holdHeaters_action f s) <|
    .ite (ActionKeeps.trans (b := s.modFaults fun x => { x with convHeld := true }) (.of_core rfl rfl (.of_bus rfl))
      (haltConverters_action _)) <|
    .ite (emptyRing_action _ s) <| .ite (shutPort_action _ s) <| .ite (shutGroup_action _ _ s) <|
    .ite (freeSlots_action s) (.refl s)

/-! ## A reaction begins (R405, R407, R408) -/

theorem interrupt_keeps (f : Source) (s : State) :
    (s.core.stopping = false → (interrupt f s).core.dev = s.core.dev) ∧ AttnGrows s (interrupt f s) ∧
      ∃ b, ((interrupt f s).faults.src[f]'f.isLt).reaction =
        (s.faults.src[f]'f.isLt).reaction.map fun r => { r with acted := r.acted || b } := by
  have hkeeps := reeveAction_keeps f s
  unfold interrupt
  dsimp only
  split
  · refine ⟨fun h => (hkeeps.dev h).1, hkeeps.attn.trans (.of_bus rfl), true, ?_⟩
    rw [State.modSource_same, hkeeps.src]
    cases (s.faults.src[f]'f.isLt).reaction with
    | none => rfl
    | some r => exact congrArg (fun b => some { r with acted := b }) (Bool.or_true r.acted).symm
  · refine ⟨fun _ => rfl, .refl s, false, ?_⟩
    cases (s.faults.src[f]'f.isLt).reaction with
    | none => rfl
    | some r => exact congrArg (fun b => some { r with acted := b }) (Bool.or_false r.acted).symm

theorem wakeEvent_stopping (s : State) : (wakeEvent false s).core.stopping = s.core.stopping := by
  unfold wakeEvent
  dsimp only
  split
  · exact absurd ‹_› (by decide)
  · split
    · rfl
    · rfl

theorem wakeEvent_src (s : State) : (wakeEvent false (attn .fault s)).faults.src = s.faults.src := by
  rw [wakeEvent_rest]
  rfl

theorem beginReaction_begins (f : Source) (s : State) :
    (beginReaction f s).core.dev = s.core.dev ∧ (beginReaction f s).core.stopping = s.core.stopping ∧
      (beginReaction f s).bus.attn.getLsbD 5 = true ∧
      ((beginReaction f s).faults.src[f]'f.isLt).reaction = some { grace := 64 * s.faults.grace } := by
  unfold beginReaction
  refine ⟨wakeEvent_dev _, wakeEvent_stopping _, ?_, ?_⟩
  · rw [wakeEvent_rest]
    exact attn_fault_set _
  · exact (congrArg (fun v : Vector FSource 64 => (v[f]'f.isLt).reaction) (wakeEvent_src _)).trans
      (congrArg FSource.reaction (State.modSource_same f (fun x =>
        { x with reaction := some { grace := 64 * s.faults.grace } }) s))

/-! ## The event of a source -/

section
variable {f : Source} {s : State}

theorem execFaultEvent_grave (h : (s.faults.src[f]'f.isLt).inForce = .grave) :
    (takeEvent f s).core.dev = .latched ∧ (takeEvent f s).bus.attn.getLsbD 5 = true := by
  rw [takeEvent_grave h]
  exact ⟨graveEvent_dev .., graveEvent_attn ..⟩

/-- Counted without promotion: a sticky bit, and no reaction (R403). -/
theorem takeEvent_counted (hmerged : s.faults.mergedInto f = none)
    (hgrave : (s.faults.src[f]'f.isLt).count.inForce ≠ .grave)
    (hsevere : (s.faults.src[f]'f.isLt).count.inForce ≠ .severe) : takeEvent f s = countedEvent f s := by
  rw [takeEvent_begins (fun h => hgrave (FSource.count_grave h)) hmerged, if_neg hsevere]

/-- Of a source then SEVERE: a reaction begins with the grace time now set (R407). -/
theorem takeEvent_severe (hmerged : s.faults.mergedInto f = none) (hgrave : (s.faults.src[f]'f.isLt).inForce ≠ .grave)
    (hsevere : (s.faults.src[f]'f.isLt).count.inForce = .severe) :
    (∃ r, ((takeEvent f s).faults.src[f]'f.isLt).reaction = some r ∧ r.grace = 64 * s.faults.grace ∧ r.action = none) ∧
      (takeEvent f s).bus.attn.getLsbD 5 = true ∧
      (s.core.stopping = false → (takeEvent f s).core.dev = s.core.dev) := by
  rw [takeEvent_begins hgrave hmerged, if_pos hsevere]
  obtain ⟨hdev, hstopping, hattn, hreaction⟩ := beginReaction_begins f (countedEvent f s)
  obtain ⟨kdev, kattn, b, kreaction⟩ := interrupt_keeps f (beginReaction f (countedEvent f s))
  rw [countedEvent_core] at hdev hstopping
  rw [countedEvent_grace] at hreaction
  rw [hreaction] at kreaction
  exact ⟨⟨_, kreaction, rfl, rfl⟩, kattn.kept 5 hattn, fun h => (kdev (hstopping.trans h)).trans hdev⟩

theorem execFaultEvent_idle (h : (s.faults.src[f]'f.isLt).eventDue = false) : exec (.faultEvent f) s = .next s :=
  congrArg Host.Outcome.next (if_neg fun hdue => ne_true_of_eq_false h hdue.2)

end

/-! ## The action tick (R408) -/

section
variable {f : Source} {s : State} {r : Reaction}

theorem awaits_none (h : (s.faults.src[f]'f.isLt).reaction = none) : s.awaits f = none := by
  unfold State.awaits
  rw [h]
  rfl

theorem awaits_acting (h : (s.faults.src[f]'f.isLt).reaction = some r) (haction : r.action = none) :
    s.awaits f = some r := by
  unfold State.awaits
  rw [h, Option.filter_some, haction]
  rfl

theorem awaits_acted {a : W64} (h : (s.faults.src[f]'f.isLt).reaction = some r) (haction : r.action = some a) :
    s.awaits f = none := by
  unfold State.awaits
  rw [h, Option.filter_some, haction]
  rfl

theorem markAction_reaction (h : (s.faults.src[f]'f.isLt).reaction = some r) :
    ((markAction f s).faults.src[f]'f.isLt).reaction =
      some { r with action := some s.core.lt, checks := true, acted := true } := by
  unfold markAction
  rw [State.modSource_same]
  dsimp only
  rw [h]
  rfl

theorem markAction_other {g : Source} (h : g ≠ f) :
    (markAction f s).faults.src[g]'g.isLt = s.faults.src[g]'g.isLt := State.modSource_other h ..

theorem reactionHandled_completes (h : (s.faults.src[f]'f.isLt).reaction = some r) (haction : r.action = none)
    (hdue : s.handledDue f r = true) (hacted : r.acted = true) : ∃ t, exec (.reactionHandled f) s = .next t ∧
      (t.faults.src[f]'f.isLt).reaction = some { r with action := some s.core.lt, checks := true } ∧
      (∀ g : Source, g ≠ f → t.faults.src[g]'g.isLt = s.faults.src[g]'g.isLt) ∧ t.core = s.core := by
  let t := notice 0x0E03 .fault (argB 0 f.val ||| argW 4 (satNat 0xFFFFFFFF r.age)) (markAction f s)
  have hexec : exec (.reactionHandled f) s = .next t := by
    change execReactionHandled f s = _
    unfold execReactionHandled
    rw [awaits_acting h haction]
    exact congrArg Host.Outcome.next (if_pos hdue)
  have htells : TellOnly (markAction f s) t := notice_tells ..
  have hsame : ((markAction f s).faults.src[f]'f.isLt).reaction =
      some { r with action := some s.core.lt, checks := true } :=
    (markAction_reaction h).trans (congrArg (fun b => some { r with action := some s.core.lt, checks := true, acted := b })
      hacted.symm)
  refine ⟨t, hexec, ?_, fun g hg => ?_, htells.core⟩
  · exact (congrArg (fun v : Vector FSource 64 => (v[f]'f.isLt).reaction) htells.src).trans hsame
  · exact (congrArg (fun v : Vector FSource 64 => v[g]'g.isLt) htells.src).trans (markAction_other hg)

theorem execReactionHandled_idle (h : (s.faults.src[f]'f.isLt).reaction = some r) (haction : r.action = none)
    (hdue : s.handledDue f r = false) : exec (.reactionHandled f) s = .next s := by
  change execReactionHandled f s = _
  unfold execReactionHandled
  rw [awaits_acting h haction]
  exact congrArg Host.Outcome.next (if_neg (ne_true_of_eq_false hdue))

theorem execReactionHandled_acted (h : s.awaits f = none) : exec (.reactionHandled f) s = .next s := by
  change execReactionHandled f s = _
  unfold execReactionHandled
  rw [h]

/-! ## Grace expiry (R408) -/

theorem execGraceExpiry_due (h : (s.faults.src[f]'f.isLt).reaction = some r) (haction : r.action = none)
    (hgrace : r.grace = 0) (hboot : s.core.dev ≠ .boot) (hon : s.core.dev ≠ .off) :
    exec (.graceExpiry f) s = .next (expire f s) := by
  change execGraceExpiry f s = _
  unfold execGraceExpiry
  rw [awaits_acting h haction]
  exact congrArg Host.Outcome.next (if_pos ⟨hgrace, hboot, hon⟩)

theorem execGraceExpiry_idle (h : (s.faults.src[f]'f.isLt).reaction = some r) (haction : r.action = none)
    (hgrace : 0 < r.grace) : exec (.graceExpiry f) s = .next s := by
  change execGraceExpiry f s = _
  unfold execGraceExpiry
  rw [awaits_acting h haction]
  exact congrArg Host.Outcome.next (if_neg fun hdue => by omega)

theorem execGraceExpiry_acted (h : s.awaits f = none) : exec (.graceExpiry f) s = .next s := by
  change execGraceExpiry f s = _
  unfold execGraceExpiry
  rw [h]

/-- A block action is marked with this tick as its action tick. -/
theorem expire_block (h : (s.faults.src[f]'f.isLt).reaction = some r) (hcode : blockCode f ≠ none) :
    (s.core.stopping = false → (expire f s).core.dev = s.core.dev) ∧
      ∃ x, ((expire f s).faults.src[f]'f.isLt).reaction = some x ∧ x.action = some s.core.lt ∧ x.checks = true := by
  obtain ⟨c, hc⟩ := Option.ne_none_iff_exists'.mp hcode
  let s1 := markAction f (blockAction f s)
  let s2 := notice 0x0E04 .fault (argB 0 f.val ||| argB 1 c) s1
  have hexpire : expire f s = boxRecord 0x08 (argB 1 f.val ||| argB 2 c) s2 := by
    unfold expire
    rw [hc]
  have hkeeps := blockAction_keeps f s
  have htells : RecordOnly s1 (expire f s) := by
    rw [hexpire]
    exact (notice_tells ..).records.trans (boxRecord_records ..)
  have hblock : ((blockAction f s).faults.src[f]'f.isLt).reaction = some r :=
    (congrArg (fun v : Vector FSource 64 => (v[f]'f.isLt).reaction) hkeeps.src).trans h
  refine ⟨fun hs => ?_, _, (congrArg (fun v : Vector FSource 64 => (v[f]'f.isLt).reaction) htells.src).trans
    (markAction_reaction hblock), congrArg some hkeeps.lt, rfl⟩
  exact (congrArg Core.dev htells.core).trans (hkeeps.dev hs).1

end

/-! ## SAFE (R410) -/

theorem restartReeve_dev (s : State) : (restartReeve s).core.dev = s.core.dev := by
  unfold restartReeve
  extract_lets open_ s1 s2
  have h2 : TellOnly s1 s2 := .foldl (fun _ _ => postStatus_tells ..) _ s1
  have hdev : s2.core.dev = s1.core.dev := congrArg Core.dev h2.core
  exact hdev

theorem enterSafe_dev {src : Source} {s : State} (hon : s.core.dev ≠ .off) (hlatched : s.core.dev ≠ .latched) :
    (enterSafe src s).core.dev = .safe := by
  unfold enterSafe
  rw [if_neg (by simp [hon, hlatched])]
  extract_lets entry s1 s2 s3
  have h1 : s1.core.dev = .safe := by
    unfold s1
    rw [enterDev_core]
  clear_value s1
  have h2 : s2.core.dev = .safe := h1
  clear_value s2
  have h3 : s3.core.dev = .safe := by
    unfold s3
    split
    · rw [(boxRecord_records ..).core, notice_core]
      exact h2
    · exact h2
  clear_value s3
  split
  · rw [restartReeve_dev]
    exact h3
  · exact h3

/-! ## The check of the eighth tick, and the end (R407, R408) -/

section
variable {f : Source} {s : State} {r : Reaction} {a : W64}

theorem actionCheck_due (h : (s.faults.src[f]'f.isLt).reaction = some r) (haction : r.action = some a)
    (hchecks : r.checks = true) (heighth : s.since a = 8) : exec (.actionCheck f) s = .next
      (if (s.faults.src[f]'f.isLt).det then
        enterSafe f (s.modSource f fun x => { x with reaction := some { r with checks := false } })
      else s.modSource f fun x => { x with reaction := some { r with checks := false } }) := by
  have hmark : (s.modSource f fun x => { x with reaction := x.reaction.map fun r => { r with checks := false } }) =
      s.modSource f fun x => { x with reaction := some { r with checks := false } } :=
    modSource_congr (by rw [h]; rfl)
  have hcond : (r.checks && r.action.any fun t => decide (s.since t = 8)) = true := by
    rw [hchecks, haction, Option.any_some, decide_eq_true heighth]
    rfl
  change execActionCheck f s = _
  unfold execActionCheck
  rw [h]
  dsimp only
  rw [if_pos hcond, hmark]

theorem actionCheck_idle (h : (s.faults.src[f]'f.isLt).reaction = some r) (haction : r.action = some a)
    (hidle : r.checks = false ∨ s.since a ≠ 8) : exec (.actionCheck f) s = .next s := by
  have hcond : ¬ (r.checks && r.action.any fun t => decide (s.since t = 8)) = true := by
    rw [haction, Option.any_some, Bool.and_eq_true, decide_eq_true_eq]
    rintro ⟨hchecks, heighth⟩
    obtain hidle | hidle := hidle
    · exact ne_true_of_eq_false hidle hchecks
    · exact hidle heighth
  change execActionCheck f s = _
  unfold execActionCheck
  rw [h]
  exact congrArg Host.Outcome.next (if_neg hcond)

theorem actionCheck_none (h : (s.faults.src[f]'f.isLt).reaction = none) : exec (.actionCheck f) s = .next s := by
  change execActionCheck f s = _
  unfold execActionCheck
  rw [h]

theorem reactionEndDue_iff (h : (s.faults.src[f]'f.isLt).reaction = some r) (haction : r.action = some a) :
    s.reactionEndDue f = decide (3 ≤ r.boundaries) := by
  unfold State.reactionEndDue
  rw [h]
  dsimp only
  unfold Reaction.ended
  rw [haction]
  rfl

theorem reactionEndDue_none (h : (s.faults.src[f]'f.isLt).reaction = none) : s.reactionEndDue f = false := by
  unfold State.reactionEndDue
  rw [h]

theorem endReaction_ends (f : Source) (s : State) : ((endReaction f s).faults.src[f]'f.isLt).reaction = none ∧
    (∀ g : Source, g ≠ f → (endReaction f s).faults.src[g]'g.isLt = s.faults.src[g]'g.isLt) ∧
    (endReaction f s).core = s.core := by
  refine ⟨?_, fun g hg => endReaction_src_other hg s, notice_core ..⟩
  unfold endReaction
  extract_lets x s1
  have h1 : (s1.faults.src[f]'f.isLt).reaction = none := by
    unfold s1
    rw [State.modSource_same]
    dsimp only
    split
    · rfl
    · rfl
  exact (congrArg (fun v : Vector FSource 64 => (v[f]'f.isLt).reaction) (notice_tells ..).src).trans h1

end

/-- Settles O54: an event by what it takes, an action by what it keeps, and the times of a reaction one by one. -/
theorem faultEvents : Obligations.FaultEvents := by
  unfold Obligations.FaultEvents
  intro s
  refine ⟨fun f hon hdue hends => ?_, fun f => execFaultEvent_idle, fun h => congrArg Host.Outcome.next (if_pos h),
    fun h => congrArg Host.Outcome.next (if_neg (by omega)), fun f r h haction => ⟨reactionHandled_completes h haction,
      execReactionHandled_idle h haction, fun hgrace hboot hon hlatched => ⟨fun hcode => ?_, fun hcode => ?_⟩,
      execGraceExpiry_idle h haction⟩,
    fun f r a h haction => ⟨execReactionHandled_acted (awaits_acted h haction),
      execGraceExpiry_acted (awaits_acted h haction), fun hchecks heighth => ⟨fun hdet hon hlatched => ?_, fun hdet => ?_⟩,
      actionCheck_idle h haction, fun hend => ?_, fun hend => ?_⟩,
    fun f h => ⟨execReactionHandled_acted (awaits_none h), execGraceExpiry_acted (awaits_none h), actionCheck_none h,
      congrArg Host.Outcome.next (if_neg (ne_true_of_eq_false (reactionEndDue_none h)))⟩⟩
  · have hexec : exec (.faultEvent f) s = .next (takeEvent f s) :=
      congrArg Host.Outcome.next (faultEvent_due hon hdue hends)
    refine ⟨fun hgrave => ⟨_, hexec, execFaultEvent_grave hgrave⟩, fun hgrave r hmerged => ⟨_, hexec, ?_⟩,
      fun hmerged hgrave hsevere => ⟨_, hexec, ?_⟩,
      fun hmerged hgrave hsevere => ⟨_, hexec, takeEvent_severe hmerged hgrave hsevere⟩⟩
    · rw [takeEvent_merged hgrave hmerged]
      exact mergeEvent_counts r
    · rw [takeEvent_counted hmerged hgrave hsevere]
      refine ⟨countedEvent_same f s, ?_, fun g hg => countedEvent_other f s hg, countedEvent_core f s⟩
      rw [countedEvent_same f s]
      exact FSource.count_sticky _
  · refine ⟨_, execGraceExpiry_due h haction hgrace hboot hon, ?_⟩
    unfold expire
    rw [hcode]
    exact enterSafe_dev hon hlatched
  · exact ⟨_, execGraceExpiry_due h haction hgrace hboot hon, expire_block h hcode⟩
  · refine ⟨_, actionCheck_due h haction hchecks heighth, ?_⟩
    rw [if_pos hdet]
    exact enterSafe_dev (s := s.modSource f _) hon hlatched
  · rw [actionCheck_due h haction hchecks heighth, if_neg (ne_true_of_eq_false hdet)]
  · have hdue : s.reactionEndDue f = true := (reactionEndDue_iff h haction).trans (decide_eq_true hend)
    exact ⟨_, congrArg Host.Outcome.next (if_pos hdue), endReaction_ends f s⟩
  · have hdue : s.reactionEndDue f = false := (reactionEndDue_iff h haction).trans (decide_eq_false (by omega))
    exact congrArg Host.Outcome.next (if_neg (ne_true_of_eq_false hdue))

end Sys2Proof.Machine
end

section
-- One declaration after another: the whole text is compiled as one file, within a limit on memory.
set_option Elab.async false
/-!
The field lock of Obligations.LockCommandsAndEvents: attempts, the challenge, sealing, and the two timers.
-/

namespace Sys2Proof.Machine

/-! ## Outcomes of an attempt (R440, R443) -/

theorem lockRecord_records (event : Nat) (s : State) : RecordOnly s (lockRecord event s) := boxRecord_records ..

theorem lockRecord_lock (event : Nat) (s : State) : (lockRecord event s).lock = s.lock := boxRecord_lock ..

theorem lockedResponse_flag (b : Bool) (s : State) : u8 (lockedResponse b s) 1 = boolNat b := by
  cases b
  · rfl
  · rfl

/-- The right one: FAILS zero, the level raised where it rises. -/
theorem attemptWon_posts (n : SlotId) (event : Nat) (level : Fin 3) (s : State) :
    ∃ u, attemptWon n event level s = postStatus n .ok u ∧
      u.lock = { s.lock with fails := 0, level := if s.lock.level < level then level else s.lock.level } := by
  unfold attemptWon
  extract_lets rises s1 s2 s3
  have h1 : s1.lock = { s.lock with fails := 0, level := if s.lock.level < level then level else s.lock.level } := by
    unfold s1 rises
    by_cases h : s.lock.level < level
    · rw [if_pos h, decide_eq_true h]
      rfl
    · rw [if_neg h, decide_eq_false h]
      rfl
  have h2 : s2.lock = s1.lock := lockRecord_lock ..
  have h3 : s3.lock = s2.lock := by
    unfold s3
    split
    · exact notice_lock ..
    · rfl
  exact ⟨s3, rfl, h3.trans (h2.trans h1)⟩

/-- A wrong one: LOCKED, and from the fourth failure on a lockout. -/
theorem attemptFailed_posts (n : SlotId) (event : Nat) (s : State) :
    ∃ u resp, attemptFailed n event s = post n .locked 0 resp u ∧ u8 resp 1 = 0 ∧
      u.lock = { s.lock with lockout := if 4 ≤ s.lock.fails then some (lockoutLength s.lock.fails, s.core.lt)
                                        else s.lock.lockout } := by
  unfold attemptFailed
  extract_lets len starts s1 s2 s3 s4
  have h1 : s1.lock = { s.lock with lockout := if 4 ≤ s.lock.fails then some (lockoutLength s.lock.fails, s.core.lt)
                                               else s.lock.lockout } := by
    unfold s1 starts
    by_cases h : 4 ≤ s.lock.fails
    · rw [if_pos h, decide_eq_true h]
      rfl
    · rw [if_neg h, decide_eq_false h]
      rfl
  have h2 : s2.lock = s1.lock := lockRecord_lock ..
  have h3 : s3.lock = s2.lock := notice_lock ..
  have h4 : s4.lock = s3.lock := by
    unfold s4
    split
    · exact notice_lock ..
    · rfl
  exact ⟨s4, lockedResponse false s4, rfl, lockedResponse_flag false s4, h4.trans (h3.trans (h2.trans h1))⟩

/-! ## Where an attempt begins (R440, R447) -/

/-- The attempt of slot n counted, as its dispatch or its turn counts it. -/
def attemptCounted (n : SlotId) (s : State) : State :=
  (s.modLock fun l => { l with attempts := satAdd l.attempts 1, fails := satNat 255 (l.fails + 1) }).modSlot n
    fun x => { x with early := true }

section
variable {n : SlotId} {op : Nat} {p : List Byte} {s : State}

theorem request_slot (h : s.request n op p) :
    (s.mbox.slots[n]'n.isLt).st = .running ∧ (s.mbox.slots[n]'n.isLt).op = op := by
  obtain ⟨hruns, -⟩ := h
  unfold State.runs at hruns
  simp only [Bool.and_eq_true, beq_iff_eq] at hruns
  obtain ⟨⟨hst, hop⟩, -⟩ := hruns
  exact ⟨hst, hop⟩

theorem attempting_iff (h : s.request n op p) (hop : op = 0x1101 ∨ op = 0x1103) :
    s.attempting n = (s.mbox.slots[n]'n.isLt).early := by
  obtain ⟨hst, hop'⟩ := request_slot h
  unfold State.attempting
  dsimp only
  rw [hst, hop']
  obtain rfl | rfl := hop
  · exact Bool.and_true _
  · exact Bool.and_true _

theorem beginAttempt_refused (h : s.nvmAllowed = false ∨ s.lock.lockout ≠ none) : beginAttempt n s = s := by
  refine if_neg fun hbegin => ?_
  obtain ⟨-, -, hnvm, hlockout⟩ := hbegin
  obtain h | h := h
  · exact ne_true_of_eq_false h hnvm
  · exact h hlockout

theorem beginAttempt_begins (h : s.request n op p) (hop : op = 0x1101 ∨ op = 0x1103) (hnvm : s.nvmAllowed = true)
    (hlockout : s.lock.lockout = none) : beginAttempt n s = attemptCounted n s := by
  obtain ⟨hst, hop'⟩ := request_slot h
  exact if_pos ⟨hst, hop' ▸ hop, hnvm, hlockout⟩

theorem attempting_counted (h : s.request n op p) (hop : op = 0x1101 ∨ op = 0x1103) :
    (attemptCounted n s).attempting n = true := by
  obtain ⟨hst, hop'⟩ := request_slot h
  have hslot : (attemptCounted n s).mbox.slots[n]'n.isLt = { (s.mbox.slots[n]'n.isLt) with early := true } :=
    State.modSlot_same ..
  have hop2 : ((attemptCounted n s).mbox.slots[n]'n.isLt).op = op := by
    rw [hslot]
    exact hop'
  unfold State.attempting
  dsimp only
  rw [hop2, hslot]
  dsimp only
  rw [hst]
  obtain rfl | rfl := hop
  · rfl
  · rfl

variable (event : Nat) (level : Fin 3) (ok : Bool) (use : State → State)

theorem lockAttempt_held (h : s.request n op p) (hop : op = 0x1101 ∨ op = 0x1103)
    (hearly : (s.mbox.slots[n]'n.isLt).early = false) (hnvm : s.nvmAllowed = false) :
    lockAttempt n event level ok use s = postStatus n .nvmHot s := by
  have hatt : s.attempting n = false := (attempting_iff h hop).trans hearly
  unfold lockAttempt
  dsimp only
  rw [hatt, if_neg Bool.false_ne_true, beginAttempt_refused (.inl hnvm), hatt, if_neg Bool.false_ne_true, hnvm]
  rfl

theorem lockAttempt_locked (h : s.request n op p) (hop : op = 0x1101 ∨ op = 0x1103)
    (hearly : (s.mbox.slots[n]'n.isLt).early = false) (hnvm : s.nvmAllowed = true) (hlockout : s.lock.lockout ≠ none) :
    ∃ t resp, lockAttempt n event level ok use s = post n .locked 0 resp t ∧ u8 resp 1 = 1 ∧ t.lock = s.lock := by
  have hatt : s.attempting n = false := (attempting_iff h hop).trans hearly
  refine ⟨lockRecord 4 s, lockedResponse true s, ?_, lockedResponse_flag true s, lockRecord_lock ..⟩
  unfold lockAttempt
  dsimp only
  rw [hatt, if_neg Bool.false_ne_true, beginAttempt_refused (.inr hlockout), hatt, if_neg Bool.false_ne_true, hnvm]
  rfl

theorem lockAttempt_begins (h : s.request n op p) (hop : op = 0x1101 ∨ op = 0x1103)
    (hearly : (s.mbox.slots[n]'n.isLt).early = false) (hnvm : s.nvmAllowed = true) (hlockout : s.lock.lockout = none) :
    lockAttempt n event level ok use s = judgeAttempt n event level ok use (attemptCounted n s) := by
  have hatt : s.attempting n = false := (attempting_iff h hop).trans hearly
  unfold lockAttempt
  dsimp only
  rw [hatt, if_neg Bool.false_ne_true, beginAttempt_begins h hop hnvm hlockout, if_pos (attempting_counted h hop)]

theorem lockAttempt_begun (h : s.request n op p) (hop : op = 0x1101 ∨ op = 0x1103)
    (hearly : (s.mbox.slots[n]'n.isLt).early = true) :
    lockAttempt n event level ok use s = judgeAttempt n event level ok use s := by
  have hatt : s.attempting n = true := (attempting_iff h hop).trans hearly
  unfold lockAttempt
  dsimp only
  rw [if_pos hatt, if_pos hatt]

end

section
variable {n : SlotId} {p : List Byte} {s : State}

theorem execLockPassword_eq (h : s.request n 0x1101 p) :
    exec (.lockPassword n) s = .next (lockAttempt n 0 1 (p == password) id s) :=
  congrArg Host.Outcome.next (onSlot_request h)

theorem execLockResponse_eq (h : s.request n 0x1103 p) : exec (.lockResponse n) s =
    .next (lockAttempt n 2 2 (s.responseOk p) (State.modLock fun l => { l with nonce := none }) s) :=
  congrArg Host.Outcome.next (onSlot_request h)

/-! ## What a judged attempt leaves of the lock -/

/-- A password's level: never lowered. -/
theorem passwordLevel (l : Fin 3) : (if l < 1 then (1 : Fin 3) else l) = if l = 0 then 1 else l := by
  revert l
  decide

theorem responseLevel (l : Fin 3) : (if l < 2 then (2 : Fin 3) else l) = 2 := by
  revert l
  decide

theorem judgePassword_right (s : State) : ∃ t, judgeAttempt n 0 1 true id s = postStatus n .ok t ∧
    t.lock = { s.lock with fails := 0, level := if s.lock.level = 0 then 1 else s.lock.level } := by
  obtain ⟨u, hu, hlock⟩ := attemptWon_posts n 0 1 s
  rw [passwordLevel] at hlock
  exact ⟨u, hu, hlock⟩

theorem judgeResponse_right (s : State) : ∃ t,
    judgeAttempt n 2 2 true (State.modLock fun l => { l with nonce := none }) s = postStatus n .ok t ∧
      t.lock = { s.lock with fails := 0, level := 2, nonce := none } := by
  obtain ⟨u, hu, hlock⟩ := attemptWon_posts n 2 2 (s.modLock fun l => { l with nonce := none })
  rw [responseLevel] at hlock
  exact ⟨u, hu, hlock⟩

theorem judgePassword_wrong (s : State) : ∃ t resp, judgeAttempt n 0 1 false id s = post n .locked 0 resp t ∧
    u8 resp 1 = 0 ∧ t.lock = { s.lock with
      lockout := if 4 ≤ s.lock.fails then some (lockoutLength s.lock.fails, s.core.lt) else s.lock.lockout } :=
  attemptFailed_posts n 1 s

theorem judgeResponse_wrong (s : State) : ∃ t resp,
    judgeAttempt n 2 2 false (State.modLock fun l => { l with nonce := none }) s = post n .locked 0 resp t ∧
      u8 resp 1 = 0 ∧ t.lock = { s.lock with
        nonce := none
        lockout := if 4 ≤ s.lock.fails then some (lockoutLength s.lock.fails, s.core.lt) else s.lock.lockout } :=
  attemptFailed_posts n 3 (s.modLock fun l => { l with nonce := none })

theorem attemptCounted_lock (n : SlotId) (s : State) : (attemptCounted n s).lock =
    { s.lock with attempts := satAdd s.lock.attempts 1, fails := min 255 (s.lock.fails + 1) } :=
  congrArg (fun k => { s.lock with attempts := satAdd s.lock.attempts 1, fails := k }) (Nat.min_comm ..)

/-- The lock after a wrong attempt that has just been counted, with no lockout before it. -/
theorem failed_eq (hlockout : s.lock.lockout = none) : { (attemptCounted n s).lock with
    lockout := if 4 ≤ (attemptCounted n s).lock.fails then
        some (lockoutLength (attemptCounted n s).lock.fails, (attemptCounted n s).core.lt)
      else (attemptCounted n s).lock.lockout } = s.lock.failed s.core.lt := by
  have hcore : (attemptCounted n s).core = s.core := rfl
  rw [attemptCounted_lock, hcore]
  dsimp only
  rw [hlockout]
  rfl

/-! ## The three cases of an attempt -/

theorem lockAttempts_held (hearly : (s.mbox.slots[n]'n.isLt).early = false) (hnvm : s.nvmAllowed = false) :
    (s.request n 0x1101 p → exec (.lockPassword n) s = .next (postStatus n .nvmHot s)) ∧
      (s.request n 0x1103 p → exec (.lockResponse n) s = .next (postStatus n .nvmHot s)) :=
  ⟨fun h => (execLockPassword_eq h).trans (congrArg _ (lockAttempt_held _ _ _ _ h (.inl rfl) hearly hnvm)),
    fun h => (execLockResponse_eq h).trans (congrArg _ (lockAttempt_held _ _ _ _ h (.inr rfl) hearly hnvm))⟩

theorem lockAttempts_locked (hearly : (s.mbox.slots[n]'n.isLt).early = false) (hnvm : s.nvmAllowed = true)
    (hlockout : s.lock.lockout ≠ none) :
    (s.request n 0x1101 p → ∃ t resp, exec (.lockPassword n) s = .next (post n .locked 0 resp t) ∧
        u8 resp 1 = 1 ∧ t.lock = s.lock) ∧
      (s.request n 0x1103 p → ∃ t resp, exec (.lockResponse n) s = .next (post n .locked 0 resp t) ∧
        u8 resp 1 = 1 ∧ t.lock = s.lock) := by
  constructor
  · intro h
    obtain ⟨t, resp, hpost, hlock⟩ := lockAttempt_locked 0 1 (p == password) id h (.inl rfl) hearly hnvm hlockout
    exact ⟨t, resp, (execLockPassword_eq h).trans (congrArg _ hpost), hlock⟩
  · intro h
    obtain ⟨t, resp, hpost, hlock⟩ := lockAttempt_locked 2 2 (s.responseOk p) (State.modLock fun l =>
      { l with nonce := none }) h (.inr rfl) hearly hnvm hlockout
    exact ⟨t, resp, (execLockResponse_eq h).trans (congrArg _ hpost), hlock⟩

theorem execLockPassword_begins (h : s.request n 0x1101 p) (hearly : (s.mbox.slots[n]'n.isLt).early = false)
    (hnvm : s.nvmAllowed = true) (hlockout : s.lock.lockout = none) : exec (.lockPassword n) s =
      .next (judgeAttempt n 0 1 (p == password) id (attemptCounted n s)) :=
  (execLockPassword_eq h).trans (congrArg _ (lockAttempt_begins _ _ _ _ h (.inl rfl) hearly hnvm hlockout))

theorem execLockResponse_begins (h : s.request n 0x1103 p) (hearly : (s.mbox.slots[n]'n.isLt).early = false)
    (hnvm : s.nvmAllowed = true) (hlockout : s.lock.lockout = none) : exec (.lockResponse n) s =
      .next (judgeAttempt n 2 2 (s.responseOk p) (State.modLock fun l => { l with nonce := none }) (attemptCounted n s)) :=
  (execLockResponse_eq h).trans (congrArg _ (lockAttempt_begins _ _ _ _ h (.inr rfl) hearly hnvm hlockout))

theorem lockAttempts_begin (hearly : (s.mbox.slots[n]'n.isLt).early = false) (hnvm : s.nvmAllowed = true)
    (hlockout : s.lock.lockout = none) :
    (s.request n 0x1101 p → p = password → ∃ t, exec (.lockPassword n) s = .next (postStatus n .ok t) ∧
        t.lock = { s.lock with attempts := satAdd s.lock.attempts 1, fails := 0,
                               level := if s.lock.level = 0 then 1 else s.lock.level }) ∧
      (s.request n 0x1101 p → p ≠ password → ∃ t resp, exec (.lockPassword n) s = .next (post n .locked 0 resp t) ∧
        u8 resp 1 = 0 ∧ t.lock = s.lock.failed s.core.lt) ∧
      (s.request n 0x1103 p → s.responseOk p = true → ∃ t, exec (.lockResponse n) s = .next (postStatus n .ok t) ∧
        t.lock = { s.lock with attempts := satAdd s.lock.attempts 1, fails := 0, level := 2, nonce := none }) ∧
      (s.request n 0x1103 p → s.responseOk p = false → ∃ t resp,
        exec (.lockResponse n) s = .next (post n .locked 0 resp t) ∧ u8 resp 1 = 0 ∧
        t.lock = { s.lock.failed s.core.lt with nonce := none }) := by
  refine ⟨fun h hp => ?_, fun h hp => ?_, fun h hp => ?_, fun h hp => ?_⟩
  · obtain ⟨t, hpost, hlock⟩ := judgePassword_right (n := n) (attemptCounted n s)
    have hexec := execLockPassword_begins h hearly hnvm hlockout
    rw [beq_iff_eq.mpr hp, hpost] at hexec
    exact ⟨t, hexec, hlock⟩
  · obtain ⟨t, resp, hpost, hflag, hlock⟩ := judgePassword_wrong (n := n) (attemptCounted n s)
    have hexec := execLockPassword_begins h hearly hnvm hlockout
    rw [beq_false_of_ne hp, hpost] at hexec
    exact ⟨t, resp, hexec, hflag, hlock.trans (failed_eq hlockout)⟩
  · obtain ⟨t, hpost, hlock⟩ := judgeResponse_right (n := n) (attemptCounted n s)
    have hexec := execLockResponse_begins h hearly hnvm hlockout
    rw [hp, hpost] at hexec
    exact ⟨t, hexec, hlock⟩
  · obtain ⟨t, resp, hpost, hflag, hlock⟩ := judgeResponse_wrong (n := n) (attemptCounted n s)
    have hexec := execLockResponse_begins h hearly hnvm hlockout
    rw [hp, hpost] at hexec
    exact ⟨t, resp, hexec, hflag,
      hlock.trans (congrArg (fun l : Lock => { l with nonce := none }) (failed_eq (n := n) hlockout))⟩

theorem lockAttempts_begun (hearly : (s.mbox.slots[n]'n.isLt).early = true) (l : Lock) (hl : l = { s.lock with
      lockout := if 4 ≤ s.lock.fails then some (600 * 2 ^ min (s.lock.fails - 4) 10, s.core.lt) else s.lock.lockout }) :
    (s.request n 0x1101 p → p = password → ∃ t, exec (.lockPassword n) s = .next (postStatus n .ok t) ∧
        t.lock = { s.lock with fails := 0, level := if s.lock.level = 0 then 1 else s.lock.level }) ∧
      (s.request n 0x1101 p → p ≠ password → ∃ t resp, exec (.lockPassword n) s = .next (post n .locked 0 resp t) ∧
        u8 resp 1 = 0 ∧ t.lock = l) ∧
      (s.request n 0x1103 p → s.responseOk p = true → ∃ t, exec (.lockResponse n) s = .next (postStatus n .ok t) ∧
        t.lock = { s.lock with fails := 0, level := 2, nonce := none }) ∧
      (s.request n 0x1103 p → s.responseOk p = false → ∃ t resp,
        exec (.lockResponse n) s = .next (post n .locked 0 resp t) ∧ u8 resp 1 = 0 ∧
        t.lock = { l with nonce := none }) := by
  subst hl
  refine ⟨fun h hp => ?_, fun h hp => ?_, fun h hp => ?_, fun h hp => ?_⟩
  · obtain ⟨t, hpost, hlock⟩ := judgePassword_right (n := n) s
    have hexec := (execLockPassword_eq h).trans (congrArg _ (lockAttempt_begun _ _ _ _ h (.inl rfl) hearly))
    rw [beq_iff_eq.mpr hp, hpost] at hexec
    exact ⟨t, hexec, hlock⟩
  · obtain ⟨t, resp, hpost, hflag, hlock⟩ := judgePassword_wrong (n := n) s
    have hexec := (execLockPassword_eq h).trans (congrArg _ (lockAttempt_begun _ _ _ _ h (.inl rfl) hearly))
    rw [beq_false_of_ne hp, hpost] at hexec
    exact ⟨t, resp, hexec, hflag, hlock⟩
  · obtain ⟨t, hpost, hlock⟩ := judgeResponse_right (n := n) s
    have hexec := (execLockResponse_eq h).trans (congrArg _ (lockAttempt_begun _ _ _ _ h (.inr rfl) hearly))
    rw [hp, hpost] at hexec
    exact ⟨t, hexec, hlock⟩
  · obtain ⟨t, resp, hpost, hflag, hlock⟩ := judgeResponse_wrong (n := n) s
    have hexec := (execLockResponse_eq h).trans (congrArg _ (lockAttempt_begun _ _ _ _ h (.inr rfl) hearly))
    rw [hp, hpost] at hexec
    exact ⟨t, resp, hexec, hflag, hlock⟩

/-! ## The challenge (R442) -/

theorem lockChallenge_completes (h : s.request n 0x1102 p) : ∃ t nonce,
    exec (.lockChallenge n) s = .next (postOk n nonce t) ∧ nonce.length = 16 ∧
      t.lock = { s.lock with nonce := some (nonce, s.core.lt) } ∧ t.free = s.free + 1 ∧ t.box = s.box ∧
      t.rings = s.rings := by
  let nonce := (List.finRange 16).map (Config.nonceByte s.free)
  exact ⟨s.drawFree.modLock fun l => { l with nonce := some (nonce, s.core.lt) }, nonce,
    congrArg Host.Outcome.next (onSlot_request h), by rw [List.length_map, List.length_finRange], rfl, rfl, rfl, rfl⟩

end

/-! ## Sealing (R445) -/

/-- A source with its FORCE bit released (R413, R414). -/
def FSource.released (x : FSource) : FSource :=
  { x with force := false, nextForce := none, fresh := x.fresh || x.force }

theorem FSource.released_released (x : FSource) : x.released.released = x.released := by
  unfold FSource.released
  dsimp only
  rw [Bool.or_false]

theorem releaseForce_src (n f : Source) (s : State) : (releaseForce n s).faults.src[f]'f.isLt =
    if f = n then (s.faults.src[f]'f.isLt).released else s.faults.src[f]'f.isLt := by
  let t := s.modSource n FSource.released
  have htells : TellOnly t (releaseForce n s) := by
    unfold releaseForce
    dsimp only
    split
    · exact notice_tells ..
    · exact .refl t
  refine (congrArg (fun v : Vector FSource 64 => v[f]'f.isLt) htells.src).trans ?_
  by_cases h : f = n
  · subst h
    rw [if_pos rfl]
    exact State.modSource_same ..
  · rw [if_neg h]
    exact State.modSource_other h ..

theorem releaseForces_src (l : List Source) (f : Source) (s : State) :
    (l.foldl (fun s n => releaseForce n s) s).faults.src[f] =
      if f ∈ l then (s.faults.src[f]'f.isLt).released else s.faults.src[f]'f.isLt := by
  induction l generalizing s with
  | nil => rw [if_neg (List.not_mem_nil)]; rfl
  | cons n l ih =>
    rw [List.foldl_cons, ih, releaseForce_src]
    by_cases hn : f = n
    · rw [if_pos hn, if_pos (List.mem_cons.mpr (.inl hn)), FSource.released_released, ite_self]
    · rw [if_neg hn]
      by_cases hl : f ∈ l
      · rw [if_pos hl, if_pos (List.mem_cons.mpr (.inr hl))]
      · rw [if_neg hl, if_neg (by simp [hn, hl])]

theorem releaseForces_rest (l : List Source) (s : State) : (l.foldl (fun s n => releaseForce n s) s).lock = s.lock ∧
    (l.foldl (fun s n => releaseForce n s) s).core = s.core := by
  induction l generalizing s with
  | nil => exact ⟨rfl, rfl⟩
  | cons n l ih =>
    have hstep : (releaseForce n s).lock = s.lock ∧ (releaseForce n s).core = s.core := by
      unfold releaseForce
      dsimp only
      split
      · exact ⟨notice_lock .., notice_core ..⟩
      · exact ⟨rfl, rfl⟩
    rw [List.foldl_cons]
    exact ⟨(ih _).1.trans hstep.1, (ih _).2.trans hstep.2⟩

theorem wordsWritten_disarmed {α : Type} {c : Fin 5} {a : α → Nat} {l : List α} {f : Faults} (h : f.armed = none) :
    (l.foldl (fun f x => f.wordWritten c (a x)) f).armed = none := by
  induction l generalizing f with
  | nil => exact h
  | cons x l ih =>
    refine ih ?_
    unfold Faults.wordWritten
    dsimp only
    rw [h]

theorem boxRecord_disarmed {type : Byte} {args : W64} {s : State} (h : s.faults.armed = none) :
    (boxRecord type args s).faults.armed = none := by
  unfold boxRecord
  dsimp only
  split
  · exact h
  · exact wordsWritten_disarmed h

theorem notice_disarmed {code : W16} {k : Kind} {args : W64} {s : State} (h : s.faults.armed = none) :
    (notice code k args s).faults.armed = none := by
  rw [notice_armed fun x hx => by rw [h] at hx; cases hx]
  exact h

theorem sealReleases_releases (s : State) : (sealReleases s).lock = s.lock ∧ (sealReleases s).core = s.core ∧
    (sealReleases s).faults.armed = none ∧
    ∀ f : Source, (sealReleases s).faults.src[f] = (s.faults.src[f]'f.isLt).released := by
  obtain ⟨hlock, hcore⟩ := releaseForces_rest (List.finRange 64) s
  have hreleased : ∀ f : Source,
      ((List.finRange 64).foldl (fun s n => releaseForce n s) s).faults.src[f] =
        (s.faults.src[f]'f.isLt).released :=
    fun f => (releaseForces_src (List.finRange 64) f s).trans (if_pos (List.mem_finRange f))
  unfold sealReleases
  generalize (List.finRange 64).foldl (fun s n => releaseForce n s) s = u at hlock hcore hreleased ⊢
  exact ⟨hlock, hcore, rfl, hreleased⟩

theorem sealLock_completes (s : State) : (sealLock s).lock = { s.lock with sealed := true, level := 0 } ∧
    (sealLock s).faults.armed = none ∧
    (∀ f : Source, (sealLock s).faults.src[f] = (s.faults.src[f]'f.isLt).released) ∧
    s.core.dev = (sealLock s).core.dev := by
  obtain ⟨hlock, hcore, harmed, hreleased⟩ := sealReleases_releases (s.modLock fun l => { l with sealed := true, level := 0 })
  unfold sealLock
  dsimp only
  generalize sealReleases (s.modLock fun l => { l with sealed := true, level := 0 }) = u at hlock hcore harmed hreleased ⊢
  have hseal : RecordOnly u (notice 0x1104 .ordinary (argB 0 (boolNat s.lock.sealed)) (lockRecord 5 u)) :=
    (lockRecord_records 5 u).trans (notice_tells ..).records
  exact ⟨(notice_lock ..).trans ((lockRecord_lock 5 u).trans hlock), notice_disarmed (boxRecord_disarmed harmed),
    fun f => (congrArg (fun v : Vector FSource 64 => v[f]'f.isLt) hseal.src).trans (hreleased f),
    congrArg Core.dev (hseal.core.trans hcore).symm⟩

section
variable {n : SlotId} {p : List Byte} {s : State}

theorem execLockSeal_eq (h : s.request n 0x1104 p) : exec (.lockSeal n) s = .next
    (if s.lock.sealed && s.lock.level == 0 then postStatus n .ok s
      else if !s.nvmAllowed then postStatus n .nvmHot s else postStatus n .ok (sealLock s)) :=
  congrArg Host.Outcome.next (onSlot_request h)

theorem lockSeal_completes (h : s.request n 0x1104 p) :
    (s.lock.sealed = true → s.lock.level = 0 → exec (.lockSeal n) s = .next (postStatus n .ok s)) ∧
      (s.lock.sealed = false ∨ s.lock.level ≠ 0 →
        (s.nvmAllowed = false → exec (.lockSeal n) s = .next (postStatus n .nvmHot s)) ∧
        (s.nvmAllowed = true → exec (.lockSeal n) s = .next (postStatus n .ok (sealLock s)))) := by
  rw [execLockSeal_eq h]
  refine ⟨fun hsealed hlevel => ?_, fun hopen => ?_⟩
  · exact congrArg Host.Outcome.next (if_pos (by rw [hsealed, hlevel]; rfl))
  · have hopen' : ¬ (s.lock.sealed && s.lock.level == 0) = true := by
      rw [Bool.and_eq_true, beq_iff_eq]
      rintro ⟨hsealed, hlevel⟩
      obtain hopen | hopen := hopen
      · exact ne_true_of_eq_false hopen hsealed
      · exact hopen hlevel
    rw [if_neg hopen']
    refine ⟨fun hnvm => ?_, fun hnvm => ?_⟩
    · exact congrArg Host.Outcome.next (if_pos (by rw [hnvm]; rfl))
    · exact congrArg Host.Outcome.next (if_neg (by rw [hnvm]; decide))

/-! ## The two timers (R442, R444) -/

theorem nonceExpiry_completes {x : List Byte} {t : W64} (h : s.lock.nonce = some (x, t)) :
    (3840000 ≤ s.since t → exec .nonceExpiry s = .next (s.modLock fun l => { l with nonce := none })) ∧
      (s.since t < 3840000 → exec .nonceExpiry s = .next s) := by
  have hexec : exec .nonceExpiry s =
      .next (if nonceLife ≤ s.since t then s.modLock fun l => { l with nonce := none } else s) := by
    change execNonceExpiry s = _
    unfold execNonceExpiry
    rw [h]
  rw [hexec]
  exact ⟨fun hlife => congrArg Host.Outcome.next (if_pos hlife),
    fun hlife => congrArg Host.Outcome.next (if_neg (Nat.not_le.mpr hlife))⟩

theorem nonceExpiry_none (h : s.lock.nonce = none) : exec .nonceExpiry s = .next s := by
  change execNonceExpiry s = _
  unfold execNonceExpiry
  rw [h]

end

/-- Settles O59: an attempt held, locked out, begun now or at its dispatch; then the challenge, sealing, and the two
timers. -/
theorem lockCommandsAndEvents : Obligations.LockCommandsAndEvents := by
  unfold Obligations.LockCommandsAndEvents
  intro s n p
  refine ⟨lockAttempts_held, lockAttempts_locked, lockAttempts_begin, lockAttempts_begun, lockChallenge_completes,
    fun h => ⟨(lockSeal_completes h).1, fun hopen => ⟨((lockSeal_completes h).2 hopen).1, fun hnvm =>
      ⟨sealLock s, ((lockSeal_completes h).2 hopen).2 hnvm, sealLock_completes s⟩⟩⟩,
    fun hdue => congrArg Host.Outcome.next (if_pos hdue),
    fun hdue => congrArg Host.Outcome.next (if_neg (ne_true_of_eq_false hdue)),
    fun x t => nonceExpiry_completes, nonceExpiry_none⟩

end Sys2Proof.Machine
end

section
-- One declaration after another: the whole text is compiled as one file, within a limit on memory.
set_option Elab.async false
/-!
The BOLT and BOX commands (chapters 17 and 20, Tables 17-7 and 17-8).
-/

namespace Sys2Proof.Machine

/-! ## The slots of the bolt memory -/

section
variable (b : Bolt) (k : Bool)

theorem Bolt.slot_set_same (x : BoltSlot) : (b.set k x).slot k = x := by cases k <;> rfl

theorem Bolt.slot_set_other (x : BoltSlot) : (b.set k x).slot (!k) = b.slot (!k) := by cases k <;> rfl

theorem Bolt.set_target (x : BoltSlot) : (b.set k x).target = b.target := by cases k <;> rfl

theorem Bolt.set_inForce (x : BoltSlot) : (b.set k x).inForce = b.inForce := by cases k <;> rfl

end

section
variable (total : Nat) (d : List Byte) (b : Bolt)

theorem Bolt.program_slot : (b.program d).slot b.target =
    { b.slot b.target with bytes := (b.slot b.target).bytes ++ d } := b.slot_set_same ..

theorem Bolt.program_slot_other : (b.program d).slot (!b.target) = b.slot (!b.target) := b.slot_set_other ..

theorem Bolt.program_target : (b.program d).target = b.target := b.set_target ..

theorem Bolt.program_inForce : (b.program d).inForce = b.inForce := b.set_inForce ..

theorem Bolt.beginStage_slot : (b.beginStage total).slot b.stageTarget = { total := total } := b.slot_set_same ..

theorem Bolt.beginStage_slot_other : (b.beginStage total).slot (!b.stageTarget) = b.slot (!b.stageTarget) :=
  b.slot_set_other ..

theorem Bolt.beginStage_target : (b.beginStage total).target = b.stageTarget := rfl

theorem Bolt.beginStage_inForce : (b.beginStage total).inForce = b.inForce := b.set_inForce b.stageTarget _

end

/-! ## BOLT.STAGE -/

section
variable {c : ChunkCmd} {n : SlotId} {sel : Nat} {s : State} {p : List Byte} (hsel : u16 p 0 = sel)
  (h7 : u8 p 7 = 0) (hbar : c.bar s = none) (hflags : u8 p 6 = 1) (hoff : u16 p 2 = 0)
  (hselOk : c.selOk sel = true) (htotalOk : c.totalOk sel (u16 p 4) = true)
include hsel h7 hbar hflags hoff hselOk htotalOk

/-- The first chunk of an object that has more (R349). -/
theorem chunk_first (hlate : c.late s = none) (hmore : (p.drop 8).length < u16 p 4) :
    ∃ g, chunk c n p s = post n .ok (p.drop 8).length []
      ((c.onChunk (p.drop 8) (c.onFirst (u16 p 4) (dropStaging c.op sel s))).modMbox fun m =>
        { m with staging := m.staging ++ [g] }) := by
  subst hsel
  refine ⟨{ op := c.op, sel := u16 p 0, total := u16 p 4, data := p.drop 8,
            last := (c.onChunk (p.drop 8) (c.onFirst (u16 p 4) (dropStaging c.op (u16 p 0) s))).core.lt }, ?_⟩
  unfold chunk
  dsimp only
  rw [hbar]
  dsimp only
  generalize p.drop 8 = o at *
  rw [hflags, hoff, hlate, h7]
  simp [hselOk, htotalOk, hmore, Nat.testBit]

theorem chunk_late {st : Status} (hlate : c.late s = some st) : chunk c n p s = postStatus n st s := by
  subst hsel
  unfold chunk
  dsimp only
  rw [hbar]
  dsimp only
  rw [hflags, hoff, hlate, h7]
  simp [hselOk, htotalOk, Nat.testBit]

end

section
variable {s : State} {n : SlotId} {p : List Byte}

theorem boltStageCmd_late (h : s.nvmAllowed = true) : boltStageCmd.late s = none := if_pos h

theorem modBolt_posts (f : Bolt → Bolt) (s : State) : (s.modBolt f).posts = s.posts := posts_congr ⟨rfl, rfl, rfl⟩

theorem programChunk_rings (d : List Byte) (s : State) : (programChunk d s).rings = s.rings := rfl

theorem programChunk_bolt (d : List Byte) (s : State) : (programChunk d s).bolt = s.bolt.program d := rfl

theorem boltStage_first (h : s.request n 0x0F01 p) (hsel : u16 p 0 = 0) (h7 : u8 p 7 = 0) (hflags : u8 p 6 = 1)
    (hoff : u16 p 2 = 0) (htotal : 64 ≤ u16 p 4 ∧ u16 p 4 ≤ 32768 ∧ u16 p 4 % 4 = 0)
    (hmore : (p.drop 8).length < u16 p 4) :
    (s.nvmAllowed = true → ∃ t, exec (.boltStage n) s = .next (post n .ok (p.drop 8).length [] t) ∧
      t.bolt.slot s.bolt.stageTarget = { bytes := p.drop 8, total := u16 p 4 } ∧
      t.bolt.slot (!s.bolt.stageTarget) = s.bolt.slot (!s.bolt.stageTarget) ∧ t.bolt.target = s.bolt.stageTarget ∧
      t.bolt.inForce = s.bolt.inForce ∧ t.rings = s.rings) ∧
    (s.nvmAllowed = false → exec (.boltStage n) s = .next (postStatus n .nvmHot s)) := by
  have htotalOk : boltStageCmd.totalOk 0 (u16 p 4) = true := decide_eq_true htotal
  refine ⟨fun hwrites => ?_, fun hheld => ?_⟩
  · obtain ⟨g, hchunk⟩ := chunk_first (n := n) hsel h7 rfl hflags hoff rfl htotalOk (boltStageCmd_late hwrites) hmore
    have hrun := (onSlot_request h (f := fun p s => chunk boltStageCmd n p s)).trans hchunk
    refine ⟨(programChunk (p.drop 8) ((dropStaging 0x0F01 0 s).modBolt (Bolt.beginStage (u16 p 4)))).modMbox fun m =>
      { m with staging := m.staging ++ [g] }, congrArg Host.Outcome.next hrun, ?_⟩
    rw [State.modMbox_bolt, programChunk_bolt, State.modBolt_bolt]
    change ((s.bolt.beginStage (u16 p 4)).program (p.drop 8)).slot s.bolt.stageTarget = _ ∧ _
    have hslot := (s.bolt.beginStage (u16 p 4)).program_slot (p.drop 8)
    have hother := (s.bolt.beginStage (u16 p 4)).program_slot_other (p.drop 8)
    rw [Bolt.beginStage_target] at hslot hother
    refine ⟨hslot.trans (by rw [Bolt.beginStage_slot, List.nil_append]), hother.trans (Bolt.beginStage_slot_other ..),
      Bolt.program_target .., (Bolt.program_inForce ..).trans (Bolt.beginStage_inForce ..), ?_⟩
    rw [State.modMbox_rings, programChunk_rings, State.modBolt_rings, dropStaging, State.modMbox_rings]
  · exact congrArg Host.Outcome.next ((onSlot_request h).trans
      (chunk_late hsel h7 rfl hflags hoff rfl htotalOk (if_neg (ne_true_of_eq_false hheld))))

/-- What the last chunk leaves of the bolts, whatever the checks of R371 found. -/
theorem boltStaged_leaves (o : List Byte) (t : State) :
    ((boltStaged n 0 o t).bolt.slot t.bolt.target).bytes = (t.bolt.slot t.bolt.target).bytes ∧
      ((boltStaged n 0 o t).bolt.slot t.bolt.target).valid =
        ((t.bolt.slot t.bolt.target).valid || (selvedgeOk o && t.bolt.newer (boltGen o))) ∧
      (boltStaged n 0 o t).bolt.slot (!t.bolt.target) = t.bolt.slot (!t.bolt.target) ∧
      (t.posts = true → ((boltStaged n 0 o t).mbox.slots[n]'n.isLt).st = .done) := by
  unfold boltStaged
  split
  · next hpass =>
    rw [(postStatus_tells ..).bolt]
    refine ⟨?_, ?_, Bolt.slot_set_other .., fun hposts => (postStatus_done ((modBolt_posts ..).trans hposts)).1⟩
    · rw [State.modBolt_bolt, Bolt.slot_set_same]
    · rw [State.modBolt_bolt, Bolt.slot_set_same]
      exact ((congrArg ((t.bolt.slot t.bolt.target).valid || ·) hpass).trans (Bool.or_true _)).symm
  · next hfails =>
    rw [(postStatus_tells ..).bolt]
    exact ⟨rfl, ((congrArg ((t.bolt.slot t.bolt.target).valid || ·) (Bool.eq_false_iff.mpr hfails)).trans
      (Bool.or_false _)).symm, rfl, fun hposts => (postStatus_done hposts).1⟩

theorem boltStage_last (h : s.request n 0x0F01 p) (hsel : u16 p 0 = 0) (h7 : u8 p 7 = 0) {g : Staging}
    (hflags : u8 p 6 = 0) (hstaged : s.stagingOf 0x0F01 0 = some g) (hgsel : g.sel = 0) (hcomplete : g.complete = false)
    (hglen : g.data.length = u16 p 2) (hgtotal : g.total = u16 p 4)
    (hlast : g.data.length + (p.drop 8).length = g.total) (hwrites : s.nvmAllowed = true) :
    ∃ t, exec (.boltStage n) s = .next t ∧
      (t.bolt.slot s.bolt.target).bytes = (s.bolt.slot s.bolt.target).bytes ++ p.drop 8 ∧
      (t.bolt.slot s.bolt.target).valid = ((s.bolt.slot s.bolt.target).valid ||
        (selvedgeOk (g.data ++ p.drop 8) &&
          Bolt.newer (boltGen (g.data ++ p.drop 8)) (Bolt.program (p.drop 8) s.bolt))) ∧
      t.bolt.slot (!s.bolt.target) = s.bolt.slot (!s.bolt.target) ∧ (t.mbox.slots[n]'n.isLt).st = .done := by
  have htotal : u16 p 4 = (g.data ++ p.drop 8).length := by rw [List.length_append, hlast, hgtotal]
  have hchunk := chunk_continued (c := boltStageCmd) (n := n) hsel h7 rfl (boltStageCmd_late hwrites) hstaged hgsel hgtotal
    hglen hcomplete htotal hflags
  refine ⟨_, congrArg Host.Outcome.next ((onSlot_request h).trans hchunk), ?_⟩
  have hposts : s.posts = true := posts_of_request h (by decide) (by decide)
  obtain ⟨hbytes, hvalid, hother, hdone⟩ := boltStaged_leaves (n := n) (g.data ++ p.drop 8)
    (programChunk (p.drop 8) (dropStaging 0x0F01 0 s))
  change ((boltStaged n 0 _ _).bolt.slot (s.bolt.program (p.drop 8)).target).bytes =
    ((s.bolt.program (p.drop 8)).slot (s.bolt.program (p.drop 8)).target).bytes at hbytes
  change ((boltStaged n 0 _ _).bolt.slot (s.bolt.program (p.drop 8)).target).valid =
    (((s.bolt.program (p.drop 8)).slot (s.bolt.program (p.drop 8)).target).valid || _) at hvalid
  change (boltStaged n 0 _ _).bolt.slot (!(s.bolt.program (p.drop 8)).target) =
    (s.bolt.program (p.drop 8)).slot (!(s.bolt.program (p.drop 8)).target) at hother
  rw [Bolt.program_target, Bolt.program_slot] at hbytes hvalid
  rw [Bolt.program_target, Bolt.program_slot_other] at hother
  exact ⟨hbytes, hvalid, hother, hdone hposts⟩

/-! ## BOLT.COMMIT and BOLT.INFO -/

theorem boltCommit_completes (h : s.request n 0x0F02 p) :
    (s.bolt.stagedSlot (BitVec.ofNat 32 (u32 p 0)) = none →
      exec (.boltCommit n) s = .next (postStatus n .boltInvalid s)) ∧
    (s.bolt.stagedSlot (BitVec.ofNat 32 (u32 p 0)) ≠ none →
      (s.nvmAllowed = false → exec (.boltCommit n) s = .next (postStatus n .nvmHot s)) ∧
      (s.nvmAllowed = true → exec (.boltCommit n) s = .next (pendOn n 0x0F02 p .boltCommit s.frame.number s))) := by
  refine ⟨fun hnone => ?_, fun hsome => ⟨fun hheld => ?_, fun hwrites => ?_⟩⟩
  · exact congrArg Host.Outcome.next ((onSlot_request h).trans (if_pos (Option.isNone_iff_eq_none.mpr hnone)))
  · exact congrArg Host.Outcome.next ((onSlot_request h).trans ((if_neg (mt Option.isNone_iff_eq_none.mp hsome)).trans
      (if_pos (by rw [hheld]; rfl))))
  · exact congrArg Host.Outcome.next ((onSlot_request h).trans ((if_neg (mt Option.isNone_iff_eq_none.mp hsome)).trans
      (if_neg (by rw [hwrites]; decide))))

theorem boltInfo_answers (h : s.request n 0x0F03 p) : exec (.boltInfo n) s = .next (postOk n
    ([BitVec.ofNat 8 (slotByte s.bolt.inForce), 0, 0, 0] ++ s.bolt.a.info false ++ s.bolt.b.info true) s) :=
  congrArg Host.Outcome.next (onSlot_request h)

/-! ## BOX.INFO, BOX.READ and BOX.ERASE -/

theorem boxInfo_answers (h : s.request n 0x1001 p) :
    ∃ resp : List Byte, exec (.boxInfo n) s = .next (postOk n resp s) ∧ resp.length = 12 ∧
      slice resp 0 4 = toLE 4 s.box.number.toNat ∧ slice resp 4 2 = toLE 2 s.box.newest ∧
      u8 resp 7 = bits [s.box.ready, s.box.heat.isSome] ∧ slice resp 8 4 = toLE 4 s.box.eraseCount.toNat :=
  ⟨s.boxInfo, congrArg Host.Outcome.next (onSlot_request h), rfl, rfl, rfl,
    toNat_bits (show 2 ≤ 8 by decide), rfl⟩

/-- Reading words of the NVM is no record. -/
theorem readNvm_box (off len : Nat) (s : State) : (readNvm off len s).box = s.box := by
  unfold readNvm readWords raiseInjected
  dsimp only
  split <;> split <;> rfl

theorem boxRead_answers (h : s.request n 0x1002 p) (hage : u16 p 0 < 1536) :
    (∀ x, s.box.recs[u16 p 0]? = some x → x.1 < 1536 → exec (.boxRead n) s =
      .next (postOk n (toLE 2 (u16 p 0) ++ toLE 2 x.1 ++ x.2) (readNvm (0x10000 + 32 * x.1) 32 s))) ∧
    (s.box.recs.length ≤ u16 p 0 → exec (.boxRead n) s = .next (postOk n [] s)) := by
  have hexec : exec (.boxRead n) s = .next
      (let s' := if (s.box.recs[u16 p 0]?.map (·.1)).getD 1536 < 1536 then
          readNvm (boxOffset + 32 * (s.box.recs[u16 p 0]?.map (·.1)).getD 1536) 32 s else s
       postOk n (s'.box.readAge (u16 p 0)) s') :=
    congrArg Host.Outcome.next ((onSlot_request h).trans (if_neg (not_lt.mpr (Nat.le_of_lt_succ hage))))
  rw [hexec]
  refine ⟨fun x hx hpos => ?_, fun hbeyond => ?_⟩
  · have hread : s.box.readAge (u16 p 0) = toLE 2 (u16 p 0) ++ toLE 2 x.1 ++ x.2 := by
      unfold Box.readAge
      rw [hx]
    rw [hx, ← hread]
    dsimp only [Option.map_some, Option.getD_some]
    rw [if_pos hpos, readNvm_box]
    rfl
  · have hnone := List.getElem?_eq_none hbeyond
    have hread : s.box.readAge (u16 p 0) = [] := by
      unfold Box.readAge
      rw [hnone]
    rw [hnone]
    dsimp only [Option.map_none, Option.getD_none]
    rw [if_neg (lt_irrefl _), hread]

theorem boxErase_completes (h : s.request n 0x1003 p) :
    (s.lock.level ≠ 2 → exec (.boxErase n) s = .next (postStatus n .locked s)) ∧
    (s.lock.level = 2 → u8 p 0 = 0xE5 →
      (s.nvmAllowed = false → exec (.boxErase n) s = .next (postStatus n .nvmHot s)) ∧
      (s.nvmAllowed = true → exec (.boxErase n) s = .next (pendOn n 0x1003 p .boxErase s.frame.number
        (s.modBox fun b => { b with erasing := true })))) := by
  refine ⟨fun hlevel => ?_, fun hlevel hkey => ⟨fun hheld => ?_, fun hwrites => ?_⟩⟩
  · exact congrArg Host.Outcome.next ((onSlot_request h).trans (if_pos hlevel))
  · exact congrArg Host.Outcome.next ((onSlot_request h).trans ((if_neg (not_not.mpr hlevel)).trans
      ((if_neg (not_not.mpr hkey)).trans (if_pos (by rw [hheld]; rfl)))))
  · exact congrArg Host.Outcome.next ((onSlot_request h).trans ((if_neg (not_not.mpr hlevel)).trans
      ((if_neg (not_not.mpr hkey)).trans (if_neg (by rw [hwrites]; decide)))))

end

/-- Settles O55: each row by what its request runs; a chunk by what it programs in the slot under stage. -/
theorem boltAndBoxCommands : Obligations.BoltAndBoxCommands := by
  intro s n p
  refine ⟨fun h hsel h7 => ⟨fun hflags hoff hmin hmax hfour hmore => ?_,
    fun g hflags hstaged hgsel hcomplete hglen hgtotal hlast hwrites => ?_⟩, boltCommit_completes, boltInfo_answers,
    boxInfo_answers, boxRead_answers, boxErase_completes⟩
  · exact boltStage_first h hsel h7 hflags hoff ⟨hmin, hmax, hfour⟩ hmore
  · exact boltStage_last h hsel h7 hflags hstaged hgsel hcomplete hglen hgtotal hlast hwrites

end Sys2Proof.Machine
end

section
-- One declaration after another: the whole text is compiled as one file, within a limit on memory.
set_option Elab.async false
/-!
The events of the bolts and of the black box (chapter 20).
-/

namespace Sys2Proof.Machine

/-! ## Completing what waits for an event -/

theorem posts_of_core {s t : State} (h : t.core = s.core) : t.posts = s.posts := by
  unfold State.posts
  rw [h]

/-- Every command that waits for what has come is answered by a reeve that posts. -/
theorem completeWhere_done {s : State} (hposts : s.posts = true) {p : Pend → Bool} {x : Pend} (hx : x ∈ s.mbox.pend)
    (hp : p x = true) (st : Status) : ((completeWhere p st s).mbox.slots[x.slot]'x.slot.isLt).st = .done := by
  refine foldl_establishes (P := fun t : State => t.posts = true → (t.mbox.slots[x.slot]'x.slot.isLt).st = .done)
    (fun t y hdone hposts => ?_) ⟨x, List.mem_filter.mpr ⟨hx, hp⟩, fun t hposts => ?_⟩ s
    ((posts_of_core (completeWhere_tells p st s).core).trans hposts)
  · have ht : t.posts = true := (posts_of_core (postStatus_core y.slot st t)).symm.trans hposts
    by_cases hslot : x.slot = y.slot
    · exact hslot ▸ (postStatus_done ht).1
    · exact (congrArg Slot.st (post_slot_ne hslot st 0 [] t)).trans (hdone ht)
  · exact (postStatus_done ((posts_of_core (postStatus_core x.slot st t)).symm.trans hposts)).1

/-! ## BOLT_COMMIT_MARK_PROGRAMMED -/

theorem BoltSlot.valid_of_staged {k : Bool} {x : BoltSlot} (h : x.code k = 2) : x.valid = true := by
  cases hvalid : x.valid with
  | true => rfl
  | false =>
    simp only [BoltSlot.code, hvalid, Bool.not_false, Bool.true_or, if_true] at h
    split_ifs at h <;> exact absurd h (by decide)

theorem Bolt.stagedSlot_code {g : W32} {b : Bolt} {k : Bool} (h : b.stagedSlot g = some k) : (b.slot k).code k = 2 := by
  have hfound := List.find?_some h
  simp only [Bool.and_eq_true, beq_iff_eq] at hfound
  exact hfound.1

theorem markSlot_bolt (k : Bool) (s : State) : (markSlot k s).bolt =
    s.bolt.set k { s.bolt.slot k with mark := commitMark k (s.bolt.slot k).bytes } := by
  unfold markSlot
  dsimp only
  rw [boxRecord_rest]
  rfl

theorem markSlot_rings (k : Bool) (s : State) : (markSlot k s).rings = s.rings := by
  unfold markSlot
  dsimp only
  rw [boxRecord_rest]
  rfl

theorem boltMark_completes {s : State} {x : Pend} (hfind : s.mbox.pend.find? (·.wait == .boltCommit) = some x) :
    (s.bolt.stagedSlot (BitVec.ofNat 32 (u32 x.payload 0)) = none →
      ∀ v, exec (.boltCommitMarkProgrammed v) s = .next (postStatus x.slot .boltInvalid s)) ∧
    (∀ k, s.bolt.stagedSlot (BitVec.ofNat 32 (u32 x.payload 0)) = some k →
      exec (.boltCommitMarkProgrammed false) s = .next (postStatus x.slot .nvmWorn (raise 13 s)) ∧
      ∃ t, exec (.boltCommitMarkProgrammed true) s = .next (postStatus x.slot .ok t) ∧
        (t.bolt.slot k).committed k = true ∧ (t.bolt.slot k).bytes = (s.bolt.slot k).bytes ∧
        t.bolt.slot (!k) = s.bolt.slot (!k) ∧ t.bolt.inForce = s.bolt.inForce ∧ t.rings = s.rings) := by
  refine ⟨fun hnone v => ?_, fun k hk => ⟨?_, markSlot k s, ?_, ?_⟩⟩
  · change execBoltCommitMarkProgrammed v s = _
    unfold execBoltCommitMarkProgrammed
    simp only [hfind, hnone]
  · change execBoltCommitMarkProgrammed false s = _
    unfold execBoltCommitMarkProgrammed
    simp only [hfind, hk]
    rfl
  · change execBoltCommitMarkProgrammed true s = _
    unfold execBoltCommitMarkProgrammed
    simp only [hfind, hk]
    rfl
  · rw [markSlot_bolt, markSlot_rings, Bolt.slot_set_same, Bolt.slot_set_other, Bolt.set_inForce]
    have hvalid := BoltSlot.valid_of_staged (Bolt.stagedSlot_code hk)
    refine ⟨?_, rfl, rfl, rfl, rfl⟩
    unfold BoltSlot.committed
    rw [hvalid, beq_self_eq_true]
    rfl

theorem boltMark_idle {s : State} (v : Bool) (h : s.mbox.pend.find? (·.wait == .boltCommit) = none) :
    exec (.boltCommitMarkProgrammed v) s = .next s := by
  change execBoltCommitMarkProgrammed v s = _
  unfold execBoltCommitMarkProgrammed
  simp only [h]

/-! ## Records of the black box -/

section
variable (r : Rec) (s : State)

theorem programRecord_box : (programRecord r s).box = { s.box.write r with begun := some (s.core.lt, s.box.number) } := rfl

theorem programRecord_rings : (programRecord r s).rings = s.rings := rfl

theorem programRecord_frame : (programRecord r s).frame = s.frame := rfl

theorem programRecord_core : (programRecord r s).core = s.core := rfl

theorem programRecord_number : (programRecord r s).box.number = countUp s.box.number 1 := rfl

/-- The heat interval after a record is written. -/
theorem programRecord_heat (h : s.box.heat = none) : (programRecord r s).box.heat = none := by
  rw [programRecord_box]
  unfold Box.write
  dsimp only
  rw [h]

theorem programRecord_entry (htype : r.type = 0x04) {c d : Nat} (h : s.box.heat = some (none, c, d)) :
    (programRecord r s).box.heat = some (some (countUp s.box.number 1), c, d) := by
  rw [programRecord_box]
  unfold Box.write
  dsimp only
  rw [h]
  exact if_pos htype

end

section
variable (type : Byte) (args : W64) {s : State}

/-- A record is programmed at once while writes are allowed and none waits before it. -/
theorem boxRecord_written (hwrites : s.nvmAllowed = true) (herasing : s.box.erasing = false)
    (hstaged : s.box.staged = []) : boxRecord type args s = programRecord (mkRec s type args) s := by
  unfold boxRecord
  dsimp only [mkRec]
  rw [hwrites, herasing, hstaged]
  rfl

theorem boxRecord_heat_none (h : s.box.heat = none) : (boxRecord type args s).box.heat = none := by
  unfold boxRecord
  dsimp only
  split
  · rw [State.modBox_box]
    unfold Box.stage
    split
    · exact h
    · dsimp only
      rw [h]
      rfl
  · exact programRecord_heat _ _ h

/-- A HEAT_ENTRY opens the interval, written or staged. -/
theorem boxRecord_heat_opens {c d : Nat} (h : s.box.heat = some (none, c, d)) :
    (boxRecord 0x04 args s).box.heat ≠ none := by
  unfold boxRecord
  dsimp only
  split
  · rw [State.modBox_box]
    unfold Box.stage
    split
    · exact ne_of_eq_of_ne h (Option.some_ne_none _)
    · dsimp only
      rw [h]
      exact Option.some_ne_none _
  · exact ne_of_eq_of_ne (programRecord_entry _ _ rfl h) (Option.some_ne_none _)

end

/-! ## BOX_ERASE_DONE -/

section
variable {s : State}

/-- BOX_ERASED, as it is written after an erase. -/
def erasedRecord (s : State) : Rec :=
  { mkRec s 0x0F (argW 0 (countUp s.box.eraseCount 1).toNat) with staged := false }

/-- A box whose pages are all erased. -/
def Box.erased (b : Box) : Box :=
  { b with recs := [], newest := 0, eraseCount := countUp b.eraseCount 1, erasing := false }

theorem eraseBox_eq (s : State) : eraseBox s = programRecord (erasedRecord s) (s.modBox Box.erased) := rfl

/-- The one record an erase leaves (R434). -/
theorem erased_write (r : Rec) (b : Box) : (b.erased.write r).recs.length = 1 ∧
    (b.erased.write r).newest = Config.recordVoids b.number.toNat % 1536 ∧
    (b.erased.write r).eraseCount = countUp b.eraseCount 1 ∧ (b.erased.write r).number = countUp b.number 1 ∧
    (b.erased.write r).erasing = false ∧ (b.erased.write r).staged = b.staged :=
  ⟨rfl, congrArg (· % 1536) (Nat.zero_add _), rfl, rfl, rfl, rfl⟩

theorem boxEraseDone_completes (herasing : s.box.erasing = true) (hwrites : s.nvmAllowed = true) :
    ∃ t, exec .boxEraseDone s = .next t ∧ t.box.recs.length = 1 ∧
      t.box.newest = Config.recordVoids s.box.number.toNat % 1536 ∧
      t.box.eraseCount = countUp s.box.eraseCount 1 ∧ t.box.number = countUp s.box.number 1 ∧
      t.box.erasing = false ∧ t.box.staged = s.box.staged ∧
      (s.posts = true → ∀ x ∈ s.mbox.pend, x.wait = .boxErase → (t.mbox.slots[x.slot]'x.slot.isLt).st = .done) := by
  refine ⟨_, congrArg Host.Outcome.next (if_pos (by rw [herasing, hwrites]; rfl)), ?_⟩
  have hwritten := erased_write (erasedRecord s) s.box
  rw [(completeWhere_tells ..).box, eraseBox_eq, programRecord_box, State.modBox_box]
  obtain ⟨hone, hnewest, hcount, hnumber, hover, hstaged⟩ := hwritten
  refine ⟨hone, hnewest, hcount, hnumber, hover, hstaged, fun hposts x hx hwait => ?_⟩
  exact completeWhere_done (s := programRecord (erasedRecord s) (s.modBox Box.erased))
    ((posts_of_core rfl).trans hposts) hx (show (x.wait == Wait.boxErase) = true from beq_iff_eq.mpr hwait) .ok

theorem boxEraseDone_idle (h : s.box.erasing = false ∨ s.nvmAllowed = false) : exec .boxEraseDone s = .next s := by
  refine congrArg Host.Outcome.next (if_neg ?_)
  obtain h | h := h <;> simp [h]

/-! ## STAGED_RECORDS_WRITE -/

/-- The last staged record is behind: nothing is left but the drops to report. -/
theorem writeStaged_last {r o : Rec} (hstaged : s.box.staged = [r]) (hover : s.box.overflow = some o) :
    writeStaged s = notice 0x0F04 .ordinary (argH 0 s.box.dropped)
      ((programRecord { o with args := argH 0 s.box.dropped } (programRecord r (s.modBox fun b => { b with staged := [] }))).modBox
        fun b => { b with overflow := none, dropped := 0 }) := by
  have hover' : (programRecord r (s.modBox fun b => { b with staged := [] })).box.overflow = some o := hover
  unfold writeStaged
  rw [hstaged]
  dsimp only
  rw [hover']
  rfl

theorem writeStaged_more {r : Rec} {rest : List Rec} (hstaged : s.box.staged = r :: rest)
    (h : rest ≠ [] ∨ s.box.overflow = none) :
    writeStaged s = programRecord r (s.modBox fun b => { b with staged := rest }) := by
  unfold writeStaged
  rw [hstaged]
  dsimp only
  split
  · next o hover =>
    obtain h | h := h
    · exact absurd rfl h
    · exact absurd (h.symm.trans hover) (Option.some_ne_none _).symm
  · rfl

theorem stagedDue_held (h : s.stagedDue = true) : s.box.staged ≠ [] := by
  rintro hnone
  simp [State.stagedDue, hnone] at h

theorem stagedRecordsWrite_completes (hdue : s.stagedDue = true) :
    ∃ t, exec .stagedRecordsWrite s = .next t ∧ t.box.staged = s.box.staged.tail ∧
      t.core = s.core ∧
      (s.box.staged.tail ≠ [] ∨ s.box.overflow = none → t.box.number = countUp s.box.number 1 ∧
        t.box.overflow = s.box.overflow ∧ t.box.dropped = s.box.dropped ∧ t.rings = s.rings) ∧
      (∀ r, s.box.staged.tail = [] → s.box.overflow = some r →
        t.box.number = countUp (countUp s.box.number 1) 1 ∧ t.box.overflow = none ∧ t.box.dropped = 0 ∧
        t.rings = (notice 0x0F04 .ordinary (argH 0 s.box.dropped) s).rings) := by
  refine ⟨writeStaged s, congrArg Host.Outcome.next (if_pos hdue), ?_⟩
  obtain ⟨r, rest, hstaged⟩ := List.exists_cons_of_ne_nil (stagedDue_held hdue)
  rw [hstaged, List.tail_cons]
  by_cases hmore : rest ≠ [] ∨ s.box.overflow = none
  · rw [writeStaged_more hstaged hmore]
    refine ⟨rfl, rfl, fun _ => ⟨rfl, rfl, rfl, rfl⟩, fun o hlast hover => ?_⟩
    obtain hmore | hmore := hmore
    · exact absurd hlast hmore
    · exact absurd (hmore.symm.trans hover) (Option.some_ne_none _).symm
  · obtain ⟨hlast, hover⟩ := not_or.mp hmore
    obtain rfl := not_not.mp hlast
    obtain ⟨o, hover⟩ := Option.ne_none_iff_exists'.mp hover
    rw [writeStaged_last hstaged hover, notice_box, notice_core, State.modBox_core, programRecord_core,
      programRecord_core, State.modBox_core, State.modBox_box, programRecord_number, programRecord_number]
    refine ⟨rfl, rfl, fun h => absurd h hmore, fun _ _ _ => ⟨rfl, rfl, rfl, notice_rings_congr ?_ ?_ ?_ ..⟩⟩
    · rw [State.modBox_rings, programRecord_rings, programRecord_rings, State.modBox_rings]
    · rw [State.modBox_frame, programRecord_frame, programRecord_frame, State.modBox_frame]
    · rw [State.modBox_core, programRecord_core, programRecord_core, State.modBox_core]

theorem stagedRecordsWrite_idle (h : s.stagedDue = false) : exec .stagedRecordsWrite s = .next s :=
  congrArg Host.Outcome.next (if_neg (ne_true_of_eq_false h))

/-! ## HEAT_ENTRY and HEAT_CLOSE -/

theorem heatEntry_records (s : State) :
    RecordOnly (s.modBox fun b => { b with heat := some (none, 0, 0) }) (heatEntry s) := by
  unfold heatEntry
  dsimp only
  split
  · exact programRecord_records ..
  · exact boxRecord_records ..

theorem heatEntry_opens (s : State) : (heatEntry s).box.heat ≠ none := by
  unfold heatEntry
  dsimp only
  split
  · exact ne_of_eq_of_ne (programRecord_entry _ _ rfl rfl) (Option.some_ne_none _)
  · exact boxRecord_heat_opens _ rfl

theorem heatEntry_written (hwrites : s.nvmAllowed = true) (herasing : s.box.erasing = false)
    (hstaged : s.box.staged = []) : (heatEntry s).box.number = countUp s.box.number 1 ∧
      (heatEntry s).box.heat = some (some (countUp s.box.number 1), 0, 0) := by
  unfold heatEntry
  dsimp only
  split
  · exact ⟨rfl, programRecord_entry _ _ rfl rfl⟩
  · rw [boxRecord_written (s := s.modBox fun b => { b with heat := some (none, 0, 0) }) _ _ hwrites herasing hstaged]
    exact ⟨rfl, programRecord_entry _ _ rfl rfl⟩

theorem heatEntry_completes (hdue : s.heatEntryDue = true) : ∃ t, exec .heatEntry s = .next t ∧ t.therm.heatHigh = true ∧
    (s.box.heat ≠ none → t.box = s.box) ∧
    (s.box.heat = none → t.box.heat ≠ none ∧ (s.nvmAllowed = true → s.box.erasing = false → s.box.staged = [] →
      t.box.number = countUp s.box.number 1 ∧ t.box.heat = some (some t.box.number, 0, 0))) := by
  by_cases hopen : s.box.heat = none
  · refine ⟨heatEntry (s.modTherm fun t => { t with heatHigh := true, heatFall := 0 }), congrArg Host.Outcome.next
      ((if_pos hdue).trans (if_neg ?_)), ?_, fun h => absurd hopen h, fun _ => ⟨heatEntry_opens _, ?_⟩⟩
    · exact mt (fun h => Option.ne_none_iff_isSome.mpr h) (not_not.mpr hopen)
    · rw [(heatEntry_records _).therm]
      rfl
    · intro hwrites herasing hstaged
      obtain ⟨hnumber, hheat⟩ :=
        heatEntry_written (s := s.modTherm fun t => { t with heatHigh := true, heatFall := 0 }) hwrites herasing hstaged
      exact ⟨hnumber, hnumber ▸ hheat⟩
  · refine ⟨s.modTherm fun t => { t with heatHigh := true, heatFall := 0 }, congrArg Host.Outcome.next
      ((if_pos hdue).trans (if_pos (Option.ne_none_iff_isSome.mp hopen))), rfl, fun _ => rfl, fun h => absurd h hopen⟩

theorem heatEntry_idle (h : s.heatEntryDue = false) : exec .heatEntry s = .next s :=
  congrArg Host.Outcome.next (if_neg (ne_true_of_eq_false h))

theorem heatCloseDue_open (h : s.heatCloseDue = true) : s.box.heat.isSome = true ∧ s.box.staged = [] := by
  simp only [State.heatCloseDue, Bool.and_eq_true, List.isEmpty_iff] at h
  obtain ⟨⟨⟨⟨hopen, -⟩, hstaged⟩, -⟩, -⟩ := h
  exact ⟨hopen, hstaged⟩

theorem heatClose_completes (hdue : s.heatCloseDue = true) : ∃ t, exec .heatClose s = .next t ∧ t.box.heat = none ∧
    (s.nvmAllowed = true → s.box.erasing = false → t.box.number = countUp s.box.number 1) ∧ t.therm = s.therm := by
  obtain ⟨hopen, hstaged⟩ := heatCloseDue_open hdue
  obtain ⟨⟨k, c, d⟩, hheat⟩ := Option.isSome_iff_exists.mp hopen
  have hexec : exec .heatClose s = .next (boxRecord 0x05 (argW 0 (k.getD 0).toNat ||| argH 4 c ||| argH 6 d)
      (s.modBox fun b => { b with heat := none })) := by
    change execHeatClose s = _
    unfold execHeatClose
    rw [hheat]
    exact congrArg Host.Outcome.next (if_pos hdue)
  refine ⟨_, hexec, boxRecord_heat_none _ _ rfl, fun hwrites herasing => ?_, ?_⟩
  · rw [boxRecord_written (s := s.modBox fun b => { b with heat := none }) _ _ hwrites herasing hstaged]
    rfl
  · rw [(boxRecord_records ..).therm]
    rfl

theorem heatClose_idle (h : s.heatCloseDue = false) : exec .heatClose s = .next s := by
  change execHeatClose s = _
  unfold execHeatClose
  split
  · exact congrArg Host.Outcome.next (if_neg (ne_true_of_eq_false h))
  · rfl

end

/-- Settles O56: each event where it is due, by what it programs and records, and where it is not. -/
theorem boltAndBoxEvents : Obligations.BoltAndBoxEvents := by
  intro s
  exact ⟨fun _ => boltMark_completes, boltMark_idle, boxEraseDone_completes, boxEraseDone_idle,
    stagedRecordsWrite_completes, stagedRecordsWrite_idle, heatEntry_completes, heatEntry_idle, heatClose_completes,
    heatClose_idle, fun h => congrArg Host.Outcome.next (if_pos h),
    fun h => congrArg Host.Outcome.next (if_neg (ne_true_of_eq_false h))⟩

end Sys2Proof.Machine
end

section
-- One declaration after another: the whole text is compiled as one file, within a limit on memory.
set_option Elab.async false
/-!
Doorbells, the dispatch of requests and the staging timeout (chapter 16).
-/

namespace Sys2Proof.Machine

/-! ## The mailbox checker -/

/-- What the checker leaves of a slot with no word in error. -/
def slotChecked (n : SlotId) (s : State) : State :=
  (s.modFaults fun f => { f with found := f.found &&& ~~~(1#64 <<< 48) }).modSlot n fun y => { y with bad := none }

section
variable {n : SlotId} {s : State} (hwords : ∀ k < 16, s.faults.wordError 4 (16 * n.val + k) = none)
  (hfound : s.faults.found.getLsbD 48 = false)
include hwords

/-- No word of the slot is injected. -/
theorem slotInjected_none : (s.faults.injected.filter fun x => x.1 == 4 && x.2.1 / 16 == n.val) = [] := by
  refine List.filter_eq_nil_iff.mpr fun x hx hmine => ?_
  obtain ⟨hchecker, haddr⟩ := Bool.and_eq_true_iff.mp hmine
  have haddr : x.2.1 / 16 = n.val := beq_iff_eq.mp haddr
  have hnone := hwords (x.2.1 % 16) (Nat.mod_lt _ (by decide))
  rw [← haddr, Nat.div_add_mod] at hnone
  have hall := List.find?_eq_none.mp (Option.map_eq_none_iff.mp hnone) x hx
  exact hall (Bool.and_eq_true_iff.mpr ⟨hchecker, beq_self_eq_true _⟩)

include hfound

theorem readSlot_clean :
    readWords 4 (· / 16 == n.val) 48 53 s =
      (false, s.modFaults fun f => { f with found := f.found &&& ~~~(1#64 <<< 48) }) := by
  unfold readWords
  rw [slotInjected_none hwords]
  have hreal : s.faults.found.getLsbD (48 : Source).val = false := hfound
  simp only [List.map_nil, List.contains_nil, hreal, Bool.or_false, Bool.false_and, Bool.false_eq_true, if_false]
  rfl

theorem mboxDetect_clean : mboxDetect n s = slotChecked n s := by
  unfold mboxDetect
  dsimp only
  rw [readSlot_clean hwords hfound]
  exact if_neg Bool.false_ne_true

end

/-! ## One doorbell -/

/-- A slot whose doorbell was taken at LT t, with no word in error. -/
def Slot.queuedAt (t : W64) (x : Slot) : Slot :=
  { x with st := .queued, ign := false, rung := t, early := false, bad := none }

/-- What the tick of a doorbell may do to its slot beyond the queueing: mark its effect as early. -/
structure EarlyOnly (n : SlotId) (s t : State) : Prop where
  st : (t.mbox.slots[n]'n.isLt).st = (s.mbox.slots[n]'n.isLt).st
  ign : (t.mbox.slots[n]'n.isLt).ign = (s.mbox.slots[n]'n.isLt).ign
  rung : (t.mbox.slots[n]'n.isLt).rung = (s.mbox.slots[n]'n.isLt).rung
  bytes : (t.mbox.slots[n]'n.isLt).bytes = (s.mbox.slots[n]'n.isLt).bytes
  other : ∀ m : SlotId, m ≠ n → t.mbox.slots[m]'m.isLt = s.mbox.slots[m]'m.isLt
  queue : t.mbox.queue = s.mbox.queue

theorem EarlyOnly.of_eq {n : SlotId} {s t : State} (h : t.mbox = s.mbox) : EarlyOnly n s t := by
  constructor
  case other => exact fun m _ => by rw [h]
  all_goals rw [h]

theorem EarlyOnly.marked (n : SlotId) (s t : State) (h : t.mbox = (s.modSlot n fun x => { x with early := true }).mbox) :
    EarlyOnly n s t := by
  have hslot : t.mbox.slots[n]'n.isLt = { (s.mbox.slots[n]'n.isLt) with early := true } := by
    rw [h]
    exact State.modSlot_same ..
  constructor
  case other =>
    intro m hm
    rw [h]
    exact State.modSlot_other hm ..
  case queue =>
    rw [h]
    rfl
  all_goals rw [hslot]

theorem atDoorbell_early (n : SlotId) (s : State) : EarlyOnly n s (atDoorbell n s) := by
  unfold atDoorbell
  dsimp only
  split
  · exact .of_eq rfl
  · split
    · exact .marked n s _ rfl
    · split
      · exact .marked n s _ rfl
      · exact .of_eq rfl

theorem immediate_congr {s t : State} (h : t.core = s.core) (op : Nat) : t.immediate op = s.immediate op := by
  unfold State.immediate State.reeveActive
  rw [h]

/-- The slot of a doorbell stands queued, before its words are checked. -/
def slotQueued (n : SlotId) (s : State) : State :=
  s.modSlot n fun x => { x with st := .queued, ign := false, rung := s.core.lt, early := false }

/-- The state in which a doorbell's slot waits, before what its tick does with it. -/
def doorbellTaken (n : SlotId) (s : State) : State :=
  (slotChecked n (slotQueued n s)).modMbox fun m => { m with queue := m.queue ++ [n] }

theorem slotChecked_same (n : SlotId) (s : State) :
    (slotChecked n s).mbox.slots[n]'n.isLt = { (s.mbox.slots[n]'n.isLt) with bad := none } := State.modSlot_same ..

theorem slotQueued_same (n : SlotId) (s : State) : (slotQueued n s).mbox.slots[n]'n.isLt =
    { (s.mbox.slots[n]'n.isLt) with st := .queued, ign := false, rung := s.core.lt, early := false } :=
  State.modSlot_same ..

theorem doorbellTaken_slot (n : SlotId) (s : State) :
    (doorbellTaken n s).mbox.slots[n]'n.isLt = (s.mbox.slots[n]'n.isLt).queuedAt s.core.lt := by
  change (slotChecked n (slotQueued n s)).mbox.slots[n]'n.isLt = _
  rw [slotChecked_same, slotQueued_same]
  rfl

theorem doorbellTaken_other {n m : SlotId} (h : m ≠ n) (s : State) :
    (doorbellTaken n s).mbox.slots[m]'m.isLt = s.mbox.slots[m]'m.isLt := by
  have hchecked : (slotChecked n (slotQueued n s)).mbox.slots[m]'m.isLt = (slotQueued n s).mbox.slots[m]'m.isLt :=
    State.modSlot_other h ..
  exact hchecked.trans (State.modSlot_other h ..)

section
variable {n : SlotId} {s : State}

theorem doorbell_queued (howned : (s.mbox.slots[n]'n.isLt).st.hostOwned = true)
    (hwords : ∀ k < 16, s.faults.wordError 4 (16 * n.val + k) = none) (hfound : s.faults.found.getLsbD 48 = false)
    (hlater : s.immediate (s.mbox.slots[n]'n.isLt).op = false) : doorbell n s = atDoorbell n (doorbellTaken n s) := by
  unfold doorbell
  dsimp only
  refine (if_pos howned).trans ?_
  have hclean : mboxDetect n (slotQueued n s) = slotChecked n (slotQueued n s) := mboxDetect_clean hwords hfound
  unfold slotQueued at hclean
  rw [hclean]
  refine if_neg (ne_true_of_eq_false (Eq.trans ?_ hlater))
  exact immediate_congr rfl _

theorem doorbell_ignored (howned : (s.mbox.slots[n]'n.isLt).st.hostOwned = false) :
    doorbell n s = s.modSlot n fun x => { x with ign := true } :=
  if_neg (ne_true_of_eq_false howned)

end

/-! ## DBELL_WRITE -/

/-- A write of DBELL joins the transaction and leaves the pointer behind the register. -/
def dbellJoined (s : State) : State := s.modBus fun b => { b.join with pointer := 0x0021 }

theorem dbell_one (n : SlotId) (s : State) : dbell (1 <<< n.val) s = doorbell n s := by
  match n with
  | 0 => rfl
  | 1 => rfl
  | 2 => rfl
  | 3 => rfl

theorem dbell_zero (s : State) : dbell 0 s = s := by
  simp [dbell]

section
variable {s : State} (hacks : s.acks = true) (hrung : s.mbox.rung = 0)
include hrung

theorem modRung_zero : { s.mbox with rung := 0 } = s.mbox :=
  congrArg (fun w => { s.mbox with rung := w }) hrung.symm

include hacks

theorem execDbellWrite_rings (hdev : s.core.dev ≠ .boot) (v : Byte) :
    exec (.dbellWrite v) s = .next (dbell v (dbellJoined s)) := by
  refine congrArg Host.Outcome.next ((if_pos hacks).trans ?_)
  have hall : s.mbox.rung ||| v = v := by rw [hrung]; exact BitVec.zero_or
  have hsame : (dbellJoined s).modMbox (fun m => { m with rung := 0 }) = dbellJoined s :=
    congrArg (fun m => (dbellJoined s).modMbox fun _ => m) (modRung_zero hrung)
  exact (if_neg hdev).trans ((congrArg (dbell (s.mbox.rung ||| v)) hsame).trans (by rw [hall]))

theorem execDbellWrite_held (hdev : s.core.dev = .boot) (v : Byte) :
    exec (.dbellWrite v) s = .next ((dbellJoined s).modMbox fun m => { m with rung := v }) := by
  refine congrArg Host.Outcome.next ((if_pos hacks).trans ((if_pos hdev).trans ?_))
  have hall : s.mbox.rung ||| v = v := by rw [hrung]; exact BitVec.zero_or
  exact congrArg (fun w => (dbellJoined s).modMbox fun m => { m with rung := w }) hall

theorem dbellWrite_queues {n : SlotId} (hwords : ∀ k < 16, s.faults.wordError 4 (16 * n.val + k) = none)
    (hfound : s.faults.found.getLsbD 48 = false) (hdev : s.core.dev ≠ .boot)
    (howned : (s.mbox.slots[n]'n.isLt).st.hostOwned = true)
    (hlater : s.immediate (s.mbox.slots[n]'n.isLt).op = false) :
    ∃ t, exec (.dbellWrite (1 <<< n.val)) s = .next t ∧
      (t.mbox.slots[n]'n.isLt).st = .queued ∧ (t.mbox.slots[n]'n.isLt).ign = false ∧
      (t.mbox.slots[n]'n.isLt).rung = s.core.lt ∧
      (t.mbox.slots[n]'n.isLt).bytes = (s.mbox.slots[n]'n.isLt).bytes ∧ t.mbox.queue = s.mbox.queue ++ [n] ∧
      (∀ m : SlotId, m ≠ n → t.mbox.slots[m]'m.isLt = s.mbox.slots[m]'m.isLt) ∧ t.rings = s.rings ∧ t.core = s.core := by
  refine ⟨_, execDbellWrite_rings hacks hrung hdev _, ?_⟩
  have hbell : BellOnly (dbellJoined s) (dbell (1 <<< n.val) (dbellJoined s)) := dbell_bell ..
  have hrings := hbell.rings
  have hcore := hbell.core
  rw [dbell_one, doorbell_queued (s := dbellJoined s) howned hwords hfound ((immediate_congr rfl _).trans hlater)]
    at hrings hcore ⊢
  have hearly := atDoorbell_early n (doorbellTaken n (dbellJoined s))
  have hslot := doorbellTaken_slot n (dbellJoined s)
  have hother := fun m (hm : m ≠ n) => doorbellTaken_other hm (dbellJoined s)
  have hqueue : (doorbellTaken n (dbellJoined s)).mbox.queue = s.mbox.queue ++ [n] := rfl
  generalize doorbellTaken n (dbellJoined s) = u at hearly hslot hother hqueue hrings hcore ⊢
  rw [hearly.st, hearly.ign, hearly.rung, hearly.bytes, hslot]
  exact ⟨rfl, rfl, rfl, rfl, hearly.queue.trans hqueue, fun m hm => (hearly.other m hm).trans (hother m hm), hrings, hcore⟩

theorem dbellWrite_ignored {n : SlotId} (hdev : s.core.dev ≠ .boot)
    (howned : (s.mbox.slots[n]'n.isLt).st.hostOwned = false) :
    ∃ t, exec (.dbellWrite (1 <<< n.val)) s = .next t ∧
      t.mbox.slots[n]'n.isLt = { (s.mbox.slots[n]'n.isLt) with ign := true } ∧ t.mbox.queue = s.mbox.queue ∧
      (∀ m : SlotId, m ≠ n → t.mbox.slots[m]'m.isLt = s.mbox.slots[m]'m.isLt) := by
  refine ⟨_, execDbellWrite_rings hacks hrung hdev _, ?_⟩
  rw [dbell_one, doorbell_ignored (s := dbellJoined s) howned]
  exact ⟨State.modSlot_same .., rfl, fun m hm => State.modSlot_other hm ..⟩

theorem dbellWrite_none : ∃ t, exec (.dbellWrite 0) s = .next t ∧ t.mbox = s.mbox := by
  by_cases hdev : s.core.dev = .boot
  · exact ⟨_, execDbellWrite_held hacks hrung hdev 0, modRung_zero hrung⟩
  · exact ⟨_, execDbellWrite_rings hacks hrung hdev 0, by rw [dbell_zero]; rfl⟩

end

/-! ## COMMAND_DISPATCH -/

section
variable {n : SlotId} {q : List SlotId} {s : State}

/-- The slot of the queue's head is taken in hand. -/
def takenInHand (n : SlotId) (q : List SlotId) (s : State) : State :=
  (s.modMbox fun m => { m with queue := q }).modSlot n fun x => { x with st := .running }

theorem takenInHand_slot : (takenInHand n q s).mbox.slots[n]'n.isLt = { (s.mbox.slots[n]'n.isLt) with st := .running } :=
  State.modSlot_same ..

theorem execCommandDispatch_takes (hactive : s.reeveActive = true) (hfree : s.slotInHand = false)
    (hqueue : s.mbox.queue = n :: q) :
    exec .commandDispatch s = .next (beginAttempt n (dispatchSlot n (s.modMbox fun m => { m with queue := q }))) := by
  change execCommandDispatch s = _
  unfold execCommandDispatch
  rw [hactive, hfree, hqueue]
  rfl

theorem badWord_takenInHand : (takenInHand n q s).badWord n = (s.mbox.slots[n]'n.isLt).bad.map fun k => 4 * k.val := by
  have hbad : ((takenInHand n q s).mbox.slots[n]'n.isLt).bad = (s.mbox.slots[n]'n.isLt).bad := by rw [takenInHand_slot]
  exact congrArg (Option.map fun k : Fin 16 => 4 * k.val) hbad

theorem dispatchSlot_passes (hbad : (s.mbox.slots[n]'n.isLt).bad = none)
    (hfault : requestFault { (s.mbox.slots[n]'n.isLt) with st := .running } s.core.dev = none) :
    dispatchSlot n (s.modMbox fun m => { m with queue := q }) = takenInHand n q s := by
  have hword : (takenInHand n q s).badWord n = none := by rw [badWord_takenInHand, hbad]; rfl
  have hpass : requestFault ((takenInHand n q s).mbox.slots[n]'n.isLt) (takenInHand n q s).core.dev = none := by
    rw [takenInHand_slot]
    exact hfault
  unfold dispatchSlot
  dsimp only
  change (match (takenInHand n q s).badWord n with | some off => _ | none => _) = _
  rw [hword]
  dsimp only
  change (match requestFault ((takenInHand n q s).mbox.slots[n]'n.isLt) (takenInHand n q s).core.dev with
    | some (st, d) => _ | none => _) = _
  rw [hpass]
  rfl

theorem dispatchSlot_badWord {k : Fin 16} (hbad : (s.mbox.slots[n]'n.isLt).bad = some k) :
    dispatchSlot n (s.modMbox fun m => { m with queue := q }) =
      post n .badArg (0x8000 + 4 * k.val) [] (takenInHand n q s) := by
  have hword : (takenInHand n q s).badWord n = some (4 * k.val) := by rw [badWord_takenInHand, hbad]; rfl
  unfold dispatchSlot
  dsimp only
  change (match (takenInHand n q s).badWord n with | some off => _ | none => _) = _
  rw [hword]
  rfl

theorem dispatchSlot_fails {e : Status × Nat} (hbad : (s.mbox.slots[n]'n.isLt).bad = none)
    (hfault : requestFault { (s.mbox.slots[n]'n.isLt) with st := .running } s.core.dev = some e) :
    dispatchSlot n (s.modMbox fun m => { m with queue := q }) = post n e.1 e.2 [] (takenInHand n q s) := by
  have hword : (takenInHand n q s).badWord n = none := by rw [badWord_takenInHand, hbad]; rfl
  have hfails : requestFault ((takenInHand n q s).mbox.slots[n]'n.isLt) (takenInHand n q s).core.dev = some e := by
    rw [takenInHand_slot]
    exact hfault
  unfold dispatchSlot
  dsimp only
  change (match (takenInHand n q s).badWord n with | some off => _ | none => _) = _
  rw [hword]
  dsimp only
  change (match requestFault ((takenInHand n q s).mbox.slots[n]'n.isLt) (takenInHand n q s).core.dev with
    | some (st, d) => _ | none => _) = _
  rw [hfails]
  rfl

theorem beginAttempt_other (h : (s.mbox.slots[n]'n.isLt).op ≠ 0x1101 ∧ (s.mbox.slots[n]'n.isLt).op ≠ 0x1103) :
    beginAttempt n s = s :=
  if_neg fun ⟨_, hop, _⟩ => hop.elim h.1 h.2

theorem beginAttempt_answered (h : (s.mbox.slots[n]'n.isLt).st ≠ .running) : beginAttempt n s = s :=
  if_neg fun hbegin => h hbegin.1

/-- What an attempt that begins touches: the lock's counts and its slot. -/
theorem beginAttempt_kept : (beginAttempt n s).mbox.queue = s.mbox.queue ∧ (beginAttempt n s).mbox.pend = s.mbox.pend ∧
    (beginAttempt n s).rings = s.rings ∧ (beginAttempt n s).bus = s.bus := by
  unfold beginAttempt
  dsimp only
  split <;> exact ⟨rfl, rfl, rfl, rfl⟩

variable (hactive : s.reeveActive = true) (hfree : s.slotInHand = false) (hqueue : s.mbox.queue = n :: q)
include hactive hfree hqueue

theorem commandDispatch_runs (hbad : (s.mbox.slots[n]'n.isLt).bad = none)
    (hfault : requestFault { (s.mbox.slots[n]'n.isLt) with st := .running } s.core.dev = none) :
    ∃ t, exec .commandDispatch s = .next t ∧ t.mbox.queue = q ∧
      ((s.mbox.slots[n]'n.isLt).op ≠ 0x1101 → (s.mbox.slots[n]'n.isLt).op ≠ 0x1103 →
        t.mbox.slots[n]'n.isLt = { (s.mbox.slots[n]'n.isLt) with st := .running } ∧ t.lock = s.lock) ∧
      ((s.mbox.slots[n]'n.isLt).op = 0x1101 ∨ (s.mbox.slots[n]'n.isLt).op = 0x1103 → s.nvmAllowed = true →
        s.lock.lockout = none →
        t.mbox.slots[n]'n.isLt = { (s.mbox.slots[n]'n.isLt) with st := .running, early := true } ∧
        t.lock = { s.lock with attempts := satAdd s.lock.attempts 1, fails := satNat 255 (s.lock.fails + 1) }) ∧
      t.mbox.pend = s.mbox.pend ∧ t.rings = s.rings ∧ t.bus = s.bus := by
  refine ⟨_, execCommandDispatch_takes hactive hfree hqueue, ?_⟩
  rw [dispatchSlot_passes hbad hfault]
  obtain ⟨hq, hpend, hrings, hbus⟩ := beginAttempt_kept (n := n) (s := takenInHand n q s)
  have hslot := takenInHand_slot (n := n) (q := q) (s := s)
  have hop : ((takenInHand n q s).mbox.slots[n]'n.isLt).op = (s.mbox.slots[n]'n.isLt).op := by
    rw [hslot]
    rfl
  refine ⟨hq, fun hpassword hresponse => ?_, fun hop' hnvm hlockout => ?_, hpend, hrings, hbus⟩
  · rw [beginAttempt_other ⟨hop ▸ hpassword, hop ▸ hresponse⟩]
    exact ⟨hslot, rfl⟩
  · have hbegins : beginAttempt n (takenInHand n q s) = attemptCounted n (takenInHand n q s) :=
      if_pos ⟨congrArg Slot.st hslot, hop ▸ hop', hnvm, hlockout⟩
    rw [hbegins]
    exact ⟨(State.modSlot_same ..).trans (congrArg (fun x : Slot => { x with early := true }) hslot), rfl⟩

/-- A request that a check refuses is answered, and counted as no attempt. -/
theorem commandDispatch_answers {st : Status} {d : Nat} (hposts : s.posts = true)
    (hdispatch : dispatchSlot n (s.modMbox fun m => { m with queue := q }) = post n st d [] (takenInHand n q s)) :
    ∃ t, exec .commandDispatch s = .next t ∧ t.mbox.queue = q ∧ (t.mbox.slots[n]'n.isLt).st = .done ∧
      u8 (t.mbox.slots[n]'n.isLt).bytes.toList 4 = st.code.toNat ∧
      u16 (t.mbox.slots[n]'n.isLt).bytes.toList 6 = d % 65536 ∧ t.bus.attn.getLsbD 4 = true := by
  have hposts' : (takenInHand n q s).posts = true := (posts_of_core rfl).trans hposts
  have hslot : (post n st d [] (takenInHand n q s)).mbox.slots[n]'n.isLt =
      ((takenInHand n q s).mbox.slots[n]'n.isLt).posted .done st.code d [] := post_slot hposts' st d []
  refine ⟨_, execCommandDispatch_takes hactive hfree hqueue, ?_⟩
  rw [hdispatch, beginAttempt_answered (by rw [hslot]; exact SlotState.noConfusion), hslot, post_attn hposts']
  refine ⟨?_, rfl, Slot.posted_code (Nat.zero_le _) _, Slot.posted_detail (Nat.zero_le _) _, ?_⟩
  · rw [post_eq hposts']
    rfl
  · rw [BitVec.getLsbD_or]
    exact Bool.or_true _

end

theorem commandDispatch_idle {s : State} (h : s.reeveActive = false ∨ s.mbox.queue = [] ∨ s.slotInHand = true) :
    exec .commandDispatch s = .next s := by
  change execCommandDispatch s = _
  unfold execCommandDispatch
  obtain h | h | h := h
  · rw [h]
    rfl
  · rw [h]
    split <;> rfl
  · rw [h, Bool.not_true, Bool.and_false]
    rfl

/-! ## CHUNK_STAGING_TIMEOUT -/

section
variable {op : W16} {sel : Fin 3} {s : State}

theorem chunkStagingTimeout_held {g : Staging} (h : s.mbox.staging.find? (Staging.holds op sel.val) = some g) :
    (3840000 ≤ s.since g.last → exec (.chunkStagingTimeout op sel) s = .next (dropStaging op g.sel s)) ∧
    (s.since g.last < 3840000 → exec (.chunkStagingTimeout op sel) s = .next s) := by
  have hexec : exec (.chunkStagingTimeout op sel) s = .next (if s.expired g then dropStaging op g.sel s else s) := by
    change execChunkStagingTimeout op sel s = _
    unfold execChunkStagingTimeout
    rw [h]
  rw [hexec]
  exact ⟨fun hlate => congrArg Host.Outcome.next (if_pos (decide_eq_true hlate)),
    fun hearly => congrArg Host.Outcome.next (if_neg (by simpa [State.expired] using hearly))⟩

theorem chunkStagingTimeout_none (h : s.mbox.staging.find? (Staging.holds op sel.val) = none) :
    exec (.chunkStagingTimeout op sel) s = .next s := by
  change execChunkStagingTimeout op sel s = _
  unfold execChunkStagingTimeout
  rw [h]

end

/-- Settles O26: a doorbell by whose slot it rings, a dispatch by the checks of R346, a staging by its age. -/
theorem doorbellsAndDispatch : Obligations.DoorbellsAndDispatch := by
  intro s hwords hfound hrung
  refine ⟨fun n hacks hdev howned hlater => ?_, fun n hacks hdev howned => dbellWrite_ignored hacks hrung hdev howned,
    fun hacks => dbellWrite_none hacks hrung, fun v hacks hdev => ⟨_, execDbellWrite_held hacks hrung hdev v, rfl⟩,
    fun hacks => congrArg Host.Outcome.next (if_neg (ne_true_of_eq_false hacks)),
    fun n q hactive hfree hqueue => ⟨fun hbad hfault => ?_, fun k hposts hbad => ?_, fun e hposts hbad hfault => ?_⟩,
    commandDispatch_idle, fun op sel g => chunkStagingTimeout_held, fun op sel => chunkStagingTimeout_none⟩
  · obtain ⟨t, hexec, hst, hign, hlt, hbytes, hqueue, hother, hrings, hcore⟩ :=
      dbellWrite_queues hacks hrung (hwords n) hfound hdev howned hlater
    exact ⟨t, hexec, hst, hign, hlt, hbytes, hqueue, fun _ => ⟨hother, hrings, hcore⟩⟩
  · exact commandDispatch_runs hactive hfree hqueue hbad hfault
  · obtain ⟨t, hexec, hq, hst, hcode, hdetail, hattn⟩ :=
      commandDispatch_answers hactive hfree hqueue hposts (dispatchSlot_badWord hbad)
    exact ⟨t, hexec, hq, hst, hcode, hdetail.trans (Nat.mod_eq_of_lt (by omega)), hattn⟩
  · exact commandDispatch_answers hactive hfree hqueue hposts (dispatchSlot_fails hbad hfault)

end Sys2Proof.Machine
end

section
-- One declaration after another: the whole text is compiled as one file, within a limit on memory.
set_option Elab.async false
/-!
The pending commands at a frame boundary (R347, R348).
-/

namespace Sys2Proof.Machine

/-! ## Which effect a due command has -/

section
variable {x : Pend} {s : State}

/-- The device state is in the States column of the command. -/
theorem admitted_of_row {r : CmdRow} (hrow : cmdRow x.op.toNat = some r) (hdev : s.core.dev ∈ r.states) :
    ((cmdRow x.op.toNat).map fun r => r.states.contains s.core.dev).getD false = true := by
  rw [hrow]
  exact List.contains_iff_mem.mpr hdev

theorem refused_of_row {r : CmdRow} (hrow : cmdRow x.op.toNat = some r) (hdev : s.core.dev ∉ r.states) :
    ((cmdRow x.op.toNat).map fun r => r.states.contains s.core.dev).getD false = false := by
  rw [hrow]
  exact Bool.eq_false_iff.mpr (mt List.contains_iff_mem.mp hdev)

theorem applyDue_refused {r : CmdRow} (hrow : cmdRow x.op.toNat = some r) (hdev : s.core.dev ∉ r.states)
    (hwait : ∀ f, x.wait ≠ .effectAt f) : applyDue x s = postStatus x.slot .wrongState s := by
  unfold applyDue
  dsimp only
  rw [refused_of_row hrow hdev]
  split
  · next f h => exact absurd h (hwait f)
  · rfl

/-- A command at its boundary takes the effect of its family. -/
theorem applyDue_admitted {r : CmdRow} {k : Nat} (hwait : x.wait = .boundary k) (hrow : cmdRow x.op.toNat = some r)
    (hdev : s.core.dev ∈ r.states) : applyDue x s =
      if x.op = 0x0D01 then applyTimeSet x s
      else if x.op < 0x0200 then sysDue x.op x.slot s
      else if x.op < 0x0300 then portDue x.op x.slot x.payload s
      else if x.op < 0x0700 then chainDue x.op x.slot x.payload s
      else engineDue x.op x.slot x.payload s := by
  unfold applyDue
  dsimp only
  rw [admitted_of_row hrow hdev, hwait]
  rfl

variable {r : CmdRow} {k : Nat} (hwait : x.wait = .boundary k) (hrow : cmdRow x.op.toNat = some r)
  (hdev : s.core.dev ∈ r.states)
include hwait hrow hdev

theorem applyDue_sys {op : W16} (hop : x.op = op) (hset : op ≠ 0x0D01) (hlt : op < 0x0200) :
    applyDue x s = sysDue op x.slot s := by
  subst hop
  rw [applyDue_admitted hwait hrow hdev, if_neg hset, if_pos hlt]

theorem applyDue_port {op : W16} (hop : x.op = op) (hset : op ≠ 0x0D01) (hge : ¬ op < 0x0200) (hlt : op < 0x0300) :
    applyDue x s = portDue op x.slot x.payload s := by
  subst hop
  rw [applyDue_admitted hwait hrow hdev, if_neg hset, if_neg hge, if_pos hlt]

theorem applyDue_chain {op : W16} (hop : x.op = op) (hset : op ≠ 0x0D01) (hge : ¬ op < 0x0200 ∧ ¬ op < 0x0300)
    (hlt : op < 0x0700) : applyDue x s = chainDue op x.slot x.payload s := by
  subst hop
  rw [applyDue_admitted hwait hrow hdev, if_neg hset, if_neg hge.1, if_neg hge.2, if_pos hlt]

theorem applyDue_engine {op : W16} (hop : x.op = op) (hset : op ≠ 0x0D01)
    (hge : ¬ op < 0x0200 ∧ ¬ op < 0x0300 ∧ ¬ op < 0x0700) : applyDue x s = engineDue op x.slot x.payload s := by
  subst hop
  rw [applyDue_admitted hwait hrow hdev, if_neg hset, if_neg hge.1, if_neg hge.2.1, if_neg hge.2.2]

end

/-! ## Settings that must still pass -/

section
variable {fault : List Byte → State → Option Nat} {f : List Byte → State → State} {n : SlotId} {p : List Byte} {s : State}

theorem ifStill_passes (h : fault p s = none) : ifStill fault f n p s = postStatus n .ok (f p s) := by
  unfold ifStill
  rw [h]
  rfl

theorem ifStill_refuses (h : fault p s ≠ none) : ifStill fault f n p s = postStatus n .wrongState s :=
  if_pos (Option.ne_none_iff_isSome.mp h)

end

/-! ## A port that starts -/

section
variable (p : PortId) (s : State)

theorem resetLanes_ports (k : ResetKind) (l : List LaneId) : (resetLanes k l s).ports = s.ports := by
  unfold resetLanes
  induction l generalizing s with
  | nil => rfl
  | cons a l ih => exact ih _

theorem startProfile_ports : (startProfile p s).ports = s.ports := by
  unfold startProfile
  split
  · split <;> rfl
  · rfl

theorem heatPortStart_ports : (heatPortStart p s).ports = s.ports := by
  unfold heatPortStart
  dsimp only
  split
  · split
    · exact startProfile_ports ..
    · rfl
  · rfl

theorem closeRun_ports : (closeRun p s).ports = s.ports := by
  unfold closeRun gauzeDiscard gauzeDiscardFor
  dsimp only
  split
  · rfl
  · split
    · rfl
    · split <;> rfl

theorem beginGauze_ports : (beginGauze p s).ports = s.ports := by
  unfold beginGauze
  dsimp only
  rw [(completeWhere_tells ..).ports, State.modGauzeAt_ports, closeRun_ports]

theorem gauzePortStart_ports : (gauzePortStart p s).ports = s.ports := by
  unfold gauzePortStart tryGauze skipGauze
  split
  · split
    · rw [notice_ports, State.modGauzeAt_ports]
    · exact beginGauze_ports ..
  · rfl

/-- Of the ports a start moves its own only. -/
theorem startPort_ports : (startPort p s).ports = (s.modPort p (Port.atStart s.core.lt)).ports := by
  unfold startPort
  dsimp only
  rw [gauzePortStart_ports, heatPortStart_ports, (TellOnly.foldl (fun _ _ => notice_tells ..) _ _).ports, resetLanes_ports]

/-- A port with no bias to reach is RUNNING from its start (R79). -/
theorem startPort_running (h : (s.ports[p]'p.isLt).mode.isEc = false) :
    ((startPort p s).ports[p]'p.isLt).state = .running := by
  have hslot : (startPort p s).ports[p]'p.isLt = (s.ports[p]'p.isLt).atStart s.core.lt := by
    have hsame := State.modPort_same p (Port.atStart s.core.lt) s
    rw [← startPort_ports] at hsame
    exact hsame
  rw [hslot]
  exact congrArg Port.state (if_neg (ne_true_of_eq_false h))

end

theorem applyPattern_patterns (p : List Byte) (s : State) : (applyPattern p s).frame.patterns =
      s.frame.patterns.set (Fin.ofNat 4 (u8 p 0)) (parsePattern (p.drop 1)) ∧
    (applyPattern p s).frame.active = s.frame.active ∧ (applyPattern p s).ports = s.ports ∧
    (applyPattern p s).core = s.core := by
  unfold applyPattern
  rw [State.modFrame_frame, State.modFrame_ports, State.modFrame_core]
  dsimp only
  split <;> exact ⟨rfl, rfl, rfl, rfl⟩

theorem dueNow_boundary {x : Pend} {k : Nat} (h : x.wait = .boundary k) (f : W32) : x.dueNow f = true ↔ k ≤ 1 := by
  unfold Pend.dueNow
  rw [h]
  exact decide_eq_true_iff

theorem countDown_boundary {x : Pend} {k : Nat} (h : x.wait = .boundary k) : x.countDown.wait = .boundary (k - 1) := by
  unfold Pend.countDown
  rw [h]

/-! ## HEAT.STOP, SYS.RECOVER and SYS.DOZE -/

section
variable {n : SlotId} {p : List Byte} {s : State}

theorem applyHeatStop_running (h : (s.ports[portNo (u8 p 0)]'(portNo (u8 p 0)).isLt).state = .running) :
    applyHeatStop n p s = postStatus n .ok
      (if (s.heat[portNo (u8 p 0)]'(portNo (u8 p 0)).isLt).late &&
          ((s.heat[portNo (u8 p 0)]'(portNo (u8 p 0)).isLt).swapDue || (s.heat[portNo (u8 p 0)]'(portNo (u8 p 0)).isLt).iterEnd)
        then startProfile (portNo (u8 p 0)) (stopProfile (portNo (u8 p 0)) s) else stopProfile (portNo (u8 p 0)) s) :=
  if_pos h

theorem applyHeatStop_stops (h : (s.ports[portNo (u8 p 0)]'(portNo (u8 p 0)).isLt).state = .running)
    (hlate : (s.heat[portNo (u8 p 0)]'(portNo (u8 p 0)).isLt).late = false) :
    applyHeatStop n p s = postStatus n .ok (stopProfile (portNo (u8 p 0)) s) := by
  rw [applyHeatStop_running h, hlate]
  rfl

theorem applyHeatStop_restarts (h : (s.ports[portNo (u8 p 0)]'(portNo (u8 p 0)).isLt).state = .running)
    (hlate : (s.heat[portNo (u8 p 0)]'(portNo (u8 p 0)).isLt).late = true)
    (hend : (s.heat[portNo (u8 p 0)]'(portNo (u8 p 0)).isLt).iterEnd = true) :
    applyHeatStop n p s = postStatus n .ok (startProfile (portNo (u8 p 0)) (stopProfile (portNo (u8 p 0)) s)) := by
  rw [applyHeatStop_running h, hlate, hend, Bool.or_true]
  rfl

theorem applySysRecover_refused (h : s.severeUncleared = true) : applySysRecover n s = postStatus n .wrongState s :=
  if_neg fun hclear => by simp [h] at hclear

theorem applySysDoze_wakes (hdev : s.core.dev ∈ [Dev.ready, Dev.run]) (hstop : s.core.stopping = false)
    (hwake : s.wakeNow = true) : applySysDoze n s = postStatus n .busy s := by
  refine (if_neg ?_).trans (if_pos hwake)
  rw [hstop]
  have hdev : s.core.dev = .ready ∨ s.core.dev = .run := by simpa using hdev
  obtain h | h := hdev <;> simp [h]

theorem applyPortStart_starts (hstart : s.startable (portNo (u8 p 0)) = true) (hstopping : s.core.stopping = false)
    (hstops : s.stopsNow = false) : applyPortStart n p s = postStatus n .ok (startPort (portNo (u8 p 0)) s) := by
  refine if_pos ?_
  rw [hstart, hstopping, hstops]
  rfl

end

section
variable {x : Pend} {s : State} {r : CmdRow} {k : Nat} (hwait : x.wait = .boundary k) (hrow : cmdRow x.op.toNat = some r)
  (hdev : s.core.dev ∈ r.states)
include hwait hrow hdev

/-- SYS.DOZE is admitted in READY and RUN (Table 17-1). -/
theorem applyDue_doze (hop : x.op = 0x0105) (hstop : s.core.stopping = false) (hwake : s.wakeNow = true) :
    applyDue x s = postStatus x.slot .busy s := by
  have hstates : r.states = [.ready, .run] := by
    rw [hop] at hrow
    exact congrArg CmdRow.states (Option.some_inj.mp hrow).symm
  rw [applyDue_sys hwait hrow hdev hop (by decide) (by decide)]
  exact applySysDoze_wakes (hstates ▸ hdev) hstop hwake

theorem applyDue_ports :
    (x.op = 0x0203 → applyDue x s = postStatus x.slot .ok
      (s.modInput (portNo (u8 x.payload 0)) (Fin.ofNat 2 (u8 x.payload 1)) fun i =>
        { i with lo := Fin.ofNat 8 (u8 x.payload 2), hi := Fin.ofNat 8 (u8 x.payload 3)
                 start := Fin.ofNat 8 (u8 x.payload 4), s := u8 x.payload 5 })) ∧
    (x.op = 0x0204 → applyDue x s = postStatus x.slot .ok (s.modPort (portNo (u8 x.payload 0)) fun q =>
      { q with len := u8 x.payload 1, lmin := u8 x.payload 2 })) ∧
    (x.op = 0x0206 →
      (portAuxFault x.payload s = none → applyDue x s = postStatus x.slot .ok
        (s.modPort (portNo (u8 x.payload 0)) fun q => { q with aux := Fin.ofNat 3 (u8 x.payload 1) })) ∧
      (portAuxFault x.payload s ≠ none → applyDue x s = postStatus x.slot .wrongState s)) ∧
    (x.op = 0x0207 →
      (portRingFault x.payload s = none → applyDue x s = postStatus x.slot .ok
        (s.modPort (portNo (u8 x.payload 0)) fun q => { q with ring := BitVec.ofNat 8 (u8 x.payload 1) })) ∧
      (portRingFault x.payload s ≠ none → applyDue x s = postStatus x.slot .wrongState s)) ∧
    (x.op = 0x0208 →
      (portLayerFault x.payload s = none → applyDue x s = postStatus x.slot .ok
        (s.modPort (portNo (u8 x.payload 0)) fun q => { q with vlayer := s16 x.payload 2 })) ∧
      (portLayerFault x.payload s ≠ none → applyDue x s = postStatus x.slot .wrongState s)) ∧
    (x.op = 0x0209 → s.startable (portNo (u8 x.payload 0)) = true → s.core.stopping = false →
      s.stopsNow = false →
      applyDue x s = postStatus x.slot .ok (startPort (portNo (u8 x.payload 0)) s)) := by
  have hdue : ∀ op : W16, x.op = op → op ≠ 0x0D01 → ¬ op < 0x0200 → op < 0x0300 →
      applyDue x s = portDue op x.slot x.payload s := fun _ => applyDue_port hwait hrow hdev
  refine ⟨fun hop => ?_, fun hop => ?_, fun hop => ?_, fun hop => ?_, fun hop => ?_, fun hop hstart hstopping hstops => ?_⟩
  · exact hdue _ hop (by decide) (by decide) (by decide)
  · exact hdue _ hop (by decide) (by decide) (by decide)
  · have hport := hdue _ hop (by decide) (by decide) (by decide)
    exact ⟨fun h => hport.trans (ifStill_passes h), fun h => hport.trans (ifStill_refuses h)⟩
  · have hport := hdue _ hop (by decide) (by decide) (by decide)
    exact ⟨fun h => hport.trans (ifStill_passes h), fun h => hport.trans (ifStill_refuses h)⟩
  · have hport := hdue _ hop (by decide) (by decide) (by decide)
    exact ⟨fun h => hport.trans (ifStill_passes h), fun h => hport.trans (ifStill_refuses h)⟩
  · exact (hdue _ hop (by decide) (by decide) (by decide)).trans (applyPortStart_starts hstart hstopping hstops)

theorem applyDue_heatStop (hop : x.op = 0x0304) :
    applyDue x s = applyHeatStop x.slot x.payload s :=
  applyDue_chain hwait hrow hdev hop (by decide) ⟨by decide, by decide⟩ (by decide)

theorem applyDue_frame :
    (x.op = 0x1203 → applyDue x s = postStatus x.slot .ok (s.modFrame fun f =>
      { f with lead := u8 x.payload 0, trail := u8 x.payload 1, guarded := u8 x.payload 2 })) ∧
    (x.op = 0x1202 → applyDue x s = postStatus x.slot .ok (s.modFrame fun f =>
      { f with active := Fin.ofNat 4 (u8 x.payload 0), witness := [] })) ∧
    (x.op = 0x1201 → ∃ t, applyDue x s = postStatus x.slot .ok t ∧
      t.frame.patterns = s.frame.patterns.set (Fin.ofNat 4 (u8 x.payload 0)) (parsePattern (x.payload.drop 1)) ∧
      t.frame.active = s.frame.active ∧ t.ports = s.ports ∧ t.core = s.core) := by
  have hdue : ∀ op : W16, x.op = op → op ≠ 0x0D01 → ¬ op < 0x0200 ∧ ¬ op < 0x0300 ∧ ¬ op < 0x0700 →
      applyDue x s = engineDue op x.slot x.payload s := fun _ => applyDue_engine hwait hrow hdev
  refine ⟨fun hop => ?_, fun hop => ?_, fun hop => ⟨applyPattern x.payload s, ?_, applyPattern_patterns ..⟩⟩
  · exact hdue _ hop (by decide) ⟨by decide, by decide, by decide⟩
  · exact hdue _ hop (by decide) ⟨by decide, by decide, by decide⟩
  · exact hdue _ hop (by decide) ⟨by decide, by decide, by decide⟩

end

/-- Settles O42: a due command by its States column, its family and its opcode. -/
theorem commandsAtTheirBoundary : Obligations.CommandsAtTheirBoundary := by
  intro s x
  refine ⟨fun r hrow hdev hwait => applyDue_refused hrow hdev hwait, fun k hwait => ⟨fun r hrow hdev => ?_,
    dueNow_boundary hwait _, countDown_boundary hwait⟩, fun p hec => ⟨_, rfl, startPort_running p s hec⟩⟩
  obtain ⟨hrange, hwindow, haux, hring, hlayer, hstart⟩ := applyDue_ports hwait hrow hdev
  obtain ⟨hpolder, hselect, hpattern⟩ := applyDue_frame hwait hrow hdev
  have hheat := applyDue_heatStop hwait hrow hdev
  refine ⟨hrange, hwindow, haux, hring, hlayer, hstart, fun hop hrunning => ⟨fun hlate => ?_, fun hlate hend => ?_⟩,
    fun hop hidle => ?_, hpolder, hselect, hpattern, fun hop hsevere => ?_, applyDue_doze hwait hrow hdev⟩
  · exact (hheat hop).trans (applyHeatStop_stops hrunning hlate)
  · exact (hheat hop).trans (applyHeatStop_restarts hrunning hlate hend)
  · exact (hheat hop).trans (if_neg hidle)
  · exact (applyDue_sys hwait hrow hdev hop (by decide) (by decide)).trans (applySysRecover_refused hsevere)

end Sys2Proof.Machine
end

section
-- One declaration after another: the whole text is compiled as one file, within a limit on memory.
set_option Elab.async false
/-!
The CAL commands (chapter 11, Table 16-13).
-/

namespace Sys2Proof.Machine

/-! ## The hold begins -/

section
variable (k : PortId) (p : List Byte) (begun : W64) (s : State)

theorem beginHold_session : (beginHold k p begun s).cal.sessions[k]'k.isLt = some { begun := begun } :=
  Vector.getElem_set_self ..

theorem beginHold_steps : (beginHold k p begun s).cal.steps[k]'k.isLt = ({}, {}) :=
  Vector.getElem_set_self ..

theorem beginHold_pinned (i : Fin 2) : (((beginHold k p begun s).ports[k]'k.isLt).inputs[i]'i.isLt).pinned =
    some (if (u8 p 1).testBit i.val then Fin.ofNat 8 (u8 p (2 + i.val)) else ((s.ports[k]'k.isLt).inputs[i]'i.isLt).range) := by
  unfold beginHold
  dsimp only
  rw [State.modCal_ports]
  have hport := State.modPort_same k (fun q => { q with
    inputs := Vector.ofFn fun (i : Fin 2) =>
      { (q.inputs[i]'i.isLt) with pinned := some (beginRange p i (q.inputs[i]'i.isLt)), stepUp := false, nextRange := none }
    heldAt := some begun }) s
  rw [show (State.modPort k _ s).ports[k]'k.isLt = _ from hport]
  dsimp only
  exact (congrArg Input.pinned (Vector.getElem_ofFn i.isLt)).trans rfl

end

theorem atDoorbell_begins {s : State} {n : SlotId} {k : PortId} (hactive : s.reeveActive = true) (hdev : s.core.dev ≠ .boot)
    (hbad : s.badWord n = none) (hfault : requestFault (s.mbox.slots[n]'n.isLt) s.core.dev = none)
    (hop : (s.mbox.slots[n]'n.isLt).op = 0x0901) (hk : u8 (s.mbox.slots[n]'n.isLt).payload 0 = k.val)
    (hrefusal : s.beginRefusal (s.mbox.slots[n]'n.isLt).payload = none) :
    atDoorbell n s = beginHold k (s.mbox.slots[n]'n.isLt).payload s.core.lt (s.modSlot n fun x => { x with early := true }) := by
  obtain rfl := portNo_of_field hk
  have hopen : ¬ (!s.reeveActive || s.core.dev == .boot || (s.badWord n).isSome ||
      (requestFault (s.mbox.slots[n]'n.isLt) s.core.dev).isSome) = true := by
    rw [hactive, hbad, hfault]
    simpa using hdev
  have hsync : ¬ ((s.mbox.slots[n]'n.isLt).op = 0x0604 ∧ u8 (s.mbox.slots[n]'n.isLt).payload 0 = 0) := by
    rw [hop]
    exact fun h => absurd h.1 (by decide)
  exact (if_neg hopen).trans ((if_neg hsync).trans (if_pos ⟨hop, hrefusal⟩))

section
variable {p : List Byte} {k : PortId} (hk : u8 p 0 = k.val) {s : State} {n : SlotId}
include hk

/-! ## CAL.BEGIN -/

theorem beginRefusal_eq (hfields : calBeginFault p s = none) (hmodel : u8 (s.gas.model k) 0 ≠ 0) :
    s.beginRefusal p = if (s.ports[k]'k.isLt).state ≠ .running then some (.wrongState, 0)
      else if s.calHold k then some (.busy, 0) else none := by
  obtain rfl := portNo_of_field hk
  unfold State.beginRefusal
  rw [hfields]
  exact if_neg hmodel

theorem execCalBegin_late (h : s.request n 0x0901 p) (hlate : (s.mbox.slots[n]'n.isLt).early = false ∨ s.calHold k = false) :
    exec (.calBegin n) s = .next
      (orRefuse n (s.beginRefusal p) (fun s => postStatus n .ok (beginHold k p s.core.lt s)) s) := by
  obtain rfl := portNo_of_field hk
  refine congrArg Host.Outcome.next ((onSlot_request h).trans (if_neg fun hdone => ?_))
  obtain ⟨hearly, hhold⟩ := hdone
  obtain hlate | hlate := hlate
  · exact ne_true_of_eq_false hlate hearly
  · exact ne_true_of_eq_false hlate hhold

theorem calBegin_answers (h : s.request n 0x0901 p) (hearly : (s.mbox.slots[n]'n.isLt).early = true)
    (hhold : s.calHold k = true) : exec (.calBegin n) s = .next (postStatus n .ok s) := by
  obtain rfl := portNo_of_field hk
  exact congrArg Host.Outcome.next ((onSlot_request h).trans (if_pos ⟨hearly, hhold⟩))

theorem calBegin_begins (h : s.request n 0x0901 p) (hfields : calBeginFault p s = none)
    (hmodel : u8 (s.gas.model k) 0 ≠ 0) (hruns : (s.ports[k]'k.isLt).state = .running) (hfree : s.calHold k = false) :
    exec (.calBegin n) s = .next (postStatus n .ok (beginHold k p s.core.lt s)) := by
  rw [execCalBegin_late hk h (.inr hfree), beginRefusal_eq hk hfields hmodel, if_neg (not_not.mpr hruns),
    if_neg (ne_true_of_eq_false hfree)]
  rfl

theorem calBegin_refuses (h : s.request n 0x0901 p) (hfields : calBeginFault p s = none)
    (hmodel : u8 (s.gas.model k) 0 ≠ 0) (hlate : (s.mbox.slots[n]'n.isLt).early = false) :
    ((s.ports[k]'k.isLt).state ≠ .running → exec (.calBegin n) s = .next (postStatus n .wrongState s)) ∧
    ((s.ports[k]'k.isLt).state = .running → s.calHold k = true → exec (.calBegin n) s = .next (postStatus n .busy s)) := by
  refine ⟨fun hidle => ?_, fun hruns hhold => ?_⟩
  · rw [execCalBegin_late hk h (.inl hlate), beginRefusal_eq hk hfields hmodel, if_pos hidle]
    rfl
  · rw [execCalBegin_late hk h (.inl hlate), beginRefusal_eq hk hfields hmodel, if_neg (not_not.mpr hruns), if_pos hhold]
    rfl

/-! ## CAL.ZERO and CAL.SPAN -/

theorem calStepCmd_valid {span : Bool} (hzero : u8 p 1 = 0) (hcount : u16 p 2 ≠ 0) (hrefusal : s.stepRefusal k span p = none) :
    calStepCmd n span p s = startStep n k span p s := by
  have hfields : ((portFault p).or <| (firstNonZero p 1 1).or (if u16 p 2 = 0 then some 2 else none)) = none := by
    rw [portFault_none hk, firstNonZero_one hzero, if_neg hcount]
    rfl
  obtain rfl := portNo_of_field hk
  unfold calStepCmd
  rw [hfields]
  dsimp only
  rw [hrefusal]
  rfl

omit hk in
theorem modSession_same (f : CalSession → CalSession) :
    (modSession k f s).cal.sessions[k]'k.isLt = (s.cal.sessions[k]'k.isLt).map f := Vector.getElem_set_self ..

omit hk in
/-- What a step that starts leaves in its session. -/
theorem startStep_session {a : Average} {x : CalSession} (hx : s.cal.sessions[k]'k.isLt = some x) :
    ∃ y, (modSession k (fun x => { x with avg := some a }) s).cal.sessions[k]'k.isLt = some y ∧ y.begun = x.begun ∧
      y.zero = x.zero ∧ y.span = x.span ∧ y.avg = some a :=
  ⟨{ x with avg := some a }, by rw [modSession_same, hx]; rfl, rfl, rfl, rfl, rfl⟩

theorem calZero_starts (hzero : u8 p 1 = 0) (hcount : u16 p 2 ≠ 0) (h : s.request n 0x0902 p)
    (hrefusal : s.stepRefusal k false p = none) : ∃ t f,
    exec (.calZero n) s = .next (pendOn n 0x0902 p (.calStep k) f t) ∧ (∀ x, s.cal.sessions[k]'k.isLt = some x →
      ∃ y, t.cal.sessions[k]'k.isLt = some y ∧ y.begun = x.begun ∧ y.zero = x.zero ∧ y.span = x.span ∧
        y.avg = some { span := false, n := u16 p 2, c := 0, after := (s.mbox.slots[n]'n.isLt).rung }) :=
  ⟨_, _, congrArg Host.Outcome.next ((onSlot_request h).trans (calStepCmd_valid hk hzero hcount hrefusal)),
    fun _ => startStep_session⟩

theorem calSpan_starts (hzero : u8 p 1 = 0) (hcount : u16 p 2 ≠ 0) (h : s.request n 0x0903 p)
    (hrefusal : s.stepRefusal k true p = none) : ∃ t f,
    exec (.calSpan n) s = .next (pendOn n 0x0903 p (.calStep k) f t) ∧ (∀ x, s.cal.sessions[k]'k.isLt = some x →
      ∃ y, t.cal.sessions[k]'k.isLt = some y ∧ y.begun = x.begun ∧ y.zero = x.zero ∧ y.span = x.span ∧
        y.avg = some { span := true, n := u16 p 2, c := s32 p 4, after := (s.mbox.slots[n]'n.isLt).rung }) :=
  ⟨_, _, congrArg Host.Outcome.next ((onSlot_request h).trans (calStepCmd_valid hk hzero hcount hrefusal)),
    fun _ => startStep_session⟩

/-! ## CAL.COMMIT, CAL.ABORT, CAL.RANGE and CAL.CLEAR -/

theorem execCalCommit_valid (h : s.request n 0x0904 p) (haccept : u8 p 1 ≤ 1) : exec (.calCommit n) s =
    .next (orRefuse n (s.commitRefusal k (u8 p 1 == 1)) (pendBoundary n 0x0904 p 1) s) := by
  have hfields : (portFault p).or (if 1 < u8 p 1 then some 1 else none) = none := by
    rw [portFault_none hk, if_neg (by omega)]
    rfl
  obtain rfl := portNo_of_field hk
  change execCalCommit n s = _
  unfold execCalCommit
  rw [onSlot_request h, hfields]

theorem calCommit_completes (h : s.request n 0x0904 p) (haccept : u8 p 1 ≤ 1) :
    (s.commitRefusal k (u8 p 1 == 1) = none → exec (.calCommit n) s = .next (pendBoundary n 0x0904 p 1 s)) ∧
    (∀ e d, s.commitRefusal k (u8 p 1 == 1) = some (e, d) → exec (.calCommit n) s = .next (post n e d [] s)) := by
  rw [execCalCommit_valid hk h haccept]
  refine ⟨fun hnone => ?_, fun e d hsome => ?_⟩
  · rw [hnone]
    rfl
  · rw [hsome]
    rfl

theorem calAbort_completes (h : s.request n 0x0905 p) :
    (s.session k ≠ none → exec (.calAbort n) s = .next (pendBoundary n 0x0905 p 1 s)) ∧
    (s.session k = none → exec (.calAbort n) s = .next (postStatus n .wrongState s)) := by
  have hexec : exec (.calAbort n) s = .next
      (if (s.session k).isNone then postStatus n .wrongState s else pendBoundary n 0x0905 p 1 s) := by
    have hport : portFault p = none := portFault_none hk
    obtain rfl := portNo_of_field hk
    change execCalAbort n s = _
    unfold execCalAbort
    rw [onSlot_request h, hport]
  rw [hexec]
  exact ⟨fun hsome => congrArg Host.Outcome.next (if_neg (mt Option.isNone_iff_eq_none.mp hsome)),
    fun hnone => congrArg Host.Outcome.next (if_pos (Option.isNone_iff_eq_none.mpr hnone))⟩

theorem calRange_completes (h : s.request n 0x0906 p) (hinput : u8 p 1 < (s.ports[k]'k.isLt).mode.inputs)
    (hrange : u8 p 2 < 8) :
    (s.calHold k = true → exec (.calRange n) s = .next (pendBoundary n 0x0906 p (s.planBoundaries n) s)) ∧
    (s.calHold k = false → exec (.calRange n) s = .next (postStatus n .wrongState s)) := by
  have hexec : exec (.calRange n) s = .next
      (if !s.calHold k then postStatus n .wrongState s else pendBoundary n 0x0906 p (s.planBoundaries n) s) := by
    have hfields : ((portFault p).or <| (if (s.ports[k]'k.isLt).mode.inputs ≤ u8 p 1 then some 1 else none).or
        (if 7 < u8 p 2 then some 2 else none)) = none := by
      rw [portFault_none hk, if_neg (by omega), if_neg (by omega)]
      rfl
    obtain rfl := portNo_of_field hk
    change execCalRange n s = _
    unfold execCalRange
    rw [onSlot_request h]
    dsimp only
    rw [hfields]
  rw [hexec]
  refine ⟨fun hhold => ?_, fun hfree => ?_⟩
  · rw [hhold]
    rfl
  · rw [hfree]
    rfl

theorem calClear_completes (h : s.request n 0x0909 p) :
    (s.nvmAllowed = true → exec (.calClear n) s = .next (postStatus n .ok (s.modCal fun c =>
      { c with recs := c.recs.set k none, staged := c.staged.set k none }))) ∧
    (s.nvmAllowed = false → exec (.calClear n) s = .next (postStatus n .nvmHot s)) := by
  have hexec : exec (.calClear n) s = .next (if !s.nvmAllowed then postStatus n .nvmHot s
      else postStatus n .ok (s.modCal fun c => { c with recs := c.recs.set k none, staged := c.staged.set k none })) := by
    have hport : portFault p = none := portFault_none hk
    obtain rfl := portNo_of_field hk
    change execCalClear n s = _
    unfold execCalClear
    rw [onSlot_request h, hport]
  rw [hexec]
  refine ⟨fun hwrites => ?_, fun hheld => ?_⟩
  · rw [hwrites]
    rfl
  · rw [hheld]
    rfl

/-! ## CAL.ELEC and CAL.STATUS -/

theorem targetOf_field : targetOf (u8 p 0) = .port k := by
  have hlt := k.isLt
  have hport : portNo (u8 p 0) = k := portNo_of_field hk
  unfold targetOf
  rw [if_neg (by omega), if_neg (by omega), if_neg (by omega), hport]

theorem calElec_completes (h : s.request n 0x0907 p) (hgain : u8 p 1 = 0) :
    (s.elecRefusal (.port k) = none → exec (.calElec n) s = .next (pendOn n 0x0907 p (.calElec (.port k))
      (s.frameIn 1) (s.modCal fun c => { c with runs := c.runs ++ [{ target := .port k, gain := 0, left := none }] }))) ∧
    (∀ e, s.elecRefusal (.port k) = some e → exec (.calElec n) s = .next (postStatus n e s)) := by
  have hlt := k.isLt
  have hfields : calElecFault p = none := by
    unfold calElecFault
    rw [if_neg (by omega), if_neg (by omega), if_neg (not_not.mpr hgain)]
  have htarget : targetOf (u8 p 0) = .port k := targetOf_field hk
  refine ⟨fun hnone => ?_, fun e hsome => ?_⟩
  · change execCalElec n s = _
    unfold execCalElec
    rw [onSlot_request h, orRefuse_none hfields, htarget]
    dsimp only
    rw [hnone, hgain]
    rfl
  · change execCalElec n s = _
    unfold execCalElec
    rw [onSlot_request h, orRefuse_none hfields, htarget]
    dsimp only
    rw [hsome]

omit hk in
theorem elecStatus_result (x : ElecStat) : u8 (elecStatus x) 0 = x.result.val :=
  toNat_byte (show x.result.val < 256 by omega)

omit hk in
theorem stepStatus_result (staged : Bool) (r : StepReport) : u8 (stepStatus staged r) 0 = r.result.val :=
  toNat_byte (show r.result.val < 256 by omega)

theorem calStatus_answers (h : s.request n 0x0908 p) (hwhich : u8 p 1 ≤ 2) :
    ∃ resp : List Byte, exec (.calStatus n) s = .next (postOk n resp s) ∧
      resp.length = (if u8 p 1 = 2 then 10 else 26) ∧
      u8 resp 0 = (if u8 p 1 = 2 then (s.cal.stats[targetNo (.port k)]'(targetNo (.port k)).isLt).result.val
        else if u8 p 1 = 0 then (s.cal.steps[k]'k.isLt).1.result.val else (s.cal.steps[k]'k.isLt).2.result.val) := by
  have hlt := k.isLt
  have hfields : calStatusFault p = none := by
    unfold calStatusFault
    rw [if_neg (by omega), if_neg (by omega), if_neg (by omega)]
  have hport : portNo (u8 p 0) = k := portNo_of_field hk
  have hexec : ∀ t, targetOf (u8 p 0) = t → exec (.calStatus n) s = .next (if u8 p 1 = 2 then
        postOk n (elecStatus (s.cal.stats[targetNo t]'(targetNo t).isLt)) s
      else postOk n (stepStatus (s.cal.staged[k]'k.isLt).isSome
        (if u8 p 1 = 0 then (s.cal.steps[k]'k.isLt).1 else (s.cal.steps[k]'k.isLt).2)) s) := by
    intro t ht
    subst hport ht
    change execCalStatus n s = _
    unfold execCalStatus
    rw [onSlot_request h, orRefuse_none hfields]
  have hexec := hexec _ (targetOf_field hk)
  by_cases htwo : u8 p 1 = 2
  · rw [if_pos htwo, if_pos htwo]
    exact ⟨_, hexec.trans (congrArg Host.Outcome.next (if_pos htwo)), rfl, elecStatus_result _⟩
  · rw [if_neg htwo, if_neg htwo]
    refine ⟨_, hexec.trans (congrArg Host.Outcome.next (if_neg htwo)), rfl, (stepStatus_result ..).trans ?_⟩
    split <;> rfl

end

/-- Settles O47: each CAL request by the fields and the state that decide it. -/
theorem calCommands : Obligations.CalCommands := by
  refine ⟨fun s n k hactive hdev hbad hfault hop hk hrefusal => ?_, fun s n p k hk => ⟨calBegin_answers hk,
    fun h hfields hmodel => ⟨fun hruns hfree => ?_, fun hlate => (calBegin_refuses hk h hfields hmodel hlate).1,
      fun hlate => (calBegin_refuses hk h hfields hmodel hlate).2⟩,
    fun hzero hcount => ⟨calZero_starts hk hzero hcount, calSpan_starts hk hzero hcount⟩, calCommit_completes hk,
    calAbort_completes hk, calRange_completes hk, calElec_completes hk, calStatus_answers hk, calClear_completes hk⟩⟩
  · rw [atDoorbell_begins hactive hdev hbad hfault hop hk hrefusal]
    exact ⟨beginHold_session .., congrArg Slot.early (State.modSlot_same n (fun x => { x with early := true }) s)⟩
  · exact ⟨_, calBegin_begins hk h hfields hmodel hruns hfree, beginHold_session .., beginHold_steps ..,
      beginHold_pinned k p s.core.lt s, rfl, rfl⟩

end Sys2Proof.Machine
end

section
-- One declaration after another: the whole text is compiled as one file, within a limit on memory.
set_option Elab.async false
/-!
The events of calibrations and of the periodic self-tests (chapter 11).
-/

namespace Sys2Proof.Machine

section
variable {s : State} {p : PortId}

theorem completeWhere_rings (q : Pend → Bool) (st : Status) (s : State) : (completeWhere q st s).rings = s.rings := by
  unfold completeWhere
  generalize s.mbox.pend.filter q = l
  induction l generalizing s with
  | nil => rfl
  | cons x l ih => exact (ih _).trans (post_rings ..)

/-- A session within its hold limit. -/
theorem session_kept {x : CalSession} (h : s.session p = some x) : s.cal.sessions[p]'p.isLt = some x :=
  (Option.filter_eq_some_iff.mp h).1

/-! ## CAL_STEP_END -/

/-- A session whose step has averaged: what can be committed is kept. -/
def CalSession.stepped (r : StepReport) (span : Bool) (x : CalSession) : CalSession :=
  let keep := if r.result = 1 ∨ r.result = 4 then some r else none
  if span then { x with avg := none, span := keep.or x.span } else { x with avg := none, zero := keep.or x.zero }

theorem CalSession.stepped_avg (r : StepReport) (span : Bool) (x : CalSession) : (x.stepped r span).avg = none := by
  cases span <;> rfl

theorem CalSession.stepped_begun (r : StepReport) (span : Bool) (x : CalSession) : (x.stepped r span).begun = x.begun := by
  cases span <;> rfl

/-- The session's step is reported, and averages no longer. -/
def stepEnded (p : PortId) (x : CalSession) (a : Average) (s : State) : State :=
  s.modCal fun c =>
    { c.setSession p (some (x.stepped (s.stepReport p x a) a.span)) with
      steps := c.steps.set p (if a.span then ((s.cal.steps[p]'p.isLt).1, s.stepReport p x a)
        else (s.stepReport p x a, (s.cal.steps[p]'p.isLt).2)) }

theorem calStepEnd_completes {x : CalSession} {a : Average} (hx : s.session p = some x) (ha : x.avg = some a)
    (hactive : s.reeveActive = true) (htick : s.frame.tick = 1) (hgone : a.gone = a.n) :
    ∃ t, exec (.calStepEnd p) s = .next t ∧
      (a.span = true → t.cal.steps[p]'p.isLt = ((s.cal.steps[p]'p.isLt).1, s.stepReport p x a)) ∧
      (a.span = false → t.cal.steps[p]'p.isLt = (s.stepReport p x a, (s.cal.steps[p]'p.isLt).2)) ∧
      (∃ y, t.cal.sessions[p]'p.isLt = some y ∧ y.avg = none ∧ y.begun = x.begun) ∧ t.gas = s.gas ∧ t.rings = s.rings := by
  have hdue : (s.reeveActive && s.frame.tick == 1 && a.gone == a.n) = true := by
    simp [hactive, htick, hgone]
  have hexec : exec (.calStepEnd p) s = .next (completeWhere (·.wait == .calStep p) .ok (stepEnded p x a s)) := by
    change execCalStepEnd p s = _
    unfold execCalStepEnd
    rw [hx]
    dsimp only
    rw [ha]
    exact congrArg Host.Outcome.next (if_pos hdue)
  have hsteps : (stepEnded p x a s).cal.steps[p]'p.isLt = if a.span then ((s.cal.steps[p]'p.isLt).1, s.stepReport p x a)
      else (s.stepReport p x a, (s.cal.steps[p]'p.isLt).2) := Vector.getElem_set_self ..
  have hsession : (stepEnded p x a s).cal.sessions[p]'p.isLt = some (x.stepped (s.stepReport p x a) a.span) :=
    Vector.getElem_set_self ..
  have hgas : (stepEnded p x a s).gas = s.gas := rfl
  have hrings : (stepEnded p x a s).rings = s.rings := rfl
  refine ⟨_, hexec, ?_⟩
  rw [completeWhere_rings, (completeWhere_tells ..).gas, (completeWhere_tells ..).cal]
  generalize stepEnded p x a s = u at hsteps hsession hgas hrings ⊢
  exact ⟨fun hspan => hsteps.trans (if_pos hspan), fun hzero => hsteps.trans (if_neg (ne_true_of_eq_false hzero)),
    ⟨_, hsession, CalSession.stepped_avg .., CalSession.stepped_begun ..⟩, hgas, hrings⟩

/-! ## CAL_HOLD_LIMIT -/

theorem calHoldLimit_ends {x : CalSession} (hx : s.session p = some x)
    (hover : s.core.sys.holdMin * 3840000 ≤ s.since x.begun) : ∃ t, exec (.calHoldLimit p) s = .next t ∧
      t.cal.sessions[p]'p.isLt = some { x with atLimit := true, avg := none } ∧ t.core = s.core ∧ t.gas = s.gas := by
  have hexec : exec (.calHoldLimit p) s = .next (completeWhere (·.wait == .calStep p) .wrongState
      (calNotice p 1 (modSession p (fun x => { x with atLimit := true, avg := none }) s))) := by
    change execCalHoldLimit p s = _
    unfold execCalHoldLimit
    rw [hx]
    exact congrArg Host.Outcome.next (if_pos hover)
  refine ⟨_, hexec, ?_⟩
  have htells : TellOnly (modSession p (fun x => { x with atLimit := true, avg := none }) s) _ :=
    (notice_tells 0x0901 .ordinary (argB 0 p.val ||| argB 1 1) _).trans
      (completeWhere_tells (·.wait == .calStep p) .wrongState _)
  have hsession : (modSession p (fun x => { x with atLimit := true, avg := none }) s).cal.sessions[p]'p.isLt =
      some { x with atLimit := true, avg := none } := by
    rw [modSession_same, session_kept hx]
    rfl
  unfold calNotice
  rw [htells.cal, htells.core, htells.gas]
  exact ⟨hsession, rfl, rfl⟩

theorem calHoldLimit_early {x : CalSession} (hx : s.session p = some x)
    (hearly : s.since x.begun < s.core.sys.holdMin * 3840000) : exec (.calHoldLimit p) s = .next s := by
  change execCalHoldLimit p s = _
  unfold execCalHoldLimit
  rw [hx]
  exact congrArg Host.Outcome.next (if_neg (not_le.mpr hearly))

end

/-! ## ELEC_CAL_END -/

section
variable (t : CalTarget) (s : State)

theorem resetLanes_cal (k : ResetKind) (l : List LaneId) : (resetLanes k l s).cal = s.cal := by
  unfold resetLanes
  induction l generalizing s with
  | nil => rfl
  | cons a l ih => exact ih _

theorem elecRelease_cal : (elecRelease t s).cal = s.cal := by
  unfold elecRelease
  cases t with
  | port p =>
    dsimp only
    rw [resetLanes_cal]
    split <;> rfl
  | warp => rfl
  | weft => rfl
  | ref => rfl

/-- What the record of an ended calibration says of its target. -/
theorem elecRecord_stat (ok : Bool) : ∃ y : ElecStat,
    (elecRecord t ok s).cal.stats[targetNo t]'(targetNo t).isLt = y ∧ y.result = (if ok then 1 else 2) ∧
      (ok = true → y.run = 0) ∧
      (ok = false → y.total = countUp (s.cal.stats[targetNo t]'(targetNo t).isLt).total 1) :=
  ⟨_, Vector.getElem_set_self .., rfl, fun h => if_pos h, fun h => if_neg (ne_true_of_eq_false h)⟩

theorem elecRecord_coefs (ok : Bool) :
    (elecRecord t ok s).cal.refTrim = s.cal.refTrim ∧ (elecRecord t ok s).cal.conv = s.cal.conv := ⟨rfl, rfl⟩

end

section
variable (r : ElecRun) (m : ElecMeas) (s : State)

/-- A run's result in force, or told. -/
def elecJudged : State :=
  if s.elecWithin r m then elecApply r m s else notice 0x0902 .ordinary (argB 0 (targetNo r.target).val) s

/-- An ended run's calibration state: its judgement on record, and the run gone. -/
theorem endRun_cal : (endRun r m s).cal =
    { (elecRecord r.target (s.elecWithin r m) (elecJudged r m s)).cal with
      runs := (elecRecord r.target (s.elecWithin r m) (elecJudged r m s)).cal.runs.filter fun x => x.target != r.target } := by
  have hposts : ∀ (resp : List Byte) (l : List Pend) (u : State),
      (l.foldl (fun s x => postOk x.slot resp s) u).cal = u.cal :=
    fun _ l u => (TellOnly.foldl (fun _ _ => post_tells ..) l u).cal
  unfold endRun
  dsimp only
  rw [hposts, State.modCal_cal, elecRelease_cal]
  have hraised : ∀ (b : Bool) (u : State), (if b then raise (targetSource r.target) u else u).cal = u.cal := by
    intro b u
    cases b
    · rfl
    · exact raise_cal ..
  rw [hraised]
  rfl

theorem elecJudged_failed (h : s.elecWithin r m = false) : (elecJudged r m s).cal = s.cal := by
  unfold elecJudged
  rw [if_neg (ne_true_of_eq_false h), notice_cal]

variable {r m s}

theorem elecCalEnd_completes {tg : CalTarget} (hfind : s.cal.runs.find? (·.target == tg) = some r) (hleft : r.left = some 0)
    (htick : s.frame.tick = 0) (hactive : s.reeveActive = true) :
    ∃ t, exec (.elecCalEnd tg m) s = .next t ∧ (∀ x ∈ t.cal.runs, x.target ≠ tg) ∧
      (s.elecWithin r m = true → (t.cal.stats[targetNo tg]'(targetNo tg).isLt).result = 1 ∧
        (t.cal.stats[targetNo tg]'(targetNo tg).isLt).run = 0) ∧
      (s.elecWithin r m = false → (t.cal.stats[targetNo tg]'(targetNo tg).isLt).result = 2 ∧
        t.cal.refTrim = s.cal.refTrim ∧ t.cal.conv = s.cal.conv ∧
        (t.cal.stats[targetNo tg]'(targetNo tg).isLt).total =
          countUp (s.cal.stats[targetNo tg]'(targetNo tg).isLt).total 1) := by
  have hexec : exec (.elecCalEnd tg m) s = .next (endRun r m s) := by
    change execElecCalEnd tg m s = _
    unfold execElecCalEnd
    rw [hfind]
    exact congrArg Host.Outcome.next (if_pos (by rw [hleft, htick, hactive]; rfl))
  have hmine := List.find?_some hfind
  obtain rfl : r.target = tg := beq_iff_eq.mp hmine
  refine ⟨_, hexec, ?_⟩
  rw [endRun_cal]
  obtain ⟨y, hy, hresult, hrun, htotal⟩ := elecRecord_stat r.target (elecJudged r m s) (s.elecWithin r m)
  obtain ⟨htrim, hconv⟩ := elecRecord_coefs r.target (elecJudged r m s) (s.elecWithin r m)
  refine ⟨fun x hx => bne_iff_ne.mp (List.mem_filter.mp hx).2, fun hok => ?_, fun hbad => ?_⟩
  · dsimp only
    rw [hy]
    exact ⟨hresult.trans (if_pos hok), hrun hok⟩
  · dsimp only
    rw [hy, htrim, hconv, ← elecJudged_failed r m s hbad]
    exact ⟨hresult.trans (if_neg (ne_true_of_eq_false hbad)), rfl, rfl, htotal hbad⟩

end

section
variable {s : State}

theorem elecCalEnd_none {tg : CalTarget} {m : ElecMeas} (h : s.cal.runs.find? (·.target == tg) = none) :
    exec (.elecCalEnd tg m) s = .next s := by
  change execElecCalEnd tg m s = _
  unfold execElecCalEnd
  rw [h]

/-! ## AUTO_ELEC_CAL -/

theorem autoElecCal_begins {tg : CalTarget} (hactive : s.reeveActive = true) (hdev : s.core.dev = .run ∨ s.core.dev = .ready)
    (hdue : s.autoDue tg = true) (hfree : s.elecRefusal tg = none) : ∃ g, exec (.autoElecCal tg) s =
      .next (s.modCal fun c => { c with runs := c.runs ++ [{ target := tg, gain := g, left := none }] }) := by
  have hon : (s.core.dev == .run || s.core.dev == .ready) = true := by
    obtain h | h := hdev <;> rw [h] <;> rfl
  refine ⟨if targetIsPort tg || tg == .ref then 0 else 0xFF, congrArg Host.Outcome.next (if_pos ?_)⟩
  rw [hactive, hon, hdue, hfree]
  rfl

theorem autoElecCal_idle {tg : CalTarget} (h : s.autoDue tg = false) : exec (.autoElecCal tg) s = .next s := by
  refine congrArg Host.Outcome.next (if_neg ?_)
  rw [h, Bool.and_false, Bool.false_and]
  exact Bool.false_ne_true

/-! ## PERIODIC_SELF_TEST -/

/-- A self-test's outcome on record. -/
def selfTested (k : SelfTest) (bad : Bool) (s : State) : State :=
  s.modCal fun c => { c with selfAge := c.selfAge.set (selfNo k) 0, selfFail := c.selfFail.set (selfNo k) bad }

theorem selfTested_recorded (k : SelfTest) (bad : Bool) (s : State) :
    (selfTested k bad s).cal.selfFail[selfNo k]'(selfNo k).isLt = bad ∧
      (selfTested k bad s).cal.selfAge[selfNo k]'(selfNo k).isLt = 0 :=
  ⟨Vector.getElem_set_self .., Vector.getElem_set_self ..⟩

theorem selfDue_runs {k : SelfTest} (h : s.selfDue k = true) : s.core.reeveRuns = true := by
  simp only [State.selfDue, State.reeveActive, Bool.and_eq_true] at h
  tauto

/-- What a due self-test leaves: its outcome, and its source at the second failure in a row. -/
theorem selfTest_leaves {k : SelfTest} {n : Source} (hn : n.val < 55) (hdue : s.selfDue k = true) (bad : Bool) (t : State)
    (ht : t = if bad && s.cal.selfFail[selfNo k]'(selfNo k).isLt then raise n (selfTested k bad s) else selfTested k bad s) :
    t.cal.selfFail[selfNo k]'(selfNo k).isLt = bad ∧ t.cal.selfAge[selfNo k]'(selfNo k).isLt = 0 ∧
      (bad = true → s.cal.selfFail[selfNo k]'(selfNo k).isLt = true → (t.faults.src[n]'n.isLt).det = true) ∧
      (s.cal.selfFail[selfNo k]'(selfNo k).isLt = false → t.faults = s.faults) := by
  obtain ⟨hfail, hage⟩ := selfTested_recorded k bad s
  have hcal : t.cal = (selfTested k bad s).cal := by
    rw [ht]
    split
    · exact raise_cal ..
    · rfl
  rw [hcal]
  refine ⟨hfail, hage, fun hbad hagain => ?_, fun hfirst => ?_⟩
  · rw [ht, hbad, hagain]
    exact raise_det hn (s := selfTested k true s) (selfDue_runs hdue : s.core.reeveRuns = true)
  · rw [ht, hfirst, Bool.and_false]
    rfl

theorem selfTest_reference (ppm wide : Int) (hdue : s.selfDue .reference = true) :
    ∃ t, exec (.periodicSelfTest .reference (ppm, wide)) s = .next t ∧
      t.cal.selfFail[(0 : Fin 2)]'(0 : Fin 2).isLt = decide (2000 < ppm.natAbs) ∧
      t.cal.selfAge[(0 : Fin 2)]'(0 : Fin 2).isLt = 0 ∧
      (2000 < ppm.natAbs → s.cal.selfFail[(0 : Fin 2)]'(0 : Fin 2).isLt = true →
        (t.faults.src[(46 : Source)]'(46 : Source).isLt).det = true) ∧
      (s.cal.selfFail[(0 : Fin 2)]'(0 : Fin 2).isLt = false → t.faults = s.faults) := by
  obtain ⟨hfail, hage, hdet, hfaults⟩ := selfTest_leaves (k := .reference) (n := 46) (by decide) hdue
    (decide (2000 < ppm.natAbs)) _ rfl
  exact ⟨_, congrArg Host.Outcome.next (if_pos hdue), hfail, hage, fun hbad => hdet (decide_eq_true hbad), hfaults⟩

theorem selfTest_chargeStandard (ppm wide : Int) (hdue : s.selfDue .chargeStandard = true) :
    ∃ t, exec (.periodicSelfTest .chargeStandard (ppm, wide)) s = .next t ∧
      t.cal.selfFail[(1 : Fin 2)]'(1 : Fin 2).isLt = decide (5000 < ppm.natAbs ∨ 5000 < wide.natAbs) ∧
      t.cal.selfAge[(1 : Fin 2)]'(1 : Fin 2).isLt = 0 ∧
      ((5000 < ppm.natAbs ∨ 5000 < wide.natAbs) → s.cal.selfFail[(1 : Fin 2)]'(1 : Fin 2).isLt = true →
        (t.faults.src[(47 : Source)]'(47 : Source).isLt).det = true) ∧
      (s.cal.selfFail[(1 : Fin 2)]'(1 : Fin 2).isLt = false → t.faults = s.faults) := by
  obtain ⟨hfail, hage, hdet, hfaults⟩ := selfTest_leaves (k := .chargeStandard) (n := 47) (by decide) hdue
    (decide (5000 < ppm.natAbs ∨ 5000 < wide.natAbs)) _ rfl
  exact ⟨_, congrArg Host.Outcome.next (if_pos hdue), hfail, hage, fun hbad => hdet (decide_eq_true hbad), hfaults⟩

theorem selfTest_idle (k : SelfTest) (ppm : Int × Int) (h : s.selfDue k = false) :
    exec (.periodicSelfTest k ppm) s = .next s :=
  congrArg Host.Outcome.next (if_neg (ne_true_of_eq_false h))

/-! ## ELECTRICAL_COEFFICIENT_STORE -/

theorem elecStore_completes (hactive : s.reeveActive = true) (hwrites : s.nvmAllowed = true) :
    (8640000 ≤ s.cal.sinceStore → s.elecSet ≠ s.cal.stored.getD ElecSet.factory →
      exec .electricalCoefficientStore s =
        .next (s.modCal fun c => { c with stored := some s.elecSet, sinceStore := 0 })) ∧
    (s.cal.sinceStore < 8640000 → exec .electricalCoefficientStore s = .next s) := by
  refine ⟨fun hday hdiffers => congrArg Host.Outcome.next (if_pos ?_), fun hearly => congrArg Host.Outcome.next (if_neg ?_)⟩
  · rw [hactive, hwrites, decide_eq_true hday, bne_iff_ne.mpr hdiffers]
    rfl
  · rw [decide_eq_false (not_le.mpr hearly), Bool.and_false, Bool.false_and]
    exact Bool.false_ne_true

end

/-- Settles O48: each event where it is due, by what it leaves of the calibration state, and where it is not. -/
theorem calEvents : Obligations.CalEvents := by
  intro s
  refine ⟨fun p x a hx ha hactive htick hgone => calStepEnd_completes hx ha hactive htick hgone,
    fun p x hx hover => calHoldLimit_ends hx hover, fun p x hx hearly => calHoldLimit_early hx hearly,
    fun tg m r hfind hleft htick hactive => elecCalEnd_completes hfind hleft htick hactive,
    fun tg m h => elecCalEnd_none h, fun tg hactive hdev hdue hfree => autoElecCal_begins hactive hdev hdue hfree,
    fun tg h => autoElecCal_idle h, selfTest_reference, selfTest_chargeStandard, selfTest_idle, elecStore_completes⟩

end Sys2Proof.Machine
end

section
-- One declaration after another: the whole text is compiled as one file, within a limit on memory.
set_option Elab.async false
/-!
Whether a boundary is still to be taken: nothing that FRAME_BOUNDARY brings about makes another (R29).
-/

namespace Sys2Proof.Machine

/-! ### Compositions -/

@[simp] theorem foldl_bound {α : Type} (F : State → α → State) (l : List α) (s : State)
    (h : ∀ s x, (F s x).frame.boundary = s.frame.boundary) : (l.foldl F s).frame.boundary = s.frame.boundary := by
  induction l generalizing s with
  | nil => rfl
  | cons x l ih => exact (ih _).trans (h s x)

@[simp] theorem eachPort_bound (F : PortId → State → State) (s : State)
    (h : ∀ p s, (F p s).frame.boundary = s.frame.boundary) : (eachPort F s).frame.boundary = s.frame.boundary :=
  foldl_bound _ _ _ fun s p => h p s

@[simp] theorem overInputs_bound (F : PortId → Fin 2 → State → State) (s : State)
    (h : ∀ p i s, (F p i s).frame.boundary = s.frame.boundary) :
    (overInputs F s).frame.boundary = s.frame.boundary := by
  unfold overInputs
  exact foldl_bound _ _ _ fun s x => h x.1 x.2 s

@[simp] theorem ite_bound {p : Prop} [Decidable p] (s t : State) :
    (if p then s else t).frame.boundary = if p then s.frame.boundary else t.frame.boundary := by split <;> rfl

@[simp] theorem badArg_bound (n : SlotId) (d : Nat) (s : State) :
    (badArg n d s).frame.boundary = s.frame.boundary := by simp [badArg]

@[simp] theorem loadDomain_bound (d : Dom) (v : Nat) (atEdge : Bool) (s : State) :
    (loadDomain d v atEdge s).frame.boundary = s.frame.boundary := by
  unfold loadDomain
  dsimp only
  rw [notice_frame]
  cases d <;> rfl

@[simp] theorem applyTimeSet_bound (x : Pend) (s : State) :
    (applyTimeSet x s).frame.boundary = s.frame.boundary := by
  unfold applyTimeSet
  dsimp only
  split <;> simp

@[simp] theorem applyGauzeCap_bound (p : List Byte) (s : State) :
    (applyGauzeCap p s).frame.boundary = s.frame.boundary := by simp [applyGauzeCap]

@[simp] theorem closeRun_bound (p : PortId) (s : State) :
    (closeRun p s).frame.boundary = s.frame.boundary := by rw [(closeRun_stops ..).rest]

@[simp] theorem completeWhere_bound (p : Pend → Bool) (st : Status) (s : State) :
    (completeWhere p st s).frame.boundary = s.frame.boundary := by rw [(completeWhere_tells ..).rest]

@[simp] theorem beginGauze_bound (p : PortId) (s : State) :
    (beginGauze p s).frame.boundary = s.frame.boundary := by simp [beginGauze]

@[simp] theorem orRefuse_bound (n : SlotId) (r : Option (Status × Nat)) (k : State → State) (s : State)
    (h : ∀ s, (k s).frame.boundary = s.frame.boundary) : (orRefuse n r k s).frame.boundary = s.frame.boundary := by
  unfold orRefuse
  split
  · simp
  · exact h s

@[simp] theorem newStart_bound (p : PortId) (s : State) :
    (newStart p s).frame.boundary = s.frame.boundary := by simp [newStart]

@[simp] theorem startProfile_bound (p : PortId) (s : State) :
    (startProfile p s).frame.boundary = s.frame.boundary := by
  unfold startProfile
  split <;> simp

@[simp] theorem stopProfile_bound (p : PortId) (s : State) :
    (stopProfile p s).frame.boundary = s.frame.boundary := by rw [(stopProfile_stops ..).rest]

@[simp] theorem resetLane_bound (kind : ResetKind) (l : LaneId) (s : State) :
    (resetLane kind l s).frame.boundary = s.frame.boundary := by simp [resetLane]

@[simp] theorem resetLanes_bound (kind : ResetKind) (ls : List LaneId) (s : State) :
    (resetLanes kind ls s).frame.boundary = s.frame.boundary := by simp [resetLanes]

@[simp] theorem queueSwatches_bound (c : Conv) (s : State) :
    (queueSwatches c s).frame.boundary = s.frame.boundary := by simp [queueSwatches]

@[simp] theorem startWarp_bound (s : State) : (startWarp s).frame.boundary = s.frame.boundary := by simp [startWarp]

@[simp] theorem startWeft_bound (s : State) : (startWeft s).frame.boundary = s.frame.boundary := by
  simp [startWeft, reassignUrgent, dropOne]

@[simp] theorem startConverters_bound (s : State) :
    (startConverters s).frame.boundary = s.frame.boundary := by simp [startConverters, startTests]

@[simp] theorem enterMode_bound (s : State) : (enterMode s).frame.boundary = s.frame.boundary := by simp [enterMode]

@[simp] theorem applyWeaveSet_bound (n : SlotId) (p : List Byte) (s : State) :
    (applyWeaveSet n p s).frame.boundary = s.frame.boundary := by
  unfold applyWeaveSet
  dsimp only
  split <;> simp

@[simp] theorem thenOk_bound (f : List Byte → State → State) (n : SlotId) (p : List Byte) (s : State)
    (h : ∀ p s, (f p s).frame.boundary = s.frame.boundary) : (thenOk f n p s).frame.boundary = s.frame.boundary := by
  simp [thenOk, h]

@[simp] theorem ifStill_bound (fault : List Byte → State → Option Nat) (f : List Byte → State → State) (n : SlotId)
    (p : List Byte) (s : State) (h : ∀ p s, (f p s).frame.boundary = s.frame.boundary) :
    (ifStill fault f n p s).frame.boundary = s.frame.boundary := by
  simp [ifStill, h]

@[simp] theorem applyTables_bound (x : Tables) (s : State) :
    (applyTables x s).frame.boundary = s.frame.boundary := by simp [applyTables]

@[simp] theorem applySeqLoad_bound (p : List Byte) (s : State) :
    (applySeqLoad p s).frame.boundary = s.frame.boundary := by simp [applySeqLoad]

@[simp] theorem applySeqLoadAt_bound (n : SlotId) (p : List Byte) (s : State) :
    (applySeqLoadAt n p s).frame.boundary = s.frame.boundary := by simp [applySeqLoadAt]

@[simp] theorem chainDue_bound (op : W16) (n : SlotId) (p : List Byte) (s : State) :
    (chainDue op n p s).frame.boundary = s.frame.boundary := by
  simp [chainDue, applyGauzeStart, applyGauzeStop, applyHeatStart, applyHeatStop, applySeqMode, applyMode,
    applySeqStart, applyWeaveSetAt]

@[simp] theorem dropSession_bound (p : PortId) (s : State) :
    (dropSession p s).frame.boundary = s.frame.boundary := by rw [(dropSession_stops ..).rest]

@[simp] theorem endSession_bound (p : PortId) (cause : Nat) (s : State) :
    (endSession p cause s).frame.boundary = s.frame.boundary := by rw [(endSession_stops ..).rest]

@[simp] theorem boxRecord_bound (type : Byte) (args : W64) (s : State) :
    (boxRecord type args s).frame.boundary = s.frame.boundary := by rw [(boxRecord_records ..).rest]

@[simp] theorem commitRefs_bound (k : PortId) (begun : W64) (s : State) :
    (commitRefs k begun s).frame.boundary = s.frame.boundary := by simp [commitRefs]

@[simp] theorem storeRecord_bound (k : PortId) (code : Nat) (l : List (Nat × F32)) (s : State) :
    (storeRecord k code l s).1.frame.boundary = s.frame.boundary := by
  unfold storeRecord
  split
  · simp
  · split <;> simp

@[simp] theorem applyCalCommit_bound (n : SlotId) (p : List Byte) (s : State) :
    (applyCalCommit n p s).frame.boundary = s.frame.boundary := by
  unfold applyCalCommit
  dsimp only
  split <;> simp

@[simp] theorem applyGasChannel_bound (p : List Byte) (s : State) :
    (applyGasChannel p s).frame.boundary = s.frame.boundary := by simp [applyGasChannel]

@[simp] theorem applyGasMatrix_bound (o : List Byte) (s : State) :
    (applyGasMatrix o s).frame.boundary = s.frame.boundary := by simp [applyGasMatrix]

@[simp] theorem deferralNotice_bound (p : PortId) (kind cause : Nat) (s : State) :
    (deferralNotice p kind cause s).frame.boundary = s.frame.boundary := by simp [deferralNotice]

@[simp] theorem portDeferrals_bound (l : List (Item × Nat × Bool)) (p : PortId) (s : State) :
    (portDeferrals l p s).frame.boundary = s.frame.boundary := by
  unfold portDeferrals
  split <;> simp

@[simp] theorem freeze_bound (ended : Bool) (pv s : State) :
    (freeze ended pv s).frame.boundary = s.frame.boundary := by simp [freeze, keepRanges, reserveFrame]

@[simp] theorem applyGasModelAt_bound (n : SlotId) (p : List Byte) (s : State) :
    (applyGasModelAt n p s).frame.boundary = s.frame.boundary := by
  unfold applyGasModelAt applyGasModel
  split
  · next h => split at h <;> cases h; simp [setModel]
  · simp

@[simp] theorem applyPattern_bound (p : List Byte) (s : State) :
    (applyPattern p s).frame.boundary = s.frame.boundary := by
  unfold applyPattern
  rw [State.modFrame_frame]
  dsimp only
  split <;> rfl

@[simp] theorem applyPolder_bound (p : List Byte) (s : State) :
    (applyPolder p s).frame.boundary = s.frame.boundary := by simp [applyPolder]

@[simp] theorem applySelect_bound (p : List Byte) (s : State) :
    (applySelect p s).frame.boundary = s.frame.boundary := rfl

@[simp] theorem stepFirst_bound (d : Dom) (s : State) :
    (stepFirst d s).frame.boundary = s.frame.boundary := by
  unfold stepFirst
  split <;> simp

@[simp] theorem applyCalAbort_bound (n : SlotId) (p : List Byte) (s : State) :
    (applyCalAbort n p s).frame.boundary = s.frame.boundary := by simp [applyCalAbort]

@[simp] theorem applyCalRange_bound (n : SlotId) (p : List Byte) (s : State) :
    (applyCalRange n p s).frame.boundary = s.frame.boundary := by simp [applyCalRange]

@[simp] theorem leveeNotice_bound (k : Fin 48) (x : Levee) (ev : Nat) (above : Bool) (v : Int) (fl : W16) (s : State) :
    (leveeNotice k x ev above v fl s).frame.boundary = s.frame.boundary := by simp [leveeNotice]

@[simp] theorem applyLevee_bound (k : Fin 48) (r : List Byte) (s : State) :
    (applyLevee k r s).frame.boundary = s.frame.boundary := by simp [applyLevee]

@[simp] theorem applyLeveeSet_bound (p : List Byte) (s : State) :
    (applyLeveeSet p s).frame.boundary = s.frame.boundary := by simp [applyLeveeSet]

@[simp] theorem applyTimeSelect_bound (d : Dom) (s : State) :
    (applyTimeSelect d s).frame.boundary = s.frame.boundary := by simp [applyTimeSelect]

@[simp] theorem engineDue_bound (op : W16) (n : SlotId) (p : List Byte) (s : State) :
    (engineDue op n p s).frame.boundary = s.frame.boundary := by
  simp [engineDue, thenOk_bound _ _ _ _ applySelect_bound]

@[simp] theorem applyPortAux_bound (p : List Byte) (s : State) :
    (applyPortAux p s).frame.boundary = s.frame.boundary := by simp [applyPortAux]

@[simp] theorem applyPortBias_bound (p : List Byte) (s : State) :
    (applyPortBias p s).frame.boundary = s.frame.boundary := by simp [applyPortBias]

@[simp] theorem applyPortLayer_bound (p : List Byte) (s : State) :
    (applyPortLayer p s).frame.boundary = s.frame.boundary := by simp [applyPortLayer]

@[simp] theorem applyGrant_bound (p : List Byte) (s : State) :
    (applyGrant p s).frame.boundary = s.frame.boundary := by simp [applyGrant]

@[simp] theorem applyRingWater_bound (p : List Byte) (s : State) :
    (applyRingWater p s).frame.boundary = s.frame.boundary := by simp [applyRingWater]

@[simp] theorem applySyncResponse_bound (p : List Byte) (s : State) :
    (applySyncResponse p s).frame.boundary = s.frame.boundary := by simp [applySyncResponse]

@[simp] theorem modeDefaults_bound (p : List Byte) (s : State) :
    (modeDefaults p s).frame.boundary = s.frame.boundary := by simp [modeDefaults]

@[simp] theorem applyPortRange_bound (p : List Byte) (s : State) :
    (applyPortRange p s).frame.boundary = s.frame.boundary := by simp [applyPortRange]

@[simp] theorem applyPortRing_bound (p : List Byte) (s : State) :
    (applyPortRing p s).frame.boundary = s.frame.boundary := by simp [applyPortRing]

@[simp] theorem applyPortSettle_bound (p : List Byte) (s : State) :
    (applyPortSettle p s).frame.boundary = s.frame.boundary := by simp [applyPortSettle]

@[simp] theorem skipGauze_bound (p : PortId) (cause : Nat) (s : State) :
    (skipGauze p cause s).frame.boundary = s.frame.boundary := by simp [skipGauze]

@[simp] theorem tryGauze_bound (p : PortId) (s : State) :
    (tryGauze p s).frame.boundary = s.frame.boundary := by
  unfold tryGauze
  split <;> simp

@[simp] theorem gauzePortStart_bound (p : PortId) (s : State) :
    (gauzePortStart p s).frame.boundary = s.frame.boundary := by simp [gauzePortStart]

@[simp] theorem heatPortStart_bound (p : PortId) (s : State) :
    (heatPortStart p s).frame.boundary = s.frame.boundary := by
  unfold heatPortStart
  dsimp only
  split <;> simp

@[simp] theorem startPort_bound (p : PortId) (s : State) :
    (startPort p s).frame.boundary = s.frame.boundary := by simp [startPort]

@[simp] theorem endGauze_bound (p : PortId) (s : State) :
    (endGauze p s).frame.boundary = s.frame.boundary := by rw [(endGauze_stops ..).rest]

@[simp] theorem endElec_bound (t : CalTarget) (s : State) :
    (endElec t s).frame.boundary = s.frame.boundary := by rw [(endElec_stops ..).rest]

@[simp] theorem portLeaves_bound (p : PortId) (s : State) :
    (portLeaves p s).frame.boundary = s.frame.boundary := by rw [(portLeaves_stops ..).rest]

@[simp] theorem dropPort_bound (p : PortId) (st : PortState) (s : State) :
    (dropPort p st s).frame.boundary = s.frame.boundary := by rw [(dropPort_stops ..).rest]

@[simp] theorem stopPort_bound (p : PortId) (s : State) :
    (stopPort p s).frame.boundary = s.frame.boundary := by simp [stopPort]

@[simp] theorem applyPortStop_bound (n : SlotId) (p : List Byte) (s : State) :
    (applyPortStop n p s).frame.boundary = s.frame.boundary := by simp [applyPortStop]

@[simp] theorem applyPortWindow_bound (p : List Byte) (s : State) :
    (applyPortWindow p s).frame.boundary = s.frame.boundary := by simp [applyPortWindow]

@[simp] theorem calLeaves_bound (s : State) :
    (calLeaves s).frame.boundary = s.frame.boundary := by rw [(calLeaves_stops ..).rest]

@[simp] theorem dropUrgent_bound (s : State) :
    (dropUrgent s).frame.boundary = s.frame.boundary := by rw [(dropUrgent_stops ..).rest]

@[simp] theorem elecLeaves_bound (s : State) :
    (elecLeaves s).frame.boundary = s.frame.boundary := by rw [(elecLeaves_stops ..).rest]

@[simp] theorem endMeasuring_bound (s : State) :
    (endMeasuring s).frame.boundary = s.frame.boundary := by rw [(endMeasuring_stops ..).rest]

@[simp] theorem enterDev_bound (d : Dev) (s : State) :
    (enterDev d s).frame.boundary = s.frame.boundary := by rw [(enterDev_stops ..).rest]

@[simp] theorem skipAction_bound (k : Fin 16) (reason : Nat) (s : State) :
    (skipAction k reason s).frame.boundary = s.frame.boundary := by simp [skipAction]

@[simp] theorem finishStop_bound (s : State) :
    (finishStop s).frame.boundary = s.frame.boundary := by rw [(finishStop_stops ..).rest]

@[simp] theorem beginStop_bound (toHeld : Bool) (s : State) :
    (beginStop toHeld s).frame.boundary = s.frame.boundary := by simp [beginStop]

@[simp] theorem waitFor_bound (n : SlotId) (w : Wait) (s : State) :
    (waitFor n w s).frame.boundary = s.frame.boundary := by simp [waitFor]

@[simp] theorem loadElec_bound (x : ElecSet) (s : State) :
    (loadElec x s).frame.boundary = s.frame.boundary := by simp [loadElec]

@[simp] theorem readNvm_bound (off len : Nat) (s : State) :
    (readNvm off len s).frame.boundary = s.frame.boundary := by simp [readNvm, readWords, raiseInjected]

@[simp] theorem elecBegin_bound (t : CalTarget) (s : State) :
    (elecBegin t s).frame.boundary = s.frame.boundary := by
  unfold elecBegin
  split <;> simp

@[simp] theorem applyRank_bound (p : List Byte) (s : State) :
    (applyRank p s).frame.boundary = s.frame.boundary := by simp [applyRank]

@[simp] theorem applyGrantOp_bound (op : W16) (p : List Byte) (s : State) :
    (applyGrantOp op p s).frame.boundary = s.frame.boundary := by
  unfold applyGrantOp
  split <;> simp

@[simp] theorem triggerGauze_bound (k : Fin 16) (p : PortId) (s : State) :
    (triggerGauze k p s).frame.boundary = s.frame.boundary := by
  unfold triggerGauze
  split
  · split <;> simp
  · simp

@[simp] theorem countCut_bound (p : PortId) (s : State) :
    (countCut p s).frame.boundary = s.frame.boundary := by simp [countCut]

@[simp] theorem drive_bound (p : PortId) (s : State) :
    (drive p s).frame.boundary = s.frame.boundary := by simp [drive]

@[simp] theorem beginDue_bound (p : PortId) (s : State) :
    (beginDue p s).frame.boundary = s.frame.boundary := by
  unfold beginDue
  dsimp only
  split <;> simp

@[simp] theorem resetAllLanes_bound (kind : ResetKind) (s : State) :
    (resetAllLanes kind s).frame.boundary = s.frame.boundary := by simp [resetAllLanes]

@[simp] theorem startOrWait_bound (s : State) :
    (startOrWait s).frame.boundary = s.frame.boundary := by simp [startOrWait]

@[simp] theorem ageFrames_bound (s : State) : (ageFrames s).frame.boundary = s.frame.boundary := by
  simp [ageFrames, weftCycle]

@[simp] theorem ledgerBoundary_bound (s : State) : (ledgerBoundary s).frame.boundary = s.frame.boundary := by
  unfold ledgerBoundary
  extract_lets d run grows s tell u
  have hs : s.frame.boundary = _ := rfl
  split
  · split
    · exact (congrArg Frame.boundary (notice_frame ..)).trans hs
    · exact hs
  · exact hs

@[simp] theorem vddNotices_bound (s : State) :
    (vddNotices s).frame.boundary = s.frame.boundary := by simp [vddNotices]

@[simp] theorem firstStep_bound (p : PortId) (s : State) :
    (firstStep p s).frame.boundary = s.frame.boundary := by simp [firstStep]

@[simp] theorem effectAtFrame_bound (w : Wait) (n : W32) (s : State) :
    (effectAtFrame w n s).frame.boundary = s.frame.boundary := by simp [effectAtFrame]

@[simp] theorem setTherm_bound (new : Fin 5) (cause : Nat) (s : State) :
    (setTherm new cause s).frame.boundary = s.frame.boundary := by simp [setTherm]

@[simp] theorem thermUpdate_bound (cause : Nat) (s : State) :
    (thermUpdate cause s).frame.boundary = s.frame.boundary := by simp [thermUpdate]

@[simp] theorem ackAtFreeze_bound (n : W32) (s : State) :
    (ackAtFreeze n s).2.frame.boundary = s.frame.boundary := by simp [ackAtFreeze]

@[simp] theorem grantsAtFreeze_bound (n : W32) (s : State) :
    (grantsAtFreeze n s).frame.boundary = s.frame.boundary := by simp [grantsAtFreeze, grantQueued]

theorem planFor_bound (ended : Bool) (pv : State) {s bare : State} (h : s.frame.boundary = bare.frame.boundary) :
    (planFor ended pv s bare).frame.boundary = bare.frame.boundary := by
  unfold planFor
  split
  · exact (freeze_bound ..).trans h
  · rfl

@[simp] theorem gasBoundary_bound (ran : Bool) (s : State) :
    (gasBoundary ran s).frame.boundary = s.frame.boundary := by simp [gasBoundary]

@[simp] theorem changeRange_bound (p : PortId) (i : Fin 2) (r : Fin 8) (s : State) :
    (changeRange p i r s).frame.boundary = s.frame.boundary := by simp [changeRange, gauzeDiscard, gauzeDiscardFor]

@[simp] theorem openInput_bound (p : PortId) (i : Fin 2) (w : Win) (s : State) :
    (openInput p i w s).frame.boundary = s.frame.boundary := by simp [openInput, takeStep, ceilingNotice]

@[simp] theorem openWindows_bound (s : State) : (openWindows s).frame.boundary = s.frame.boundary := by
  unfold openWindows
  split
  · refine overInputs_bound _ _ fun p i s => ?_
    split
    · split <;> simp
    · rfl
  · rfl

@[simp] theorem startTraining_bound (s : State) :
    (startTraining s).frame.boundary = s.frame.boundary := by simp [startTraining]

@[simp] theorem countSilent_bound (s : State) :
    (countSilent s).frame.boundary = s.frame.boundary := by simp [countSilent]

@[simp] theorem unguardedNotice_bound (kind mask : Nat) (s : State) :
    (unguardedNotice kind mask s).frame.boundary = s.frame.boundary := by simp [unguardedNotice]

@[simp] theorem setUnguarded_bound (mask : BitVec 16) (s : State) :
    (setUnguarded mask s).frame.boundary = s.frame.boundary := by simp [setUnguarded]

@[simp] theorem takeRanges_bound (s : State) :
    (takeRanges s).frame.boundary = s.frame.boundary := by simp [takeRanges]

@[simp] theorem withholdGauze_bound (s : State) :
    (withholdGauze s).frame.boundary = s.frame.boundary := by simp [withholdGauze]

@[simp] theorem takePlan_bound (s : State) :
    (takePlan s).frame.boundary = s.frame.boundary := by
  unfold takePlan
  dsimp only
  split
  · simp
  · split <;> simp

@[simp] theorem tempsBoundary_bound (s : State) :
    (tempsBoundary s).frame.boundary = s.frame.boundary := by simp [tempsBoundary]

/-! ### The commands a bolt holds -/

@[simp] theorem onSlot_bound (n : SlotId) (op : Nat) (f : List Byte → State → State) (s : State)
    (h : ∀ p s, (f p s).frame.boundary = s.frame.boundary) : (onSlot n op f s).frame.boundary = s.frame.boundary := by
  unfold onSlot
  split
  · exact h ..
  · rfl

@[simp] theorem pendBoundary_bound (n : SlotId) (op : Nat) (p : List Byte) (k : Nat) (s : State) :
    (pendBoundary n op p k s).frame.boundary = s.frame.boundary := by
  simp [pendBoundary]

@[simp] theorem planCommand_bound (n : SlotId) (op : Nat) (f : List Byte → State → State) (p : List Byte) (s : State)
    (h : ∀ p s, (f p s).frame.boundary = s.frame.boundary) :
    (planCommand n op f p s).frame.boundary = s.frame.boundary := by
  simp [planCommand, h]

@[simp] theorem unlessRunning_bound (n : SlotId) (op : Nat) (f : List Byte → State → State) (p : List Byte) (s : State)
    (h : ∀ p s, (f p s).frame.boundary = s.frame.boundary) :
    (unlessRunning n op f p s).frame.boundary = s.frame.boundary := by
  simp [unlessRunning, h]

@[simp] theorem grantCommand_bound (op : W16) (n : SlotId) (p : List Byte) (s : State) :
    (grantCommand op n p s).frame.boundary = s.frame.boundary := by
  unfold grantCommand pendGrant
  simp

theorem execPortBias_bound (n : SlotId) (s : State) :
    (afterOutcome s (execPortBias n s)).frame.boundary = s.frame.boundary := by
  unfold execPortBias afterOutcome
  refine onSlot_bound _ _ _ _ fun p s => ?_
  split
  · simp
  · simp [applyPortBias]

theorem execPortRange_bound (n : SlotId) (s : State) :
    (afterOutcome s (execPortRange n s)).frame.boundary = s.frame.boundary := by
  unfold execPortRange afterOutcome
  refine onSlot_bound _ _ _ _ fun p s => ?_
  exact orRefuse_bound _ _ _ _ fun s => planCommand_bound _ _ _ _ _ applyPortRange_bound

theorem execPortWindow_bound (n : SlotId) (s : State) :
    (afterOutcome s (execPortWindow n s)).frame.boundary = s.frame.boundary := by
  unfold execPortWindow afterOutcome
  refine onSlot_bound _ _ _ _ fun p s => ?_
  exact orRefuse_bound _ _ _ _ fun s => planCommand_bound _ _ _ _ _ applyPortWindow_bound

theorem execPortSettle_bound (n : SlotId) (s : State) :
    (afterOutcome s (execPortSettle n s)).frame.boundary = s.frame.boundary := by
  unfold execPortSettle afterOutcome
  refine onSlot_bound _ _ _ _ fun p s => ?_
  simp [applyPortSettle]

theorem execPortAux_bound (n : SlotId) (s : State) :
    (afterOutcome s (execPortAux n s)).frame.boundary = s.frame.boundary := by
  unfold execPortAux afterOutcome
  refine onSlot_bound _ _ _ _ fun p s => ?_
  split
  · simp
  · exact unlessRunning_bound _ _ _ _ _ applyPortAux_bound

theorem execPortRing_bound (n : SlotId) (s : State) :
    (afterOutcome s (execPortRing n s)).frame.boundary = s.frame.boundary := by
  unfold execPortRing afterOutcome
  refine onSlot_bound _ _ _ _ fun p s => ?_
  split
  · simp
  · exact unlessRunning_bound _ _ _ _ _ applyPortRing_bound

theorem execPortLayer_bound (n : SlotId) (s : State) :
    (afterOutcome s (execPortLayer n s)).frame.boundary = s.frame.boundary := by
  unfold execPortLayer afterOutcome
  refine onSlot_bound _ _ _ _ fun p s => ?_
  split
  · simp
  · exact unlessRunning_bound _ _ _ _ _ applyPortLayer_bound

theorem execHeatPlate_bound (n : SlotId) (s : State) :
    (afterOutcome s (execHeatPlate n s)).frame.boundary = s.frame.boundary := by
  unfold execHeatPlate afterOutcome
  refine onSlot_bound _ _ _ _ fun p s => ?_
  simp [applyHeatPlate]

theorem execGauzeCap_bound (n : SlotId) (s : State) :
    (afterOutcome s (execGauzeCap n s)).frame.boundary = s.frame.boundary := by
  unfold execGauzeCap afterOutcome
  refine onSlot_bound _ _ _ _ fun p s => ?_
  split
  · simp
  · simp [applyGauzeCap]

theorem execSeqMode_bound (n : SlotId) (s : State) :
    (afterOutcome s (execSeqMode n s)).frame.boundary = s.frame.boundary := by
  unfold execSeqMode afterOutcome
  refine onSlot_bound _ _ _ _ fun p s => ?_
  simp [applyMode]

theorem execWeaveSet_bound (n : SlotId) (s : State) :
    (afterOutcome s (execWeaveSet n s)).frame.boundary = s.frame.boundary := by
  unfold execWeaveSet afterOutcome
  refine onSlot_bound _ _ _ _ fun p s => ?_
  split
  · simp
  · dsimp only
    split
    · simp
    · split <;> simp

theorem execWeavePhase_bound (n : SlotId) (s : State) :
    (afterOutcome s (execWeavePhase n s)).frame.boundary = s.frame.boundary := by
  unfold execWeavePhase afterOutcome
  refine onSlot_bound _ _ _ _ fun p s => ?_
  simp [applyWeavePhase]

theorem execGasChannel_bound (n : SlotId) (s : State) :
    (afterOutcome s (execGasChannel n s)).frame.boundary = s.frame.boundary := by
  unfold execGasChannel afterOutcome
  refine onSlot_bound _ _ _ _ fun p s => ?_
  simp [applyGasChannel]

theorem execLeveeSet_bound (n : SlotId) (s : State) :
    (afterOutcome s (execLeveeSet n s)).frame.boundary = s.frame.boundary := by
  unfold execLeveeSet afterOutcome
  refine onSlot_bound _ _ _ _ fun p s => ?_
  simp [applyLeveeSet, applyLevee, leveeNotice]

theorem execLedgerRank_bound (n : SlotId) (s : State) :
    (afterOutcome s (execLedgerRank n s)).frame.boundary = s.frame.boundary := by
  unfold execLedgerRank afterOutcome
  refine onSlot_bound _ _ _ _ fun p s => ?_
  simp

theorem execThermPolicy_bound (n : SlotId) (s : State) :
    (afterOutcome s (execThermPolicy n s)).frame.boundary = s.frame.boundary := by
  unfold execThermPolicy afterOutcome
  refine onSlot_bound _ _ _ _ fun p s => ?_
  simp [applyThermPolicy]

theorem execFaultConfig_bound (n : SlotId) (s : State) :
    (afterOutcome s (execFaultConfig n s)).frame.boundary = s.frame.boundary := by
  unfold execFaultConfig afterOutcome
  refine onSlot_bound _ _ _ _ fun p s => ?_
  simp [applyFaultConfig]

theorem execFaultGrace_bound (n : SlotId) (s : State) :
    (afterOutcome s (execFaultGrace n s)).frame.boundary = s.frame.boundary := by
  unfold execFaultGrace afterOutcome
  refine onSlot_bound _ _ _ _ fun p s => ?_
  simp [applyFaultGrace]

@[simp] theorem applyTimeServo_bound (p : List Byte) (s : State) :
    (applyTimeServo p s).frame.boundary = s.frame.boundary := by
  unfold applyTimeServo
  cases domOf (u8 p 0) <;> rfl

theorem execTimeServo_bound (n : SlotId) (s : State) :
    (afterOutcome s (execTimeServo n s)).frame.boundary = s.frame.boundary := by
  unfold execTimeServo afterOutcome
  refine onSlot_bound _ _ _ _ fun p s => ?_
  simp

theorem execTimeTriggerCommand_bound (n : SlotId) (s : State) :
    (afterOutcome s (execTimeTriggerCommand n s)).frame.boundary = s.frame.boundary := by
  unfold execTimeTriggerCommand afterOutcome
  refine onSlot_bound _ _ _ _ fun p s => ?_
  split
  · simp
  · simp [applyTrigger]

theorem execFramePolder_bound (n : SlotId) (s : State) :
    (afterOutcome s (execFramePolder n s)).frame.boundary = s.frame.boundary := by
  unfold execFramePolder afterOutcome
  refine onSlot_bound _ _ _ _ fun p s => ?_
  simp [applyPolder]

theorem boltFixed_bound : ∀ e ∈ boltFixed, ∀ n s, (afterOutcome s (e.2 n s)).frame.boundary = s.frame.boundary := by
  unfold boltFixed
  simp only [List.forall_mem_cons, List.not_mem_nil, false_imp_iff, implies_true, and_true]
  exact ⟨execPortBias_bound, execPortRange_bound, execPortWindow_bound, execPortSettle_bound, execPortAux_bound,
    execPortRing_bound, execPortLayer_bound, execHeatPlate_bound, execGauzeCap_bound, execSeqMode_bound,
    execWeaveSet_bound, execWeavePhase_bound, execGasChannel_bound, execLeveeSet_bound, execLedgerRank_bound,
    execThermPolicy_bound, execFaultConfig_bound, execFaultGrace_bound, execTimeServo_bound,
    execTimeTriggerCommand_bound, execFramePolder_bound⟩

theorem heatProfileDone_bound (n : SlotId) (k : Nat) (o : List Byte) (s : State) :
    (heatProfileDone n k o s).frame.boundary = s.frame.boundary := by
  unfold heatProfileDone
  dsimp only
  split <;> simp [applyProfile]

theorem gauzePlanDone_bound (n : SlotId) (k : Nat) (o : List Byte) (s : State) :
    (gauzePlanDone n k o s).frame.boundary = s.frame.boundary := by
  unfold gauzePlanDone
  dsimp only
  split
  · simp
  · split
    · simp
    · split <;> simp

theorem seqLoadDone_bound (n : SlotId) (k : Nat) (o : List Byte) (s : State) :
    (seqLoadDone n k o s).frame.boundary = s.frame.boundary := by
  unfold seqLoadDone
  split
  · simp
  · dsimp only
    split
    · simp
    · split
      · simp
      · split
        · simp
        · split
          · simp
          · simp

theorem weaveCoefDone_bound (n : SlotId) (k : Nat) (o : List Byte) (s : State) :
    (weaveCoefCmd.done n k o s).frame.boundary = s.frame.boundary := by
  unfold weaveCoefCmd
  dsimp only
  split <;> simp [stageCoef]

theorem gasModelDone_bound (n : SlotId) (k : Nat) (o : List Byte) (s : State) :
    (gasModelDone n k o s).frame.boundary = s.frame.boundary := by
  unfold gasModelDone
  split
  · simp
  · dsimp only
    split
    · simp
    · exact applyGasModelAt_bound ..

theorem gasMatrixDone_bound (n : SlotId) (k : Nat) (o : List Byte) (s : State) :
    (gasMatrixDone n k o s).frame.boundary = s.frame.boundary := by
  unfold gasMatrixDone
  split <;> simp [applyGasMatrix]

theorem boltChunks_bound : ∀ c ∈ boltChunks, ∀ n k o s, (c.done n k o s).frame.boundary = s.frame.boundary := by
  unfold boltChunks
  simp only [List.forall_mem_cons, List.not_mem_nil, false_imp_iff, implies_true, and_true]
  exact ⟨heatProfileDone_bound, gauzePlanDone_bound, seqLoadDone_bound, weaveCoefDone_bound, gasModelDone_bound,
    gasMatrixDone_bound⟩

theorem tryCommand_bound {op : Nat} {p : List Byte} {f : State → State} {s t : State}
    (hf : ∀ s, (f s).frame.boundary = s.frame.boundary) (h : tryCommand op p f s = some t) :
    t.frame.boundary = s.frame.boundary := by
  unfold tryCommand at h
  dsimp only at h
  split at h
  · cases h
    exact hf _
  · cases h

theorem settle_bound {fault : Bool} {f : State → State} {s t : State} (hf : (f s).frame.boundary = s.frame.boundary)
    (h : settle fault f s = some t) : t.frame.boundary = s.frame.boundary := by
  unfold settle at h
  split at h <;> cases h
  exact hf

theorem healthReferences_bound (n : SlotId) (s : State) :
    (afterOutcome s (execGauzeHealthSetReferences n s)).frame.boundary = s.frame.boundary := by
  unfold execGauzeHealthSetReferences afterOutcome
  refine onSlot_bound _ _ _ _ fun p s => ?_
  split
  · split <;> simp
  · rfl

theorem healthSpreads_bound (n : SlotId) (s : State) :
    (afterOutcome s (execGauzeHealthSetSpreads n s)).frame.boundary = s.frame.boundary := by
  unfold execGauzeHealthSetSpreads afterOutcome
  refine onSlot_bound _ _ _ _ fun p s => ?_
  split
  · split <;> simp
  · rfl

theorem specialRecord_bound {op : Nat} {p : List Byte} {s t : State} (h : specialRecord op p s = some t) :
    t.frame.boundary = s.frame.boundary := by
  unfold specialRecord at h
  split at h
  · exact settle_bound (modeDefaults_bound ..) h
  split at h
  · split at h
    · exact tryCommand_bound (healthReferences_bound 0) h
    · split at h
      · exact tryCommand_bound (healthSpreads_bound 0) h
      · cases h
  split at h
  · exact settle_bound (applySyncResponse_bound ..) h
  split at h
  · exact settle_bound (applyGrant_bound ..) h
  split at h
  · exact settle_bound (applyRingWater_bound ..) h
  split at h
  · exact settle_bound rfl h
  split at h
  · exact settle_bound (applyPattern_bound ..) h
  split at h
  · exact settle_bound (applySelect_bound ..) h
  · cases h

theorem applyRecord_bound {op : Nat} {p : List Byte} {s t : State} (h : applyRecord op p s = some t) :
    t.frame.boundary = s.frame.boundary := by
  unfold applyRecord at h
  split at h
  · next c hc =>
    unfold chunkRecord at h
    dsimp only at h
    split at h
    · exact tryCommand_bound (boltChunks_bound c (List.mem_of_find?_eq_some hc) _ _ _) h
    · cases h
  · split at h
    · next e he =>
      split at h
      · exact tryCommand_bound (boltFixed_bound e (List.mem_of_find?_eq_some he) 0) h
      · cases h
    · exact specialRecord_bound h

@[simp] theorem applyRecord_getD_bound (op : Nat) (p : List Byte) (s : State) :
    ((applyRecord op p s).getD s).frame.boundary = s.frame.boundary := by
  cases h : applyRecord op p s with
  | none => rfl
  | some t => exact applyRecord_bound h

/-! ### What happens at a boundary -/

@[simp] theorem applyPortMode_bound (n : SlotId) (p : List Byte) (s : State) :
    (applyPortMode n p s).frame.boundary = s.frame.boundary := by
  unfold applyPortMode
  dsimp only
  split
  · simp [applyRecord_getD_bound]
  · simp

@[simp] theorem portDue_bound (op : W16) (n : SlotId) (p : List Byte) (s : State) :
    (portDue op n p s).frame.boundary = s.frame.boundary := by simp [portDue, applyPortBiasAt, applyPortStart]

@[simp] theorem calBoot_bound (s : State) : (calBoot s).frame.boundary = s.frame.boundary := by
  unfold calBoot
  refine foldl_bound _ _ _ ?_
  intro s p
  split
  · dsimp only
    split <;> simp
  · rfl

@[simp] theorem keepShut_bound (old : Vector Port 16) (s : State) :
    (keepShut old s).frame.boundary = s.frame.boundary := by simp [keepShut]

@[simp] theorem configDefaults_bound (s : State) : (configDefaults s).frame.boundary = s.frame.boundary := by
  unfold configDefaults
  dsimp only
  rw [applyRingWater_bound]
  rfl

theorem applyRecords_bound (rs : List BoltRec) (bad : Option Nat) (s t : State) (h : applyRecords rs bad s = .ok t) :
    t.frame.boundary = s.frame.boundary := by
  induction rs generalizing s with
  | nil =>
    cases bad with
    | none => cases h; rfl
    | some k => cases h
  | cons r rs ih =>
    rw [applyRecords] at h
    split at h
    · next hr => exact (ih _ h).trans (applyRecord_bound hr)
    · cases h

theorem trySlot_bound (k : Bool) (s : State) : (trySlot k s).1.frame.boundary = s.frame.boundary := by
  unfold trySlot
  extract_lets o r rs short
  have hr : r.frame.boundary = s.frame.boundary := readNvm_bound ..
  clear_value r
  split
  · next h =>
    exact (keepShut_bound ..).trans ((applyRecords_bound _ _ _ _ h).trans ((configDefaults_bound _).trans hr))
  · exact (congrArg Frame.boundary (notice_frame ..)).trans ((boxRecord_bound ..).trans hr)

theorem trySlots_bound (l : List Bool) (s : State) : (trySlots l s).1.frame.boundary = s.frame.boundary := by
  induction l generalizing s with
  | nil => rfl
  | cons k l ih =>
    have h := trySlot_bound k s
    rw [trySlots]
    split
    · next e => rwa [e] at h
    · next e =>
      rw [e] at h
      exact (ih _).trans h

@[simp] theorem selectBolt_bound (s : State) : (selectBolt s).1.frame.boundary = s.frame.boundary := by
  unfold selectBolt
  extract_lets u
  have h := trySlots_bound u.bolt.candidates u
  have hu : u.frame.boundary = s.frame.boundary := rfl
  clear_value u
  rw [hu] at h
  split
  · next e =>
    rw [e] at h
    exact h
  · next e =>
    rw [e] at h
    exact (configDefaults_bound _).trans h

@[simp] theorem dozePort_bound (p : PortId) (s : State) :
    (dozePort p s).frame.boundary = s.frame.boundary := by simp [dozePort]

@[simp] theorem enterDoze_bound (s : State) : (enterDoze s).frame.boundary = s.frame.boundary := by simp [enterDoze]

@[simp] theorem applySysDoze_bound (n : SlotId) (s : State) :
    (applySysDoze n s).frame.boundary = s.frame.boundary := by simp [applySysDoze]

@[simp] theorem holdFromReady_bound (s : State) :
    (holdFromReady s).frame.boundary = s.frame.boundary := by simp [holdFromReady]

@[simp] theorem applySysHold_bound (n : SlotId) (s : State) :
    (applySysHold n s).frame.boundary = s.frame.boundary := by simp [applySysHold]

@[simp] theorem applySysRecover_bound (n : SlotId) (s : State) :
    (applySysRecover n s).frame.boundary = s.frame.boundary := by simp [applySysRecover]

@[simp] theorem putInForce_bound (elec : ElecSet) (s : State) :
    (putInForce elec s).1.frame.boundary = s.frame.boundary := by simp [putInForce]

@[simp] theorem applySysRelease_bound (n : SlotId) (s : State) :
    (applySysRelease n s).frame.boundary = s.frame.boundary := by simp [applySysRelease]

@[simp] theorem applySysStop_bound (n : SlotId) (s : State) :
    (applySysStop n s).frame.boundary = s.frame.boundary := by simp [applySysStop]

@[simp] theorem sysDue_bound (op : W16) (n : SlotId) (s : State) :
    (sysDue op n s).frame.boundary = s.frame.boundary := by simp [sysDue]

@[simp] theorem applyDue_bound (x : Pend) (s : State) :
    (applyDue x s).frame.boundary = s.frame.boundary := by
  unfold applyDue
  split <;> simp

@[simp] theorem applyRankDue_bound (r : Nat) (s : State) :
    (applyRankDue r s).frame.boundary = s.frame.boundary := by simp [applyRankDue]

@[simp] theorem countPend_bound (s : State) : (countPend s).frame.boundary = s.frame.boundary := by simp [countPend]

@[simp] theorem elecBoundary_bound (s : State) :
    (elecBoundary s).frame.boundary = s.frame.boundary := by simp [elecBoundary]

@[simp] theorem endHolds_bound (s : State) : (endHolds s).frame.boundary = s.frame.boundary := by simp [endHolds]

@[simp] theorem gauzeCount_bound (p : PortId) (s : State) :
    (gauzeCount p s).frame.boundary = s.frame.boundary := by simp [gauzeCount]

@[simp] theorem grantsOutsideRun_bound (s : State) :
    (grantsOutsideRun s).frame.boundary = s.frame.boundary := by simp [grantsOutsideRun]

@[simp] theorem heatBoundary_bound (p : PortId) (s : State) :
    (heatBoundary p s).frame.boundary = s.frame.boundary := by simp [heatBoundary]

@[simp] theorem startNow_bound (p : PortId) (s : State) :
    (startNow p s).frame.boundary = s.frame.boundary := by simp [startNow]

@[simp] theorem triggerHeat_bound (k : Fin 16) (p : PortId) (s : State) :
    (triggerHeat k p s).frame.boundary = s.frame.boundary := by simp [triggerHeat]

@[simp] theorem triggerSeq_bound (k : Fin 16) (s : State) :
    (triggerSeq k s).frame.boundary = s.frame.boundary := by simp [triggerSeq]

@[simp] theorem triggerAction_bound (k : Fin 16) (t : Trigger) (s : State) :
    (triggerAction k t s).frame.boundary = s.frame.boundary := by simp [triggerAction]

@[simp] theorem owedActions_bound (s : State) :
    (owedActions s).frame.boundary = s.frame.boundary := by simp [owedActions]

@[simp] theorem resumeWake_bound (s : State) :
    (resumeWake s).frame.boundary = s.frame.boundary := by simp [resumeWake]

@[simp] theorem leveesEnter_bound (s : State) :
    (leveesEnter s).frame.boundary = s.frame.boundary := by simp [leveesEnter]

@[simp] theorem autoEntry_bound (s : State) : (autoEntry s).frame.boundary = s.frame.boundary := by simp [autoEntry]

@[simp] theorem enterRun_bound (s : State) : (enterRun s).frame.boundary = s.frame.boundary := by simp [enterRun]

@[simp] theorem startsDue_bound (s : State) : (startsDue s).frame.boundary = s.frame.boundary := by simp [startsDue]

@[simp] theorem boundaryMoves_bound (s : State) :
    (boundaryMoves s).frame.boundary = s.frame.boundary := by simp [boundaryMoves]

@[simp] theorem closeFrame_bound (s : State) : (closeFrame s).frame.boundary = s.frame.boundary := by
  simp [closeFrame, Frame.quietFrame]

@[simp] theorem freezeLate_bound (s : State) : (freezeLate s).frame.boundary = s.frame.boundary := by
  unfold freezeLate
  dsimp only
  split
  · rw [State.modLedger_frame, planFor_bound _ _ (by simp), ackAtFreeze_bound]
  · rfl

end Sys2Proof.Machine
end

section
-- One declaration after another: the whole text is compiled as one file, within a limit on memory.
set_option Elab.async false
/-!
The plan over a frame boundary and over a freeze (R29, R267): the boundary uses it up, a freeze leaves the one in force.
-/

namespace Sys2Proof.Machine

/-! ### What leaves the plans as they are -/

@[simp] theorem foldl_plan {α : Type} (F : State → α → State) (l : List α) (s : State)
    (h : ∀ s x, (F s x).plan = s.plan) : (l.foldl F s).plan = s.plan :=
  foldl_apply_eq h l s

@[simp] theorem eachPort_plan (F : PortId → State → State) (s : State) (h : ∀ p s, (F p s).plan = s.plan) :
    (eachPort F s).plan = s.plan :=
  foldl_plan _ _ _ fun s p => h p s

@[simp] theorem overInputs_plan (F : PortId → Fin 2 → State → State) (s : State)
    (h : ∀ p i s, (F p i s).plan = s.plan) : (overInputs F s).plan = s.plan := by
  unfold overInputs
  exact foldl_plan _ _ _ fun s x => h x.1 x.2 s

@[simp] theorem ite_plan {p : Prop} [Decidable p] (s t : State) :
    (if p then s else t).plan = if p then s.plan else t.plan := by split <;> rfl

@[simp] theorem deferralNotice_plan (p : PortId) (kind cause : Nat) (s : State) :
    (deferralNotice p kind cause s).plan = s.plan := by simp [deferralNotice]

@[simp] theorem gauzeDiscardFor_plan (k : Nat) (p : PortId) (s : State) :
    (gauzeDiscardFor k p s).plan = s.plan := by simp [gauzeDiscardFor]

@[simp] theorem gauzeDiscard_plan (p : PortId) (s : State) :
    (gauzeDiscard p s).plan = s.plan := by simp [gauzeDiscard]

@[simp] theorem changeRange_plan (p : PortId) (i : Fin 2) (r : Fin 8) (s : State) :
    (changeRange p i r s).plan = s.plan := by simp [changeRange]

@[simp] theorem ceilingNotice_plan (p : PortId) (i : Fin 2) (s : State) :
    (ceilingNotice p i s).plan = s.plan := by simp [ceilingNotice]

@[simp] theorem takeStep_plan (p : PortId) (i : Fin 2) (s : State) :
    (takeStep p i s).plan = s.plan := by simp [takeStep]

@[simp] theorem openInput_plan (p : PortId) (i : Fin 2) (w : Win) (s : State) :
    (openInput p i w s).plan = s.plan := by simp [openInput]

@[simp] theorem openWindows_plan (s : State) : (openWindows s).plan = s.plan := by
  unfold openWindows
  split
  · refine overInputs_plan _ _ fun p i s => ?_
    split
    · split <;> simp
    · rfl
  · rfl

@[simp] theorem startTraining_plan (s : State) : (startTraining s).plan = s.plan := by simp [startTraining]

@[simp] theorem drive_plan (p : PortId) (s : State) : (drive p s).plan = s.plan := by simp [drive]

@[simp] theorem countCut_plan (p : PortId) (s : State) : (countCut p s).plan = s.plan := by
  unfold countCut
  dsimp only
  split <;> simp

@[simp] theorem beginDue_plan (p : PortId) (s : State) :
    (beginDue p s).plan = s.plan := by
  unfold beginDue
  dsimp only
  split <;> simp

@[simp] theorem firstStep_plan (p : PortId) (s : State) : (firstStep p s).plan = s.plan := by simp [firstStep]

@[simp] theorem gasBoundary_plan (ran : Bool) (s : State) : (gasBoundary ran s).plan = s.plan := by simp [gasBoundary]

@[simp] theorem tempsBoundary_plan (s : State) : (tempsBoundary s).plan = s.plan := by simp [tempsBoundary]

@[simp] theorem unguardedNotice_plan (kind mask : Nat) (s : State) :
    (unguardedNotice kind mask s).plan = s.plan := by simp [unguardedNotice]

@[simp] theorem setUnguarded_plan (mask : BitVec 16) (s : State) :
    (setUnguarded mask s).plan = s.plan := by simp [setUnguarded]

@[simp] theorem takeRanges_plan (s : State) : (takeRanges s).plan = s.plan := by simp [takeRanges]

@[simp] theorem withholdGauze_plan (s : State) : (withholdGauze s).plan = s.plan := by simp [withholdGauze]

@[simp] theorem setTherm_plan (new : Fin 5) (cause : Nat) (s : State) :
    (setTherm new cause s).plan = s.plan := by simp [setTherm]

@[simp] theorem thermUpdate_plan (cause : Nat) (s : State) :
    (thermUpdate cause s).plan = s.plan := by simp [thermUpdate]

@[simp] theorem effectAtFrame_plan (w : Wait) (n : W32) (s : State) :
    (effectAtFrame w n s).plan = s.plan := by simp [effectAtFrame]

@[simp] theorem applyRank_plan (p : List Byte) (s : State) : (applyRank p s).plan = s.plan := by simp [applyRank]

@[simp] theorem applyGrant_plan (p : List Byte) (s : State) : (applyGrant p s).plan = s.plan := by simp [applyGrant]

@[simp] theorem applyGrantOp_plan (op : W16) (p : List Byte) (s : State) :
    (applyGrantOp op p s).plan = s.plan := by
  unfold applyGrantOp
  split <;> simp

@[simp] theorem grantQueued_plan (n : SlotId) (s : State) : (grantQueued n s).plan = s.plan := by simp [grantQueued]

@[simp] theorem grantsAtFreeze_plan (n : W32) (s : State) :
    (grantsAtFreeze n s).plan = s.plan := by simp [grantsAtFreeze]

@[simp] theorem portDeferrals_plan (l : List (Item × Nat × Bool)) (p : PortId) (s : State) :
    (portDeferrals l p s).plan = s.plan := by
  unfold portDeferrals
  split <;> simp

@[simp] theorem reserveFrame_plan (used : Bool) (s : State) :
    (reserveFrame used s).plan = s.plan := by simp [reserveFrame]

@[simp] theorem keepRanges_plan (pv : State) (s : State) : (keepRanges pv s).plan = s.plan := by simp [keepRanges]

/-! ### FRAME_BOUNDARY -/

/-- The boundary uses the next plan up, and no freeze is on record for the frame it begins. -/
theorem takePlan_used (s : State) : (takePlan s).plan.next = none ∧ (takePlan s).plan.frozenAt = none := by
  unfold takePlan
  extract_lets old new c u v
  have hv : v.plan = u.plan := setUnguarded_plan ..
  have hu : u.plan.next = none ∧ u.plan.frozenAt = none := ⟨rfl, rfl⟩
  rw [← hv] at hu
  clear_value u v new
  cases new with
  | none => exact hu
  | some b =>
    dsimp only
    rw [withholdGauze_plan, takeRanges_plan]
    split
    all_goals
      split <;> simp [hu]

theorem newFrame_plan_used (s : State) : (newFrame s).plan.next = none ∧ (newFrame s).plan.frozenAt = none := by
  unfold newFrame
  extract_lets ran a b c d
  have hd : d.plan = c.plan := by simp [d]
  have hc : c.plan.next = none ∧ c.plan.frozenAt = none := by
    unfold c
    exact takePlan_used _
  clear_value c d
  rw [openWindows_plan, startTraining_plan, eachPort_plan _ _ firstStep_plan, hd]
  exact hc

theorem newFrame_boundary (s : State) : (newFrame s).frame.boundary = false := by
  unfold newFrame
  extract_lets ran a b c d
  have ha : a.frame.boundary = false := rfl
  have hb : b.frame.boundary = a.frame.boundary := by
    simp only [b]
    split <;> simp
  have hc : c.frame.boundary = b.frame.boundary := by simp [c]
  have hd : d.frame.boundary = c.frame.boundary := by simp [d]
  clear_value a b c d
  rw [openWindows_bound, startTraining_bound, eachPort_bound _ _ firstStep_bound, hd, hc, hb, ha]

/-! ### PLAN_FREEZE -/

@[simp] theorem ackAtFreeze_plan (n : W32) (s : State) : (ackAtFreeze n s).2.plan = s.plan := by simp [ackAtFreeze]

theorem freeze_cur (ended : Bool) (pv s : State) : (freeze ended pv s).plan.cur = s.plan.cur := by
  unfold freeze
  simp

theorem planFor_cur (ended : Bool) (pv : State) {s bare : State} (h : s.plan = bare.plan) :
    (planFor ended pv s bare).plan.cur = bare.plan.cur := by
  unfold planFor
  split
  · rw [freeze_cur, h]
  · rfl

/-- A freeze that is due is on record at LT, and the plan in force is the one it was. -/
theorem execPlanFreeze_due {s : State} (hrun : s.reeveActive = true) (hstarted : s.frame.started = true)
    (htick : s.frame.tick = 608) (hfrozen : s.plan.frozenAt = none) :
    ∃ t, exec .planFreeze s = .next t ∧ t.plan.frozenAt = some s.core.lt ∧ t.plan.cur = s.plan.cur ∧
      t.frame.number = s.frame.number ∧ t.frame.tick = 608 := by
  have hdue : (s.reeveActive && s.frame.started && s.frame.tick == 608 && s.plan.frozenAt.isNone) = true := by
    simp [hrun, hstarted, htick, hfrozen]
  obtain ⟨u, hu, hcur⟩ : ∃ u : State,
      exec .planFreeze s = .next (u.modPlan fun x => { x with frozenAt := some u.core.lt }) ∧
      u.plan.cur = s.plan.cur :=
    ⟨_, congrArg Host.Outcome.next (if_pos hdue), by
      rw [planFor_cur _ _ (grantsAtFreeze_plan ..), ackAtFreeze_plan]⟩
  have hcalm := execPlanFreeze_calm hu
  exact ⟨_, hu, congrArg some hcalm.lt, hcur, hcalm.number, hcalm.tick.trans htick⟩

end Sys2Proof.Machine
end

section
-- One declaration after another: the whole text is compiled as one file, within a limit on memory.
set_option Elab.async false
/-!
What a TICK outside reset leaves (R35, R343, R406): up to the local time it takes in what rang late, from there on it
samples, and what it samples leaves the mailboxes, the supply it took in and the device state as they are.
-/

namespace Sys2Proof.Machine

/-! ### What the sampling of a tick leaves as it is -/

/-- What a tick has been given before it samples: the device state, the supply, whether the reeve runs, FAULT_N, the
mailboxes and whether a boundary is due. -/
def State.given (s : State) : Dev × Nat × Nat × Bool × Bool × Mbox × Bool :=
  (s.core.dev, s.core.vddMv, s.core.iddUa, s.core.reeveRuns, s.pins.faultN, s.mbox, s.frame.boundary)

@[simp] theorem modPlan_given (f : PlanSt → PlanSt) (s : State) : (s.modPlan f).given = s.given := rfl
@[simp] theorem modPorts_given (f : Vector Port 16 → Vector Port 16) (s : State) : (s.modPorts f).given = s.given :=
  rfl
@[simp] theorem modHeat_given (f : Vector Heater 16 → Vector Heater 16) (s : State) : (s.modHeat f).given = s.given :=
  rfl
@[simp] theorem modGauze_given (f : Vector Gauze 16 → Vector Gauze 16) (s : State) : (s.modGauze f).given = s.given :=
  rfl
@[simp] theorem modSeq_given (f : Seq → Seq) (s : State) : (s.modSeq f).given = s.given := rfl
@[simp] theorem modLanes_given (f : Vector Lane 64 → Vector Lane 64) (s : State) : (s.modLanes f).given = s.given :=
  rfl
@[simp] theorem modGas_given (f : Gas → Gas) (s : State) : (s.modGas f).given = s.given := rfl
@[simp] theorem modCal_given (f : Cal → Cal) (s : State) : (s.modCal f).given = s.given := rfl
@[simp] theorem modLedger_given (f : Ledger → Ledger) (s : State) : (s.modLedger f).given = s.given := rfl
@[simp] theorem modTherm_given (f : Therm → Therm) (s : State) : (s.modTherm f).given = s.given := rfl
@[simp] theorem modRings_given (f : Rings → Rings) (s : State) : (s.modRings f).given = s.given := rfl
@[simp] theorem modBus_given (f : Bus → Bus) (s : State) : (s.modBus f).given = s.given := rfl
@[simp] theorem modTime_given (f : Time → Time) (s : State) : (s.modTime f).given = s.given := rfl
@[simp] theorem modFaults_given (f : Faults → Faults) (s : State) : (s.modFaults f).given = s.given := rfl
@[simp] theorem modBox_given (f : Box → Box) (s : State) : (s.modBox f).given = s.given := rfl
@[simp] theorem modPort_given (p : PortId) (f : Port → Port) (s : State) : (s.modPort p f).given = s.given := rfl
@[simp] theorem modGauzeAt_given (p : PortId) (f : Gauze → Gauze) (s : State) : (s.modGauzeAt p f).given = s.given :=
  rfl
@[simp] theorem modHeater_given (p : PortId) (f : Heater → Heater) (s : State) : (s.modHeater p f).given = s.given :=
  rfl
@[simp] theorem modInput_given (p : PortId) (i : Fin 2) (f : Input → Input) (s : State) :
    (s.modInput p i f).given = s.given := rfl
@[simp] theorem drawFree_given (s : State) : s.drawFree.given = s.given := rfl

@[simp] theorem foldl_given {α : Type} (F : State → α → State) (l : List α) (s : State)
    (h : ∀ s x, (F s x).given = s.given) : (l.foldl F s).given = s.given :=
  foldl_apply_eq h l s

@[simp] theorem eachPort_given (F : PortId → State → State) (s : State) (h : ∀ p s, (F p s).given = s.given) :
    (eachPort F s).given = s.given :=
  foldl_given _ _ _ fun s p => h p s

@[simp] theorem overInputs_given (F : PortId → Fin 2 → State → State) (s : State)
    (h : ∀ p i s, (F p i s).given = s.given) : (overInputs F s).given = s.given := by
  unfold overInputs
  exact foldl_given _ _ _ fun s x => h x.1 x.2 s

@[simp] theorem ite_given {p : Prop} [Decidable p] (s t : State) :
    (if p then s else t).given = if p then s.given else t.given := by split <;> rfl


@[simp] theorem notice_given (code : W16) (k : Kind) (args : W64) (s : State) :
    (notice code k args s).given = s.given := by
  simp [State.given]

@[simp] theorem boxRecord_given (type : Byte) (args : W64) (s : State) : (boxRecord type args s).given = s.given := by
  simp [State.given]

@[simp] theorem setTherm_given (new : Fin 5) (cause : Nat) (s : State) :
    (setTherm new cause s).given = s.given := by simp [setTherm]

@[simp] theorem thermUpdate_given (cause : Nat) (s : State) :
    (thermUpdate cause s).given = s.given := by simp [thermUpdate]

@[simp] theorem tickTherm_given (temps : Vector (Option Int) 9) (s : State) :
    (tickTherm temps s).given = s.given := by simp [tickTherm]

@[simp] theorem tickPorts_given (i : TickIn) (s : State) : (tickPorts i s).given = s.given := by simp [tickPorts]

@[simp] theorem drive_given (p : PortId) (s : State) : (drive p s).given = s.given := by simp [drive]

@[simp] theorem tickHeat_given (i : TickIn) (now : W64) (vht : Bool) (s : State) :
    (tickHeat i now vht s).given = s.given := by
  unfold tickHeat
  extract_lets u v
  have hv : v.given = u.given := by
    simp only [v]
    split <;> simp
  exact hv

@[simp] theorem tickFaults_given (i : TickIn) (s : State) : (tickFaults i s).given = s.given := by
  unfold tickFaults
  extract_lets det u v
  have hv : v.given = s.given := by simp [v, u]
  clear_value v
  exact hv

@[simp] theorem compareDigest_given (data : List Byte) (s : State) : (compareDigest data s).given = s.given := by
  unfold compareDigest
  split
  · rfl
  · exact notice_given ..

@[simp] theorem digestLate_given (s : State) :
    (digestLate s).given = s.given := by
  unfold digestLate
  split <;> simp

@[simp] theorem calStagedWrite_given (s : State) : (calStagedWrite s).given = s.given := by simp [calStagedWrite]

@[simp] theorem writeStagedCal_given (s : State) : (writeStagedCal s).given = s.given := by simp [writeStagedCal]

@[simp] theorem startTraining_given (s : State) : (startTraining s).given = s.given := by simp [startTraining]

@[simp] theorem tickSeam_given (s : State) : (tickSeam s).given = s.given := by simp [tickSeam]

@[simp] theorem rollRecords_given (s : State) : (rollRecords s).given = s.given :=
  overInputs_given _ _ fun _ _ _ => rfl

@[simp] theorem gasRoll_given (s : State) : (gasRoll s).given = s.given := by simp [gasRoll]

@[simp] theorem calFrame_given (s : State) : (calFrame s).given = s.given := by simp [calFrame]

@[simp] theorem tickGas_given (s : State) : (tickGas s).given = s.given := by
  unfold tickGas
  dsimp only
  split
  · rfl
  · split
    · split <;> simp
    · split <;> simp

@[simp] theorem breachTick_given (s : State) : (breachTick s).given = s.given := by
  unfold breachTick
  extract_lets t inP u
  have hu : u.given = s.given := by
    unfold u
    split <;> rfl
  clear_value u
  rw [overInputs_given _ _ fun p i s => modInput_given p i _ s, hu]

@[simp] theorem gauzeDiscardFor_given (k : Nat) (p : PortId) (s : State) :
    (gauzeDiscardFor k p s).given = s.given := by simp [gauzeDiscardFor]

@[simp] theorem gauzeDiscard_given (p : PortId) (s : State) :
    (gauzeDiscard p s).given = s.given := by simp [gauzeDiscard]

@[simp] theorem changeRange_given (p : PortId) (i : Fin 2) (r : Fin 8) (s : State) :
    (changeRange p i r s).given = s.given := by simp [changeRange]

@[simp] theorem ceilingNotice_given (p : PortId) (i : Fin 2) (s : State) :
    (ceilingNotice p i s).given = s.given := by simp [ceilingNotice]

@[simp] theorem takeStep_given (p : PortId) (i : Fin 2) (s : State) :
    (takeStep p i s).given = s.given := by simp [takeStep]

@[simp] theorem openInput_given (p : PortId) (i : Fin 2) (w : Win) (s : State) :
    (openInput p i w s).given = s.given := by simp [openInput]

@[simp] theorem openWindows_given (s : State) : (openWindows s).given = s.given := by
  unfold openWindows
  split
  · refine overInputs_given _ _ fun p i s => ?_
    split
    · split <;> simp
    · rfl
  · rfl

@[simp] theorem coverInput_given (p : PortId) (i : Fin 2) (s : State) :
    (coverInput p i s).given = s.given := by simp [coverInput]

@[simp] theorem closeInput_given (p : PortId) (i : Fin 2) (s : State) : (closeInput p i s).given = s.given := by
  unfold closeInput
  extract_lets x lost u v
  have hv : v.given = s.given := by
    simp only [v, u]
    split <;> rfl
  clear_value v
  split
  · exact hv
  · dsimp only
    split
    · exact hv
    · split
      · rw [modInput_given, ite_given]
        split
        · exact hv
        · exact hv
      · exact hv

@[simp] theorem windowsTick_given (quiet : Bool) (s : State) :
    (windowsTick quiet s).given = s.given := by simp [windowsTick]

@[simp] theorem tickRun_given (i : TickIn) (s : State) : (tickRun i s).given = s.given := by
  unfold tickRun
  extract_lets quiet u v
  have hv : v.given = s.given := rfl
  clear_value v
  rw [tickGas_given, windowsTick_given, tickSeam_given, hv]

/-! ### The frame scheduler while BOOT lasts -/

@[simp] theorem setTherm_frame (new : Fin 5) (cause : Nat) (s : State) : (setTherm new cause s).frame = s.frame := by
  obtain ⟨d, w, h⟩ := setTherm_sets new cause s
  rw [h.rest]
  rfl

@[simp] theorem tickTherm_frame (temps : Vector (Option Int) 9) (s : State) : (tickTherm temps s).frame = s.frame := by
  unfold tickTherm
  rw [State.modTherm_frame]
  split
  · exact setTherm_frame ..
  · rfl

theorem eachPort_frame {F : PortId → State → State} (h : ∀ p s, (F p s).frame = s.frame) (s : State) :
    (eachPort F s).frame = s.frame :=
  foldl_apply_eq (fun s p => h p s) _ s

@[simp] theorem tickPorts_frame (i : TickIn) (s : State) : (tickPorts i s).frame = s.frame := by
  unfold tickPorts
  extract_lets u
  have hu : u.frame = s.frame := rfl
  clear_value u
  split
  · refine (eachPort_frame ?_ u).trans hu
    intro p s
    split
    · rfl
    · rfl
  · exact hu

theorem drive_frame (p : PortId) (s : State) : (drive p s).frame = s.frame := rfl

@[simp] theorem tickHeat_frame (i : TickIn) (now : W64) (vht : Bool) (s : State) :
    (tickHeat i now vht s).frame = s.frame := by
  unfold tickHeat
  extract_lets u v
  have hu : u.frame = s.frame := State.modHeat_frame ..
  have hv : v.frame = u.frame := by
    unfold v
    clear v hu
    clear_value u
    split
    · rfl
    · exact eachPort_frame drive_frame u
  clear_value v u
  rw [State.modCore_frame, hv, hu]

@[simp] theorem tickFaults_frame (i : TickIn) (s : State) : (tickFaults i s).frame = s.frame := by
  unfold tickFaults
  extract_lets det u v
  have hv : v.frame = s.frame := by simp [v, u]
  clear_value v
  exact hv

@[simp] theorem digestLate_frame (s : State) : (digestLate s).frame = s.frame := by
  unfold digestLate compareDigest
  split
  · split
    · split
      · rfl
      · exact (notice_tells ..).frame
    · rfl
  · rfl

@[simp] theorem writeStagedCal_frame (s : State) : (writeStagedCal s).frame = s.frame := by
  unfold writeStagedCal calStagedWrite
  split
  · split
    · rfl
    · rfl
  · rfl

/-! ### Doorbells rung late change no fault's report -/

/-- What FAULT_N is to show: whether a source is uncleared and unmasked, and whether one was as the tick began. -/
def State.alert (s : State) : Bool × Bool := (s.faultLow, s.pins.faultFrom)

theorem faultLow_iff (s : State) : s.faultLow = true ↔
    ∃ n : Source, ((s.faults.src[n]'n.isLt).uncleared && !(s.faults.src[n]'n.isLt).masked) = true := by
  unfold State.faultLow
  rw [List.any_eq_true]
  constructor
  · rintro ⟨x, hx, h⟩
    obtain ⟨k, hk, rfl⟩ := Vector.mem_iff_getElem.mp (Vector.mem_toList_iff.mp hx)
    exact ⟨⟨k, hk⟩, h⟩
  · rintro ⟨n, h⟩
    exact ⟨_, Vector.mem_toList_iff.mpr (Vector.getElem_mem n.isLt), h⟩

theorem faultLow_congr {s t : State} (h : t.faults.src = s.faults.src) : t.faultLow = s.faultLow := by
  unfold State.faultLow
  rw [h]

theorem TellOnly.alert {s t : State} (h : TellOnly s t) : t.alert = s.alert := by
  unfold State.alert
  rw [faultLow_congr h.src, h.rest]

@[simp] theorem raiseInjected_alert (n : Source) (s : State) : (raiseInjected n s).alert = s.alert := by
  have hsrc : ∀ k : Source, (((raiseInjected n s).faults.src[k]'k.isLt).uncleared &&
      !((raiseInjected n s).faults.src[k]'k.isLt).masked) =
        ((s.faults.src[k]'k.isLt).uncleared && !(s.faults.src[k]'k.isLt).masked) := by
    intro k
    by_cases h : k = n
    · subst h
      rw [raiseInjected, State.modSource_same]
      rfl
    · rw [raiseInjected, State.modSource_other h]
  have hlow : (raiseInjected n s).faultLow = s.faultLow := by
    rw [Bool.eq_iff_iff, faultLow_iff, faultLow_iff]
    simp only [hsrc]
  unfold State.alert
  rw [hlow]
  rfl

theorem readWords_alert (c : Fin 5) (a : Nat → Bool) (ue ce : Source) (s : State) :
    (readWords c a ue ce s).2.alert = s.alert := by
  unfold readWords
  extract_lets errs real t u
  have ht : t.alert = s.alert := by
    unfold t
    split
    · exact raiseInjected_alert ..
    · rfl
  have hu : u.alert = t.alert := by
    unfold u
    split
    · exact raiseInjected_alert ..
    · rfl
  exact hu.trans ht

theorem mboxDetect_alert (n : SlotId) (s : State) : (mboxDetect n s).alert = s.alert := by
  have hread := readWords_alert 4 (· / 16 == n.val) 48 53 s
  unfold mboxDetect
  dsimp only
  split
  · exact hread
  · exact hread

theorem dispatchSlot_tells (n : SlotId) (s : State) : TellOnly s (dispatchSlot n s) := by
  have hrunning : TellOnly s (s.modSlot n fun x => { x with st := .running }) := modMbox_tells ..
  unfold dispatchSlot
  dsimp only
  split
  · exact hrunning.trans (post_tells ..)
  · split
    · exact hrunning.trans (post_tells ..)
    · exact hrunning

theorem atDoorbell_alert (n : SlotId) (s : State) : (atDoorbell n s).alert = s.alert := by
  unfold atDoorbell
  dsimp only
  split
  · rfl
  · split
    · rfl
    · split
      · rfl
      · rfl

theorem doorbell_alert (n : SlotId) (s : State) : (doorbell n s).alert = s.alert := by
  unfold doorbell
  dsimp only
  split
  · split
    · exact (dispatchSlot_tells ..).alert.trans (mboxDetect_alert ..)
    · exact (atDoorbell_alert ..).trans (mboxDetect_alert ..)
  · rfl

theorem dbell_alert (v : Byte) (s : State) : (dbell v s).alert = s.alert := by
  refine foldl_apply_eq ?_ _ s
  intro s n
  split
  · exact doorbell_alert ..
  · rfl

theorem ringLate_alert (s : State) : (ringLate s).alert = s.alert := by
  unfold ringLate ring
  split
  · rfl
  · dsimp only
    split
    · rfl
    · exact dbell_alert ..

theorem ringLate_bell (s : State) : BellOnly s (ringLate s) := by
  unfold ringLate
  split
  · rfl
  · exact (ring_bell 0 s).trans rfl

/-! ### Up to the local time of the tick -/

/-- What the tick now over leaves to be noted touches ports and gauzes alone. -/
def NoteOnly (s t : State) : Prop := t = { s with ports := t.ports, gauze := t.gauze }

theorem NoteOnly.trans {a b c : State} (h : NoteOnly a b) (k : NoteOnly b c) : NoteOnly a c :=
  Eq.trans k (by rw [h])

theorem eachPort_notes {F : PortId → State → State} (h : ∀ p s, NoteOnly s (F p s)) (s : State) :
    NoteOnly s (eachPort F s) := by
  have hfold : ∀ (l : List PortId) (s : State), NoteOnly s (l.foldl (fun s p => F p s) s) := by
    intro l
    induction l with
    | nil => exact fun _ => rfl
    | cons p l ih => exact fun s => (h p s).trans (ih _)
  exact hfold _ s

theorem notePort_notes (p : PortId) (s : State) : NoteOnly s (notePort p s) := by
  unfold notePort
  dsimp only
  split
  · split
    · rfl
    · rfl
  · split
    · rfl
    · rfl

theorem gauzeDiscard_notes (p : PortId) (s : State) : NoteOnly s (gauzeDiscard p s) := by
  unfold gauzeDiscard gauzeDiscardFor
  dsimp only
  split
  · rfl
  · split
    · rfl
    · rfl

theorem tickGauze_notes (s : State) : NoteOnly s (tickGauze s) := by
  refine eachPort_notes ?_ s
  intro p s
  split
  · exact gauzeDiscard_notes ..
  · rfl

end Sys2Proof.Machine
end

section
-- One declaration after another: the whole text is compiled as one file, within a limit on memory.
set_option Elab.async false
/-!
TICK, FRAME_BOUNDARY and PLAN_FREEZE (R29, R35, R267): the counters they move.
-/

namespace Sys2Proof.Machine

/-! ### A tick up to its sampling -/

theorem tickEntered_notes (s : State) : NoteOnly (ringLate s) (tickGauze (eachPort notePort (ringLate s))) :=
  (eachPort_notes notePort_notes _).trans (tickGauze_notes _)

theorem NoteOnly.core {s t : State} (h : NoteOnly s t) : t.core = s.core := by rw [h]
theorem NoteOnly.pins {s t : State} (h : NoteOnly s t) : t.pins = s.pins := by rw [h]
theorem NoteOnly.frame {s t : State} (h : NoteOnly s t) : t.frame = s.frame := by rw [h]
theorem NoteOnly.mbox {s t : State} (h : NoteOnly s t) : t.mbox = s.mbox := by rw [h]
theorem NoteOnly.faults {s t : State} (h : NoteOnly s t) : t.faults = s.faults := by rw [h]
theorem BellOnly.frame {s t : State} (h : BellOnly s t) : t.frame = s.frame := by rw [h]

theorem NoteOnly.alert {s t : State} (h : NoteOnly s t) : t.alert = s.alert := by
  unfold State.alert
  rw [faultLow_congr (congrArg Faults.src h.faults), h.pins]

theorem tickEntered_core (i : TickIn) (s : State) : (tickEntered i s).core.dev = s.core.dev ∧
    (tickEntered i s).core.vddMv = i.vddMv ∧ (tickEntered i s).core.iddUa = i.iddUa ∧
    (tickEntered i s).core.reeveRuns = i.reeveRuns := by
  have hcore := (tickEntered_notes s).core.trans (ringLate_bell s).core
  unfold tickEntered
  generalize tickGauze (eachPort notePort (ringLate s)) = g at hcore ⊢
  have hdev : g.core.dev = s.core.dev := congrArg Core.dev hcore
  exact ⟨hdev, rfl, rfl, rfl⟩

theorem tickEntered_faultN (i : TickIn) (s : State) :
    (tickEntered i s).pins.faultN = (s.pins.faultFrom || s.faultLow) := by
  have halert := (tickEntered_notes s).alert.trans (ringLate_alert s)
  unfold tickEntered
  generalize tickGauze (eachPort notePort (ringLate s)) = g at halert ⊢
  unfold State.alert at halert
  obtain ⟨hlow, hfrom⟩ := Prod.mk.inj halert
  exact congrArg₂ or hfrom hlow

theorem tickClock_tickPins_kept (i : TickIn) (s : State) : (tickClock i (tickPins s)).frame = s.frame ∧
    (tickClock i (tickPins s)).mbox = s.mbox := ⟨rfl, rfl⟩

theorem tickEntered_frame (i : TickIn) (s : State) : (tickEntered i s).frame = s.frame :=
  (tickClock_tickPins_kept i _).1.trans ((tickEntered_notes s).frame.trans (ringLate_bell s).frame)

theorem ringLate_mbox {s : State} (h : s.mbox.rung = 0) :
    (ringLate s).mbox = { s.mbox with rung := s.mbox.rungNext, rungNext := 0 } := by
  unfold ringLate
  rw [if_pos (Or.inl h), State.modMbox_mbox, h]
  simp

theorem tickEntered_mbox {i : TickIn} {s : State} (h : s.mbox.rung = 0) :
    (tickEntered i s).mbox = { s.mbox with rung := s.mbox.rungNext, rungNext := 0 } :=
  (tickClock_tickPins_kept i _).2.trans ((tickEntered_notes s).mbox.trans (ringLate_mbox h))

theorem postOwed_tells (s : State) : TellOnly s (postOwed s) := by
  unfold postOwed
  split
  · exact (modMbox_tells ..).trans (.foldl (fun _ _ => postNow_tells ..) _ _)
  · exact .refl s

theorem postOwed_mbox {s : State} (h : s.mbox.owed = []) : (postOwed s).mbox = s.mbox := by
  unfold postOwed
  split
  · rw [h, List.foldl_nil, State.modMbox_mbox, ← h]
  · rfl

theorem TellOnly.pins {s t : State} (h : TellOnly s t) : t.pins = s.pins := by rw [h.rest]

theorem closeFigures_frame (s : State) : (closeFigures s).frame = s.frame := rfl

theorem closeFigures_kept (s : State) : (closeFigures s).core = s.core ∧ (closeFigures s).pins = s.pins ∧
    (closeFigures s).mbox = s.mbox := ⟨rfl, rfl, rfl⟩

theorem tickFrame_frame (fsync : Bool) (s : State) : (tickFrame fsync s).frame = s.frame.advance fsync := by
  unfold tickFrame
  dsimp only
  split
  · exact closeFigures_frame _
  · rfl

theorem tickFrame_kept (fsync : Bool) (s : State) : (tickFrame fsync s).core = s.core ∧
    (tickFrame fsync s).pins = s.pins ∧ (tickFrame fsync s).mbox = s.mbox := by
  unfold tickFrame
  dsimp only
  split
  · exact closeFigures_kept _
  · exact ⟨rfl, rfl, rfl⟩

theorem tickFramed_kept (i : TickIn) (s : State) : (tickFramed i s).core = (tickEntered i s).core ∧
    (tickFramed i s).pins = (tickEntered i s).pins ∧ (tickFramed i s).mbox = (postOwed (tickEntered i s)).mbox := by
  have htells := postOwed_tells (tickEntered i s)
  unfold tickFramed
  extract_lets t
  have ht : t.core = (tickEntered i s).core ∧ t.pins = (tickEntered i s).pins ∧
      t.mbox = (postOwed (tickEntered i s)).mbox := ⟨htells.core, htells.pins, rfl⟩
  clear_value t
  split
  · obtain ⟨hcore, hpins, hmbox⟩ := tickFrame_kept i.fsync t
    rwa [hcore, hpins, hmbox]
  · exact ht

theorem tickFramed_frame (i : TickIn) (s : State) : (tickFramed i s).frame =
    if s.core.dev = .boot then s.frame else s.frame.advance i.fsync := by
  have hframe : (postOwed (tickEntered i s)).frame = s.frame :=
    (postOwed_tells _).frame.trans (tickEntered_frame i s)
  have hdev : (ringLate s).core.dev = s.core.dev := congrArg Core.dev (ringLate_bell s).core
  unfold tickFramed
  extract_lets t
  have ht : t.frame = s.frame := hframe
  clear_value t
  rw [hdev]
  by_cases h : s.core.dev = .boot
  · rw [if_pos h, if_neg (by simp [h])]
    exact ht
  · rw [if_neg h, if_pos (by simpa using h), tickFrame_frame, ht]

/-! ### The sampling, and the reeve's turn with no action owed -/

theorem commitHeld_tells (s : State) : TellOnly s (commitHeld s) := by
  unfold commitHeld
  split
  · exact .refl s
  · exact completeWhere_tells ..

theorem commitHeld_none {s : State} (h : ∀ x ∈ s.mbox.pend, x.wait ≠ .boltCommit) : commitHeld s = s := by
  have hnone : s.mbox.pend.filter (·.wait == .boltCommit) = [] :=
    List.filter_eq_nil_iff.mpr fun x hx => by simpa using h x hx
  unfold commitHeld completeWhere
  rw [hnone]
  exact ite_self s

/-- The sampling of a tick, before a BOLT.COMMIT whose mark is held is refused. -/
def sampledTick (i : TickIn) (s : State) : State :=
  let t := tickHeat i (ringLate s).core.lt (ringLate s).vhtOn (tickPorts i (tickTherm i.temps (tickFramed i s)))
  let t := tickFaults i (if (ringLate s).core.dev != .boot then tickRun i t else t)
  t.modRings fun r => { r with gapDue := r.sgap.isSome && decide (r.sample.length < 8192) }

theorem tickSampled_eq (i : TickIn) (s : State) : tickSampled i s = commitHeld (sampledTick i s) := rfl

theorem sampledTick_given (i : TickIn) (s : State) : (sampledTick i s).given = (tickFramed i s).given := by
  unfold sampledTick
  dsimp only
  rw [modRings_given, tickFaults_given, ite_given, tickRun_given, ite_self, tickHeat_given, tickPorts_given,
    tickTherm_given]

theorem sampledTick_frame {i : TickIn} {s : State} (h : s.core.dev = .boot) : (sampledTick i s).frame = s.frame := by
  have hdev : (ringLate s).core.dev = .boot := (congrArg Core.dev (ringLate_bell s).core).trans h
  unfold sampledTick
  dsimp only
  rw [State.modRings_frame, tickFaults_frame, if_neg (by simp [hdev]), tickHeat_frame, tickPorts_frame, tickTherm_frame,
    tickFramed_frame, if_pos h]

/-- With every reaction's action taken the reeve has none to take. -/
theorem serveReactions_served {s : State} (h : ∀ f, s.faults.unserved f = false) : serveReactions s = s := by
  unfold serveReactions
  split
  · refine List.foldl_fixed' (fun f => ?_) _
    have hf : ((s.awaits f).any fun r => !r.acted) = false := h f
    refine if_neg ?_
    cases hr : s.awaits f with
    | none => exact Bool.false_ne_true
    | some r =>
      rw [hr] at hf
      simp only [Option.any_some] at hf ⊢
      simp [hf]
  · rfl

theorem unserved_of_acted {s : State}
    (h : ∀ (f : Source) (r : Reaction), (s.faults.src[f]'f.isLt).reaction = some r → r.acted = true) (f : Source) :
    s.faults.unserved f = false := by
  unfold Faults.unserved FSource.unserved
  cases hr : (s.faults.src[f]'f.isLt).reaction with
  | none => rfl
  | some r => simp [h f r hr]

/-- With no reaction's action owed, a tick leaves of what it was given what its sampling leaves. -/
theorem tickPowered_given {i : TickIn} {s : State} (h : ∀ f, s.faults.unserved f = false) :
    (tickPowered i s).given = (tickSampled i s).given ∧ (tickPowered i s).frame = (tickSampled i s).frame := by
  rw [tickPowered_eq, serveReactions_served (by rwa [tickSampled_unserved])]
  exact ⟨by rw [writeStagedCal_given, digestLate_given], by rw [writeStagedCal_frame, digestLate_frame]⟩

theorem tickSampled_frame_boot {i : TickIn} {s : State} (h : s.core.dev = .boot) : (tickSampled i s).frame = s.frame :=
  (commitHeld_tells _).frame.trans (sampledTick_frame h)

/-- The tick's core and pins: LT apart, what the tick brought and what the tick over left. -/
theorem tickPowered_core {i : TickIn} {s : State} (h : ∀ f, s.faults.unserved f = false) :
    (tickPowered i s).core.dev = s.core.dev ∧ (tickPowered i s).core.vddMv = i.vddMv ∧
      (tickPowered i s).core.iddUa = i.iddUa ∧ (tickPowered i s).core.reeveRuns = i.reeveRuns ∧
      (tickPowered i s).pins.faultN = (s.pins.faultFrom || s.faultLow) := by
  obtain ⟨hdev, hvdd, hidd, hruns⟩ := tickEntered_core i s
  obtain ⟨hcore, hpins, -⟩ := tickFramed_kept i s
  have htells : TellOnly (sampledTick i s) (tickSampled i s) := commitHeld_tells _
  have hgiven := (tickPowered_given (i := i) h).1
  have hsampled := sampledTick_given i s
  generalize tickPowered i s = t at hgiven ⊢
  generalize tickSampled i s = u at hgiven htells
  simp only [State.given, Prod.mk.injEq] at hgiven hsampled
  obtain ⟨gdev, gvdd, gidd, gruns, gfault, -, -⟩ := hgiven
  obtain ⟨kdev, kvdd, kidd, kruns, kfault, -, -⟩ := hsampled
  rw [gdev, gvdd, gidd, gruns, gfault, htells.core, htells.pins, kdev, kvdd, kidd, kruns, kfault, hcore, hpins, hdev,
    hvdd, hidd, hruns, tickEntered_faultN]
  exact ⟨rfl, rfl, rfl, rfl, rfl⟩

/-- With nothing that rings late, is owed or waits for its mark, the mailboxes stay but for the tick's doorbells. -/
theorem tickPowered_mbox {i : TickIn} {s : State} (h : ∀ f, s.faults.unserved f = false) (hrung : s.mbox.rung = 0)
    (howed : s.mbox.owed = []) (hpend : ∀ x ∈ s.mbox.pend, x.wait ≠ .boltCommit) :
    (tickPowered i s).mbox = { s.mbox with rung := s.mbox.rungNext, rungNext := 0 } := by
  have hentered := tickEntered_mbox (i := i) hrung
  have hposted : (postOwed (tickEntered i s)).mbox = (tickEntered i s).mbox := postOwed_mbox (by rw [hentered, howed])
  have hframed := ((tickFramed_kept i s).2.2.trans hposted).trans hentered
  have hsampled := sampledTick_given i s
  simp only [State.given, Prod.mk.injEq] at hsampled
  obtain ⟨-, -, -, -, -, hmbox, -⟩ := hsampled
  have hcommit : tickSampled i s = sampledTick i s := by
    rw [tickSampled_eq]
    refine commitHeld_none ?_
    rw [hmbox, hframed]
    exact hpend
  have hgiven := (tickPowered_given (i := i) h).1
  simp only [State.given, Prod.mk.injEq] at hgiven
  obtain ⟨-, -, -, -, -, hkept, -⟩ := hgiven
  rw [hkept, hcommit, hmbox, hframed]

/-- After BOOT the scheduler moves by one tick. -/
theorem tickPowered_advance {i : TickIn} {s : State} (h : ∀ f, s.faults.unserved f = false)
    (hboot : s.core.dev ≠ .boot) :
    (tickPowered i s).frame.number = (s.frame.advance i.fsync).number ∧
      (tickPowered i s).frame.tick = (s.frame.advance i.fsync).tick ∧
      (tickPowered i s).frame.boundary = (s.frame.advance i.fsync).boundary := by
  have hframed := tickFramed_frame i s
  rw [if_neg hboot] at hframed
  have hcalm := tickSampled_calm (i := i) (s := s)
  have hframe := (tickPowered_given (i := i) h).2
  have hsampled := sampledTick_given i s
  simp only [State.given, Prod.mk.injEq] at hsampled
  obtain ⟨-, -, -, -, -, -, hbound⟩ := hsampled
  have htells : TellOnly (sampledTick i s) (tickSampled i s) := commitHeld_tells _
  rw [hframe, hcalm.number, hcalm.tick, htells.frame, hbound, hframed]
  exact ⟨rfl, rfl, rfl⟩

/-- With RESET_N low LT and the detectors move. -/
theorem tickReset_kept (i : TickIn) (s : State) : (tickReset i s).core.lt = s.core.lt + 1 ∧
    (tickReset i s).core.dev = s.core.dev ∧ (tickReset i s).frame = s.frame ∧ (tickReset i s).rings = s.rings ∧
    (tickReset i s).ports = s.ports ∧
    (tickReset i s).mbox = s.mbox := ⟨rfl, rfl, rfl, rfl, rfl, rfl⟩

/-! ### The scheduler by the bolt -/

theorem Frame.watch_keeps (edge : Bool) (f : Frame) : ((f.watch edge).clockWatch edge).tick = f.tick ∧
    ((f.watch edge).clockWatch edge).number = f.number ∧ ((f.watch edge).clockWatch edge).boundary = f.boundary ∧
    ((f.watch edge).clockWatch edge).started = f.started ∧ ((f.watch edge).clockWatch edge).src = f.src := by
  have hclock : ∀ g : Frame, (g.clockWatch edge).tick = g.tick ∧ (g.clockWatch edge).number = g.number ∧
      (g.clockWatch edge).boundary = g.boundary ∧ (g.clockWatch edge).started = g.started ∧
      (g.clockWatch edge).src = g.src := by
    intro g
    unfold Frame.clockWatch
    dsimp only
    split
    · exact ⟨rfl, rfl, rfl, rfl, rfl⟩
    · split
      · exact ⟨rfl, rfl, rfl, rfl, rfl⟩
      · split
        · exact ⟨rfl, rfl, rfl, rfl, rfl⟩
        · exact ⟨rfl, rfl, rfl, rfl, rfl⟩
  obtain ⟨htick, hnumber, hboundary, hstarted, hsrc⟩ := hclock (f.watch edge)
  rw [htick, hnumber, hboundary, hstarted, hsrc]
  unfold Frame.watch
  split
  · exact ⟨rfl, rfl, rfl, rfl, rfl⟩
  · exact ⟨rfl, rfl, rfl, rfl, rfl⟩

theorem Frame.ownTick_moves {f : Frame} (h : f.boundary = false) :
    f.ownTick.number = (if 640 ≤ f.tick + 1 then f.number + 1 else f.number) ∧
      f.ownTick.tick = (if 640 ≤ f.tick + 1 then 0 else f.tick + 1) ∧
      f.ownTick.boundary = decide (640 ≤ f.tick + 1) := by
  unfold Frame.ownTick
  by_cases hlast : 640 ≤ f.tick + 1
  · rw [if_pos hlast, if_pos hlast, if_pos hlast, decide_eq_true hlast]
    exact ⟨rfl, rfl, rfl⟩
  · rw [if_neg hlast, if_neg hlast, if_neg hlast, decide_eq_false hlast]
    exact ⟨rfl, rfl, h⟩

theorem Frame.advance_byBolt {f : Frame} (hstarted : f.started = true) (hsrc : f.src = .byBolt) (edge : Bool) :
    (f.advance edge).number = (if 640 ≤ f.tick + 1 then f.number + 1 else f.number) ∧
      (f.advance edge).tick = (if 640 ≤ f.tick + 1 then 0 else f.tick + 1) ∧
      (f.advance edge).boundary = decide (640 ≤ f.tick + 1) := by
  unfold Frame.advance
  extract_lets +onlyGivenNames g w
  obtain ⟨htick, hnumber, hboundary, hwstarted, hwsrc⟩ := Frame.watch_keeps edge g
  change w.tick = f.tick at htick
  change w.number = f.number at hnumber
  change w.boundary = false at hboundary
  change w.started = f.started at hwstarted
  change w.src = f.src at hwsrc
  have hnot : ¬(!w.started) = true := by simp [hwstarted, hstarted]
  have hmoves := Frame.ownTick_moves hboundary
  rw [htick, hnumber] at hmoves
  simp only [if_neg hnot, hwsrc, hsrc]
  exact hmoves

/-! ### The obligation -/

theorem execTick_powered {i : TickIn} {s : State} (hoff : s.core.dev ≠ .off) (hreset : s.core.rstLow = false) :
    exec (.tick i) s = .next (tickPowered i s) :=
  congrArg Host.Outcome.next ((if_neg hoff).trans (if_neg (by simp [hreset])))

theorem execTick_reset {i : TickIn} {s : State} (hoff : s.core.dev ≠ .off) (hreset : s.core.rstLow = true) :
    exec (.tick i) s = .next (tickReset i s) :=
  congrArg Host.Outcome.next ((if_neg hoff).trans (if_pos hreset))

/-- FRAME_BOUNDARY takes a boundary that is due once. -/
theorem execFrameBoundary_due {s : State} (h : s.frame.boundary = true) :
    ∃ t, exec .frameBoundary s = .next t ∧ t.frame.boundary = false ∧ t.frame.number = s.frame.number ∧
      t.frame.tick = s.frame.tick ∧ t.plan.next = none ∧ t.plan.frozenAt = none := by
  have hcalm : Calm s (newFrame s) := newFrame_calm
  exact ⟨newFrame s, congrArg Host.Outcome.next (if_pos h), newFrame_boundary s, hcalm.number, hcalm.tick,
    newFrame_plan_used s⟩

/-- Settles O43: a powered tick takes in what rang late and its input, moves the scheduler, and samples. -/
theorem tickAndBoundary : Obligations.TickAndBoundary := by
  unfold Obligations.TickAndBoundary
  refine ⟨?_, ?_, ?_, ?_, ?_⟩
  · exact fun i s hoff => congrArg Host.Outcome.next (if_pos hoff)
  · exact fun i s hoff hreset => ⟨tickReset i s, execTick_reset hoff hreset, tickReset_kept i s⟩
  · intro i s hoff hreset hacted
    have hserved := unserved_of_acted hacted
    obtain ⟨hdev, hvdd, hidd, hruns, hfault⟩ := tickPowered_core (i := i) hserved
    exact ⟨tickPowered i s, execTick_powered hoff hreset, tickPowered_lt, hdev, hvdd, hidd, hruns, hfault,
      tickPowered_mbox hserved, fun hboot => (tickPowered_given hserved).2.trans (tickSampled_frame_boot hboot),
      tickPowered_advance hserved⟩
  · exact fun f hstarted hsrc edge => Frame.advance_byBolt hstarted hsrc edge
  · exact fun s => ⟨execFrameBoundary_due, fun h =>
      congrArg Host.Outcome.next (if_neg (by simp [h])), execPlanFreeze_due⟩

end Sys2Proof.Machine
end
